-- ==== Sys2Proof/Word.lean ====
section
/-! DEFINITION. The word types and the plainest arithmetic of the ZW-1 model: bytes and 64-bit words, the identifiers of
the block's units (R13, R14), and the sparse table every register file of the model is held in. -/

namespace Sys2Proof

/-- One byte of memory (R5: the block is little-endian, byte-addressed). -/
abbrev Byte := BitVec 8

/-- The 64-bit value every socket carries (R28). -/
abbrev Word := BitVec 64

/-- Core number n, 0 to 10,239 (R13). -/
abbrev CoreId := Fin 10240

/-- Cluster number c, 0 to 159 (R13). -/
abbrev ClusterId := Fin 160

/-- Stack port number p, SP0 to SP7 (R14). -/
abbrev StackId := Fin 8

/-- Link module number m, LM0 to LM15 (R14). -/
abbrev LinkId := Fin 16

/-- Management processor number i, MP0 to MP3 (R352). -/
abbrev MpId := Fin 4

/-- Mailbox number: 0 to 31 host mailboxes, 32 and 33 the I3C mailboxes (R371). -/
abbrev MailboxId := Fin 34

/-- Task number on a core, 0 to 63 (R255). -/
abbrev TaskId := Fin 64

/-- A table with a default: the entries that differ from the default, at rising keys. Register files, tiles, caches and
the block's 10,240 cores are held this way, so that two machines that agree are equal data. -/
abbrev Tab (α : Type) := List (Nat × α)

end Sys2Proof
end

