-- ==== Sys2Proof/Syntax.lean ====
section
/-! DEFINITION. The commands of the ZW-1 block: one constructor of `Instr` for each row of spec/opcode_table.json, with
the operands the row's step takes from outside it, and the small data types those operands are made of. -/

namespace Sys2Proof

/-- An accumulate engine: the one of bank n, or the one of stack port p (R184). -/
inductive EngineId where
  | bank (n : CoreId)
  | port (p : StackId)
  deriving DecidableEq, Repr

/-- The causes of a drain, in the order of the CAUSE bits of DRSTAT (Table 20-4, R348). -/
inductive DrainCause where
  | drain | permanent | lockup | tagLost | portFail | meshHdr | poisonWr | history
  deriving DecidableEq, Repr

/-- Who makes a control-space access: the host through a host-role module (R314), a task of a core (R278), or the keeper
of a core (R274). -/
inductive Requester where
  | host
  | task (core : CoreId)
  | keeper (core : CoreId)
  deriving DecidableEq, Repr

/-- One message of the link layer: the fields of the header (Table 13-4) and the payload bytes (R303). -/
structure Msg where
  type : BitVec 4
  ch : BitVec 3
  strict : Bool
  seq : BitVec 24
  srcblk : BitVec 10
  src : BitVec 14
  rpl : Bool
  rlast : Bool
  offset : BitVec 41
  dstblk : BitVec 10
  len : BitVec 9
  af : BitVec 4
  rank : BitVec 16
  size : BitVec 16
  rtag : BitVec 16
  job : BitVec 12
  arg : BitVec 64
  payload : List Byte
  /-- The adapter reports the message uncorrectable (R312). -/
  corrupt : Bool
  /-- A reserved or "0" bit of the header is 1: the fields break Table 13-5 (R304). -/
  badReserved : Bool
  deriving DecidableEq, Repr

/-- What the sensors read over the beat just ended (R359, R360, Table 16-4): block power in W, 344 thermal readings
(signed, 0.25 °C), 184 domain currents (1/64 A), and which stacks report a temperature above 85 °C, bit p for stack p (R324). -/
structure SensorSample where
  power : BitVec 16
  thermal : List (BitVec 16)
  current : List (BitVec 16)
  hotStacks : BitVec 8
  deriving DecidableEq, Repr

/-- The AVSBus commands the block uses (Table 16-5). -/
inductive AvsCmd where
  | voltageWrite (mv : BitVec 16)
  | voltageRead
  | currentRead
  | temperatureRead
  | statusReadClear
  deriving DecidableEq, Repr

/-- One AVSBus frame as it ends on the bus: rail select, command, whether a valid response came, and the value read
(R361). -/
structure AvsFrame where
  rail : BitVec 1
  cmd : AvsCmd
  valid : Bool
  value : BitVec 16
  deriving DecidableEq, Repr

/-- How the training of one stack port ends: not at all, or with a rate code of SPSTAT and the stack's own capacity in
units of 16 GiB (R318, R319, Table 14-5). -/
structure Training where
  ok : Bool
  rate : BitVec 2
  scap : BitVec 4
  deriving DecidableEq, Repr

/-- What the world outside the ports presents to one start-up: the flash as the board controller left it (R390; `none`:
as the block left it), whether the flash gives a valid SFDP (R394), how each stack port trains (R319; one entry per
port), and the rate code at which each link module trains, if it does (R300, R393; one entry per module). -/
structure StartupEnv where
  flash : Option (List (Nat × Byte))
  sfdpOk : Bool
  stackPorts : List Training
  linkRates : List (Option (BitVec 3))
  /-- MP0–MP3: whether the processor has reported ready (R394) -/
  ready : List Bool := [true, true, true, true]
  deriving DecidableEq, Repr

/-- The IEEE 1687 instruments of R416: those that only read, and any instrument that writes. -/
inductive Instrument where
  | pllLock
  | supplyMonitor
  | thermalSensor (i : Nat)
  | startStat
  | writing
  deriving DecidableEq, Repr

/-- The commands of the block, one for each row of the table of operations and events. -/
inductive Instr where
  /-- INSTRUCTION_WORD (R31): A task issues one long move or paired word: guards are evaluated, sources are read, register and operand writes are made, then triggers fire. -/
  | instructionWord (core : CoreId)
  /-- REGISTER_SOCKET_WRITE (R28): A move writes a register or operand socket that has no row of its own, taking effect as the register defines. -/
  | registerSocketWrite (core : CoreId) (sock : BitVec 12) (v : Word)
  /-- READ_WAIT_RESUME (R44): A word waiting on a result port issues in the cycle after its data arrives. -/
  | readWaitResume (core : CoreId)
  /-- TRIGGER_WAIT_RESUME (R45): A word whose trigger waited for its unit issues once the unit can accept it. -/
  | triggerWaitResume (core : CoreId)
  /-- RESULT_DELIVERY (R43): A trigger's delay elapses and its result appears on its result port, with its flag and counter contributions landing. -/
  | resultDelivery (core : CoreId)
  /-- ALU_ADD (R55): alu.add computes o1 + v and sets all four flags. -/
  | aluAdd (core : CoreId) (v : Word)
  /-- ALU_SUB (R55): alu.sub computes o1 − v and sets all four flags. -/
  | aluSub (core : CoreId) (v : Word)
  /-- ALU_ADC (R55): alu.adc computes o1 + v + C and sets the flags. -/
  | aluAdc (core : CoreId) (v : Word)
  /-- ALU_SBC (R55): alu.sbc computes o1 − v − C and sets the flags. -/
  | aluSbc (core : CoreId) (v : Word)
  /-- ALU_AND (R55): alu.and computes the bitwise AND and sets Z and N. -/
  | aluAnd (core : CoreId) (v : Word)
  /-- ALU_OR (R55): alu.or computes the bitwise OR and sets Z and N. -/
  | aluOr (core : CoreId) (v : Word)
  /-- ALU_XOR (R55): alu.xor computes the bitwise XOR and sets Z and N. -/
  | aluXor (core : CoreId) (v : Word)
  /-- ALU_ANDN (R55): alu.andn computes o1 AND NOT v and sets Z and N. -/
  | aluAndn (core : CoreId) (v : Word)
  /-- ALU_SHL (R55): alu.shl shifts o1 left and sets the flags. -/
  | aluShl (core : CoreId) (v : Word)
  /-- ALU_SHR (R55): alu.shr shifts o1 right with zeros and sets the flags. -/
  | aluShr (core : CoreId) (v : Word)
  /-- ALU_SAR (R55): alu.sar shifts o1 right arithmetically and sets the flags. -/
  | aluSar (core : CoreId) (v : Word)
  /-- ALU_ROL (R55): alu.rol rotates o1 left and sets the flags. -/
  | aluRol (core : CoreId) (v : Word)
  /-- ALU_CMP (R55): alu.cmp sets the flags as alu.sub would, without changing alu.res. -/
  | aluCmp (core : CoreId) (v : Word)
  /-- ALU_MIN (R56): alu.min gives the signed minimum of o1 and v. -/
  | aluMin (core : CoreId) (v : Word)
  /-- ALU_MAX (R56): alu.max gives the signed maximum of o1 and v. -/
  | aluMax (core : CoreId) (v : Word)
  /-- ALU_MINU (R56): alu.minu gives the unsigned minimum. -/
  | aluMinu (core : CoreId) (v : Word)
  /-- ALU_MAXU (R56): alu.maxu gives the unsigned maximum. -/
  | aluMaxu (core : CoreId) (v : Word)
  /-- ALU_SEXT (R56): alu.sext sign-extends o1 from the bit named by v. -/
  | aluSext (core : CoreId) (v : Word)
  /-- ALU_MUL (R56): alu.mul gives the low 64 bits of the product on alu.mres after 3 issue cycles. -/
  | aluMul (core : CoreId) (v : Word)
  /-- ALU_MULH (R56): alu.mulh gives the high 64 bits of the signed product. -/
  | aluMulh (core : CoreId) (v : Word)
  /-- ALU_MULHU (R56): alu.mulhu gives the high 64 bits of the unsigned product. -/
  | aluMulhu (core : CoreId) (v : Word)
  /-- ALU_DIV (R57): alu.div starts a signed division on the core's shared divider, result after 20 cycles. -/
  | aluDiv (core : CoreId) (v : Word)
  /-- ALU_DIVU (R57): alu.divu starts an unsigned division. -/
  | aluDivu (core : CoreId) (v : Word)
  /-- ALU_REM (R57): alu.rem starts a signed remainder. -/
  | aluRem (core : CoreId) (v : Word)
  /-- ALU_REMU (R57): alu.remu starts an unsigned remainder. -/
  | aluRemu (core : CoreId) (v : Word)
  /-- LSU_LD8U (R61): lsu.ld8u loads one byte zero-extended onto lsu.res after 4 issue cycles. -/
  | lsuLd8u (core : CoreId) (v : Word)
  /-- LSU_LD8S (R61): lsu.ld8s loads one byte sign-extended. -/
  | lsuLd8s (core : CoreId) (v : Word)
  /-- LSU_LD16U (R61): lsu.ld16u loads two bytes zero-extended. -/
  | lsuLd16u (core : CoreId) (v : Word)
  /-- LSU_LD16S (R61): lsu.ld16s loads two bytes sign-extended. -/
  | lsuLd16s (core : CoreId) (v : Word)
  /-- LSU_LD32U (R61): lsu.ld32u loads four bytes zero-extended. -/
  | lsuLd32u (core : CoreId) (v : Word)
  /-- LSU_LD32S (R61): lsu.ld32s loads four bytes sign-extended. -/
  | lsuLd32s (core : CoreId) (v : Word)
  /-- LSU_LD64 (R61): lsu.ld64 loads eight bytes onto lsu.res after 4 issue cycles. -/
  | lsuLd64 (core : CoreId) (v : Word)
  /-- LSU_ST8 (R61): lsu.st8 stores the low byte of lsu.sdata through the store buffer. -/
  | lsuSt8 (core : CoreId) (v : Word)
  /-- LSU_ST16 (R61): lsu.st16 stores two bytes of lsu.sdata. -/
  | lsuSt16 (core : CoreId) (v : Word)
  /-- LSU_ST32 (R61): lsu.st32 stores four bytes of lsu.sdata. -/
  | lsuSt32 (core : CoreId) (v : Word)
  /-- LSU_ST64 (R61): lsu.st64 stores eight bytes of lsu.sdata. -/
  | lsuSt64 (core : CoreId) (v : Word)
  /-- LSU_AF64 (R61): lsu.af64 sends an FP64 accumulate-write of lsu.sdata to the destination engine. -/
  | lsuAf64 (core : CoreId) (v : Word)
  /-- LSU_AF32 (R61): lsu.af32 sends an FP32 accumulate-write. -/
  | lsuAf32 (core : CoreId) (v : Word)
  /-- LSU_AW16 (R61): lsu.aw16 sends a W16 accumulate-write. -/
  | lsuAw16 (core : CoreId) (v : Word)
  /-- LSU_AI32 (R61): lsu.ai32 sends an INT32 accumulate-write. -/
  | lsuAi32 (core : CoreId) (v : Word)
  /-- LSU_AMAX (R61): lsu.amax sends a maximum accumulate-write in the format selected by lsu.cmpv. -/
  | lsuAmax (core : CoreId) (v : Word)
  /-- LSU_CAS (R61): lsu.cas performs a compare-and-swap at the destination engine and returns the old value. -/
  | lsuCas (core : CoreId) (v : Word)
  /-- LSU_ACQ (R248): lsu.acq waits for earlier loads and orders all later accesses after it. -/
  | lsuAcq (core : CoreId) (v : Word)
  /-- LSU_REL (R247): lsu.rel waits until earlier loads, stores, accumulate-writes and descriptors are done, or reports STORE_ASYNC. -/
  | lsuRel (core : CoreId) (v : Word)
  /-- LSU_PF (R65): lsu.pf prefetches a line into the data cache, or is dropped. -/
  | lsuPf (core : CoreId) (v : Word)
  /-- STORE_PERFORMED (R244): A store-buffer entry leaves the buffer and is performed at cache or memory, or fails. -/
  | storePerformed (core : CoreId) (i : Nat)
  /-- STORE_ASYNC_TIMEOUT (R249): 4 µs after a store failure is detected, the task is reported STORE_ASYNC at its next issue cycle. -/
  | storeAsyncTimeout (core : CoreId) (task : TaskId)
  /-- BIT_SET (R67): bit.set sets bit variable bn. -/
  | bitSet (core : CoreId) (v : Word)
  /-- BIT_CLR (R67): bit.clr clears bit variable bn. -/
  | bitClr (core : CoreId) (v : Word)
  /-- BIT_TGL (R67): bit.tgl inverts bit variable bn. -/
  | bitTgl (core : CoreId) (v : Word)
  /-- BIT_PUT (R67): bit.put sets bn to o1[0]. -/
  | bitPut (core : CoreId) (v : Word)
  /-- BIT_GET (R67): bit.get shows bn on bit.res. -/
  | bitGet (core : CoreId) (v : Word)
  /-- BIT_LD64 (R67): bit.ld64 shows group g on bit.res. -/
  | bitLd64 (core : CoreId) (v : Word)
  /-- BIT_ST64 (R67): bit.st64 writes group g from o1. -/
  | bitSt64 (core : CoreId) (v : Word)
  /-- BIT_WATCH (R71): bit.watch arms or disarms a one-shot watch on a signal bit. -/
  | bitWatch (core : CoreId) (v : Word)
  /-- BIT_POPC (R67): bit.popc counts the one bits of v. -/
  | bitPopc (core : CoreId) (v : Word)
  /-- BIT_CLZ (R67): bit.clz counts leading zero bits of v. -/
  | bitClz (core : CoreId) (v : Word)
  /-- BIT_CTZ (R67): bit.ctz counts trailing zero bits of v. -/
  | bitCtz (core : CoreId) (v : Word)
  /-- BIT_BSWAP (R67): bit.bswap reverses the bytes of v. -/
  | bitBswap (core : CoreId) (v : Word)
  /-- BIT_REV (R67): bit.rev reverses the bits of v. -/
  | bitRev (core : CoreId) (v : Word)
  /-- BIT_PAR (R67): bit.par gives the parity of v. -/
  | bitPar (core : CoreId) (v : Word)
  /-- BIT_EXT (R67): bit.ext extracts a field of o1. -/
  | bitExt (core : CoreId) (v : Word)
  /-- BIT_INS (R67): bit.ins inserts the low bits of o1 into the value on bit.res. -/
  | bitIns (core : CoreId) (v : Word)
  /-- REMOTE_BIT_WRITE (R70): A signal from another agent writes a signal-group bit variable of a resident or spilled task. -/
  | remoteBitWrite (core : CoreId) (task : TaskId) (bit : BitVec 12) (val : Bool)
  /-- BRU_JMP (R72): bru.jmp transfers control to an absolute target after two delay slots. -/
  | bruJmp (core : CoreId) (v : Word)
  /-- BRU_BR (R72): bru.br transfers control to a relative target after two delay slots. -/
  | bruBr (core : CoreId) (v : Word)
  /-- BRU_CALL (R72): bru.call pushes the return address and transfers to an absolute target. -/
  | bruCall (core : CoreId) (v : Word)
  /-- BRU_CALLR (R72): bru.callr pushes the return address and transfers to a relative target. -/
  | bruCallr (core : CoreId) (v : Word)
  /-- BRU_RET (R72): bru.ret transfers to the entry popped from the return stack. -/
  | bruRet (core : CoreId) (v : Word)
  /-- TRANSFER_TARGET_ISSUE (R48): After the two delay slots the transfer's target word issues. -/
  | transferTargetIssue (core : CoreId)
  /-- BRU_RPT (R49): bru.rpt starts an interruptible repeat of the next word COUNT times. -/
  | bruRpt (core : CoreId) (v : Word)
  /-- BRU_RPTU (R50): bru.rptu starts an uninterruptible repeat of at most 64 executions. -/
  | bruRptu (core : CoreId) (v : Word)
  /-- REPEAT_BODY_EXECUTION (R49): One execution of a repeat body issues, re-evaluating guards and sources and decrementing RPTC. -/
  | repeatBodyExecution (core : CoreId)
  /-- BRU_PUSH (R73): bru.push decrements DSP and stores v on the data stack. -/
  | bruPush (core : CoreId) (v : Word)
  /-- BRU_POP (R73): bru.pop loads the top of the data stack and increments DSP. -/
  | bruPop (core : CoreId) (v : Word)
  /-- SYS_SER (R77): sys.ser waits until earlier triggers are accepted and pending state writes have taken effect. -/
  | sysSer (core : CoreId) (v : Word)
  /-- SYS_TLBI_ADDR (R215): sys.tlbi ADDR queues removal of entries of a tag covering an IA in the chosen scope. -/
  | sysTlbiAddr (core : CoreId) (v : Word)
  /-- SYS_TLBI_TAG (R215): sys.tlbi TAG queues removal of every entry with a tag. -/
  | sysTlbiTag (core : CoreId) (v : Word)
  /-- SYS_TLBI_ALL (R215): sys.tlbi ALL queues removal of every entry in the scope. -/
  | sysTlbiAll (core : CoreId) (v : Word)
  /-- TLBI_COMMAND_COMPLETE (R216): The core's invalidation queue finishes one command and starts the next. -/
  | tlbiCommandComplete (core : CoreId)
  /-- SYS_TLBSYNC (R217): sys.tlbsync sets up a barrier whose result reads 1 once the task's invalidations and their accesses are complete. -/
  | sysTlbsync (core : CoreId) (v : Word)
  /-- CMO_CLEAN (R242): sys.cmo clean writes back the dirty granules of a line. -/
  | cmoClean (core : CoreId) (v : Word)
  /-- CMO_INVALIDATE (R242): sys.cmo invalidate makes a line invalid. -/
  | cmoInvalidate (core : CoreId) (v : Word)
  /-- CMO_CLEAN_INVALIDATE (R242): sys.cmo clean and invalidate writes back and invalidates a line. -/
  | cmoCleanInvalidate (core : CoreId) (v : Word)
  /-- SYS_WKT (R286): sys.wkt enters a wicket, lending its key and extent. -/
  | sysWkt (core : CoreId) (v : Word)
  /-- WICKET_RETURN (R288): sys.wret with v[0] = 0 ends a wicket call, restoring k15 and x15 and nulling lent keys. -/
  | wicketReturn (core : CoreId) (v : Word)
  /-- FRAME_RETURN (R292): sys.wret with v[0] = 1 restores task state from the frame and resumes at its PC. -/
  | frameReturn (core : CoreId) (v : Word)
  /-- SYS_WAIT (R258): sys.wait continues if a selected event bit is set, and otherwise makes the task WAITING. -/
  | sysWait (core : CoreId) (v : Word)
  /-- SYS_YIELD (R259): sys.yield puts the task at the tail of the ready queue if another task is READY. -/
  | sysYield (core : CoreId) (v : Word)
  /-- SYS_XWR (R202): sys.xwr writes the register selected by sys.xsel, pending for extents and S2CTL. -/
  | sysXwr (core : CoreId) (v : Word)
  /-- SYS_XRD (R202): sys.xrd shows the selected register on sys.res after two issue cycles. -/
  | sysXrd (core : CoreId) (v : Word)
  /-- TIMER_WRITE (R263): A write to sys.tmr arms, replaces, disarms or is discarded according to the timer's owner. -/
  | timerWrite (core : CoreId) (v : Word)
  /-- TIMER_EXPIRY (R263): An owned timer reaching 0 becomes unarmed and sets the owner's TIMER bit. -/
  | timerExpiry (core : CoreId)
  /-- DFM_MAC (R80): dfm.mac fetches X and Y, multiply-accumulates and advances the generators. -/
  | dfmMac (core : CoreId) (v : Word)
  /-- DFM_MSB (R80): dfm.msb fetches and subtracts the product from the accumulator. -/
  | dfmMsb (core : CoreId) (v : Word)
  /-- DFM_MUL (R80): dfm.mul fetches and replaces the accumulator with the product. -/
  | dfmMul (core : CoreId) (v : Word)
  /-- DFM_SET (R80): dfm.set loads the accumulator with v without fetching. -/
  | dfmSet (core : CoreId) (v : Word)
  /-- VXU_ADD (R163): vxu.op ADD adds elements. -/
  | vxuAdd (core : CoreId) (v : Word)
  /-- VXU_SUB (R163): vxu.op SUB subtracts elements. -/
  | vxuSub (core : CoreId) (v : Word)
  /-- VXU_MUL (R163): vxu.op MUL multiplies elements. -/
  | vxuMul (core : CoreId) (v : Word)
  /-- VXU_FMA (R163): vxu.op FMA computes a × b + c fused. -/
  | vxuFma (core : CoreId) (v : Word)
  /-- VXU_FMS (R163): vxu.op FMS computes a × b − c fused. -/
  | vxuFms (core : CoreId) (v : Word)
  /-- VXU_FNMA (R163): vxu.op FNMA computes −(a × b) + c fused. -/
  | vxuFnma (core : CoreId) (v : Word)
  /-- VXU_DIV (R163): vxu.op DIV divides FP64 or FP32 elements. -/
  | vxuDiv (core : CoreId) (v : Word)
  /-- VXU_SQRT (R163): vxu.op SQRT takes square roots. -/
  | vxuSqrt (core : CoreId) (v : Word)
  /-- VXU_MAX (R163): vxu.op MAX takes element-wise maxima. -/
  | vxuMax (core : CoreId) (v : Word)
  /-- VXU_MIN (R163): vxu.op MIN takes element-wise minima. -/
  | vxuMin (core : CoreId) (v : Word)
  /-- VXU_ABS (R164): vxu.op ABS takes absolute values. -/
  | vxuAbs (core : CoreId) (v : Word)
  /-- VXU_NEG (R164): vxu.op NEG negates elements. -/
  | vxuNeg (core : CoreId) (v : Word)
  /-- VXU_COPY (R164): vxu.op COPY copies elements. -/
  | vxuCopy (core : CoreId) (v : Word)
  /-- VXU_AND (R163): vxu.op AND is a bitwise AND. -/
  | vxuAnd (core : CoreId) (v : Word)
  /-- VXU_OR (R163): vxu.op OR is a bitwise OR. -/
  | vxuOr (core : CoreId) (v : Word)
  /-- VXU_XOR (R163): vxu.op XOR is a bitwise XOR. -/
  | vxuXor (core : CoreId) (v : Word)
  /-- VXU_SHL (R163): vxu.op SHL shifts left. -/
  | vxuShl (core : CoreId) (v : Word)
  /-- VXU_SHR (R163): vxu.op SHR shifts right with zeros. -/
  | vxuShr (core : CoreId) (v : Word)
  /-- VXU_SAR (R163): vxu.op SAR shifts right arithmetically. -/
  | vxuSar (core : CoreId) (v : Word)
  /-- VXU_TWOSUM (R150): vxu.op TWOSUM writes the rounded sum and its exact error. -/
  | vxuTwosum (core : CoreId) (v : Word)
  /-- VXU_TWOPROD (R150): vxu.op TWOPROD writes the rounded product and its error. -/
  | vxuTwoprod (core : CoreId) (v : Word)
  /-- VXU_CEQ (R165): vxu.op CEQ writes mask bits for equality. -/
  | vxuCeq (core : CoreId) (v : Word)
  /-- VXU_CNE (R165): vxu.op CNE writes mask bits for inequality. -/
  | vxuCne (core : CoreId) (v : Word)
  /-- VXU_CLT (R165): vxu.op CLT writes mask bits for less-than. -/
  | vxuClt (core : CoreId) (v : Word)
  /-- VXU_CLE (R165): vxu.op CLE writes mask bits for less-or-equal. -/
  | vxuCle (core : CoreId) (v : Word)
  /-- VXU_CUN (R165): vxu.op CUN writes mask bits for unordered pairs. -/
  | vxuCun (core : CoreId) (v : Word)
  /-- VXU_MAND (R163): vxu.op MAND ANDs two masks. -/
  | vxuMand (core : CoreId) (v : Word)
  /-- VXU_MOR (R163): vxu.op MOR ORs two masks. -/
  | vxuMor (core : CoreId) (v : Word)
  /-- VXU_MXOR (R163): vxu.op MXOR XORs two masks. -/
  | vxuMxor (core : CoreId) (v : Word)
  /-- VXU_MANDN (R163): vxu.op MANDN computes A AND NOT B of two masks. -/
  | vxuMandn (core : CoreId) (v : Word)
  /-- VXU_CVT (R166): vxu.op CVT converts elements from EF to DF, updating rmax. -/
  | vxuCvt (core : CoreId) (v : Word)
  /-- VXU_BCAST (R163): vxu.op BCAST broadcasts vxu.s1 to active elements. -/
  | vxuBcast (core : CoreId) (v : Word)
  /-- VXU_SLIDEUP (R163): vxu.op SLIDEUP moves elements up by k. -/
  | vxuSlideup (core : CoreId) (v : Word)
  /-- VXU_SLIDEDN (R163): vxu.op SLIDEDN moves elements down by k. -/
  | vxuSlidedn (core : CoreId) (v : Word)
  /-- VXU_PERM (R163): vxu.op PERM gathers VA elements indexed by VB. -/
  | vxuPerm (core : CoreId) (v : Word)
  /-- VXU_COMPRESS (R163): vxu.op COMPRESS packs active elements to the front. -/
  | vxuCompress (core : CoreId) (v : Word)
  /-- VXU_ZIP (R163): vxu.op ZIP interleaves VA and VB. -/
  | vxuZip (core : CoreId) (v : Word)
  /-- VXU_UNZIP (R163): vxu.op UNZIP de-interleaves VA. -/
  | vxuUnzip (core : CoreId) (v : Word)
  /-- VXU_IOTA (R163): vxu.op IOTA writes each element's index. -/
  | vxuIota (core : CoreId) (v : Word)
  /-- VXU_OP_COMPLETE (R167): A VXU operation writes its last destination slice and its contributions land. -/
  | vxuOpComplete (core : CoreId)
  /-- VXU_LD (R173): vxu.ld checks and issues a strided vector load. -/
  | vxuLd (core : CoreId) (v : Word)
  /-- VXU_ST (R173): vxu.st checks and issues a strided vector store. -/
  | vxuSt (core : CoreId) (v : Word)
  /-- VXU_MEM_COMPLETE (R173): A vector load's last line arrives and writes its register, or a store's last line is performed. -/
  | vxuMemComplete (core : CoreId) (i : Nat)
  /-- VXU_RED_SUM (R178): vxu.red SUM adds active elements in the fixed lane order. -/
  | vxuRedSum (core : CoreId) (v : Word)
  /-- VXU_RED_MAX (R177): vxu.red MAX reduces to the maximum. -/
  | vxuRedMax (core : CoreId) (v : Word)
  /-- VXU_RED_MIN (R177): vxu.red MIN reduces to the minimum. -/
  | vxuRedMin (core : CoreId) (v : Word)
  /-- VXU_RED_ARGMAX (R177): vxu.red ARGMAX gives the index of the maximum. -/
  | vxuRedArgmax (core : CoreId) (v : Word)
  /-- VXU_RED_ARGMIN (R177): vxu.red ARGMIN gives the index of the minimum. -/
  | vxuRedArgmin (core : CoreId) (v : Word)
  /-- VXU_RED_AND (R177): vxu.red AND reduces by bitwise AND. -/
  | vxuRedAnd (core : CoreId) (v : Word)
  /-- VXU_RED_OR (R177): vxu.red OR reduces by bitwise OR. -/
  | vxuRedOr (core : CoreId) (v : Word)
  /-- VXU_RED_XOR (R177): vxu.red XOR reduces by bitwise XOR. -/
  | vxuRedXor (core : CoreId) (v : Word)
  /-- VXU_GET (R171): vxu.get shows one element on vxu.sres. -/
  | vxuGet (core : CoreId) (v : Word)
  /-- VXU_PUT (R171): vxu.put writes one element from vxu.s1. -/
  | vxuPut (core : CoreId) (v : Word)
  /-- VXU_MRD (R171): vxu.mrd shows a 64-bit mask chunk on vxu.sres. -/
  | vxuMrd (core : CoreId) (v : Word)
  /-- VXU_MWR (R171): vxu.mwr writes a 64-bit mask chunk from vxu.s1. -/
  | vxuMwr (core : CoreId) (v : Word)
  /-- TMU_LD (R121): tmu.ld issues the rows of a tile load from memory. -/
  | tmuLd (core : CoreId) (v : Word)
  /-- TMU_LDT (R122): tmu.ldt issues a transposed tile load. -/
  | tmuLdt (core : CoreId) (v : Word)
  /-- TMU_ST (R123): tmu.st issues a masked tile store. -/
  | tmuSt (core : CoreId) (v : Word)
  /-- TMU_MEM_COMPLETE (R124): A tile memory operation's last row is written or performed. -/
  | tmuMemComplete (core : CoreId) (i : Nat)
  /-- TMU_MMA (R132): tmu.mma queues a matrix multiply-accumulate on the array. -/
  | tmuMma (core : CoreId) (v : Word)
  /-- TMU_MMC (R135): tmu.mmc queues a compensated matrix product with error tile. -/
  | tmuMmc (core : CoreId) (v : Word)
  /-- TMU_ZERO (R113): tmu.zero writes a tile with zeros through the array queue. -/
  | tmuZero (core : CoreId) (v : Word)
  /-- TMU_EW_ADD (R138): tmu.ew ADD adds tiles element-wise. -/
  | tmuEwAdd (core : CoreId) (v : Word)
  /-- TMU_EW_SUB (R138): tmu.ew SUB subtracts tiles element-wise. -/
  | tmuEwSub (core : CoreId) (v : Word)
  /-- TMU_EW_MUL (R138): tmu.ew MUL multiplies tiles element-wise. -/
  | tmuEwMul (core : CoreId) (v : Word)
  /-- TMU_EW_MAX (R138): tmu.ew MAX takes element-wise maxima. -/
  | tmuEwMax (core : CoreId) (v : Word)
  /-- TMU_EW_MIN (R138): tmu.ew MIN takes element-wise minima. -/
  | tmuEwMin (core : CoreId) (v : Word)
  /-- TMU_EW_COPY (R138): tmu.ew COPY copies a tile. -/
  | tmuEwCopy (core : CoreId) (v : Word)
  /-- TMU_EW_ABS (R138): tmu.ew ABS takes absolute values. -/
  | tmuEwAbs (core : CoreId) (v : Word)
  /-- TMU_EW_NEG (R138): tmu.ew NEG negates elements. -/
  | tmuEwNeg (core : CoreId) (v : Word)
  /-- TMU_CVT (R139): tmu.cvt converts a tile from EFMT to AFMT. -/
  | tmuCvt (core : CoreId) (v : Word)
  /-- TMU_RED_SUM (R140): tmu.red SUM reduces a tile along an axis by addition. -/
  | tmuRedSum (core : CoreId) (v : Word)
  /-- TMU_RED_MAX (R140): tmu.red MAX reduces a tile to maxima. -/
  | tmuRedMax (core : CoreId) (v : Word)
  /-- TMU_RED_MIN (R140): tmu.red MIN reduces a tile to minima. -/
  | tmuRedMin (core : CoreId) (v : Word)
  /-- ARRAY_FILL (R143): An operation at the queue head copies its operand tiles into the operand cache. -/
  | arrayFill (core : CoreId)
  /-- ARRAY_COMPUTE_START (R143): Compute starts once the previous compute ends and the fill is done. -/
  | arrayComputeStart (core : CoreId)
  /-- ARRAY_OP_COMPLETE (R143): Write-back finishes, the operation completes and its contributions land. -/
  | arrayOpComplete (core : CoreId)
  /-- XMU_ENQUEUE (R197): A move into xmu.qN enqueues a descriptor or reports FULL, HALT or MISAL. -/
  | xmuEnqueue (core : CoreId) (q : Fin 4) (v : Word)
  /-- XMU_QUEUE_STATUS (R197): xmu.qs shows a queue's pending count, halt state and DONESEQ. -/
  | xmuQueueStatus (core : CoreId) (v : Word)
  /-- XMU_QUEUE_RESUME (R197): xmu.qs RESUME clears HALT and continues the queue. -/
  | xmuQueueResume (core : CoreId) (v : Word)
  /-- XMU_QUEUE_FLUSH (R197): xmu.qs FLUSH completes unstarted descriptors with CANCELLED. -/
  | xmuQueueFlush (core : CoreId) (v : Word)
  /-- XMU_COPY (R195): The XMU starts a COPY descriptor, moving LEN bytes. -/
  | xmuCopy (core : CoreId)
  /-- XMU_FILL (R194): The XMU starts a FILL descriptor, repeating a pattern over LEN bytes. -/
  | xmuFill (core : CoreId)
  /-- XMU_ACC (R186): The XMU starts an ACC descriptor, sending ranked addends to destination engines. -/
  | xmuAcc (core : CoreId)
  /-- XMU_SIGNAL (R70): The XMU starts a SIGNAL descriptor, writing one signal bit of a task locally or remotely. -/
  | xmuSignal (core : CoreId)
  /-- XMU_DESCRIPTOR_COMPLETE (R196): A descriptor completes in queue order, writing STATUS and acting on CSIG and CEV. -/
  | xmuDescriptorComplete (core : CoreId) (task : TaskId) (q : Fin 4)
  /-- KYU_LD (R280): kyu.ld loads a tagged key from memory into a key register. -/
  | kyuLd (core : CoreId) (v : Word)
  /-- KYU_ST (R280): kyu.st stores a key and sets the granule's tag. -/
  | kyuSt (core : CoreId) (v : Word)
  /-- KYU_RSTR (R281): kyu.rstr derives a narrowed key. -/
  | kyuRstr (core : CoreId) (v : Word)
  /-- KYU_MV (R281): kyu.mv with WK = 0 copies a key register. -/
  | kyuMv (core : CoreId) (v : Word)
  /-- WICKET_INSTALL (R285): kyu.mv with WK = 1 installs or empties a wicket. -/
  | wicketInstall (core : CoreId) (v : Word)
  /-- KYU_CLR (R281): kyu.clr makes a key register NULL. -/
  | kyuClr (core : CoreId) (v : Word)
  /-- KYU_RD (R276): kyu.rd shows half of a key on kyu.res. -/
  | kyuRd (core : CoreId) (v : Word)
  /-- KYU_CHK (R277): kyu.chk tests key coverage without faulting. -/
  | kyuChk (core : CoreId) (v : Word)
  /-- FRAME_ENTRY (R291): A fault writes a frame, reads HANDLER and enters the handler. -/
  | frameEntry (core : CoreId)
  /-- WALK_COMPLETE (R210): A stage-2 table walk ends with a leaf that fills the TLBs, or with a fault. -/
  | walkComplete (core : CoreId) (i : Nat)
  /-- LINE_FILL_COMPLETE (R233): A cache line fill finishes arriving from memory. -/
  | lineFillComplete (core : CoreId) (i : Nat)
  /-- FETCH_AHEAD (R221): The core fetches instructions ahead of issue, dropping any that would fault. -/
  | fetchAhead (core : CoreId)
  /-- EVICTION_WRITEBACK (R251): An eviction write-back is performed or fails and is counted in WB_ERR. -/
  | evictionWriteback (core : CoreId) (i : Nat)
  /-- EVICTION_POISON_WRITE (R338): The escapement writes the poison code over a line whose eviction write-back failed. -/
  | evictionPoisonWrite (i : Nat)
  /-- MESH_REQUEST (R295): A request flit arrives at its destination stop and is served. -/
  | meshRequest (i : Nat)
  /-- MESH_RESPONSE (R295): A response flit arrives at its requester. -/
  | meshResponse (i : Nat)
  /-- ADDEND_ARRIVAL (R187): An addend reaches its engine and is made ready, held or applied as an order error. -/
  | addendArrival (i : Nat)
  /-- ADDEND_RESEND (R189): A refused addend is sent again at least 16 cycles later. -/
  | addendResend (i : Nat)
  /-- ENGINE_RMW (R185): An engine read-modify-write applies every ready addend of a line. -/
  | engineRmw (eng : EngineId) (line : Nat)
  /-- STACK_REQUEST (R427): A stack port performs a read or write in its stack in arrival order per line. -/
  | stackRequest (port : StackId) (i : Nat)
  /-- STACK_REFRESH (R324): A stack port refreshes a stack bank. -/
  | stackRefresh (port : StackId)
  /-- PATROL_SCRUB (R322): A stack port scrubs its stored lines once per scrub period. -/
  | patrolScrub (port : StackId)
  /-- BANK_SCRUB (R331): A bank engine scrubs its bank and tile main file once every 64 beats. -/
  | bankScrub (core : CoreId)
  /-- PORT_RETRAIN (R325): A stack port enters RETRAIN, requeues commands and retrains its PHY. -/
  | portRetrain (port : StackId)
  /-- PORT_RETRAIN_COMPLETE (R325): Retraining ends, the port issues its held queue and the notice ends. -/
  | portRetrainComplete (port : StackId) (rate : BitVec 2)
  /-- PORT_FAILED (R326): A port whose retrain overruns 2.0 ms or retrains a ninth time in 1 s becomes FAILED. -/
  | portFailed (port : StackId)
  /-- DIGEST_MARK (R329): A write to DGMARK counts a mark and starts a digest when the interval is reached. -/
  | digestMark
  /-- DIGEST_COMPLETE (R329): The digest engines finish a digest and clear BUSY. -/
  | digestComplete
  /-- LINK_PUT (R308): An inbound PUT writes its payload at OFFSET and is acknowledged. -/
  | linkPut (m : LinkId) (msg : Msg)
  /-- LINK_GET (R308): An inbound GET reads LEN bytes and answers with GETR. -/
  | linkGet (m : LinkId) (msg : Msg)
  /-- LINK_ACCP (R308): An inbound ACCP passes its addends to the engine at OFFSET. -/
  | linkAccp (m : LinkId) (msg : Msg)
  /-- LINK_SIGNAL (R309): An inbound SIGNAL writes a task's signal bit and sets its LINK event. -/
  | linkSignal (m : LinkId) (msg : Msg)
  /-- LINK_GETR (R307): A GETR completes a GET or compare-and-swap at its source. -/
  | linkGetr (m : LinkId) (msg : Msg)
  /-- LINK_ACK (R307): An ACK completes a PUT, ACCP or SIGNAL at its source. -/
  | linkAck (m : LinkId) (msg : Msg)
  /-- LINK_VOID (R155): A VOID is discarded, removes a held addend, or takes its slot. -/
  | linkVoid (m : LinkId) (msg : Msg)
  /-- LINK_CRD (R310): A CRD returns channel credits to the sender. -/
  | linkCrd (m : LinkId) (ch : Fin 8) (units : Nat)
  /-- LINK_LACK (R312): A LACK frees replay entries up to the carried SEQ. -/
  | linkLack (m : LinkId) (seq : BitVec 24)
  /-- LINK_NAK (R312): A NAK makes the sender replay from the carried SEQ. -/
  | linkNak (m : LinkId) (seq : BitVec 24)
  /-- LINK_HREQ (R314): A host HREQ reads or writes control space and is answered with HRSP. -/
  | linkHreq (m : LinkId) (msg : Msg)
  /-- LINK_DBELL (R380): A DBELL sets the doorbell of the named host mailbox. -/
  | linkDbell (m : LinkId) (msg : Msg)
  /-- LINK_ESC (R386): An inbound ESC writes its payload into an IDLE host mailbox. -/
  | linkEsc (m : LinkId) (msg : Msg)
  /-- LACK_TIMER (R312): The receiver sends a cumulative LACK at least every 1 µs while messages are unacknowledged. -/
  | lackTimer (m : LinkId)
  /-- REPLAY_TIMEOUT (R312): The oldest unacknowledged message exceeds RTO and the sender replays. -/
  | replayTimeout (m : LinkId)
  /-- REQUEST_TIMEOUT (R315): An outbound request's RQTO expires and it completes with LINK_RESET. -/
  | requestTimeout (m : LinkId) (i : Nat)
  /-- MODULE_RESET (R316): A link module resets, failing outstanding requests with LINK_RESET in SEQ order. -/
  | moduleReset (m : LinkId)
  /-- MODULE_RETRAIN_COMPLETE (R316): A reset module retrains, sends owed VOIDs and resumes traffic. -/
  | moduleRetrainComplete (m : LinkId) (rate : BitVec 3) (degraded : Bool)
  /-- MODULE_RETRAIN_TIMEOUT (R316): A module not retrained in 100 ms has its VOIDs sent through another module. -/
  | moduleRetrainTimeout (m : LinkId)
  /-- ROUTE_ENTRY_UPDATE (R302): A route entry is written once its old modules hold no request to that block. -/
  | routeEntryUpdate (i : Nat)
  /-- CREATE (R266): TCMD CREATE builds a task from a start record and makes it READY. -/
  | create (core : CoreId)
  /-- KILL (R267): TCMD KILL makes a task NONE and releases its resources. -/
  | kill (core : CoreId)
  /-- SPILL (R274): TCMD SPILL from the keeper writes a casement's dirty groups to its slot. -/
  | spill (core : CoreId)
  /-- FILL (R274): TCMD FILL from the keeper loads a spilled task into a casement. -/
  | fill (core : CoreId)
  /-- KSTART (R274): TCMD KSTART starts the keeper and sets KEN. -/
  | kstart (core : CoreId)
  /-- HARDWARE_FILL (R273): A selected spilled task is filled by hardware into a free casement. -/
  | hardwareFill (core : CoreId)
  /-- KEEPER_CYCLE_LIMIT (R275): The keeper exceeds 4,096 issue cycles in a trap and the core locks up. -/
  | keeperCycleLimit (core : CoreId)
  /-- IDLE_DETECTOR_EXPIRY (R264): After 20 µs idle the core is reported eligible for a test slot. -/
  | idleDetectorExpiry (core : CoreId)
  /-- TEST_SLOT_GRANT (R339): The cluster sequencer grants a slot to the first eligible listed core. -/
  | testSlotGrant (c : ClusterId)
  /-- TEST_SLOT_END (R340): A slot ends, reconnects the casements and reports pass or fail. -/
  | testSlotEnd (c : ClusterId) (pass : Bool)
  /-- JOB_SEQUENCER_END (R336): The job sequencer ends a job that consumed poison, killing its tasks and emptying its wickets. -/
  | jobSequencerEnd
  /-- DRAIN_TRIGGER (R348): A drain trigger enters DRAINING and drives FAULT_N. -/
  | drainTrigger (cause : DrainCause) (unit : BitVec 16)
  /-- DRAIN_ENGINE_DISCARD (R349): Once steps 2–5 are complete, engines discard held addends and poison open rounds. -/
  | drainEngineDiscard
  /-- DRAIN_COMPLETE (R349): Every drain step completes and the block enters DRAINED. -/
  | drainComplete
  /-- DRAIN_TIMEOUT (R350): After 50 ms outstanding operations are forced to end and TIMEOUT is set. -/
  | drainTimeout
  /-- MP_WATCHDOG_EXPIRY (R353): A processor's watchdog expires and it restarts alone. -/
  | mpWatchdogExpiry (i : MpId)
  /-- MP_SERVICE_RESUME (R353): A restarted processor's firmware reports ready and it returns to service. -/
  | mpServiceResume (i : MpId)
  /-- MP_READY_TIMEOUT (R353): A processor not ready within 5 beats counts as a further watchdog expiry. -/
  | mpReadyTimeout (i : MpId)
  /-- BEAT_BOUNDARY (R357): A beat boundary sets BEAT bits and interrupts the processors. -/
  | beatBoundary (sample : SensorSample)
  /-- BEAT_IN_EDGE (R358): A BEAT_IN rising edge is captured to move the beat, or counted in MISS. -/
  | beatInEdge (err : Int)
  /-- CURRENT_GUARD_STOP (R364): After 8 samples above ICEIL every array queue stops accepting. -/
  | currentGuardStop
  /-- CURRENT_GUARD_RESUME (R364): After 8 samples below 0.95 × ICEIL acceptance resumes. -/
  | currentGuardResume
  /-- DROOP_EVENT (R364): A droop in a cluster halts its array queues and halves its issue rate for 256 cycles. -/
  | droopEvent (c : ClusterId)
  /-- DROOP_HOLD_END (R364): The 256-cycle droop hold of a cluster ends. -/
  | droopHoldEnd (c : ClusterId)
  /-- AVSBUS_FRAME (R361): An AVSBus frame completes or, after three repeats without response, is logged as failed. -/
  | avsbusFrame (frame : AvsFrame)
  /-- SHUTTER_REQUEST (R365): SHUTTER_N low or a thermal alarm brakes the block to 280 W. -/
  | shutterRequest
  /-- SHUTTER_RELEASE (R366): SHUTTER_N high with no alarm restores issue, VXU, DFM and array acceptance in stages. -/
  | shutterRelease
  /-- THERMAL_ALARM (R367): A sensor at or above 115 °C starts the shutter path and sets TALARM. -/
  | thermalAlarm
  /-- THERMAL_ALARM_CLEAR (R367): Every sensor below 110 °C clears the thermal alarm. -/
  | thermalAlarmClear
  /-- THERMTRIP (R367): A sensor at or above 125 °C drives THERMTRIP_N low. -/
  | thermtrip
  /-- FENCE_ADDEND_RELEASE (R369): A fencing cluster completes held addends with BANK_OFF and empties its TLBs. -/
  | fenceAddendRelease (c : ClusterId)
  /-- CLUSTER_FENCE_COMPLETE (R369): A fencing cluster with nothing outstanding loses power and goes OFF. -/
  | clusterFenceComplete (c : ClusterId)
  /-- CLUSTER_WAKE_COMPLETE (R369): A waking cluster finishes initialisation, lifts its fence and goes ON. -/
  | clusterWakeComplete (c : ClusterId)
  /-- PLL_LOCK_LOSS (R370): A root PLL lock loss over 100 ns stops every divided clock and drives FAULT_N. -/
  | pllLockLoss
  /-- MAILBOX_POST (R372): A compare-and-set from IDLE to POSTED sets the doorbell and starts the deadline. -/
  | mailboxPost (n : MailboxId) (expect : BitVec 3)
  /-- MAILBOX_WITHDRAW (R372): A compare-and-set from POSTED to IDLE withdraws the request. -/
  | mailboxWithdraw (n : MailboxId) (expect : BitVec 3)
  /-- MAILBOX_CLEAR (R372): A compare-and-set from DONE, TIMEOUT or ERROR to IDLE clears STATUS, ACK and PROG. -/
  | mailboxClear (n : MailboxId) (expect : BitVec 3)
  /-- MBDB_RING (R380): A write to MBDB sets host mailbox doorbells. -/
  | mbdbRing (ring : BitVec 32)
  /-- MAILBOX_TAKE (R381): MP2 takes a POSTED mailbox in class order and starts its command. -/
  | mailboxTake (n : MailboxId)
  /-- MAILBOX_PROGRESS (R375): A progress report on a class-L command sets ACK and PROG and restarts the deadline. -/
  | mailboxProgress (n : MailboxId) (prog : BitVec 16)
  /-- MAILBOX_COMPLETE (R377): The escapement completes a taken request in DONE or ERROR. -/
  | mailboxComplete (n : MailboxId)
  /-- MAILBOX_DEADLINE (R375): A mailbox deadline expires and it enters TIMEOUT. -/
  | mailboxDeadline (n : MailboxId)
  /-- IDENTIFY (R383): IDENTIFY returns BLKID, slot, rollback counter, version, SELF, CAP and VMIN. -/
  | identify (n : MailboxId)
  /-- STATUS (R383): STATUS returns BLKSTAT, drain state and escapement status registers. -/
  | status (n : MailboxId)
  /-- POWER_LIMIT_SET (R362): POWER_LIMIT_SET stores PLIM for MP1's next beat step. -/
  | powerLimitSet (n : MailboxId)
  /-- POWER_LIMIT_GET (R383): POWER_LIMIT_GET returns PWRSTAT. -/
  | powerLimitGet (n : MailboxId)
  /-- DOMAIN_SWITCH_OFF (R368): DOMAIN_SWITCH with ON = 0 fences and switches off a domain unless refused. -/
  | domainSwitchOff (n : MailboxId)
  /-- DOMAIN_SWITCH_ON (R369): DOMAIN_SWITCH with ON = 1 powers and initialises a domain. -/
  | domainSwitchOn (n : MailboxId)
  /-- BEAT_CONFIG (R358): BEAT_CONFIG sets BEATCTL.EN. -/
  | beatConfig (n : MailboxId)
  /-- DRAIN (R348): DRAIN starts a drain or records the trigger. -/
  | drain (n : MailboxId)
  /-- RELEASE (R348): RELEASE returns a DRAINED block to RUN when its causes allow. -/
  | release (n : MailboxId)
  /-- LINK_ASSIGN (R383): LINK_ASSIGN sets a module's role, split, timeouts and route entries. -/
  | linkAssign (n : MailboxId)
  /-- LINK_STATUS (R383): LINK_STATUS returns LMSTAT, LMCNT and owed VOIDs. -/
  | linkStatus (n : MailboxId)
  /-- SENSOR_READ (R360): SENSOR_READ returns bytes of the current snapshot. -/
  | sensorRead (n : MailboxId)
  /-- LOG_READ (R385): LOG_READ returns up to 10 log records from an index. -/
  | logRead (n : MailboxId)
  /-- HISTORY_READ (R346): HISTORY_READ returns a unit's class and history records. -/
  | historyRead (n : MailboxId)
  /-- TEST_POLICY (R383): TEST_POLICY enables or stops new test slot grants. -/
  | testPolicy (n : MailboxId)
  /-- TEST_RESULTS (R343): TEST_RESULTS returns each core's segment ages. -/
  | testResults (n : MailboxId)
  /-- DIGEST_SCHEDULE (R329): DIGEST_SCHEDULE sets the digest interval and regions. -/
  | digestSchedule (n : MailboxId)
  /-- DIGEST_READ (R383): DIGEST_READ returns a region's latest port digests and flags. -/
  | digestRead (n : MailboxId)
  /-- SETTINGS_READ (R397): SETTINGS_READ returns a setting's value from MP0's copy. -/
  | settingsRead (n : MailboxId)
  /-- SETTINGS_WRITE (R397): SETTINGS_WRITE writes a new settings copy with the record replaced. -/
  | settingsWrite (n : MailboxId)
  /-- UPDATE_BEGIN (R401): UPDATE_BEGIN opens an update session and erases the target slot's first block. -/
  | updateBegin (n : MailboxId)
  /-- UPDATE_DATA (R401): UPDATE_DATA erases as needed and programs image data. -/
  | updateData (n : MailboxId)
  /-- UPDATE_COMMIT (R401): UPDATE_COMMIT verifies the target slot, writes BOOT_SLOT and loads the image area. -/
  | updateCommit (n : MailboxId)
  /-- MP_RESTART (R353): MP_RESTART restarts a named management processor. -/
  | mpRestart (n : MailboxId)
  /-- JOB_OPEN (R384): JOB_OPEN issues a job identity and writes its four tagged root keys. -/
  | jobOpen (n : MailboxId)
  /-- JOB_CLOSE (R283): JOB_CLOSE kills every task of a job and empties its wickets. -/
  | jobClose (n : MailboxId)
  /-- I3C_PRIVATE_WRITE (R387): An I3C private write sets an offset and writes mailbox 32 or 33 bytes. -/
  | i3cPrivateWrite (offset : BitVec 16) (data : List Byte)
  /-- I3C_PRIVATE_READ (R387): An I3C private read returns mailbox bytes from the last offset, incrementing. -/
  | i3cPrivateRead (count : Nat)
  /-- CONTROL_REGISTER_WRITE (R420): A control-space write to a register with no row of its own is applied or ignored as defined. -/
  | controlRegisterWrite (by_ : Requester) (offset : BitVec 26) (wide : Bool) (v : Word)
  /-- RESET_N_ASSERT (R413): RESET_N low discards all state and puts the pins in their reset states. -/
  | resetNAssert
  /-- STARTUP_SEQUENCE (R391): RESET_N release runs the start-up sequence from PLL lock to training and zero fill. -/
  | startupSequence (env : StartupEnv)
  /-- BLK_READY_ASSERT (R393): BLK_READY is asserted once processors, domains, zero fill and history are ready. -/
  | blkReadyAssert
  /-- PATTERN_LIBRARY_LOAD (R404): After SP0's zero fill MP3 copies and verifies the pattern library. -/
  | patternLibraryLoad
  /-- ROLLBACK_FUSE_RAISE (R400): After 1,000 clean beats MP0 blows fuses to raise ROLLCNT to ROLLVER. -/
  | rollbackFuseRaise
  /-- FLASH_OPERATION_COMPLETE (R402): A flash operation ends and the highest-priority waiting user is served. -/
  | flashOperationComplete (ok : Bool)
  /-- SUPPLY_MONITOR_TRIP (R410): VCORE or VSRAM below threshold for over 200 ns resets the block. -/
  | supplyMonitorTrip
  /-- SUPPLY_RECOVERY_RESTART (R410): After the supply is back in range for 1 ms, start-up begins again. -/
  | supplyRecoveryRestart
  /-- BYPASS (R415): The TAP BYPASS instruction selects the bypass register. -/
  | bypass
  /-- SAMPLE_PRELOAD (R415): The TAP SAMPLE/PRELOAD instruction samples and preloads boundary scan. -/
  | samplePreload (pins : BitVec 64) (preload : BitVec 64)
  /-- EXTEST (R416): The TAP EXTEST instruction drives pins from boundary scan, only in reset. -/
  | extest
  /-- IDCODE (R415): The TAP IDCODE instruction selects the IDCODE register. -/
  | idcode
  /-- HIGHZ (R416): The TAP HIGHZ instruction floats outputs, only in reset. -/
  | highz
  /-- INSTRUMENT_ACCESS (R416): An IEEE 1687 instrument is read, or written only while RESET_N is low. -/
  | instrumentAccess (inst : Instrument)
  /-- MP_SRAM_ERROR (R353): An uncorrectable error found in a management processor's private SRAM, or in a shared-SRAM word it reads, restarts that processor alone. -/
  | mpSramError (i : MpId)
  /-- STACK_PORT_FENCE_COMPLETE (R327): A stack-port domain being switched off finishes its accepted requests behind the fenced attachment channels and loses power, going OFF. -/
  | stackPortFenceComplete (port : StackId)
  /-- STACK_PORT_TRAINING_COMPLETE (R327): A stack port switched on after start-up finishes training, tag clearing and, for SP0, the pattern reload, and becomes UP. -/
  | stackPortTrainingComplete (port : StackId) (train : Training)
  /-- DYNAMIC_ADDRESS_ASSIGNMENT (R387): The I3C controller assigns the target a dynamic address with ENTDAA or SETDASA. -/
  | dynamicAddressAssignment (addr : BitVec 7)
  /-- ENEC (R387): The I3C controller enables in-band interrupts of the target with ENEC. -/
  | enec (enable : Bool)
  deriving DecidableEq, Repr

end Sys2Proof
end

