-- ==== Sys2Proof/WellFormed.lean ====
section
/-! DEFINITION. Well-formed commands: what the spec's interfaces can carry at all. The operand types bound the rest. -/

namespace Sys2Proof

/-- R303: a message's payload is at most 256 bytes. -/
def Msg.wf (m : Msg) : Bool := m.payload.length ≤ 256

/-- R359, R368: a sample has 344 thermal readings and 184 domain currents. -/
def SensorSample.wf (x : SensorSample) : Bool := x.thermal.length == 344 && x.current.length == 184

/-- R319, R300, R352: a start-up trains eight stack ports and sixteen link modules and starts four processors; the flash is given at rising offsets below
256 MiB (R388), with no byte equal to the erased value 0xFF. -/
def StartupEnv.wf (e : StartupEnv) : Bool :=
  e.stackPorts.length == 8 && e.linkRates.length == 16 && e.ready.length == 4 &&
    (match e.flash with
     | none => true
     | some f => f.all (fun c => c.1 < 268435456 && c.2 != 0xFF) && (f.zip f.tail).all fun p => p.1.1 < p.2.1)

/-- Whether a command is well-formed. -/
def Instr.wf : Instr → Bool
  | .linkPut _ m => m.wf
  | .linkGet _ m => m.wf
  | .linkAccp _ m => m.wf
  | .linkSignal _ m => m.wf
  | .linkGetr _ m => m.wf
  | .linkAck _ m => m.wf
  | .linkVoid _ m => m.wf
  | .linkHreq _ m => m.wf
  | .linkDbell _ m => m.wf
  | .linkEsc _ m => m.wf
  | .beatBoundary x => x.wf
  | .startupSequence e => e.wf
  | .i3cPrivateWrite _ d => d.length ≤ 512
  | .i3cPrivateRead n => n ≤ 512
  | _ => true

end Sys2Proof
end

