-- ==== Sys2Proof/Decode.lean ====
section
/-! DEFINITION. The command a word spells. No row of spec/opcode_table.json has an encoding (every row's `fields` list is
empty and no row gives bits): the block is commanded by moves its tasks issue, by messages, by mailboxes and by events, not
by words of one encoding. So no word spells a command. The words of a task's code are decoded in
Sys2Proof/Machine/Operands.lean. -/

namespace Sys2Proof

/-- The command that `nbits` bits of value `w` spell by the table's bits: none, for the table gives no row any bits. -/
def decodeTableWord (_nbits _w : Nat) : Option Instr := none

end Sys2Proof
end

