-- ==== Sys2Proof/Config.lean ====
section
/-! DEFINITION. What the spec leaves to one implementation or leaves open: opaque constants without a body, so that no
proof can use a value of them. Each is named in the assumption log. -/

namespace Sys2Proof.Config

/-- R213: replacement in a TLB is random. `tlbVictim k` is the random number of the k-th replacement. -/
opaque tlbVictim : Nat → Nat

/-- R362, Table 17-4 IDENTIFY: the part's fused minimum VCORE in mV; at least 650. -/
opaque fusedVmin : Nat → BitVec 10

/-- A value the spec leaves open, one for each position of the free counter of `State`. -/
opaque freeWord : Nat → BitVec 64

/-- R212: which entry of a contiguous group a TLB takes, where software set CH on entries that break the conditions. -/
opaque groupEntry : Nat → Nat

/-- Table 17-4, HISTORY_READ: the byte that stands for a kind of history record (1 failed test, 2 residue mismatch,
3 uncorrectable error, 4 parity event, 5 lockup, 6 lost tag, 7 failed port, 8 correctable errors, 9 poison met by firmware, 10
failed retest, 11 start of a session in the model); the spec gives no codes. -/
opaque historyKind : Nat → BitVec 8

/-- Table 17-4, HISTORY_READ: the byte that stands for a segment or structure (segments A–D are 0–3 in the model). -/
opaque historyStructure : Nat → BitVec 8

end Sys2Proof.Config
end

