-- ==== Sys2Proof/Machine/State.lean ====
section
/-! DEFINITION. The state of the block as plain data: a core's casements, scheduler, caches and units; clusters, engines,
stack ports, link modules; the escapement; the queue of waiting commands. Each field's docstring names the rule of spec/
that gives it and its reset value. -/

namespace Sys2Proof.Machine

/-! ### Values on result ports -/

/-- How an access ended (R180, R369, Table 13-6, R315). -/
inductive RStat where
  | ok | poisoned | busErr | bankOff | linkReset
  deriving DecidableEq, Repr

/-- The twelve result ports (kind S of Table 02-11). -/
inductive Port where
  | aluRes | aluMres | aluDres | lsuRes | bitRes | bruRes | dfmAcc | vxuSres | tmuStat | xmuRes | kyuRes | sysRes
  deriving DecidableEq, Repr

/-- What a value carries beside its bits: nothing, poison, residue poison, or the class its first read raises (R63, R332,
Table 12-5). -/
inductive Taint where
  | clean | poison | residue | bankOff | linkReset
  deriving DecidableEq, Repr

/-- A value on a result port: 64 bits and its taint (R28, R63). -/
structure PortVal where
  val : Word := 0
  taint : Taint := .clean
  deriving DecidableEq, Repr

/-- A 128-bit key, laid out as Table 12-1; all zeros is the NULL key (R276). -/
abbrev Key := BitVec 128

/-- The four registers of an extent (Table 09-4, R203). -/
structure Extent where
  base : Word := 0
  limit : Word := 0
  offset : Word := 0
  ctl : Word := 0
  deriving DecidableEq, Repr

/-- What an operation adds to the task's reporting registers when it lands (R94): FPC flags NX UF OF DZ NV from bit 0, the
largest source magnitude if any, saturated and flushed element counts, and sticky SAT bits. -/
structure Contrib where
  flags : BitVec 5 := 0
  rmax : Option Word := none
  nsat : Nat := 0
  nflz : Nat := 0
  sat : BitVec 8 := 0
  deriving DecidableEq, Repr

/-- A key register write that takes effect when kyu.res becomes visible (R281): destination, key, and whether the key is
lent (R287). -/
structure KeyWrite where
  dst : Nat
  key : Key := 0
  lent : Bool := false
  deriving DecidableEq, Repr

/-- What a pending result waits for before its data is there (R43, R44, R217). -/
inductive Await where
  /-- the data is there -/
  | ready
  /-- a memory access whose response has not come -/
  | access
  /-- a line fill that has not come (R233) -/
  | fill
  /-- a TLB barrier: the queued command numbers and access numbers still outstanding (R217) -/
  | barrier (cmds : List Nat)
  deriving DecidableEq, Repr

/-- A result whose delay has not elapsed, or whose data is still due (R43, R46): port, issue cycle at which it becomes
visible, number, data, its contributions, and a load's width and sign extension. -/
structure Pending where
  port : Port
  due : Nat
  id : Nat
  await : Await := .ready
  data : PortVal := {}
  contrib : Contrib := {}
  keyWrite : Option KeyWrite := none
  bytes : Nat := 8
  signed : Bool := false
  /-- physical address of a load that waits on a line fill (R233), and the bytes the store buffer held for it (R64) -/
  pa : Nat := 0
  fwdMask : BitVec 8 := 0
  fwd : Word := 0
  /-- tag and intermediate address a load was translated with (R217) -/
  trans : Option (Nat × Nat) := none
  /-- a later result of the same port has been shown: this one is never visible (R43) -/
  hidden : Bool := false
  deriving DecidableEq, Repr

/-! ### Control -/

/-- A word that waits under R44 or R45: two code words as fetched, or the one move of a trigger command. -/
inductive CodeWord where
  | code (w ext : BitVec 32)
  | move (sock : BitVec 12) (v : Word)
  deriving DecidableEq, Repr

/-- Why the word waits. -/
inductive WaitKind where
  /-- a result port's data is due and has not come (R44) -/
  | read
  /-- the unit cannot accept the trigger (R45) -/
  | trigger
  /-- the unit is busy for a fixed time: divider, datapath (R58, R168) -/
  | busy
  /-- the instruction word has not arrived (R233) -/
  | fetch
  deriving DecidableEq, Repr

structure Waiting where
  kind : WaitKind
  word : CodeWord
  deriving DecidableEq, Repr

/-- A control transfer whose delay slots have not all issued (R48): target, slots still to issue, and whether it is a call
whose return address is the word after the last slot. -/
structure Transfer where
  target : BitVec 48
  slots : Nat
  call : Bool
  deriving DecidableEq, Repr

/-- The wicket link of a call in progress (R286): wicket number, the address of the sys.wkt word, the return address, and
the saved k15 and x15. -/
structure Call where
  wicket : Nat
  at_ : BitVec 48
  ret : BitVec 48
  k15 : Key
  x15 : Extent
  deriving DecidableEq, Repr

/-- A fault that has been raised and whose frame entry has not run (R290, R291). -/
structure Raised where
  cls : BitVec 8
  async : Bool := false
  inCall : Bool := false
  wicket : Nat := 0
  deriving DecidableEq, Repr

/-- A failed store, clean write-back or accumulate-write of the task, not yet reported (R249, R250): its place in the
task's issue order, its virtual address, and whether it is an accumulate-write. -/
structure StoreFail where
  order : Nat
  va : Word
  acc : Bool
  deriving DecidableEq, Repr

/-- The port image of a frame (Table 12-7, R290): values shown, pending results with remaining delays in `due`, operand
ports, a pending transfer. Its layout in memory is not architectural. -/
structure PortImage where
  shown : List (Port × PortVal) := []
  pend : List Pending := []
  opnd : Tab Word := []
  xfer : Option Transfer := none
  /-- the word at PC is a body that COUNT = 0 passes over (R50) -/
  skip : Bool := false
  /-- the forty words that stand for it in the frame, its check among them -/
  check : List Word := []
  deriving DecidableEq, Repr

/-- One casement: every register of the task context it holds (R255, R269). -/
structure Casement where
  /-- task number held; `none` for a free casement and for the keeper (R255); reset none -/
  task : Option Nat := none
  /-- program counter, 48 bits (R72, Table 11-9); reset 0 -/
  pc : BitVec 48 := 0
  /-- issue cycles issued so far, the count delays run in (R6, R43); reset 0 -/
  icount : Nat := 0
  /-- d0–d31, 64 bits each (Table 02-11); reset 0 (R30) -/
  d : Tab Word := []
  /-- k0–k15, 128 bits each (R276); reset NULL -/
  k : Tab Key := []
  /-- which key registers hold lent keys (R287); reset 0 -/
  lent : BitVec 16 := 0
  /-- x0–x15, applied values (R202, Table 09-4); reset 0 -/
  x : Tab Extent := []
  /-- pending extent and S2CTL writes by sys.xsel, oldest first (R207); reset none -/
  xpend : List (Nat × Word) := []
  /-- S2CTL, applied value, 64 bits (Table 09-6); reset 0 -/
  s2ctl : Word := 0
  /-- BNK, 64 bits (Table 03-3); reset 0 -/
  bnk : Word := 0
  /-- TSBP, 64 bits (Table 12-6); reset 0 -/
  tsbp : Word := 0
  /-- GSEL, 64 bits (Table 02-8); reset 0x40 in each of seven entries -/
  gsel : Word := 0x0040404040404040
  /-- FLG, 64 bits: Z N C V (Table 02-10); reset 0 -/
  flg : Word := 0
  /-- RPTC, 64 bits: COUNT UNINT ACT (Table 02-14); reset 0 -/
  rptc : Word := 0
  /-- DSP, 48 bits (Table 03-8); reset 0 -/
  dsp : BitVec 48 := 0
  /-- bru.rsa, 64 bits: PTR DEPTH (Table 03-8); reset 0 -/
  rsa : Word := 0
  /-- hardware return stack, newest first, at most 32 (R74); reset empty -/
  rstack : List (BitVec 48) := []
  /-- bit-variable groups 0–63, 64 bits each, b0 read as 1 (R39, R66); reset 0 -/
  bits : Tab Word := []
  /-- armed watches by bit number, rising (R71); reset none -/
  watches : List Nat := []
  /-- operand ports by socket number, 64 bits each (R29, Table 02-11); reset 0 -/
  opnd : Tab Word := []
  /-- values shown on the result ports (R43); reset 0 -/
  shown : List (Port × PortVal) := []
  /-- pending results in trigger order (R43, R46); reset none -/
  pend : List Pending := []
  /-- FPC, 64 bits (Table 04-7); reset 0 -/
  fpc : Word := 0
  /-- RDC, 64 bits (Table 06-3); reset 0 -/
  rdc : Word := 0
  /-- ASL, 64 bits (Table 08-4); reset 0 -/
  asl : Word := 0
  /-- TFS, 64 bits (Table 09-12); reset 0 -/
  tfs : Word := 0
  /-- TFVA, 64 bits (R225); reset 0 -/
  tfva : Word := 0
  /-- TFIA, 64 bits (R225); reset 0 -/
  tfia : Word := 0
  /-- tmu.rmax, 64 bits (Table 04-11); reset 0 -/
  rmax : Word := 0
  /-- tmu.nsat, 32 bits (Table 04-11); reset 0 -/
  nsat : BitVec 32 := 0
  /-- tmu.nflz, 32 bits (Table 04-11); reset 0 -/
  nflz : BitVec 32 := 0
  /-- tmu.tstart, 64 bits: ROW SAT (Table 05-4); reset 0 -/
  tstart : Word := 0
  /-- row issue in progress of a waiting tile memory trigger (R124, R125): number of the operation, next row to issue;
  reset none -/
  rowNext : Option (Nat × Nat) := none
  /-- a frame whose lines are on their way: its number and the words of its port image (R291); reset none -/
  frame : Option (Nat × List Word) := none
  /-- wakes held through the switch to the task are let go with its first word (R262); reset no -/
  switched : Bool := false
  /-- TICKET of tmu.stat, 8 bits (Table 05-5); reset 0 -/
  ticket : BitVec 8 := 0
  /-- DFM generator registers xa xs xb xl ya ys yb yl at 0–7, 32 bits each (Table 03-11); reset 0 -/
  gen : Tab (BitVec 32) := []
  /-- dfm.fmt, 64 bits: FMT WB TAPS WC OA (Table 03-12); reset 0 -/
  dfmFmt : Word := 0
  /-- the DFM accumulator and its poison (R80, R333); reset 0 -/
  acc : PortVal := {}
  /-- v0–v15, 2,048 bits each (R158); reset 0 -/
  v : Tab (BitVec 2048) := []
  /-- poison bits of v0–v15, 32 each (R159); reset 0 -/
  vpoison : Tab (BitVec 32) := []
  /-- which poisoned slots are residue-poisoned, 32 bits each (R332); reset 0 -/
  vres : Tab (BitVec 32) := []
  /-- m0–m3, 256 bits each (R158); reset 0 -/
  m : Tab (BitVec 256) := []
  /-- VLEN, 9 bits (Table 07-1); reset 0 -/
  vlen : BitVec 9 := 0
  /-- t0–t7, 1,024 bytes each (R111); reset 0 -/
  t : Tab (BitVec 8192) := []
  /-- row poison bits of t0–t7, 16 each (R114); reset 0 -/
  tpoison : Tab (BitVec 16) := []
  /-- which poisoned rows are residue-poisoned, 16 bits each (R145, R332); reset 0 -/
  tres : Tab (BitVec 16) := []
  /-- 8-byte words of t0–t7 in the tile main file with a correctable and with an uncorrectable error not yet found, 128 bits
  each (Table 15-1); reset none -/
  tCorr : Tab (BitVec 128) := []
  tErr : Tab (BitVec 128) := []
  /-- the wicket link of a call in progress (R286); reset none -/
  call : Option Call := none
  /-- a pending control transfer (R48, R290); reset none -/
  xfer : Option Transfer := none
  /-- a word waiting under R44 or R45; reset none -/
  waiting : Option Waiting := none
  /-- a raised fault awaiting frame entry (R290); reset none -/
  raised : Option Raised := none
  /-- reads and writes the waiting word or the frame entry in hand has sent over a link, by physical address, with what
  came back (R74, R291, R292); reset none -/
  held : List (Nat × Option (RStat × List Byte)) := []
  /-- failed stores not yet reported (R249); reset none -/
  fails : List StoreFail := []
  /-- the 4 µs of R249 have elapsed for an unreported failure; reset false -/
  asyncDue : Bool := false
  /-- the task's store issue order count (R250); reset 0 -/
  stores : Nat := 0
  /-- contributions that land in the present issue cycle and are in the registers from the next one on (R94, R96);
  reset none -/
  landed : Contrib := {}
  /-- the next word is the first of a fault handler (R291); reset false -/
  first : Bool := false
  /-- a frame return of the casement waits (R292); reset false -/
  frameRet : Bool := false
  /-- the next word is a body that COUNT = 0 passes over (R50); reset false -/
  skip : Bool := false
  /-- register parity errors: d0–d31, k0–k15, bit groups, other state (Table 15-1); reset none -/
  dBad : BitVec 32 := 0
  kBad : BitVec 16 := 0
  gBad : BitVec 64 := 0
  otherBad : Bool := false
  /-- dirty bits of the eighteen image groups (R269, R270); reset 0 -/
  dirty : BitVec 18 := 0
  deriving DecidableEq, Repr

/-! ### Transfers (R193–R197) -/

/-- The outcome of a descriptor: CODE, POISONED and BYTES of its STATUS word (Table 08-8). -/
structure XResult where
  code : BitVec 8 := 0
  poisoned : Bool := false
  bytes : Nat := 0
  deriving DecidableEq, Repr

/-- One piece of a transfer: its number, offset, length, source and destination, with the tag and intermediate address each was
translated with (R217). -/
structure XPiece where
  id : Nat
  off : Nat
  len : Nat
  src : Nat
  dst : Nat
  tsrc : Option (Nat × Nat) := none
  tdst : Option (Nat × Nat) := none
  deriving DecidableEq, Repr

/-- How far a descriptor has come: enqueued; its read under way; read; its accesses under way; ended; its STATUS write under
way; STATUS written (R193–R196). -/
inductive XPhase where
  | queued | reading | read | working | ended | closing | closed
  deriving DecidableEq, Repr

/-- One enqueued descriptor: its number, sequence number, address, place in the core's enqueue order, the captured STRICT,
RANK and SIZE (R153, R186), its phase, its words once read, whether some source data was poisoned, the bytes performed
before the first failure with its code, its outcome, whether it is one that could not be read, the offsets of its accesses
outstanding (2³² + offset for a read of ACC), the pieces begun, those of an overlapping COPY translated and still to do (R195),
and the offset up to which it has been translated (R222). -/
structure XItem where
  id : Nat
  seq : BitVec 8
  addr : BitVec 48
  order : Nat
  strict : Bool
  rank : BitVec 16
  size : BitVec 16
  phase : XPhase := .queued
  words : Option (Word × Word × Word) := none
  poisoned : Bool := false
  bad : Option (Nat × BitVec 8) := none
  outcome : Option XResult := none
  unread : Bool := false
  open_ : List Nat := []
  begun : List XPiece := []
  todo : List XPiece := []
  next : Nat := 0
  deriving DecidableEq, Repr

/-- One descriptor queue (R193, Table 08-10). -/
structure XQueue where
  items : List XItem := []
  halt : Bool := false
  code : BitVec 8 := 0
  doneSeq : BitVec 8 := 0
  nextSeq : BitVec 8 := 1
  deriving DecidableEq, Repr

/-! ### Tasks and the scheduler -/

/-- The states of Table 11-1, but NONE, which is a task number with no entry. -/
inductive TaskSt where
  | ready | waiting | running
  deriving DecidableEq, Repr

/-- A task of a core (R255, R256). -/
structure Task where
  st : TaskSt
  /-- the casement it occupies; `none` while spilled -/
  loc : Option Nat
  /-- profile 0 scalar, 1 vector, 2 full (R269) -/
  prof : Nat
  /-- bank offset of its slot in 256-byte units (Table 11-7) -/
  slot : Nat
  /-- job identity, 12 bits (R282) -/
  job : BitVec 12
  /-- selection mask of the sys.wait it is in, 8 bits (R258) -/
  mask : BitVec 8 := 0
  /-- the image in its slot (R269, Table 11-10) -/
  image : Casement := {}
  /-- the slot's data is poisoned or uncorrectable (R275) -/
  imageBad : Bool := false
  /-- core cycle of its last issue or its fill (R273) -/
  lastIssue : Nat := 0
  /-- its four descriptor queues (R193) -/
  xq : Tab XQueue := []
  /-- it consumed poison and its job's end is under way (R336) -/
  stopped : Bool := false
  deriving DecidableEq, Repr

/-- Who holds the countdown timer (R263, R264). -/
inductive TimerOwner where
  | none | task (t : Nat) | detector
  deriving DecidableEq, Repr

/-! ### Memory accesses -/

/-- The agents of the mesh (R298). -/
inductive Agent where
  | core (n : Nat) | bank (n : Nat) | xmu (n : Nat) | stack (p : Nat) | link (m : Nat) | escapement
  deriving DecidableEq, Repr

/-- Where the end of an access is delivered. -/
inductive Ret where
  /-- a result port: core, casement or task holder, pending number -/
  | load (core : Nat) (task : Option Nat) (pid : Nat)
  /-- a line fill of a data or instruction cache -/
  | fill (core : Nat) (ic : Bool) (line : Nat)
  /-- a store-buffer entry -/
  | store (core : Nat) (eid : Nat)
  /-- a read or write of a waiting word or of a frame, by physical address: core, task (none: the keeper) -/
  | held (core : Nat) (task : Option Nat) (pa : Nat)
  /-- an eviction write-back -/
  | evict (core : Nat) (line : Nat)
  /-- a row of a tile memory operation -/
  | tile (core : Nat) (op : Nat) (row : Nat)
  /-- a line of a vector memory operation -/
  | vec (core : Nat) (op : Nat) (idx : Nat)
  /-- a kyu.ld: core, task, pending number (R280) -/
  | key (core : Nat) (task : Option Nat) (pid : Nat)
  /-- an access of a descriptor: core, the descriptor's number, byte offset and length in the transfer; the bytes read go to
  physical address `dst` -/
  | xmu (core id off len : Nat) (dst : Option Nat)
  /-- a request that came in over link module m, by its number there (R307, R314) -/
  | link (m : Nat) (id : Nat)
  /-- the bytes from `off` on of a GET that came in over link module m (R307) -/
  | linkGet (m : Nat) (id off : Nat)
  /-- a poison write of the escapement over a lost line (R338) -/
  | poisonWr (line : Nat)
  /-- a read of the walk with this number of the walker of cluster c (R210) -/
  | walk (c id : Nat)
  /-- nobody waits -/
  | none
  deriving DecidableEq, Repr

/-- One TCMD command in a scheduler block's queue (R266): the word, whether the core's own keeper stored it while
SCAUSE.VALID was 1, and where the end of the store is delivered. -/
structure Tcmd where
  word : Word
  fromKeeper : Bool
  ret : Ret
  deriving DecidableEq, Repr

/-- An error in a flit that its stop finds (Table 15-1): none, bad data parity, an uncorrectable header. -/
inductive FlitErr where
  | none | data | header
  deriving DecidableEq, Repr

/-- What an addend does at its engine (Table 08-3): AF of Table 08-3, 8 compare-and-swap; captured RANK, SIZE, STRICT; the
value and the compare value; a VOID names a slot and adds nothing (R155). -/
structure Addend where
  id : Nat
  pa : Nat
  af : Nat
  rank : Nat
  size : Nat
  strict : Bool
  val : Word
  cmp : Word := 0
  poison : Bool := false
  void : Bool := false
  /-- applied at once whatever its rank: an order error, already counted (R187) -/
  err : Bool := false
  /-- applied at once under a retry notice (R192) -/
  loose : Bool := false
  /-- its number when it was first sent: a resent one keeps its place before its VOID (R425) -/
  born : Option Nat := none
  /-- tag and intermediate address it was translated with (R217) -/
  trans : Option (Nat × Nat) := none
  /-- names the source over a link: SRCBLK, SRC (R155) -/
  srcblk : Nat := 0
  src : Nat := 0
  flit : FlitErr := .none
  /-- the attachment stop it takes to a stack port (R320) -/
  stop : Option (Nat × Nat) := none
  ret : Ret
  deriving DecidableEq, Repr

/-- A physical access in flight. -/
inductive MemOp where
  | read (pa len : Nat)
  | write (pa : Nat) (data : List Byte) (poison : Bool)
  /-- kyu.ld and kyu.st: a granule with its tag (R279, R280) -/
  | keyRead (pa : Nat)
  | keyWrite (pa : Nat) (key : Key) (poison : Bool)
  | ctlRead (off : Nat) (wide : Bool)
  | ctlWrite (off : Nat) (wide : Bool) (v : Word) (by_ : Requester)
  | signal (core task bit : Nat) (val : Bool) (link : Bool)
  deriving DecidableEq, Repr

/-- A request flit on the mesh (R295), with the tag and intermediate page it was translated with (R217), the attachment stop
it takes to a stack port (R320), and its number in the order of arrival there (R427). -/
structure Packet where
  id : Nat
  src : Agent
  dst : Agent
  op : MemOp
  ret : Ret
  trans : Option (Nat × Nat) := none
  stop : Option (Nat × Nat) := none
  arr : Nat := 0
  flit : FlitErr := .none
  deriving DecidableEq, Repr

/-- A response flit on the mesh (R295), with the number of its request. -/
structure Response where
  num : Nat := 0
  src : Agent
  dst : Agent
  ret : Ret
  stat : RStat
  data : List Byte := []
  flit : FlitErr := .none
  deriving DecidableEq, Repr

/-! ### Store buffer and caches -/

/-- One store-buffer entry (R64, R231): its task and order, the line's physical address, a byte mask and the bytes it
writes; or an accumulate-write; the effective type; and whether it has begun to leave. -/
structure SbEntry where
  eid : Nat
  task : Option Nat
  order : Nat
  va : Word
  line : Nat
  mask : BitVec 64 := 0
  data : BitVec 512 := 0
  addend : Option Addend := none
  /-- kyu.st: the key stored, with its tag (R280) -/
  key : Option Key := none
  cacheable : Bool
  device : Bool
  /-- a clean's write-back, counted as a store of the task (R243) -/
  clean : Bool := false
  /-- data found with bad parity is written poisoned (Table 15-1) -/
  poison : Bool := false
  leaving : Bool := false
  /-- no-allocate mode at its issue (R232) -/
  noAlloc : Bool := false
  /-- it waits for the fill of the line it allocates (R230) -/
  asked : Bool := false
  trans : Option (Nat × Nat) := none
  /-- the same of the stores merged into it (R217, R231) -/
  also : List (Nat × Nat) := []
  /-- writes of the entry that have left and are not answered, and the first failure among them -/
  open_ : Nat := 0
  bad : Option RStat := none
  /-- the task that issued it has been killed: its failure is reported to no task (R267) -/
  orphan : Bool := false
  /-- job of the task that issued it (Table 13-4) -/
  job : BitVec 12 := 0
  /-- bytes of a device store (R231) -/
  size : Nat := 8
  /-- the core's own keeper stored it while SCAUSE.VALID was 1 (R266) -/
  inTrap : Bool := false
  deriving DecidableEq, Repr

/-- One way of a cache (R228, R230, R237, R239): line address, data, dirty bit per granule, poison with the bytes
written since it was set, parity errors per granule, and whether both tag copies are bad (R238). -/
structure Line where
  addr : Nat
  data : BitVec 512
  dirty : BitVec 8 := 0
  poison : Bool := false
  since : BitVec 64 := 0
  parBad : BitVec 8 := 0
  tagBad : Bool := false
  filling : Bool := false
  /-- while it is being filled: the dirty line that was evicted from the way (R234), a number, and the tag and intermediate
  address its access was translated with (R217) -/
  victim : Option Nat := none
  fid : Nat := 0
  trans : Option (Nat × Nat) := none
  deriving DecidableEq, Repr

/-- An eviction write-back in progress (R251): line, dirty granules, data, poison, the entries of the cleans that adopted it
(R242), and whether its writes have left. -/
structure Evict where
  addr : Nat
  dirty : BitVec 8
  data : BitVec 512
  poison : Bool
  adopted : List SbEntry := []
  left : Bool := false
  open_ : Nat := 0
  bad : Option RStat := none
  deriving DecidableEq, Repr

/-- A line buffer of a DFM generator (R82): the row, as physical address ÷ 64, its data, and whether it was read poisoned. -/
structure RowBuf where
  row : Nat
  data : BitVec 512
  bad : Bool := false
  deriving DecidableEq, Repr

/-- The streaming detector (R232): current line, bytes of it written, lines completed in succession, no-allocate mode. -/
structure Stream where
  line : Option Nat := none
  mask : BitVec 64 := 0
  run : Nat := 0
  noAlloc : Bool := false
  deriving DecidableEq, Repr

/-! ### Translation -/

/-- A TLB slot (R213): tag, first intermediate address, size in bytes, first physical address, permissions R W X, ATTR,
level of the leaf. -/
structure TlbEntry where
  tag : Nat
  ia : Nat
  size : Nat
  pa : Nat
  perm : BitVec 3
  attr : BitVec 2
  level : Nat
  deriving DecidableEq, Repr

/-- What waits for a walk: a word, or the frame entry, of a casement; the XMU; or a line that no word demands (R221), with the
cache it is for, the extent that translates it and its job. -/
inductive WalkFor where
  | word (k : Nat)
  | xmu
  | ahead (ic : Bool) (ext : Extent) (job : BitVec 12)
  deriving DecidableEq, Repr

/-- A miss of a core that waits for a walk (R213): its number, what waits, tag, root, intermediate address; the fault once the
walk has ended in one (class, level, WBE). -/
structure Walk where
  id : Nat := 0
  use : WalkFor
  tag : Nat
  root : Nat
  ia : Nat
  fault : Option (BitVec 8 × Nat × Bool) := none
  deriving DecidableEq, Repr

/-- How a walk ends: a leaf slot, or a fault with its class, level and WBE. -/
inductive WalkRes where
  | leaf (e : TlbEntry)
  | fault (cls : BitVec 8) (level : Nat) (wbe : Bool)
  deriving DecidableEq, Repr

/-- One of the walks of a cluster's walker (R210, R213): its number, the core it was begun for, tag, root, intermediate address,
the WALK_ERR_MODE it began under (R226), the level it reads and that level's table, the level-3 entry whose contiguous group it
reads (R212), and its end. -/
structure WalkJob where
  id : Nat
  core : Nat
  tag : Nat
  root : Nat
  ia : Nat
  mode : Bool
  level : Nat := 1
  table : Nat := 0
  entry : Option Nat := none
  res : Option WalkRes := none
  deriving DecidableEq, Repr

/-- A queued TLB invalidation command (R215, R216): number, kind (0 ADDR 1 TAG 2 ALL), scope (0 CORE 1 CLUSTER 2 BLOCK),
tag, intermediate address, and the numbers of the commands it absorbed. -/
structure Tlbi where
  num : Nat
  kind : Nat
  scope : Nat
  tag : Nat
  ia : Nat
  absorbed : List Nat := []
  /-- tasks whose commands it carries out; none: the keeper -/
  owners : List (Option Nat) := []
  deriving DecidableEq, Repr

/-! ### Units of a core -/

/-- A VXU operation in flight (R168): casement; the registers it writes, with their value, poisoned slots and
residue-poisoned slots; the mask register it writes; its contributions. -/
structure VxuOp where
  case : Nat
  vregs : List (Nat × BitVec 2048 × BitVec 32 × BitVec 32) := []
  mreg : Option (Nat × BitVec 256) := none
  contrib : Contrib := {}
  /-- a later trigger has read what it writes (R95) -/
  chained : Bool := false
  deriving DecidableEq, Repr

/-- A tile memory operation in its data phase, with the rows that have issued so far (R124): its number, casement, tile, whether
it loads and whether transposed, the latched shape, the rows it covers [lo, hi), whether they end the operation (R125, R127), accesses outstanding over a link, what has
come (number, outcome, bytes), and for each access its row and its place there, or for a store its virtual address and place
in the task's issue order. -/
structure TileOp where
  op : Nat
  case : Nat
  tile : Nat
  load : Bool
  transposed : Bool
  shape : Word
  lo : Nat
  hi : Nat
  final : Bool
  open_ : List Nat
  got : List (Nat × RStat × List Byte) := []
  dest : List (Nat × List (Nat × Nat)) := []
  deriving DecidableEq, Repr

/-- A vector memory operation in its data phase (R173): casement, register, whether it loads, element width in bits,
numbers of the accesses outstanding over a link, what has come (number, outcome, bytes), and where each access's bytes go:
for a load (element, byte of the access) pairs, for a store its virtual address and place in the task's issue order. -/
structure VecOp where
  op : Nat
  case : Nat
  reg : Nat
  load : Bool
  width : Nat
  open_ : List Nat
  got : List (Nat × RStat × List Byte) := []
  dest : List (Nat × List (Nat × Nat)) := []
  deriving DecidableEq, Repr

/-- The kinds of array operation (R118). -/
inductive ArrKind where
  | mma (c a b : Nat) (z ep epm : Bool) (t : Nat)
  | mmc (c a b : Nat) (z : Bool) (e : Nat)
  | zero (d : Nat)
  | ew (d a b op : Nat)
  | cvt (d a : Nat)
  | red (d a axis op : Nat)
  deriving DecidableEq, Repr

/-- An operation in the array queue (R141, R143): casement, kind, latched shape and rounding attribute, whether its
operands have been copied and what they held, rows that derive from poisoned ones, whether compute has started. -/
structure ArrOp where
  case : Nat
  kind : ArrKind
  shape : Word
  rm : BitVec 3
  filled : Bool := false
  opA : BitVec 8192 := 0
  opB : BitVec 8192 := 0
  opT : BitVec 8192 := 0
  poison : BitVec 16 := 0
  /-- the poisoned rows that come from a residue mismatch (R145) -/
  residue : BitVec 16 := 0
  computing : Bool := false
  /-- a later array trigger reads a tile it writes (R95) -/
  chained : Bool := false
  deriving DecidableEq, Repr

/-- A wicket (R284): entry address, granted key, extent image. -/
structure Wicket where
  entry : BitVec 48
  key : Key
  ext : Extent
  deriving DecidableEq, Repr

/-- One core (R11, R255): its casements, scheduler block, caches, TLB, store buffer and units. -/
structure Core where
  /-- casements 0–7 and the keeper, 8 (R255); reset all free -/
  cases : Tab Casement := []
  /-- the casement holding the issue slot (R256); reset none -/
  running : Option Nat := none
  /-- the ready queue, head first, task numbers (R256); reset empty -/
  readyQ : List Nat := []
  /-- tasks 0–63 that are not NONE (R255); reset none -/
  tasks : List (Nat × Task) := []
  /-- core cycles, the order of last issues (R273); reset 0 -/
  cycle : Nat := 0
  /-- cycles for which the divider stays occupied (R58); reset 0 -/
  divLeft : Nat := 0
  /-- cycles for which the VXU datapath stays occupied (R168); reset 0 -/
  vxuLeft : Nat := 0
  /-- countdown timer COUNT, 32 bits (Table 11-4); reset 0 -/
  tmrCount : BitVec 32 := 0
  /-- owner of the timer (R263); reset none -/
  tmrOwner : TimerOwner := .none
  /-- SCTL.KEN (Table 11-6); reset 0 -/
  ken : Bool := false
  /-- SCTL.TEXCL (Table 11-6); reset 0 -/
  texcl : Bool := false
  /-- SCTL.OVFBLK, 16 bits (Table 11-6); reset 0 -/
  ovfblk : BitVec 16 := 0
  /-- SPA, 64 bits (Table 11-6); reset 0 -/
  spa : Word := 0
  /-- command queue, at most two (R266); reset empty -/
  tcmdQ : List Tcmd := []
  /-- TSTAT.DROP (Table 11-8); reset 0 -/
  tsDrop : Bool := false
  /-- TSTAT.CODE, 8 bits (Table 11-8); reset 0 -/
  tsCode : BitVec 8 := 0
  /-- TSTAT.TASK, 6 bits (Table 11-8); reset 0 -/
  tsTask : BitVec 6 := 0
  /-- SCAUSE, 64 bits (Table 11-11); reset 0 -/
  scause : Word := 0
  /-- issue cycles of the keeper in the current trap (R275); reset 0 -/
  keeperIssues : Nat := 0
  /-- the keeper's entry address and job from its KSTART record (R273, R282); reset 0 -/
  keeperPc : BitVec 48 := 0
  keeperJob : BitVec 12 := 0
  /-- tasks woken while wakes were held (R262); reset none -/
  woken : List Nat := []
  /-- a hardware fill under way: the spilled task and the casement it is filled into (R273); reset none -/
  taskFill : Option (Nat × Nat) := none
  /-- LOCK_CAUSE, 4 bits; not 0: locked up (R294, Table 12-9); reset 0 -/
  lockCause : BitVec 4 := 0
  /-- store buffer, oldest first, at most 16 entries (R64); reset empty -/
  sbuf : List SbEntry := []
  /-- data cache, set × 4 + way (R228); reset all invalid -/
  dcache : List (Nat × Line) := []
  /-- instruction cache, set × 4 + way (R228); reset all invalid -/
  icache : List (Nat × Line) := []
  /-- data-cache LFSR, 16 bits (R234); reset n + 1 -/
  dlfsr : BitVec 16 := 0
  /-- instruction-cache LFSR, 16 bits (R234); reset 0xFFFF − n -/
  ilfsr : BitVec 16 := 0
  /-- streaming detector (R232); reset off -/
  stream : Stream := {}
  /-- line of the previous cacheable load miss (R233); reset none -/
  lastMiss : Option Nat := none
  /-- evictions in progress (R251); reset none -/
  evicts : List Evict := []
  /-- fills whose data has arrived over a link: instruction?, line, outcome, data (R233); reset none -/
  arrived : List (Bool × Nat × RStat × List Byte) := []
  /-- allocations that stepped the LFSR and wait for a way (R234): instruction?, line, LFSR[1:0] after the step; reset none -/
  stalled : List (Bool × Nat × Nat) := []
  /-- core TLB, at most 64 (R213); reset empty -/
  tlb : List TlbEntry := []
  /-- misses of this core that wait for a walk (R213); reset none -/
  walks : List Walk := []
  /-- TLB invalidation queue, at most 8 (R216); reset empty -/
  tlbiQ : List Tlbi := []
  /-- numbers given to TLB invalidation commands (R217); reset 0 -/
  tlbiNum : Nat := 0
  /-- commands done whose translated accesses have not all arrived: command, owners, accesses (R217); reset none -/
  tlbiOpen : List (Nat × List (Option Nat) × List Nat) := []
  /-- array queue, head first, at most 3 (R141); reset empty -/
  arrayQ : List ArrOp := []
  /-- tile memory operations in their data phase, at most 4 (R141); reset none -/
  tileOps : List TileOp := []
  /-- vector memory operations in their data phase, at most 4 (R174); reset none -/
  vecOps : List VecOp := []
  /-- VXU operations not complete, oldest first (R168); reset none -/
  vxuOps : List VxuOp := []
  /-- the DFM line buffers of X and Y, at most two each, most recent first (R82); reset none -/
  dfmX : List RowBuf := []
  dfmY : List RowBuf := []
  /-- descriptors enqueued so far (R193); reset 0 -/
  xmuOrder : Nat := 0
  /-- the keeper's descriptor queues (R193; DEDUCED: it is given queues of its own); reset empty -/
  kxq : Tab XQueue := []
  /-- killed tasks whose descriptors have not all completed (R267): registers and queues; reset none -/
  graves : List Task := []
  /-- W0–W15 that are not empty (R284); reset all empty -/
  wickets : List (Nat × Wicket) := []
  /-- the core has not left the idle state it came on in (R264); reset true -/
  fresh : Bool := true
  /-- reported to MP3 as eligible for a test slot (R264); reset false -/
  eligible : Bool := false
  /-- in a test slot (R265); reset false -/
  underTest : Bool := false
  /-- hardware faults present in the arithmetic units: DFM, array, VXU (R332); reset none -/
  badDfm : Bool := false
  badArray : Bool := false
  badVxu : Bool := false
  /-- parity errors on the bonds between the core and its bank (Table 15-1); reset none -/
  badBond : Bool := false
  deriving DecidableEq, Repr

/-- Core n right after reset (R234: the LFSR values are n + 1 and 0xFFFF − n). -/
def Core.reset (n : Nat) : Core :=
  { dlfsr := BitVec.ofNat 16 (n + 1), ilfsr := BitVec.ofNat 16 (0xFFFF - n) }

/-! ### Clusters, engines, stack ports -/

/-- States of a cluster domain (Table 16-8). -/
inductive DomSt where
  | off | waking | on | fencing
  deriving DecidableEq, Repr

/-- One cluster: stop registers (Table 20-5), shared TLB, test sequencer (R339). -/
structure Cluster where
  /-- CSTAT.DSTATE (Table 20-5); reset OFF -/
  dst : DomSt := .off
  /-- core i under test in the slot in progress (CSTAT.SLOT, SLOTCORE); reset none -/
  slot : Option Nat := none
  /-- segment of the slot in progress (Table 15-2); reset 0 -/
  slotSeg : Nat := 0
  /-- CERR: CE, PAR_ERR, WB_ERR, ORDER_ERR, 16 bits each (Table 20-5); reset 0 -/
  ce : BitVec 16 := 0
  parErr : BitVec 16 := 0
  wbErr : BitVec 16 := 0
  orderErr : BitVec 16 := 0
  /-- CERR2: UE, DROOP 16 bits, TAGLOST 8 bits (Table 20-5); reset 0 -/
  ue : BitVec 16 := 0
  droop : BitVec 16 := 0
  tagLost : BitVec 8 := 0
  /-- droop events in the current beat (Table 16-4); reset 0 -/
  droopBeat : BitVec 16 := 0
  /-- cluster TLB, at most 2,048 (R213); reset empty -/
  tlb : List TlbEntry := []
  /-- the cluster's walker, at most 8 walks (R213); reset none -/
  walker : List WalkJob := []
  /-- test list of the beat: core of the cluster, segment (R339); reset empty -/
  testList : List (Nat × Nat) := []
  /-- retests due: core of the cluster, segment (R342); reset none -/
  retests : List (Nat × Nat) := []
  /-- age of each core's and segment's last pass in beats, core × 4 + segment (R343); reset none passed -/
  ages : Tab (BitVec 16) := []
  /-- a droop hold is in force (R364); reset false -/
  droopHold : Bool := false
  /-- the held addends of the fencing have been completed: the stop discards the responses that arrive (R369); reset false -/
  released : Bool := false
  deriving DecidableEq, Repr

/-- Round state of one element (R187): physical address, element size in bytes, NEXT, SIZE, and the ranks a retry notice has
passed over, which are still to come (R192). The round is open while NEXT is not 0. -/
structure Round where
  pa : Nat
  bytes : Nat
  next : Nat
  size : Nat
  late : List Nat := []
  deriving DecidableEq, Repr

/-- An accumulate engine (R185, R189): ready addends in order, held addends, round states, and the strict ranked addends
that came over a link and were applied: address, RANK, SIZE, SRCBLK, SRC, as a VOID names them (R155). -/
structure Engine where
  ready : List Addend := []
  held : List Addend := []
  rounds : List Round := []
  applied : List (Nat × Nat × Nat × Nat × Nat) := []
  deriving DecidableEq, Repr

/-- States of a stack port (Table 14-5), with the fencing before a switch-off (R327). -/
inductive StackSt where
  | off | training | up | retrain | failed
  deriving DecidableEq, Repr

/-- One stack port (R318–R329). -/
structure Stack where
  /-- SPSTAT.STATE (Table 14-5); reset OFF -/
  st : StackSt := .off
  /-- SPSTAT.RATE, 2 bits; reset 0 -/
  rate : BitVec 2 := 0
  /-- SPSTAT.SCAP, 4 bits; reset 0 -/
  scap : BitVec 4 := 0
  /-- SPSTAT.RETRAINS, 16 bits; reset 0 -/
  retrains : BitVec 16 := 0
  /-- SPCNT: CE, UE, ORDER_ERR, SCRUBS, 16 bits each; reset 0 -/
  ce : BitVec 16 := 0
  ue : BitVec 16 := 0
  orderErr : BitVec 16 := 0
  scrubs : BitVec 16 := 0
  /-- DGSTAT: BUSY, DIRTY, POISONED, MARKS (Table 14-5); reset 0 -/
  dgBusy : Bool := false
  dgDirty : Bool := false
  dgPoisoned : Bool := false
  dgMarks : BitVec 8 := 0
  /-- requests in arrival order (R325, R427); reset empty -/
  queue : List Packet := []
  /-- the port's accumulate engine (R184) -/
  eng : Engine := {}
  /-- the port's retry notice is held (R325); reset false -/
  notice : Bool := false
  /-- MODEL'S OWN: requests numbered below this were held by the last retrain (R325); reset 0, DESIGN CHOICE -/
  mark : Nat := 0
  /-- beats at which the last retrains began, newest first (R326); reset none -/
  recent : List Nat := []
  /-- attachment channels fenced before a switch-off (R327); reset false -/
  fenced : Bool := false
  /-- SP0 has trained after a switch-on and is not UP before the pattern library is back (R327); reset false -/
  trained : Bool := false
  /-- the port refreshes at the doubled rate, its stack above 85 °C (R324); reset false -/
  hot : Bool := false
  deriving DecidableEq, Repr

/-! ### Link modules -/

/-- States of a link module (Table 13-8). -/
inductive LinkSt where
  | off | training | up | resetting
  deriving DecidableEq, Repr

/-- An outbound request not yet answered (R307, R315): its number, the message, where its end is delivered, the tag and
page it was translated with, and whether it has been sent. -/
structure LinkReq where
  id : Nat
  msg : Msg
  ret : Ret
  trans : Option (Nat × Nat) := none
  sent : Bool := false
  deriving DecidableEq, Repr

/-- An inbound request handed to the mesh and not yet answered (R306, R307, R316): its parts outstanding, the worst
outcome so far, the bytes read, the poisoned 64-byte units among them (R334), and whether its answer is to be discarded. -/
structure Inbound where
  id : Nat
  msg : Msg
  left : Nat
  bad : Option RStat := none
  data : List Byte := []
  mask : Nat := 0
  dead : Bool := false
  deriving DecidableEq, Repr

/-- One link module (R300–R317). -/
structure Link where
  /-- LMSTAT.STATE (Table 13-8); reset OFF -/
  st : LinkSt := .off
  /-- LMSTAT.ROLE, 2 bits; reset 0 -/
  role : BitVec 2 := 0
  /-- LMSTAT.RATE, 3 bits; reset 0 -/
  rate : BitVec 3 := 0
  /-- LMSTAT.DEGR; reset 0 -/
  degr : Bool := false
  /-- retry notice held: LMSTAT.RETRY (R313); reset 0 -/
  retry : Bool := false
  /-- LMSTAT.HSPLIT, 2 bits; reset 0 -/
  hsplit : BitVec 2 := 0
  /-- LMSTAT.RTO, 8 bits; reset 0, set to 64 at start-up -/
  rto : BitVec 8 := 0
  /-- LMSTAT.RQTO, 16 bits; reset 0, set to 40 at start-up -/
  rqto : BitVec 16 := 0
  /-- LMCNT: REPLAY, TMO, LATE, RESETS, 16 bits each (Table 13-9); reset 0 -/
  replays : BitVec 16 := 0
  tmo : BitVec 16 := 0
  late : BitVec 16 := 0
  resets : BitVec 16 := 0
  /-- next SEQ to send, 24 bits (R312); reset 0 -/
  txSeq : BitVec 24 := 0
  /-- next SEQ expected, 24 bits (R312); reset 0 -/
  rxSeq : BitVec 24 := 0
  /-- SEQ up to which LACK has been sent (R312); reset 0 -/
  lacked : BitVec 24 := 0
  /-- a gap was seen and NAK sent (R312); reset false -/
  gap : Bool := false
  /-- the core cycle in which the last NAK was sent (R312); reset 0 -/
  nakAt : Nat := 0
  /-- SEQ that the replays counted in `stalls` began at (R312); reset 0 -/
  stallSeq : BitVec 24 := 0
  /-- messages waiting for credit or for room, oldest first (R310, R312); reset none -/
  waiting : List Msg := []
  /-- the replay partition: messages sent and not covered by a LACK (R312); reset none -/
  replay : List Msg := []
  /-- messages put on the link, oldest first: what the peer sees; reset none -/
  wire : List Msg := []
  /-- credits held for each sequenced channel, 32-byte units (R310); reset 0 -/
  credits : Tab Nat := []
  /-- consecutive replays without a LACK covering the oldest SEQ (R312); reset 0 -/
  stalls : Nat := 0
  /-- outbound requests not yet answered, in SEQ order (R315); reset none -/
  reqs : List LinkReq := []
  /-- inbound requests accepted and not yet handed to the mesh: a SIGNAL that waits for earlier writes of its source, and what
  came behind it on its channel (R306); reset none -/
  held : List Msg := []
  /-- messages of channel 6 accepted and not yet performed, behind an HREQ that is not performed either (R314); reset none -/
  hostHeld : List Msg := []
  /-- inbound requests handed to the mesh and not yet performed (R306, R316); reset none -/
  inbound : List Inbound := []
  /-- VOIDs owed under R316, in original order, which go before any other traffic; reset none -/
  owed : List Msg := []
  /-- next RTAG; reset 0 -/
  rtag : BitVec 16 := 0
  deriving DecidableEq, Repr

/-! ### The escapement -/

/-- A management processor (R353, Table 16-2). -/
structure Mp where
  /-- MPSTAT.STATE: 0 in service, 1 restarting, 2 starting after RESET_N; reset 0 -/
  st : BitVec 2 := 0
  /-- MPSTAT.CAUSE; reset 3 -/
  cause : BitVec 2 := 3
  /-- MPSTAT.RESTARTS, 8 bits; reset 0 -/
  restarts : BitVec 8 := 0
  /-- beats of the restarts that count toward the eighth (R355), newest first; reset none -/
  recent : List Nat := []
  /-- times it did not report ready in this start-up (R394); reset 0 -/
  starts : Nat := 0
  /-- restarts of MP3 not yet recorded, whether each is an eighth, oldest first (R355); reset none -/
  unrecorded : List Bool := []
  /-- its private SRAM, 256 KiB: the image loaded from the image area, bytes other than 0xFF (R352, R353); reset empty -/
  sram : List Host.Cell := []
  /-- the load of the image area whose image it runs (R400, R401); reset 0 -/
  image : Nat := 0
  /-- the pattern library that image goes with: SHA-384 and size in its header (R398, R404); reset 0 -/
  libHash : BitVec 384 := 0
  libSize : Nat := 0
  deriving DecidableEq, Repr

/-- The states of a mailbox (Table 17-1). -/
inductive MbSt where
  | idle | posted | taken | done | timeout | error
  deriving DecidableEq, Repr

/-- One mailbox (Table 17-1): header fields, 496 payload bytes, doorbell. -/
structure Mailbox where
  st : MbSt := .idle
  ack : Bool := false
  status : BitVec 8 := 0
  prog : BitVec 16 := 0
  seq : BitVec 16 := 0
  opcode : BitVec 16 := 0
  cls : BitVec 8 := 0
  len : BitVec 16 := 0
  payload : Tab Byte := []
  /-- doorbell latch (R380); reset 0 -/
  bell : Bool := false
  /-- the deadline timer is running (R375); reset false -/
  timer : Bool := false
  /-- mgmt_clk cycle of the last progress report (R377); reset none -/
  progAt : Option Nat := none
  deriving DecidableEq, Repr

/-- A taken request's work (R381): owner, service class (0 U, 1 N, 2 L), opcode, first eight request bytes and SNAPSEL as
taken, and the result once the command has acted: STATUS and reply; `hold` while the command has acted and its completion
condition has not come (class L). -/
structure Work where
  owner : MpId
  cls : Nat := 1
  snapSel : Bool := false
  op : BitVec 16
  arg : Word
  result : Option (BitVec 8 × List Byte) := none
  hold : Bool := false
  deriving DecidableEq, Repr

/-- The record MP2 keeps of a mailbox's last request (R379). -/
structure MbRecord where
  seq : BitVec 16
  opcode : BitVec 16
  status : BitVec 8
  reply : List Byte
  deriving DecidableEq, Repr

/-- The mailbox hardware (R371–R382). -/
structure Mail where
  /-- mailboxes 0–33 (Table 17-1); reset IDLE, zero -/
  boxes : Tab Mailbox := []
  /-- MBSTAT.REJ, 14 bits (Table 17-4a); reset 0 -/
  rej : BitVec 14 := 0
  /-- MBSTAT.RACE, 16 bits (Table 17-4a); reset 0 -/
  race : BitVec 16 := 0
  /-- work in hand by mailbox (R381); reset none -/
  work : List (Nat × Work) := []
  /-- MP2's records of last requests (R379); reset none -/
  records : List (Nat × MbRecord) := []
  /-- last mailbox taken in each class (R381); reset none -/
  lastTaken : List (Nat × Nat) := []
  deriving DecidableEq, Repr

/-- A snapshot buffer (R360). -/
structure Snapshot where
  beat : Word := 0
  vcore : BitVec 16 := 0
  power : BitVec 16 := 0
  thermal : List (BitVec 16) := []
  current : List (BitVec 16) := []
  droop : List (BitVec 16) := []
  deriving DecidableEq, Repr

/-- The beat generator and the snapshots (R356–R360, Table 16-3). -/
structure Beat where
  en : Bool := false
  lock : Bool := false
  snapSel : Bool := false
  lastErr : BitVec 17 := 0
  capt : BitVec 16 := 0
  miss : BitVec 16 := 0
  count : Word := 0
  /-- an edge has been captured since the previous boundary (R358); reset false -/
  captured : Bool := false
  /-- consecutive captures with |e| ≤ 500 (R358); reset 0 -/
  run : Nat := 0
  /-- mgmt_clk cycles by which the next boundary and every later one has been moved in all (R358); reset 0 -/
  shift : Int := 0
  /-- the beat generator runs (R392); reset false -/
  running : Bool := false
  snapA : Snapshot := {}
  snapB : Snapshot := {}
  /-- bit p: stack p reports a temperature above 85 °C, as it stood at the last boundary (R324); reset 0 -/
  hotStacks : BitVec 8 := 0
  deriving DecidableEq, Repr

/-- Power, voltage and braking (R361–R367, Table 16-6). -/
structure Power where
  plim : BitVec 11 := 1400
  /-- limit stored and applied at MP1's next beat step (R383); reset none -/
  plimNext : Option (BitVec 11) := none
  pmeas : BitVec 11 := 0
  duty : BitVec 4 := 0
  vtgt : BitVec 10 := 0
  talarm : Bool := false
  ttrip : Bool := false
  iguard : Bool := false
  tlim : BitVec 11 := 1400
  /-- beats since a droop event (R362); reset 0 -/
  calm : Nat := 0
  /-- the current guard withholds array acceptance (R364); reset false -/
  guardStop : Bool := false
  /-- the current guard has acted in the present beat (Table 16-6); reset false -/
  guardActed : Bool := false
  /-- ICEIL, A (R364, Table 18-5); reset 0, loaded at start-up -/
  iceil : BitVec 11 := 0
  /-- SHUTTER_N is low (R365); reset false -/
  pinLow : Bool := false
  /-- the shutter path is active (PWRSTAT.SHUT) (R365); reset false -/
  shut : Bool := false
  /-- VSRAM and VCORE targets last written over AVSBus (R361); reset 0 -/
  vsram : BitVec 10 := 0
  /-- invalid repeats of the AVSBus frame in progress (R361); reset 0 -/
  avsRetry : Nat := 0
  /-- AVSBus failures since RESET_N (Table 17-4); reset 0 -/
  avsFail : BitVec 32 := 0
  /-- what the regulator last reported: VCORE mV (R361); reset 0 -/
  vread : BitVec 16 := 0
  /-- VCORE target the regulator last accepted, mV (R361); reset 0 -/
  vcore : BitVec 16 := 0
  /-- other values last reported, by rail × 4: 0 voltage, 1 current, 2 temperature, 3 status (Table 16-5); reset 0 -/
  avsRead : Tab (BitVec 16) := []
  /-- MP1 holds its VCORE target after a failed frame (R361); reset false -/
  avsHold : Bool := false
  /-- core_clk cycles since the shutter path released, at most 375,000 (R366); reset 375,000: released -/
  lift : Nat := 375000
  deriving DecidableEq, Repr

/-- States of the drain (Table 15-5). -/
inductive DrainSt where
  | run | draining | drained
  deriving DecidableEq, Repr

/-- The drain sequencer and the fault summary (R348–R350, Table 20-4). -/
structure Drain where
  st : DrainSt := .run
  timeout : Bool := false
  cause : BitVec 8 := 0
  firstUnit : BitVec 16 := 0
  tbeat : BitVec 32 := 0
  /-- step 6 of R349 has run; reset false -/
  discarded : Bool := false
  /-- the drain was entered at start-up with cause HISTORY (R394); reset false -/
  atStart : Bool := false
  /-- FAULT_N is driven low (R348, R394); reset false -/
  faultN : Bool := false
  /-- the core cycle of the first trigger (R422); reset 0 -/
  at_ : Nat := 0
  jobEnd : BitVec 16 := 0
  locks : BitVec 16 := 0
  perm : BitVec 16 := 0
  trans : BitVec 16 := 0
  lastJob : Word := 0
  deriving DecidableEq, Repr

/-- A log record (Table 17-5). -/
structure LogRec where
  index : Nat
  beat : Word
  kind : BitVec 16
  unit : BitVec 16
  detail : Word
  pc : Word
  addr : Word
  /-- mgmt_clk cycle within the beat: the model keeps no such clock, a free value -/
  cycle : BitVec 32 := 0
  deriving DecidableEq, Repr

/-- A history record (R346): unit, kind, segment or structure, session, beat of session, powered beats; whether it is a
failed test or residue mismatch (R347); the count of a record of correctable errors; whether it has been written to flash. -/
structure HistRec where
  unit : BitVec 16
  kind : BitVec 8
  seg : BitVec 8
  session : BitVec 32
  beat : Word
  powered : Word
  failedTest : Bool
  flushed : Bool
  count : BitVec 32 := 0
  deriving DecidableEq, Repr

/-- A report of consumed poison at the job sequencer (R336). -/
structure JobReport where
  job : BitVec 12
  cls : BitVec 8
  core : Nat
  task : Nat
  pc : BitVec 48
  addr : Word
  deriving DecidableEq, Repr

/-- Jobs (R282–R283, R336, R384). -/
structure Jobs where
  /-- identities issued since RESET_N (R384); reset 0 -/
  issued : Nat := 0
  /-- jobs open: identity, nonce (R384); reset none -/
  open_ : List (BitVec 12 × Word) := []
  /-- reports awaiting the job sequencer (R336); reset none -/
  reports : List JobReport := []
  deriving DecidableEq, Repr

/-- One scheduled digest region (R329, Table 17-4). -/
structure Region where
  base : Nat
  length : Nat
  deriving DecidableEq, Repr

/-- Digests (R329). -/
structure Digest where
  interval : BitVec 16 := 16
  regions : List Region := []
  /-- marks since the last digest started; reset 0 -/
  marks : Nat := 0
  /-- digests completed since RESET_N; reset 0 -/
  number : Nat := 0
  /-- that number when the regions were last scheduled: none of them has a digest until it grows; reset 0 -/
  since : Nat := 0
  /-- port digests by region × 8 + port; reset none -/
  values : Tab Word := []
  /-- DIRTY and POISONED of the last digest, by region (R329); reset 0 -/
  flags : Tab (BitVec 2) := []
  /-- contents digested so far are those of the mark: storage bytes are read at completion; reset false -/
  busy : Bool := false
  dirty : List Nat := []
  deriving DecidableEq, Repr

/-- Settings and start-up (R391–R404, Table 18-4). -/
structure Start where
  phase : BitVec 4 := 0
  slot : BitVec 1 := 0
  fallback : Bool := false
  libReady : Bool := false
  libBad : Bool := false
  setCopy : BitVec 1 := 0
  setDef : Bool := false
  rollCnt : BitVec 7 := 0
  session : BitVec 32 := 0
  /-- BLK_READY is high (R393); reset false -/
  ready : Bool := false
  /-- the XSPI pins are high-impedance (R390); reset true -/
  xspiHiZ : Bool := true
  /-- the domains of the DOMAINS setting as this start-up found it (R391, R393); reset 0 -/
  domains : BitVec 184 := 0
  /-- number of the next record of the history area (R403); reset 0, read at start-up -/
  histNext : Nat := 0
  /-- MP0's copy of the settings: key, value bytes (R397); reset none -/
  settings : List (Nat × List Byte) := []
  /-- the contents of SP0's pattern carve-out (R323, R404): the library's bytes other than 0xFF, by offset in it; reset none -/
  patterns : List Host.Cell := []
  /-- the scrub period in hours, the setting SCRUB_H (R322); reset 0, loaded at start-up -/
  scrubH : BitVec 8 := 0
  /-- generation of the current copy (R395); reset 0 -/
  generation : BitVec 32 := 0
  /-- every trained port has finished its zero fill (R393); reset false -/
  filled : Bool := false
  /-- MP3 has read and classified the history (R391, R393); reset false -/
  classified : Bool := false
  /-- clean beats run by the image on all four processors (R400); reset 0 -/
  cleanBeats : Nat := 0
  /-- number of the image area's present contents, counted from RESET_N (R352, R400); reset 0 -/
  imageNo : Nat := 0
  /-- their firmware version, rollback version, and the SHA-384 and size of their pattern library (R398); reset 0 -/
  version : BitVec 32 := 0
  rollVer : BitVec 7 := 0
  libHash : BitVec 384 := 0
  libSize : Nat := 0
  /-- a fallback is to be logged once MP3 is in service (R399); reset false -/
  fallbackDue : Bool := false
  /-- start-up has still to do what follows the reports of all four processors (R391): how ports and modules will train; reset
  none -/
  left : Option (List Training × List (Option (BitVec 3))) := none
  /-- slot and version of each mailbox's last successful commit since RESET_N (Table 17-4); reset none -/
  commits : List (Nat × BitVec 1 × BitVec 32) := []
  /-- update session: mailbox, target slot, blocks erased (R401); reset none -/
  session_ : Option (Nat × BitVec 1 × List Nat) := none
  /-- host window base and length (R314, Table 18-5); reset 0 -/
  winBase : Nat := 0
  winLen : Nat := 0
  deriving DecidableEq, Repr

/-- Users of the flash, in order of priority (R402). -/
inductive FlashUser where
  | fault | update | pattern
  deriving DecidableEq, Repr

/-- A flash operation: a read burst, a page program, a block erase (R402). -/
inductive FlashOp where
  | read
  | program (addr : Nat) (data : List Byte)
  | erase (addr : Nat)
  deriving DecidableEq, Repr

/-- The flash port (R402, R403). -/
structure FlashPort where
  /-- operation in progress; reset none -/
  busy : Option (FlashUser × FlashOp) := none
  /-- an erase suspended for a user of higher priority; reset none -/
  suspended : Option (FlashUser × FlashOp) := none
  /-- operations waiting; reset none -/
  waiting : List (FlashUser × FlashOp) := []
  /-- bursts of the history area MP3 has still to read (R391, R402); reset 0 -/
  histLeft : Nat := 0
  /-- bursts of the pattern library still to be fetched (R402, R404); reset 0 -/
  fetchLeft : Nat := 0
  /-- an update operation has failed since the command in hand began (Table 17-4, FLASH_ERR); reset false -/
  failed : Bool := false
  /-- the flash command MP0 carries out: mailbox and opcode (R381); reset none -/
  job : Option (Nat × Nat) := none
  deriving DecidableEq, Repr

/-- The I3C target (R387). -/
structure I3c where
  /-- static address, 7 bits; reset 0, read from the settings at start-up -/
  static : BitVec 7 := 0
  /-- dynamic address; reset none -/
  dynamic : Option (BitVec 7) := none
  /-- offset last written, 16 bits; reset 0 -/
  offset : BitVec 16 := 0
  /-- in-band interrupts enabled by ENEC; reset false -/
  ibi : Bool := false
  /-- in-band interrupts raised and not yet taken by the controller: mandatory bytes; reset none -/
  raised : List (BitVec 8) := []
  /-- bytes the last private read returned; reset none -/
  readData : List Byte := []
  deriving DecidableEq, Repr

/-- The signals of the block (Table 19-1), but for REFCLK and the inputs of the test access port. -/
inductive Signal where
  | resetN | shutterN | beatIn | lockupN | faultN | thermtripN | blkReady | i3cScl | i3cSda | xspiSck | xspiCsN | xspiResetN
  | xspiDq (i : Fin 8) | xspiDqs | avsClk | avsMdata | avsSdata | tdo | sp (port : Fin 8) | lm (m : Fin 16)
  deriving DecidableEq, Repr

/-- What the block does at a signal (Table 19-2): nothing; an open-drain output it does not pull; a level it holds; an input it
reads, or ignores; a bus or a clock that runs; a PHY without power, its stack or peer held in reset and quiet, or trained. -/
inductive PinState where
  | highZ | released | low | high | input | ignored | active | phyOff | phyHeld | phyUp
  deriving DecidableEq, Repr

/-- The instructions of the test access port (R415). -/
inductive TapInstr where
  | bypass | samplePreload | extest | idcode | highz
  deriving DecidableEq, Repr

/-- The test access port (R415, R416). -/
structure Tap where
  /-- instruction in force; reset IDCODE (IEEE 1149.1) -/
  ir : TapInstr := .idcode
  /-- Capture-IR value, 4 bits (R416); reset 0b0001 -/
  capture : BitVec 4 := 1
  /-- boundary-scan register: cell i is bit i (`scanCells`); reset 0 -/
  bsr : BitVec 64 := 0
  /-- values preloaded for EXTEST, by cell; reset 0 -/
  preload : BitVec 64 := 0
  /-- pins are driven from boundary scan, or floated; reset false -/
  driving : Bool := false
  floating : Bool := false
  /-- data register selected by the last instrument or IDCODE access; reset 0 -/
  dr : Word := 0
  deriving DecidableEq, Repr

/-! ### The block -/

/-- The state of the block. -/
structure State where
  /-- commands waiting, first in first out (the row's interface); reset empty -/
  pending : List Instr := []
  /-- RESET_N is low, or the supply monitor holds the block in reset (R407, R410, R413) -/
  resetLow : Bool := false
  /-- RESET_N is low (R413); reset false -/
  resetPin : Bool := false
  /-- VCORE is absent (R407, R411); reset false -/
  unpowered : Bool := false
  /-- the 1 MiB of message and work space in the shared SRAM (R352): bytes other than 0, by offset. What the spec names in it has
  fields of its own (`Mail.records`, `Mail.work`, `log`); the rest is firmware's (log entry 120); reset empty -/
  work : List Host.Cell := []
  /-- the supply monitor holds the reset (R410); reset false -/
  supplyHold : Bool := false
  /-- the root PLL lost lock: BLKSTAT.CLKLOSS (R370); reset 0 -/
  clkLoss : Bool := false
  /-- core_clk cycles since reset (R6): the model's clock; reset 0 -/
  now : Nat := 0
  /-- MODEL'S OWN: position of the next free value (`Config.freeWord`, `Config.tlbVictim`); reset 0, DESIGN CHOICE -/
  free : Nat := 0
  /-- MODEL'S OWN: next number for an access, entry or operation; reset 0, DESIGN CHOICE -/
  nextId : Nat := 0
  /-- bytes of banks and stacks by storage address: port × 2³⁷ + stack address, or the physical address of a bank byte
  (R179, R321); unlisted bytes read 0 (R369, R391) -/
  mem : List Host.Cell := []
  /-- poisoned 64-byte lines, by storage address ÷ 64, rising (R334); reset none -/
  poison : List Nat := []
  /-- tagged 16-byte granules, by storage address ÷ 16, rising (R279); reset none -/
  tags : List Nat := []
  /-- stored words with a correctable error not yet found, by storage address ÷ 8, rising: a word is 8 bytes of a bank, 32
  bytes of a stack (Table 15-1, R322); reset none -/
  eccCorr : List Nat := []
  /-- stored words with an uncorrectable error not yet found, by storage address ÷ 8, rising (Table 15-1); reset none -/
  eccBad : List Nat := []
  /-- port images of the frames written so far, by number; the image's number stands in the frame (Table 12-7) -/
  frames : List (Nat × PortImage) := []
  /-- cores (R13) -/
  cores : Tab Core := []
  /-- clusters (R13) -/
  clusters : Tab Cluster := []
  /-- bank engines by core (R184) -/
  engines : Tab Engine := []
  /-- stack ports (R318) -/
  ports : Tab Stack := []
  /-- link modules (R300) -/
  links : Tab Link := []
  /-- route entries, MODS and HOSTPEER (Table 13-3); reset 0 -/
  routes : Tab Word := []
  /-- route entries to be written once their old modules hold no request to the block: entry, value (R302); reset none -/
  routeNext : List (Nat × Word) := []
  /-- LMSTAT.SELF, 10 bits (Table 13-8); reset 0 -/
  self : BitVec 10 := 0
  /-- EMCTL.ILV, 2 bits (Table 14-3); reset 0 -/
  ilv : BitVec 2 := 0
  /-- EMCTL.CAP, 4 bits (Table 14-3); reset 0 -/
  cap : BitVec 4 := 0
  /-- TCTL.WALK_ERR_MODE (Table 09-13); reset 0 -/
  walkErrMode : Bool := false
  /-- the block is of release 1.0 (R424, Table 20-6); no command changes it; reset false: release 1.1 (R1) -/
  rel10 : Bool := false
  /-- request flits on the mesh, oldest first (R295); reset none -/
  packets : List Packet := []
  /-- response flits on the mesh, oldest first (R295); reset none -/
  responses : List Response := []
  /-- addends on their way to an engine, oldest first (R187); reset none -/
  addends : List Addend := []
  /-- addends refused by a full engine, with their issuers (R189); reset none -/
  refused : List Addend := []
  /-- lines whose eviction write-back failed, to be poisoned (R338); reset none -/
  lost : List Nat := []
  /-- DOMSTAT0–2, bit k: domain k on (Table 16-9); reset 0 -/
  domstat : BitVec 184 := 0
  /-- the image area of the shared SRAM, 768 KiB: four images of 192 KiB, bytes other than 0xFF (R352); reset empty -/
  images : List Host.Cell := []
  /-- the SHA-384 of the public key, fused at manufacture (R399); not reset. DESIGN CHOICE: 0 -/
  keyHash : BitVec 384 := 0
  /-- MP0–MP3 (Table 16-2) -/
  mps : Tab Mp := []
  mail : Mail := {}
  beat : Beat := {}
  power : Power := {}
  drain : Drain := {}
  jobs : Jobs := {}
  digest : Digest := {}
  start : Start := {}
  /-- test policy ENABLE (Table 17-4); reset 1 -/
  testEn : Bool := true
  /-- log records, oldest first, at most 4,096 (R385); reset none -/
  log : List LogRec := []
  /-- records made since RESET_N (Table 17-5); reset 0 -/
  logNext : Nat := 0
  /-- the history MP3 holds, oldest first, at most 4,096 records (R346, R352); over a reset those in the flash are kept there -/
  history : List HistRec := []
  /-- units classified permanent (R347); reset none, classified anew at start-up -/
  permanent : List (BitVec 16) := []
  /-- correctable errors by unit in the present 1,000 beats (R346); reset none -/
  correctable : Tab (BitVec 32) := []
  /-- powered beats over all sessions (R346); reset 0; at start-up those of the flash are added -/
  powered : Nat := 0
  /-- sessions begun, as the flash records them (R346, R391) -/
  sessions : BitVec 32 := 0
  /-- bytes of the flash device that are not 0xFF, by offset (R389); an external device: not reset -/
  flash : List Host.Cell := []
  /-- fuses blown for ROLLCNT, 0–64 (R400); one-time programmable: not reset -/
  fuses : Nat := 0
  flashPort : FlashPort := {}
  i3c : I3c := {}
  tap : Tap := {}
  deriving DecidableEq, Repr

/-- The block right after RESET_N is released and before start-up has run a step: every field at the value its Reset
column gives (R9), every table at its default, nothing listed in memory, nothing waiting. -/
def State.reset : State := {}

/-- Faults of the model: none of the block's commands stops it. `unserved` is declared for the case that a command has no
effect and no state; no meaning raises it. Safe. -/
inductive Fault where
  | unserved
  deriving DecidableEq, Repr

/-- Refusals. `notModelled m` is raised by the arm of a row that has no meaning yet, with the row's mnemonic: safe. -/
inductive Refusal where
  | notModelled (mnemonic : String)
  deriving DecidableEq, Repr

end Sys2Proof.Machine
end

