-- ==== Sys2Proof/Machine/Bits.lean ====
section
/-! DEFINITION. Tables, bit fields and byte lists: the helpers every operation of the model is written with. -/

namespace Sys2Proof.Machine

/-! ### Tables with a default -/

/-- The entry at key `k`, or the default. -/
def tabGet {α : Type} (dflt : α) : Tab α → Nat → α
  | [], _ => dflt
  | (j, a) :: t, k => if j = k then a else tabGet dflt t k

/-- Put `a` at key `k` of a table with rising keys, whatever `a` is. -/
def tabPut {α : Type} : Tab α → Nat → α → Tab α
  | [], k, a => [(k, a)]
  | (j, b) :: t, k, a =>
    if k < j then (k, a) :: (j, b) :: t
    else if k = j then (k, a) :: t
    else (j, b) :: tabPut t k a

/-- Remove key `k`. -/
def tabErase {α : Type} : Tab α → Nat → Tab α
  | [], _ => []
  | (j, b) :: t, k => if j = k then tabErase t k else (j, b) :: tabErase t k

/-- Set key `k` to `a`; an entry equal to the default is not listed. -/
def tabSet {α : Type} [DecidableEq α] (dflt : α) (t : Tab α) (k : Nat) (a : α) : Tab α :=
  if a = dflt then tabErase t k else tabPut t k a

/-- The entry at key `k`, if listed. -/
def tabFind {α : Type} : Tab α → Nat → Option α
  | [], _ => none
  | (j, a) :: t, k => if j = k then some a else tabFind t k

/-- Change every listed entry. -/
def tabMap {α : Type} (f : Nat → α → α) : Tab α → Tab α
  | [] => []
  | (j, a) :: t => (j, f j a) :: tabMap f t

/-- The rising list `l` with `k` added. -/
def setAdd : List Nat → Nat → List Nat
  | [], k => [k]
  | j :: t, k => if k < j then k :: j :: t else if k = j then j :: t else j :: setAdd t k

/-- The list without `k`. -/
def setDel (l : List Nat) (k : Nat) : List Nat := l.filter (· ≠ k)

/-! ### Bit fields -/

/-- Bits [lo + n − 1 : lo] of a natural number. -/
def bitsOf (w lo n : Nat) : Nat := (w >>> lo) % 2 ^ n

/-- Bits [lo + n − 1 : lo] of a word, as a number. -/
def fld (w : Word) (lo n : Nat) : Nat := bitsOf w.toNat lo n

/-- Bit `i` of a word. -/
def bitAt (w : Word) (i : Nat) : Bool := w.getLsbD i

/-- A word with bits [lo + n − 1 : lo] replaced by `x`. -/
def setFld (w : Word) (lo n : Nat) (x : Nat) : Word :=
  (w &&& ~~~(BitVec.ofNat 64 ((2 ^ n - 1) * 2 ^ lo))) ||| BitVec.ofNat 64 ((x % 2 ^ n) * 2 ^ lo)

/-- The bits of `w` below bit `n` (used where the bits above are RSV, R7). -/
def low (w : Word) (n : Nat) : Word := BitVec.ofNat 64 (w.toNat % 2 ^ n)

/-- 1 for true, 0 for false. -/
def b2n (b : Bool) : Nat := if b then 1 else 0

/-- The low `n` bits of `x`, as a signed number. -/
def signedOf (x n : Nat) : Int :=
  if x % 2 ^ n < 2 ^ (n - 1) then Int.ofNat (x % 2 ^ n) else Int.ofNat (x % 2 ^ n) - Int.ofNat (2 ^ n)

/-- A signed number reduced modulo 2ⁿ. -/
def ofInt (i : Int) (n : Nat) : Nat := (i % (2 ^ n : Int)).toNat

/-- The low `n` bits of `x` sign-extended to 64 bits. -/
def sext (x n : Nat) : Word := BitVec.ofNat 64 (ofInt (signedOf x n) 64)

/-- Add one, holding at the all-ones value (the counters of Tables 13-9, 14-5, 20-5). -/
def bump {n : Nat} (c : BitVec n) : BitVec n := if c = BitVec.allOnes n then c else c + 1

/-- Add `k`, holding at the all-ones value. -/
def bumpBy {n : Nat} (c : BitVec n) (k : Nat) : BitVec n := BitVec.ofNat n (min (c.toNat + k) (2 ^ n - 1))

/-- Number of one bits among the low `n` bits. -/
def popCount (x : Nat) : Nat → Nat
  | 0 => 0
  | n + 1 => popCount x n + (if x.testBit n then 1 else 0)

/-- Number of bits of a natural number: 0 for 0. -/
def bitLen (x : Nat) : Nat := if x = 0 then 0 else Nat.log2 x + 1

/-! ### Bytes, little-endian (R5) -/

/-- The number whose bytes, lowest first, are the list. -/
def leToNat : List Byte → Nat
  | [] => 0
  | b :: t => b.toNat + 256 * leToNat t

/-- The low `n` bytes of a number, lowest first. -/
def natToLe (x : Nat) : Nat → List Byte
  | 0 => []
  | n + 1 => BitVec.ofNat 8 (x % 256) :: natToLe (x / 256) n

/-- Element `i` of width `w` bits. -/
def elemOf (x w i : Nat) : Nat := bitsOf x (w * i) w

/-- The number whose elements of width `w`, lowest first, are the list. -/
def packElems (w : Nat) : List Nat → Nat
  | [] => 0
  | a :: t => a % 2 ^ w + 2 ^ w * packElems w t

/-- Replace bits [lo + n − 1 : lo] of a natural number. -/
def setBitsOf (x lo n v : Nat) : Nat :=
  let keep := x % 2 ^ lo
  let top := x >>> (lo + n)
  keep + (v % 2 ^ n) * 2 ^ lo + top * 2 ^ (lo + n)

/-- Rising sublist test and helpers on lists of numbers. -/
def rising : List Nat → Bool
  | [] => true
  | [_] => true
  | a :: b :: t => a < b && rising (b :: t)

/-- Position of the first entry that satisfies `p`. -/
def findIdx {α : Type} (p : α → Bool) : List α → Option Nat
  | [] => none
  | a :: t => if p a then some 0 else (findIdx p t).map (· + 1)

/-- The list without position `i`. -/
def dropAt {α : Type} : List α → Nat → List α
  | [], _ => []
  | _ :: t, 0 => t
  | a :: t, i + 1 => a :: dropAt t i

/-- The list with position `i` changed. -/
def modifyAt {α : Type} (f : α → α) : List α → Nat → List α
  | [], _ => []
  | a :: t, 0 => f a :: t
  | a :: t, i + 1 => a :: modifyAt f t i

/-- Whether n lies in [a, b]. -/
def inR (n a b : Nat) : Bool := a ≤ n && n ≤ b

end Sys2Proof.Machine
end

