-- ==== Sys2Proof/Machine/Float.lean ====
section
/-! DEFINITION. Number formats and arithmetic (chapter 04): exact values, rounding into a format under a rounding
attribute, the three arithmetic classes, conversions, comparison, maximum and minimum. -/

namespace Sys2Proof.Machine

/-- The floating formats of Table 04-1. -/
inductive FFmt where
  | fp64 | fp32 | w16 | w8 | w8x
  deriving DecidableEq, Repr

/-- Element formats of Table 05-2: floating, or integer of a width and signedness. -/
inductive EFmt where
  | flt (f : FFmt)
  | int (w : Nat) (signed : Bool)
  deriving DecidableEq, Repr

/-- Table 05-2: the format a code names; none for the reserved codes. -/
def efmtOf (code : Nat) : Option EFmt :=
  match code with
  | 0x0 => some (.flt .fp64)
  | 0x1 => some (.flt .fp32)
  | 0x2 => some (.flt .w16)
  | 0x3 => some (.flt .w8)
  | 0x4 => some (.flt .w8x)
  | 0x5 => some (.int 4 true)
  | 0x6 => some (.int 4 false)
  | 0x7 => some (.int 8 true)
  | 0x8 => some (.int 8 false)
  | 0x9 => some (.int 16 true)
  | 0xA => some (.int 32 true)
  | 0xB => some (.int 64 true)
  | _ => none

/-- Bits of a floating format (Table 04-1). -/
def FFmt.width : FFmt → Nat
  | .fp64 => 64 | .fp32 => 32 | .w16 => 16 | .w8 => 8 | .w8x => 8

/-- Fraction bits (Table 04-1). -/
def FFmt.frac : FFmt → Nat
  | .fp64 => 52 | .fp32 => 23 | .w16 => 7 | .w8 => 3 | .w8x => 2

/-- Exponent bits (Table 04-1). -/
def FFmt.expBits : FFmt → Nat
  | .fp64 => 11 | .fp32 => 8 | .w16 => 8 | .w8 => 4 | .w8x => 5

/-- Exponent bias (Table 04-1). -/
def FFmt.bias : FFmt → Nat
  | .fp64 => 1023 | .fp32 => 127 | .w16 => 127 | .w8 => 7 | .w8x => 15

/-- Largest exponent of a finite value (Table 04-1). -/
def FFmt.emax : FFmt → Int
  | .fp64 => 1023 | .fp32 => 127 | .w16 => 127 | .w8 => 8 | .w8x => 16

/-- Smallest exponent of a normal value (Table 04-1). -/
def FFmt.emin (f : FFmt) : Int := 1 - (f.bias : Int)

/-- W8 and W8X have neither infinities nor −0 (R85). -/
def FFmt.short8 : FFmt → Bool
  | .w8 => true | .w8x => true | _ => false

/-- FP64 and FP32 results are in the IEEE class (R89). -/
def FFmt.ieee : FFmt → Bool
  | .fp64 => true | .fp32 => true | _ => false

/-- Bits of an element format (Table 05-2). -/
def EFmt.width : EFmt → Nat
  | .flt f => f.width
  | .int w _ => w

/-- The floating formats and the others. -/
def EFmt.isFlt : EFmt → Bool
  | .flt _ => true | .int _ _ => false

/-- The default NaN (Table 04-2). -/
def FFmt.nan : FFmt → Nat
  | .fp64 => 0x7FF8000000000000 | .fp32 => 0x7FC00000 | .w16 => 0x7FC0 | .w8 => 0x80 | .w8x => 0x80

/-- The sign bit. -/
def FFmt.signBit (f : FFmt) : Nat := 2 ^ (f.width - 1)

/-- The code of ±0; W8 and W8X have no −0 (R85). -/
def FFmt.zero (f : FFmt) (neg : Bool) : Nat := if neg && !f.short8 then f.signBit else 0

/-- The code of ±∞, for formats that have it (Table 04-2). -/
def FFmt.inf (f : FFmt) (neg : Bool) : Nat :=
  (2 ^ f.expBits - 1) * 2 ^ f.frac + (if neg then f.signBit else 0)

/-- The code of the largest finite magnitude (Table 04-2). -/
def FFmt.max (f : FFmt) (neg : Bool) : Nat :=
  (if f.short8 then 2 ^ (f.width - 1) - 1 else (2 ^ f.expBits - 1) * 2 ^ f.frac - 1) + (if neg then f.signBit else 0)

/-- An exact value: invalid or NaN, an infinity, or ±m × 2ᵉ with a sticky mark for a discarded nonzero remainder below
2ᵉ. -/
inductive XV where
  | nan
  | inf (neg : Bool)
  | fin (neg : Bool) (m : Nat) (e : Int) (sticky : Bool)
  deriving DecidableEq, Repr

/-- Whether a code is a NaN (R84, R85). -/
def FFmt.isNan (f : FFmt) (c : Nat) : Bool :=
  if f.short8 then c % 2 ^ f.width == 0x80
  else bitsOf c f.frac f.expBits == 2 ^ f.expBits - 1 && bitsOf c 0 f.frac != 0

/-- Whether a code is a signalling NaN (R87); W16, W8 and W8X have none (R86). -/
def FFmt.isSnan (f : FFmt) (c : Nat) : Bool :=
  f.ieee && f.isNan c && !c.testBit (f.frac - 1)

/-- R87: quiet a NaN. -/
def FFmt.quiet (f : FFmt) (c : Nat) : Nat :=
  if f.ieee then c ||| 2 ^ (f.frac - 1) else f.nan

/-- The exact value of a code (R84–R86). -/
def FFmt.decode (f : FFmt) (c : Nat) : XV :=
  if f.isNan c then .nan
  else
    let neg := c.testBit (f.width - 1)
    let e := bitsOf c f.frac f.expBits
    let fr := bitsOf c 0 f.frac
    if e == 0 then .fin neg fr (f.emin - f.frac) false
    else if !f.short8 && e == 2 ^ f.expBits - 1 then .inf neg
    else .fin neg (2 ^ f.frac + fr) ((e : Int) - f.bias - f.frac) false

/-- Table 04-6: whether `r` must be raised by one, given its sign, whether it is odd, and how the remainder compares with
half of a unit (−1 below, 0 equal, 1 above), `ex` exact. -/
def roundUp (rm : Nat) (neg odd ex : Bool) (half : Int) : Bool :=
  if ex then false
  else
    match rm with
    | 0 => half > 0 || (half == 0 && odd)
    | 1 => half ≥ 0
    | 2 => !neg
    | 3 => neg
    | _ => false

/-- Round m × 2ᵉ (plus a sticky remainder) to a multiple of 2^q: the multiple and whether it is inexact. -/
def roundAt (rm : Nat) (neg : Bool) (m : Nat) (e q : Int) (sticky : Bool) : Nat × Bool :=
  if q ≤ e then (m * 2 ^ (e - q).toNat, sticky)
  else
    let s := (q - e).toNat
    let r := m >>> s
    let rem := m - r * 2 ^ s
    let h := 2 ^ (s - 1)
    let half : Int := if rem > h || (rem == h && sticky) then 1 else if rem == h then 0 else -1
    let ex := rem == 0 && !sticky
    (if roundUp rm neg (r % 2 == 1) ex half then r + 1 else r, !ex)

/-- A rounded magnitude: r × 2^q with r below 2^p or equal to it, whether it is inexact, whether it exceeds the largest
finite value, whether it is tiny after rounding (R92), whether it is zero from a nonzero value. -/
structure Rounded where
  r : Nat
  q : Int
  inexact : Bool
  ovf : Bool
  tiny : Bool
  flushed : Bool
  deriving DecidableEq, Repr

/-- Round ±m × 2ᵉ to the format, with the exponent range unbounded above (R97) and the subnormal grid below. -/
def roundTo (f : FFmt) (rm : Nat) (neg : Bool) (m : Nat) (e : Int) (sticky : Bool) : Rounded :=
  let p := f.frac + 1
  let top := e + (bitLen m : Int) - 1
  let qn := top - (p - 1 : Nat)
  let qs := f.emin - (p - 1 : Nat)
  let q := if qn < qs then qs else qn
  let (r, ix) := roundAt rm neg m e q sticky
  let (ru, _) := roundAt rm neg m e qn sticky
  let rtop := q + (bitLen r : Int) - 1
  let utop := qn + (bitLen ru : Int) - 1
  { r := r, q := q, inexact := ix, ovf := r != 0 && rtop > f.emax,
    tiny := (m != 0 || sticky) && utop < f.emin, flushed := (m != 0 || sticky) && r == 0 }

/-- The code of a rounded magnitude that does not overflow. -/
def packFin (f : FFmt) (neg : Bool) (x : Rounded) : Nat :=
  if x.r == 0 then f.zero neg
  else
    let s := if neg then f.signBit else 0
    let p := f.frac + 1
    let len := bitLen x.r
    -- normalise to p bits; the bits dropped are zero
    let top := x.q + (len : Int) - 1
    if top < f.emin then s + x.r
    else
      let m := if len > p then x.r >>> (len - p) else x.r <<< (p - len)
      s + (top + f.bias).toNat * 2 ^ f.frac + (m - 2 ^ f.frac)

/-- FPC flag positions within a contribution. -/
def flNX : BitVec 5 := 1
def flUF : BitVec 5 := 2
def flOF : BitVec 5 := 4
def flDZ : BitVec 5 := 8
def flNV : BitVec 5 := 16

/-- IEEE 754-2019 overflow result for a rounding attribute: an infinity or the largest finite value (R97). -/
def overCode (f : FFmt) (rm : Nat) (neg : Bool) : Nat :=
  match rm with
  | 0 => f.inf neg
  | 1 => f.inf neg
  | 2 => if neg then f.max true else f.inf false
  | 3 => if neg then f.inf true else f.max false
  | _ => f.max neg

/-- An element result with what it contributes. -/
structure FRes where
  code : Nat
  c : Contrib := {}
  deriving DecidableEq, Repr

/-- R92: deliver an exact value in the IEEE class. -/
def ieeeFinish (f : FFmt) (rm : Nat) (x : XV) : FRes :=
  match x with
  | .nan => { code := f.nan, c := { flags := flNV } }
  | .inf neg => { code := f.inf neg }
  | .fin neg m e st =>
    let r := roundTo f rm neg m e st
    if r.ovf then { code := overCode f rm neg, c := { flags := flOF ||| flNX } }
    else
      { code := packFin f neg r,
        c := { flags := (if r.inexact then flNX else 0) ||| (if r.inexact && r.tiny then flUF else 0) } }

/-- R97: deliver an exact value in the short class of conversions and VXU operations. -/
def shortFinish (f : FFmt) (rm : Nat) (x : XV) : FRes :=
  match x with
  | .nan => { code := f.nan }
  | .inf neg => if f.short8 then { code := f.max neg, c := { nsat := 1 } } else { code := f.inf neg }
  | .fin neg m e st =>
    let r := roundTo f rm neg m e st
    if r.ovf then
      { code := if f.short8 then f.max neg else overCode f rm neg, c := { nsat := 1 } }
    else { code := packFin f neg r, c := { nflz := b2n r.flushed } }

/-- Deliver an exact value in the class of the result format (R89, Table 04-5). -/
def finish (f : FFmt) (rm : Nat) (x : XV) : FRes :=
  if f.ieee then ieeeFinish f rm x else shortFinish f rm x

/-- R184: deliver an exact value in the engine class: nearest even, overflow to ±∞, no report. -/
def engineFinish (f : FFmt) (x : XV) : Nat :=
  match x with
  | .nan => f.nan
  | .inf neg => f.inf neg
  | .fin neg m e st =>
    let r := roundTo f 0 neg m e st
    if r.ovf then f.inf neg else packFin f neg r

/-! ### Exact operations on values -/

/-- Signed integer coefficient of a finite value at exponent `q`. -/
def coef (neg : Bool) (m : Nat) (e q : Int) : Int :=
  let v : Int := (m : Int) * 2 ^ (e - q).toNat
  if neg then -v else v

/-- Exact sum. A zero sum of unlike signs is −0 only under RDN. -/
def xadd (rm : Nat) : XV → XV → XV
  | .nan, _ => .nan
  | _, .nan => .nan
  | .inf a, .inf b => if a == b then .inf a else .nan
  | .inf a, _ => .inf a
  | _, .inf b => .inf b
  | .fin s1 m1 e1 _, .fin s2 m2 e2 _ =>
    let q := if e1 < e2 then e1 else e2
    let c := coef s1 m1 e1 q + coef s2 m2 e2 q
    if c == 0 then
      .fin (if m1 == 0 && m2 == 0 && s1 == s2 then s1 else rm == 3) 0 q false
    else .fin (c < 0) c.natAbs q false

/-- Exact product; 0 × ∞ is invalid. -/
def xmul : XV → XV → XV
  | .nan, _ => .nan
  | _, .nan => .nan
  | .inf a, .inf b => .inf (a != b)
  | .inf a, .fin s m _ _ => if m == 0 then .nan else .inf (a != s)
  | .fin s m _ _, .inf b => if m == 0 then .nan else .inf (s != b)
  | .fin s1 m1 e1 _, .fin s2 m2 e2 _ => .fin (s1 != s2) (m1 * m2) (e1 + e2) false

/-- The negative. -/
def xneg : XV → XV
  | .nan => .nan
  | .inf a => .inf (!a)
  | .fin s m e st => .fin (!s) m e st

/-- Quotient to p + 3 bits with a sticky remainder. -/
def xdiv (p : Nat) : XV → XV → XV
  | .nan, _ => .nan
  | _, .nan => .nan
  | .inf _, .inf _ => .nan
  | .inf a, .fin s _ _ _ => .inf (a != s)
  | .fin s _ e _, .inf b => .fin (s != b) 0 e false
  | .fin s1 m1 e1 _, .fin s2 m2 e2 _ =>
    if m2 == 0 then (if m1 == 0 then .nan else .inf (s1 != s2))
    else
      let k := p + 3 + bitLen m2 - bitLen m1
      let n := m1 <<< k
      .fin (s1 != s2) (n / m2) (e1 - e2 - k) (n % m2 != 0)

/-- Integer square root by bits, from bit `n` down. -/
def isqrtFrom (x : Nat) : Nat → Nat → Nat
  | 0, r => if (r + 1) * (r + 1) ≤ x then r + 1 else r
  | n + 1, r => let c := r + 2 ^ (n + 1); isqrtFrom x n (if c * c ≤ x then c else r)

/-- Square root to p + 3 bits with a sticky remainder. -/
def xsqrt (p : Nat) : XV → XV
  | .nan => .nan
  | .inf a => if a then .nan else .inf false
  | .fin s m e _ =>
    if m == 0 then .fin s 0 e false
    else if s then .nan
    else
      let k0 := 2 * (p + 3)
      let k := if (e - k0) % 2 == 0 then k0 else k0 + 1
      let n := m <<< k
      let r := isqrtFrom n (bitLen n / 2 + 1) 0
      .fin false r ((e - k) / 2) (r * r != n)

/-! ### Operations on codes, by class -/

/-- The first NaN among the operands in the order of the operation's definition, quieted, with NV if any is signalling
(R93); in the short class the format's default NaN and no report. -/
def nanOf (f : FFmt) (ops : List Nat) : Option FRes :=
  match ops.find? f.isNan with
  | none => none
  | some c =>
    if f.ieee then some { code := f.quiet c, c := { flags := if ops.any f.isSnan then flNV else 0 } }
    else some { code := f.nan }

def fadd (f : FFmt) (rm a b : Nat) : FRes :=
  (nanOf f [a, b]).getD (finish f rm (xadd rm (f.decode a) (f.decode b)))

/-- The negative of a code's sign bit, for exact use inside an operation. -/
def fsub (f : FFmt) (rm a b : Nat) : FRes :=
  (nanOf f [a, b]).getD (finish f rm (xadd rm (f.decode a) (xneg (f.decode b))))

def fmul (f : FFmt) (rm a b : Nat) : FRes :=
  (nanOf f [a, b]).getD (finish f rm (xmul (f.decode a) (f.decode b)))

def fdiv (f : FFmt) (rm a b : Nat) : FRes :=
  (nanOf f [a, b]).getD
    (let x := f.decode a
     let y := f.decode b
     let r := finish f rm (xdiv (f.frac + 1) x y)
     match x, y with
     | .fin _ m _ _, .fin _ 0 _ _ => if m == 0 then r else { r with c := { r.c with flags := r.c.flags ||| flDZ } }
     | _, _ => r)

def fsqrt (f : FFmt) (rm a : Nat) : FRes :=
  (nanOf f [a]).getD (finish f rm (xsqrt (f.frac + 1) (f.decode a)))

/-- Fused (±a × b) ± c with one rounding; 0 × ∞ always raises NV (R93). -/
def ffma (f : FFmt) (rm : Nat) (negP negC : Bool) (a b c : Nat) : FRes :=
  let pr := xmul (f.decode a) (f.decode b)
  let pr := if negP then xneg pr else pr
  let cv := if negC then xneg (f.decode c) else f.decode c
  if !f.isNan a && !f.isNan b && pr == .nan then
    if f.ieee then { code := if f.isNan c then f.quiet c else f.nan, c := { flags := flNV } } else { code := f.nan }
  else (nanOf f [a, b, c]).getD (finish f rm (xadd rm pr cv))

/-! ### Comparison, maximum and minimum -/

/-- Order of two exact values, NaN excluded: −1, 0, 1. -/
def xcmp : XV → XV → Int
  | .inf a, .inf b => if a == b then 0 else if a then -1 else 1
  | .inf a, _ => if a then -1 else 1
  | _, .inf b => if b then 1 else -1
  | .fin s1 m1 e1 _, .fin s2 m2 e2 _ =>
    let q := if e1 < e2 then e1 else e2
    let d := coef s1 m1 e1 q - coef s2 m2 e2 q
    if d < 0 then -1 else if d == 0 then 0 else 1
  | _, _ => 0

/-- Whether a value carries a minus sign. -/
def xnegative : XV → Bool
  | .inf a => a
  | .fin s _ _ _ => s
  | .nan => false

/-- Order with −0 below +0 (R101, R105). -/
def xcmpZ (a b : XV) : Int :=
  let d := xcmp a b
  if d == 0 then (if xnegative a && !xnegative b then -1 else if !xnegative a && xnegative b then 1 else 0) else d

/-- Table 04-12: the larger (or smaller) of two numbers, with −0 below +0. -/
def fpick (f : FFmt) (max : Bool) (a b : Nat) : Nat :=
  let d := xcmpZ (f.decode a) (f.decode b)
  if max then (if d < 0 then b else a) else (if d > 0 then b else a)

/-- R104: element-wise maximum or minimum in the format's class. -/
def fmaxmin (f : FFmt) (max : Bool) (a b : Nat) : FRes :=
  (nanOf f [a, b]).getD { code := fpick f max a b }

/-- R184, R104: the engine form of maximum. -/
def engineMax (f : FFmt) (a b : Nat) : Nat :=
  if f.isNan a || f.isNan b then f.nan else fpick f true a b

/-- R103: the comparisons CEQ, CNE, CLT, CLE (0–3) and CUN (4), with their flags; CUN is IEEE 754-2019's quiet comparison
`unordered`, which signals for a signalling NaN alone. -/
def fcompare (f : FFmt) (op a b : Nat) : Bool × BitVec 5 :=
  let un := f.isNan a || f.isNan b
  let sn := f.isSnan a || f.isSnan b
  let d := xcmp (f.decode a) (f.decode b)
  match op with
  | 0 => (!un && d == 0, if sn then flNV else 0)
  | 1 => (un || d != 0, if sn then flNV else 0)
  | 2 => (!un && d < 0, if f.ieee && un then flNV else 0)
  | 3 => (!un && d ≤ 0, if f.ieee && un then flNV else 0)
  | _ => (un, if sn then flNV else 0)

/-- R138: COPY, ABS and NEG on a floating code are sign operations; W8 and W8X leave 0x80 and 0x00 unchanged. -/
def fsign (f : FFmt) (op : Nat) (a : Nat) : Nat :=
  if f.short8 && (a == 0x80 || a == 0) then a
  else
    match op with
    | 0 => a
    | 1 => a % f.signBit
    | _ => if a.testBit (f.width - 1) then a - f.signBit else a + f.signBit

/-! ### Integers and conversions -/

/-- The value of an integer element. -/
def intVal (w : Nat) (signed : Bool) (c : Nat) : Int :=
  if signed then signedOf c w else Int.ofNat (c % 2 ^ w)

/-- Smallest and largest values of an integer format (Table 04-4). -/
def intMin (w : Nat) (signed : Bool) : Int := if signed then -(2 ^ (w - 1) : Nat) else 0
def intMax (w : Nat) (signed : Bool) : Int := if signed then ((2 ^ (w - 1) : Nat) : Int) - 1 else ((2 ^ w : Nat) : Int) - 1

/-- R97, R138: an exact integer saturated into the format; each saturation counts. -/
def intSat (w : Nat) (signed : Bool) (v : Int) : FRes :=
  if v < intMin w signed then { code := ofInt (intMin w signed) w, c := { nsat := 1 } }
  else if v > intMax w signed then { code := ofInt (intMax w signed) w, c := { nsat := 1 } }
  else { code := ofInt v w }

/-- The exact value of an integer. -/
def xofInt (v : Int) : XV := .fin (v < 0) v.natAbs 0 false

/-- R100, Table 04-10: a floating value to an integer format. -/
def toIntFmt (w : Nat) (signed : Bool) (rm : Nat) (x : XV) : FRes :=
  match x with
  | .nan => { code := 0, c := { nsat := 1 } }
  | .inf neg => { code := ofInt (if neg then intMin w signed else intMax w signed) w, c := { nsat := 1 } }
  | .fin neg m e st =>
    let (r, _) := roundAt rm neg m e 0 st
    let v : Int := if neg then -(r : Int) else r
    let s := intSat w signed v
    if (m != 0 || st) && r == 0 then { s with c := { s.c with nflz := 1 } } else s

/-- R99, R100: convert an element between two formats, with what it contributes except the running maximum. DESIGN CHOICE (log entry
124): a signalling FP32 NaN converted to FP64 raises NV by R93, though R99 calls the conversion one that raises no flag. -/
def convert (src dst : EFmt) (rm : Nat) (c : Nat) : FRes :=
  match src, dst with
  | .flt f, .flt g =>
    if f.isNan c then
      if g.ieee && f.ieee then
        -- first NaN quieted, upper payload bits kept; NV if signalling
        let fr := bitsOf (f.quiet c) 0 f.frac
        let fr' := if g.frac ≥ f.frac then fr * 2 ^ (g.frac - f.frac) else fr >>> (f.frac - g.frac)
        { code := (if c.testBit (f.width - 1) then g.signBit else 0) + (2 ^ g.expBits - 1) * 2 ^ g.frac + fr',
          c := { flags := if f.isSnan c then flNV else 0 } }
      else if g.ieee && f == .w16 then
        let fr := bitsOf c 0 7 ||| 64
        { code := (if c.testBit 15 then g.signBit else 0) + (2 ^ g.expBits - 1) * 2 ^ g.frac + fr * 2 ^ (g.frac - 7) }
      else { code := g.nan }
    else finish g rm (f.decode c)
  | .int w s, .flt g => finish g rm (xofInt (intVal w s c))
  | .flt f, .int w s => toIntFmt w s rm (f.decode c)
  | .int w s, .int w' s' => intSat w' s' (intVal w s c)

/-- R101: the magnitude of a source element as an FP64 code, rounded upward; none for a NaN. -/
def magnitude (src : EFmt) (c : Nat) : Option Word :=
  let x := match src with
    | .flt f => f.decode c
    | .int w s => xofInt (intVal w s c)
  match x with
  | .nan => none
  | .inf _ => some (BitVec.ofNat 64 (FFmt.fp64.inf false))
  | .fin _ m e st => some (BitVec.ofNat 64 (ieeeFinish .fp64 2 (.fin false m e st)).code)

/-- R101: combine a contribution with the value RMAX holds. -/
def rmaxWith (h c : Word) : Word :=
  if FFmt.fp64.isNan h.toNat then c
  else if xcmpZ (FFmt.fp64.decode h.toNat) (FFmt.fp64.decode c.toNat) < 0 then c else h

/-- Combine two contributions that land together. -/
def Contrib.join (a b : Contrib) : Contrib :=
  { flags := a.flags ||| b.flags,
    rmax := match a.rmax, b.rmax with
      | none, r => r
      | r, none => r
      | some x, some y => some (rmaxWith x y),
    nsat := a.nsat + b.nsat, nflz := a.nflz + b.nflz, sat := a.sat ||| b.sat }

/-- Join a list of contributions. -/
def joinAll : List Contrib → Contrib
  | [] => {}
  | c :: t => c.join (joinAll t)

end Sys2Proof.Machine
end

