-- ==== Sys2Proof/Machine/Record.lean ====
section
/-! DEFINITION. The records the escapement keeps of faults: the log (Table 17-5, R385) and the history with the
classification of units (R345–R347). -/

namespace Sys2Proof.Machine

/-- R385: enter a record in the log, which keeps the 4,096 most recent. -/
def State.addLog (s : State) (kind unit : Nat) (detail pc addr : Word) : State :=
  let r : LogRec := {
    index := s.logNext, beat := s.beat.count, kind := BitVec.ofNat 16 kind, unit := BitVec.ofNat 16 unit
    detail := detail, pc := pc, addr := addr, cycle := (Config.freeWord s.free).setWidth 32 }
  let l := s.log ++ [r]
  { s with log := l.drop (l.length - 4096), logNext := s.logNext + 1, free := s.free + 1 }

/-- Detail word of a log record (Table 17-5). -/
def logDetail (cls job core task : Nat) : Word :=
  BitVec.ofNat 64 (cls % 256 + job % 4096 * 2 ^ 8 + core % 2 ^ 14 * 2 ^ 20 + task % 64 * 2 ^ 34)

/-- Unit identities of Table 15-4. -/
def unitCluster (c : Nat) : Nat := 0x2800 + c
def unitPort (p : Nat) : Nat := 0x28A0 + p
def unitLink (m : Nat) : Nat := 0x28B0 + m
def unitMp (i : Nat) : Nat := 0x28C0 + i

/-- R347: the unit is classified permanent. -/
def State.isPermanent (s : State) (unit : Nat) : Bool := s.permanent.contains (BitVec.ofNat 16 unit)

/-- Classify a unit as permanent: FSUM.PERM counts it once. -/
def State.makePermanent (s : State) (unit : Nat) : State :=
  if s.isPermanent unit then s
  else { s with
    permanent := s.permanent ++ [BitVec.ofNat 16 unit]
    drain := { s.drain with perm := bump s.drain.perm } }

/-- The CAUSE bit of a trigger, from bit 8 of DRSTAT (Table 20-4). -/
def causeBit : DrainCause → Nat
  | .drain => 0 | .permanent => 1 | .lockup => 2 | .tagLost => 3 | .portFail => 4 | .meshHdr => 5 | .poisonWr => 6
  | .history => 7

/-- R348, R422: a drain trigger: the first one starts the drain and is recorded; a further one sets its CAUSE bit, and counts for
FIRSTUNIT only in the cycle of the first, where the lowest unit stands. Every trigger but DRAIN drives FAULT_N low. -/
def State.startDrain (s : State) (c : DrainCause) (unit : Nat) : State :=
  let u : BitVec 16 := BitVec.ofNat 16 (if c == DrainCause.drain then 0xFFFF else unit)
  let d := { s.drain with
    cause := s.drain.cause ||| BitVec.ofNat 8 (2 ^ causeBit c)
    faultN := s.drain.faultN || c != DrainCause.drain }
  let s := s.addLog 3 u.toNat 0 0 0
  if d.st == .run then
    { s with drain := { d with
        st := .draining, firstUnit := u, at_ := s.now, tbeat := s.beat.count.setWidth 32, timeout := false, discarded := false } }
  else { s with drain := { d with firstUnit := if d.at_ == s.now && u < d.firstUnit then u else d.firstUnit } }

/-- R347: powered time in beats within which two failed tests of a unit classify it permanent. -/
def testWindow : Nat := 86400000

/-- R352: the 256 KiB of history records hold 4,096: the oldest that is in the flash, else the oldest, makes room (DESIGN
CHOICE, log entry 120). -/
def trimHistory (l : List HistRec) : List HistRec :=
  if l.length ≤ 4096 then l
  else match findIdx (fun h : HistRec => h.flushed) l with
    | some i => dropAt l i
    | none => l.drop 1

/-- R346: enter a record in the history. -/
def State.addHistory (s : State) (unit kind seg : Nat) (failed : Bool) (count : BitVec 32 := 0) : State :=
  let r : HistRec := {
    unit := BitVec.ofNat 16 unit, kind := BitVec.ofNat 8 kind, seg := BitVec.ofNat 8 seg, session := s.start.session
    beat := s.beat.count, powered := BitVec.ofNat 64 s.powered, failedTest := failed, flushed := false, count := count }
  { s with history := trimHistory (s.history ++ [r]) }

/-- R346: every 1,000 beats the correctable errors of each unit are recorded, as one count. -/
def State.recordCounts (s : State) : State :=
  { s.correctable.foldl (fun s (u, n) => s.addHistory u 8 0 false n) s with correctable := [] }

/-- R346, R347: record a fault of a unit: kind 1 failed test, 2 residue mismatch, 3 uncorrectable error, 4 parity event,
5 lockup, 6 lost tag, 7 failed port; `recordCounts` makes kind 8, correctable errors, `metPoison` kind 9; kind 10 is a failed
retest, kind 11 the start of a session. The unit becomes permanent, which starts a drain (R348), or the record is transient. -/
def State.record (s : State) (unit kind seg : Nat) (retest : Bool := false) : State :=
  let failed := kind == 1 || kind == 2
  let twice := failed && s.history.any fun h =>
    h.unit == BitVec.ofNat 16 unit && h.failedTest && s.powered ≤ h.powered.toNat + testWindow
  let perm := twice || retest
  let s := s.addHistory unit (if retest then 10 else kind) seg failed
  if kind ≥ 5 then
    (s.makePermanent unit).startDrain (if kind == 5 then .lockup else if kind == 6 then .tagLost else .portFail) unit
  else if perm then if s.isPermanent unit then s else (s.makePermanent unit).startDrain .permanent unit
  else { s with drain := { s.drain with trans := bump s.drain.trans } }

/-- Table 15-1: an uncorrectable flit header: the stop is suspect (R346), and the block drains (R348). -/
def State.badHeader (s : State) (unit : Nat) : State := (s.record unit 3 0).startDrain .meshHdr unit

/-- R346, Table 15-1: bad parity in a data flit is recorded against the unit at whose stop it is found. -/
def State.noteFlit (s : State) (unit : Nat) (f : FlitErr) : State := if f == .data then s.record unit 4 0 else s

/-- R337: poison met by firmware of the escapement ends no job and is recorded, against MP0. -/
def State.metPoison (s : State) : State := s.addHistory (unitMp 0) 9 0 false

/-- R332, R342: a residue mismatch of core n in a segment (1: B, 2: C) is a failed test of the core; its retest heads the
cluster's list from the next beat. -/
def State.mismatch (s : State) (n seg : Nat) : State :=
  let s := (s.record n 2 seg).addLog 2 n (logDetail 0 0 n 0) 0 0
  let c := tabGet ({} : Cluster) s.clusters (n / 64)
  { s with clusters := tabSet {} s.clusters (n / 64) { c with retests := c.retests ++ [(n % 64, seg)] } }

end Sys2Proof.Machine
end

