-- ==== Sys2Proof/Machine/Ops.lean ====
section
/-! DEFINITION. The named operations over the state: cores and casements, the physical map and its storage, result ports
and pending results, and how a word's fault is recorded. -/

namespace Sys2Proof.Machine

/-! ### Cores, casements, clusters -/

/-- The state with another core n. -/
def State.core (s : State) (n : Nat) : Core := tabGet (Core.reset n) s.cores n

/-- Replace core n. -/
def State.setCore (s : State) (n : Nat) (c : Core) : State :=
  { s with cores := tabSet (Core.reset n) s.cores n c }

/-- Change core n. -/
def State.onCore (s : State) (n : Nat) (f : Core → Core) : State := s.setCore n (f (s.core n))

/-- Casement k of core n. -/
def State.case (s : State) (n k : Nat) : Casement := tabGet {} (s.core n).cases k

/-- Replace casement k of core n. -/
def State.setCase (s : State) (n k : Nat) (c : Casement) : State :=
  s.onCore n fun x => { x with cases := tabSet {} x.cases k c }

/-- Change casement k of core n. -/
def State.onCase (s : State) (n k : Nat) (f : Casement → Casement) : State := s.setCase n k (f (s.case n k))

/-- Cluster c (R13). -/
def State.cluster (s : State) (c : Nat) : Cluster := tabGet {} s.clusters c

/-- Change cluster c. -/
def State.onCluster (s : State) (c : Nat) (f : Cluster → Cluster) : State :=
  { s with clusters := tabSet {} s.clusters c (f (s.cluster c)) }

/-- Stack port p (R14). -/
def State.port (s : State) (p : Nat) : Stack := tabGet {} s.ports p

/-- Change stack port p. -/
def State.onPort (s : State) (p : Nat) (f : Stack → Stack) : State :=
  { s with ports := tabSet {} s.ports p (f (s.port p)) }

/-- Link module m (R14). -/
def State.link (s : State) (m : Nat) : Link := tabGet {} s.links m

/-- Change link module m. -/
def State.onLink (s : State) (m : Nat) (f : Link → Link) : State :=
  { s with links := tabSet {} s.links m (f (s.link m)) }

/-- The engine of bank n (R184). -/
def State.engine (s : State) (n : Nat) : Engine := tabGet {} s.engines n

/-- The state of task t of core n, if the task number is in use. -/
def State.task (s : State) (n t : Nat) : Option Task := tabFind (s.core n).tasks t

/-- Change task t of core n, if it is in use. -/
def State.onTask (s : State) (n t : Nat) (f : Task → Task) : State :=
  match s.task n t with
  | none => s
  | some x => s.onCore n fun c => { c with tasks := tabPut c.tasks t (f x) }

/-- The registers of a task, in its casement or in its image; the keeper's for `none` (R255). -/
def State.ctx (s : State) (n : Nat) : Option Nat → Casement
  | none => s.case n 8
  | some t =>
    match s.task n t with
    | none => {}
    | some x => match x.loc with
      | some k => s.case n k
      | none => x.image

/-- Change the registers of a task, wherever they are held. -/
def State.onCtx (s : State) (n : Nat) (who : Option Nat) (f : Casement → Casement) : State :=
  match who with
  | none => s.onCase n 8 f
  | some t =>
    match s.task n t with
    | none => s
    | some x => match x.loc with
      | some k => s.onCase n k f
      | none => s.onTask n t fun y => { y with image := f y.image }

/-- Cluster of core n (R13). -/
def clusterOf (n : Nat) : Nat := n / 64

/-- R370, R413: nothing runs while RESET_N is low or the clocks are stopped. -/
def State.live (s : State) : Bool := !s.resetLow && !s.clkLoss

/-- The core's cluster domain is on (Table 16-8). -/
def State.clusterOn (s : State) (n : Nat) : Bool := (s.cluster (clusterOf n)).dst == .on

/-- Core n has power and clocks. -/
def State.coreOn (s : State) (n : Nat) : Bool := s.live && s.clusterOn n

/-- Core n has power: what it has accepted is carried on with (Table 16-8: ON, FENCING). -/
def State.hasPower (s : State) (n : Nat) : Bool :=
  s.live && ((s.cluster (clusterOf n)).dst == .on || (s.cluster (clusterOf n)).dst == .fencing)

/-- A fresh number. -/
def State.fresh (s : State) : Nat × State := (s.nextId, { s with nextId := s.nextId + 1 })

/-- The next value the spec leaves open, and the state with the counter advanced. -/
def State.freeVal (s : State) : Word × State := (Config.freeWord s.free, { s with free := s.free + 1 })

/-! ### The physical map (R179, R199, R321) -/

/-- Where a physical address lies. -/
inductive Place where
  | bank (n off : Nat)
  | ext (p addr : Nat)
  | ctl (off : Nat)
  | remote
  | hole
  deriving DecidableEq, Repr

/-- Table 14-2: port and stack address of an offset in the external window. -/
def interleave (ilv : BitVec 2) (a : Nat) : Nat × Nat :=
  match ilv.toNat with
  | 0 => (bitsOf a 37 3, bitsOf a 0 37)
  | 2 => (bitsOf a 12 3, bitsOf a 15 25 * 4096 + bitsOf a 0 12)
  | _ =>
    let sel := bitsOf a 12 2
    let p := match bitsOf a 39 1, sel with
      | 0, 0 => 0 | 0, 1 => 1 | 0, 2 => 4 | 0, _ => 5
      | _, 0 => 2 | _, 1 => 3 | _, 2 => 6 | _, _ => 7
    (p, bitsOf a 14 25 * 4096 + bitsOf a 0 12)

/-- Bytes of one stack that are not hidden (R319, R321, R323). -/
def State.stackTop (s : State) (p : Nat) : Nat :=
  let c := s.cap.toNat * 2 ^ 34
  c - c / 128 - (if p == 0 then 2 ^ 26 else 0)

/-- The place of a physical address (Tables 09-1, 09-2, 08-1). -/
def State.place (s : State) (pa : Nat) : Place :=
  if pa ≥ 2 ^ 51 then .remote
  else if pa < 2 ^ 40 then
    let (p, a) := interleave s.ilv pa
    if a < s.stackTop p then .ext p a else .hole
  else if pa < 0x18000000000 then
    let n := (pa - 2 ^ 40) / 0x80000
    let off := (pa - 2 ^ 40) % 0x80000
    if n < 10240 && off < 0x40000 then .bank n off else .hole
  else if pa < 0x18004000000 then .ctl (pa - 0x18000000000)
  else .hole

/-- R180, R298: the agent that answers an access to a local physical address. -/
def State.agentOf (s : State) (n pa : Nat) : Agent :=
  match s.place pa with
  | .bank b _ => .bank b
  | .ext p _ => .stack p
  | .ctl _ => .escapement
  | .remote => .core n
  | .hole =>
    if pa < 2 ^ 40 then .stack (interleave s.ilv pa).1
    else if pa < 2 ^ 40 + 10240 * 0x80000 then .bank ((pa - 2 ^ 40) / 0x80000)
    else .escapement

/-- R13: the stop (x, y) of cluster c = 16 y + x. -/
def clusterStop (c : Nat) : Nat × Nat := (c % 16, c / 16)

/-- R13, R14: the stop (x, y) an agent's packets enter the mesh at. A stack port's responses leave from the stop its request
took. -/
def Agent.stop : Agent → Nat × Nat
  | .core n => clusterStop (n / 64)
  | .bank n => clusterStop (n / 64)
  | .xmu n => clusterStop (n / 64)
  | .stack p => (4 * (p % 4) + 1, if p < 4 then 0 else 7)
  | .link m => if m < 8 then (0, m + 1) else (15, m - 7)
  | .escapement => (7, 5)

/-- The history unit of the stop of an agent (Table 15-4). DESIGN CHOICE (log entry 119): MP0 stands for the escapement's. -/
def Agent.unit : Agent → Nat
  | .core n => unitCluster (n / 64)
  | .bank n => unitCluster (n / 64)
  | .xmu n => unitCluster (n / 64)
  | .stack p => unitPort p
  | .link m => unitLink m
  | .escapement => unitMp 0

/-- R320: the attachment stop through which a requester at stop (x, y) reaches port p: the nearer of its two columns, the
lower on a tie, and y clamped to its rows. -/
def attachStop (p : Nat) (at_ : Nat × Nat) : Nat × Nat :=
  let c := 4 * (p % 4) + 1
  let r := if p < 4 then 0 else 7
  (if at_.1 ≤ c then c else c + 1, min (max at_.2 r) (r + 2))

/-- Put a request on the mesh (R295, R298, R320). -/
def State.send (s : State) (src dst : Agent) (op : MemOp) (ret : Ret) (trans : Option (Nat × Nat) := none) : State :=
  let stop := match dst with | .stack p => some (attachStop p src.stop) | _ => none
  { s with
    nextId := s.nextId + 1
    packets := s.packets ++ [{ id := s.nextId, src := src, dst := dst, op := op, ret := ret, trans := trans, stop := stop }] }

/-- The core whose access a packet or an addend is. -/
def Agent.core? : Agent → Option Nat
  | .core n => some n
  | .xmu n => some n
  | _ => none

/-- The agent an addend comes from (R298). -/
def Addend.agent (a : Addend) : Agent :=
  match a.ret with
  | .store n _ => .core n
  | .load n _ _ => .core n
  | .xmu n _ _ _ _ => .xmu n
  | .link m _ => .link m
  | _ => .escapement

/-- The number an addend was first sent with. -/
def Addend.birth (a : Addend) : Nat := a.born.getD a.id

/-- The agent an addend goes to. -/
def State.addendDst (s : State) (a : Addend) : Agent := s.agentOf 0 a.pa

/-- R12: an addend of a core, or of its XMU, to the bank beneath it goes down through the bonds and never uses the mesh. -/
def State.goesDown (s : State) (a : Addend) : Bool :=
  match s.addendDst a, a.agent.core? with
  | .bank b, some n => b == n
  | _, _ => false

/-- Put an addend on its way under a new number (R298, R320). -/
def State.pushAddend (s : State) (a : Addend) : State :=
  let stop := match s.addendDst a with | .stack p => some (attachStop p a.agent.stop) | _ => none
  { s with nextId := s.nextId + 1, addends := s.addends ++ [{ a with id := s.nextId, stop := stop }] }

/-- Physical address of byte `off` of bank n. -/
def bankPa (n off : Nat) : Nat := 2 ^ 40 + n * 0x80000 + off

/-- Whether an address is device memory by its place: the control space of this block or of another (R199, R200). -/
def ctlRange (pa : Nat) : Bool :=
  let o := pa % 2 ^ 41
  0x18000000000 ≤ o && o < 0x18004000000 && (pa < 2 ^ 41 || pa ≥ 2 ^ 51)

/-- R271: whether [off, off + len) of bank n meets the spill area. -/
def State.inSpill (s : State) (n off len : Nat) : Bool :=
  let spa := (s.core n).spa
  let base := fld spa 0 8 * 1024
  let size := fld spa 8 9 * 1024
  size != 0 && off < base + size && base < off + len

/-- Storage address of a local data access and how the access ends at its destination: a bus error where nothing is
populated (R180, R271), BANK_OFF where the cluster is fenced (R369). The core `own` reaches its own bank through the bonds,
behind the fence (R12). -/
def State.locate (s : State) (pa len : Nat) (own : Option Nat := none) : Nat × RStat :=
  match s.place pa with
  | .bank n off =>
    if !(s.clusterOn n || (own == some n && s.hasPower n)) then (pa, .bankOff)
    else if s.inSpill n off len then (pa, .busErr)
    else (pa, .ok)
  | .ext p a =>
    let x := s.port p
    if x.st == .off || x.st == .failed || x.fenced then (pa, .busErr) else (p * 2 ^ 37 + a, .ok)
  | _ => (pa, .busErr)

/-! ### Storage -/

/-- The byte at a storage address; an unlisted byte is 0 (R369, R391). -/
def State.byte (s : State) (a : Nat) : Byte := tabGet 0 s.mem a

/-- Set one byte. -/
def memSet (m : List Host.Cell) (a : Nat) (b : Byte) : List Host.Cell := tabSet 0 m a b

/-- Set consecutive bytes. -/
def memSetAll (m : List Host.Cell) (a : Nat) : List Byte → List Host.Cell
  | [] => m
  | b :: t => memSetAll (memSet m a b) (a + 1) t

/-- `n` consecutive bytes. -/
def State.bytes (s : State) (a : Nat) : Nat → List Byte
  | 0 => []
  | n + 1 => s.byte a :: s.bytes (a + 1) n

/-- The canonical form of memory: rising addresses, no entry equal to what an unlisted byte reads. -/
def memWf (m : List Host.Cell) : Bool := rising (m.map (·.1)) && m.all fun c => c.2 != 0

/-- Keys a .. a + n − 1. -/
def keysFrom (a : Nat) : Nat → List Nat
  | 0 => []
  | n + 1 => a :: keysFrom (a + 1) n

/-- The units of `size` bytes that [a, a + len) touches. -/
def unitsOf (size a len : Nat) : List Nat :=
  if len == 0 then [] else keysFrom (a / size) ((a + len - 1) / size - a / size + 1)

/-- First byte and length of a request to storage. -/
def MemOp.span : MemOp → Option (Nat × Nat)
  | .read pa len => some (pa, len)
  | .write pa d _ => some (pa, d.length)
  | .keyRead pa => some (pa, 16)
  | .keyWrite pa _ _ => some (pa, 16)
  | _ => none

/-- The lines a request touches. -/
def MemOp.lines (o : MemOp) : List Nat := match o.span with | some (pa, len) => unitsOf 64 pa len | none => []

/-- A request that changes nothing at its destination. -/
def MemOp.reads : MemOp → Bool
  | .read .. => true
  | .keyRead _ => true
  | .ctlRead .. => true
  | _ => false

/-- Delete every key of `ks`. -/
def setDelAll (l : List Nat) (ks : List Nat) : List Nat := l.filter fun x => !ks.contains x

/-- Add every key of `ks`. -/
def setAddAll (l : List Nat) : List Nat → List Nat
  | [] => l
  | k :: t => setAddAll (setAdd l k) t

/-- R346: count a correctable error of a unit. -/
def State.countUnit (s : State) (unit : Nat) : State :=
  { s with correctable := tabSet 0 s.correctable unit (bump (tabGet 0 s.correctable unit)) }

/-- R322, R330, R346: count a corrected word at its bank's cluster or its stack port. -/
def State.countCe (s : State) (a : Nat) : State :=
  if a < 2 ^ 40 then (s.onPort (a / 2 ^ 37) fun p => { p with ce := bump p.ce }).countUnit (unitPort (a / 2 ^ 37))
  else
    let n := (a - 2 ^ 40) / 0x80000
    (s.onCluster (clusterOf n) fun c => { c with ce := bump c.ce }).countUnit n

/-- Count an uncorrectable line, and record it against its unit (R346): the port, or the core whose bank it is. -/
def State.countUe (s : State) (a : Nat) : State :=
  if a < 2 ^ 40 then
    (s.onPort (a / 2 ^ 37) fun p => { p with ue := bump p.ue }).record (unitPort (a / 2 ^ 37)) 3 0
  else
    let n := (a - 2 ^ 40) / 0x80000
    (s.onCluster (clusterOf n) fun c => { c with ue := bump c.ue }).record n 3 0

/-- Table 15-1, R322: bytes of the error-protected word at a storage address, in units of 8: 8 bytes of a bank, 32 of a
stack. -/
def eccUnits (a : Nat) : Nat := if a < 2 ^ 40 then 4 else 1

/-- The error-protected words [a, a + len) touches, by storage address ÷ 8 of their first byte. -/
def eccWords (a len : Nat) : List Nat := (unitsOf (8 * eccUnits a) a len).map (· * eccUnits a)

/-- The word that holds an 8-byte unit. -/
def eccWordOf (w : Nat) : Nat := w / eccUnits (8 * w) * eccUnits (8 * w)

/-- Table 15-1, R322: an error of a word that is read: corrected, rewritten and counted, or its line poisoned. -/
def State.scrubWord (s : State) (w : Nat) : State :=
  let line := w / 8
  if s.eccBad.any (eccWordOf · == w) then
    { s with
      eccBad := s.eccBad.filter (· / 8 != line), eccCorr := s.eccCorr.filter (· / 8 != line)
      poison := setAdd s.poison line }.countUe (line * 64)
  else if s.eccCorr.any (eccWordOf · == w) then
    { s with eccCorr := s.eccCorr.filter (eccWordOf · != w) }.countCe (w * 8)
  else s

/-- The errors of the words that are read. -/
def State.scrubWords (s : State) (l : List Nat) : State := l.foldl State.scrubWord s

/-- A scrub (R322, R331): the errors of every word from storage address 8 · lo up to 8 · hi. -/
def State.scrubRange (s : State) (lo hi : Nat) : State :=
  s.scrubWords (setAddAll [] (((s.eccCorr ++ s.eccBad).filter fun w => lo ≤ w && w < hi).map eccWordOf))

/-- Read bytes at a storage address: the state after any error is found, whether a line is poisoned, the bytes. -/
def State.readStore (s : State) (a len : Nat) : State × Bool × List Byte :=
  let ls := unitsOf 64 a len
  let s1 := if s.eccBad.isEmpty && s.eccCorr.isEmpty then s else s.scrubWords (eccWords a len)
  (s1, ls.any s1.poison.contains, s1.bytes a len)

/-- R82: a write drops the line buffers of a bank's DFM that hold the row. -/
def State.dropRows (s : State) (a len : Nat) : State :=
  if a < 2 ^ 40 then s
  else
    let n := (a - 2 ^ 40) / 0x80000
    let rows := unitsOf 64 a len
    let c := s.core n
    if (c.dfmX ++ c.dfmY).any fun r => rows.contains r.row then
      s.onCore n fun x => { x with
        dfmX := x.dfmX.filter fun r => !rows.contains r.row, dfmY := x.dfmY.filter fun r => !rows.contains r.row }
    else s

/-- R329: the first physical address of the external window that lies at stack address a of port p. -/
def unInterleave (ilv : BitVec 2) (p a : Nat) : Nat :=
  match ilv.toNat with
  | 0 => p * 2 ^ 37 + a
  | 2 => (a / 4096) * 2 ^ 15 + p * 4096 + a % 4096
  | _ =>
    let (h, sel) := match p with
      | 0 => (0, 0) | 1 => (0, 1) | 4 => (0, 2) | 5 => (0, 3)
      | 2 => (1, 0) | 3 => (1, 1) | 6 => (1, 2) | _ => (1, 3)
    h * 2 ^ 39 + (a / 4096) * 2 ^ 14 + sel * 4096 + a % 4096

/-- R329: a write into a region being digested sets DIRTY at its port; `Digest.dirty` lists region × 8 + port. -/
def State.noteDigest (s : State) (a len : Nat) : State :=
  if s.digest.busy && a < 2 ^ 40 then
    let pa := unInterleave s.ilv (a / 2 ^ 37) (a % 2 ^ 37)
    let hit := s.digest.regions.zipIdx.filterMap fun (r, i) =>
      if pa < r.base + r.length && r.base < pa + len then some (i * 8 + a / 2 ^ 37) else none
    if hit.isEmpty then s
    else { s with digest := { s.digest with dirty := setAddAll s.digest.dirty hit } }.onPort (a / 2 ^ 37) fun p =>
      { p with dgDirty := true }
  else s

/-- R279, R322, R334: write bytes at a storage address. A word written in part is read first; one written whole, or by poison
covered its line, is not. Tags of touched granules clear; poisoned data poisons its lines; a write of a whole line unpoisoned
clears its poison; a smaller write leaves it. -/
def State.writeStore (s : State) (a : Nat) (bs : List Byte) (bad : Bool) : State :=
  let len := bs.length
  let ls := unitsOf 64 a len
  let whole := ls.filter fun l => a ≤ l * 64 && l * 64 + 64 ≤ a + len
  let s := if s.eccBad.isEmpty && s.eccCorr.isEmpty then s
    else
      let covered := fun (w : Nat) => (bad && ls.contains (w / 8)) || (a ≤ 8 * w && 8 * (w + eccUnits a) ≤ a + len)
      let s := s.scrubWords ((eccWords a len).filter fun w => !covered w)
      { s with eccBad := s.eccBad.filter fun w => !covered (eccWordOf w), eccCorr := s.eccCorr.filter fun w => !covered (eccWordOf w) }
  let s := { s with
    mem := memSetAll s.mem a bs
    poison := if bad then setAddAll s.poison ls else setDelAll s.poison whole
    tags := setDelAll s.tags (unitsOf 16 a len) }
  (s.dropRows a len).noteDigest a len

/-- Table 15-1: data that core `own` moves through its bonds with bad parity is delivered poisoned. -/
def State.bondBad (s : State) (own : Option Nat) : Bool := match own with | some n => (s.core n).badBond | none => false

/-- Table 15-1, R346: a parity event on the bonds of core `own` is recorded. -/
def State.bondNote (s : State) (own : Option Nat) : State :=
  match own with | some n => if (s.core n).badBond then s.record n 4 0 else s | none => s

/-- Read at a local physical address, as one access: outcome and bytes. -/
def State.readPa (s : State) (pa len : Nat) (own : Option Nat := none) : State × RStat × List Byte :=
  match s.locate pa len own with
  | (a, .ok) =>
    let (s', bad, bs) := s.readStore a len
    (s'.bondNote own, if bad || s.bondBad own then .poisoned else .ok, bs)
  | (_, st) => (s, st, natToLe 0 len)

/-- Write at a local physical address, as one access. -/
def State.writePa (s : State) (pa : Nat) (bs : List Byte) (bad : Bool) (own : Option Nat := none) : State × RStat :=
  match s.locate pa bs.length own with
  | (a, .ok) => ((s.writeStore a bs (bad || s.bondBad own)).bondNote own, .ok)
  | (_, st) => (s, st)

/-- R279: whether the granule at a storage address is tagged. -/
def State.tagged (s : State) (a : Nat) : Bool := s.tags.contains (a / 16)

/-- Read 16 bytes at a storage address and, as a seventeenth byte, the granule's tag. -/
def State.keyStore (s : State) (a : Nat) : State × RStat × List Byte :=
  let (s', bad, bs) := s.readStore a 16
  (s', if bad then .poisoned else .ok, bs ++ [if s'.tagged a then 1 else 0])

/-- Write a key at a storage address: its tag is set unless it is NULL, or `bad` marks its data as poison. -/
def State.putKey (s : State) (a : Nat) (key : Key) (bad : Bool := false) : State :=
  let s := s.writeStore a (natToLe key.toNat 16) bad
  if key == 0 || bad then s else { s with tags := setAdd s.tags (a / 16) }

/-- Read a granule with its tag at a local physical address. -/
def State.readKey (s : State) (pa : Nat) (own : Option Nat := none) : State × RStat × List Byte :=
  match s.locate pa 16 own with
  | (a, .ok) =>
    let (s', st, bs) := s.keyStore a
    (s'.bondNote own, if s.bondBad own then .poisoned else st, bs)
  | (_, st) => (s, st, natToLe 0 17)

/-- Write a key at a local physical address. -/
def State.writeKey (s : State) (pa : Nat) (key : Key) (bad : Bool) (own : Option Nat := none) : State × RStat :=
  match s.locate pa 16 own with
  | (a, .ok) => ((s.putKey a key (bad || s.bondBad own)).bondNote own, .ok)
  | (_, st) => (s, st)

/-- The taint a read's outcome leaves on a value (R63, R180, Table 12-5). -/
def RStat.taint : RStat → Taint
  | .ok => .clean
  | .poisoned => .poison
  | .busErr => .poison
  | .bankOff => .bankOff
  | .linkReset => .linkReset

/-! ### Registers of a task -/

/-- d register i (R30). -/
def Casement.dreg (c : Casement) (i : Nat) : Word := tabGet 0 c.d i

/-- Extent e, applied value (R202). -/
def Casement.ext (c : Casement) (e : Nat) : Extent := tabGet {} c.x e

/-- Key register i. -/
def Casement.key (c : Casement) (i : Nat) : Key := tabGet 0 c.k i

/-- An operand port by socket number (R29). -/
def Casement.opnd_ (c : Casement) (sock : Nat) : Word := tabGet 0 c.opnd sock

/-- Bit group g; b0 reads 1 (R39). -/
def Casement.group (c : Casement) (g : Nat) : Word :=
  let w := tabGet 0 c.bits g
  if g == 0 then w ||| 1 else w

/-- Bit variable n (R66). -/
def Casement.bit (c : Casement) (n : Nat) : Bool := (c.group (n / 64)).getLsbD (n % 64)

/-- Mark an image group dirty (R270). Groups: 0 remainder, 1–4 d0–d7 … d24–d31, 5 keys, 6–9 vector, 10–17 tiles. -/
def Casement.touch (c : Casement) (g : Nat) : Casement := { c with dirty := c.dirty ||| BitVec.ofNat 18 (2 ^ g) }

/-- Write d register i. -/
def Casement.setD (c : Casement) (i : Nat) (v : Word) : Casement :=
  { c with d := tabSet 0 c.d i v, dBad := c.dBad &&& ~~~(BitVec.ofNat 32 (2 ^ i)) }.touch (1 + i / 8)

/-- Write a key register; a key written through `lent` is lent (R287). -/
def Casement.setKey (c : Casement) (i : Nat) (key : Key) (isLent : Bool) : Casement :=
  { c with
    k := tabSet 0 c.k i key
    lent := if isLent then c.lent ||| BitVec.ofNat 16 (2 ^ i) else c.lent &&& ~~~(BitVec.ofNat 16 (2 ^ i))
    kBad := c.kBad &&& ~~~(BitVec.ofNat 16 (2 ^ i)) }.touch 5

/-- Write a group of bit variables; b0 is discarded (R39, R67). -/
def Casement.setGroup (c : Casement) (g : Nat) (v : Word) : Casement :=
  { c with bits := tabSet 0 c.bits g (if g == 0 then v &&& ~~~1 else v),
           gBad := c.gBad &&& ~~~(BitVec.ofNat 64 (2 ^ g)) }.touch 0

/-- Write one bit variable; a parity error of its group stays. -/
def Casement.setBit (c : Casement) (n : Nat) (b : Bool) : Casement :=
  let g := n / 64
  let w := c.group g
  let m : Word := BitVec.ofNat 64 (2 ^ (n % 64))
  { c.setGroup g (if b then w ||| m else w &&& ~~~m) with gBad := c.gBad }

/-- Tile j. -/
def Casement.tile (c : Casement) (j : Nat) : BitVec 8192 := tabGet 0 c.t j

/-- Row poison bits of tile j. -/
def Casement.tileBad (c : Casement) (j : Nat) : BitVec 16 := tabGet 0 c.tpoison j

/-- Residue-poisoned rows of tile j. -/
def Casement.tileRes (c : Casement) (j : Nat) : BitVec 16 := tabGet 0 c.tres j

/-- Write tile j with its row poison; its words in the main file are rewritten. -/
def Casement.setTile (c : Casement) (j : Nat) (v : BitVec 8192) (bad res : BitVec 16) : Casement :=
  { c with
    t := tabSet 0 c.t j v, tpoison := tabSet 0 c.tpoison j bad, tres := tabSet 0 c.tres j res
    tCorr := tabSet 0 c.tCorr j 0, tErr := tabSet 0 c.tErr j 0 }.touch (10 + j)

/-- The rows of `rows` with a word that `words` marks: eight words a row. -/
def markedRows (words : BitVec 128) (rows : BitVec 16) : List Nat :=
  (List.range 16).filter fun r => rows.getLsbD r && bitsOf words.toNat (8 * r) 8 != 0

/-- Table 15-1: what reading rows of tile j finds in the main file: correctable words are corrected, a row with an
uncorrectable word is poisoned (R114). -/
def Casement.scanRows (c : Casement) (j : Nat) (rows : BitVec 16) : Casement :=
  let keep : BitVec 128 := BitVec.ofNat 128 ((List.range 16).foldl (fun a r => if rows.getLsbD r then a else a + 0xFF * 2 ^ (8 * r)) 0)
  let hit := BitVec.ofNat 16 ((markedRows (tabGet 0 c.tErr j) rows).foldl (fun a r => a + 2 ^ r) 0)
  { c with
    tpoison := tabSet 0 c.tpoison j (c.tileBad j ||| hit), tres := tabSet 0 c.tres j (c.tileRes j &&& ~~~hit)
    tCorr := tabSet 0 c.tCorr j (tabGet 0 c.tCorr j &&& keep), tErr := tabSet 0 c.tErr j (tabGet 0 c.tErr j &&& keep) }

/-- Reading rows of tile j of casement k of core n: the errors found are counted as those of the bank are (Table 15-1). -/
def State.scanTile (s : State) (n k j : Nat) (rows : BitVec 16) : State :=
  let c := s.case n k
  let bad := markedRows (tabGet 0 c.tErr j) rows
  let corr := (List.range 128).filter fun w => (tabGet (0 : BitVec 128) c.tCorr j).getLsbD w && rows.getLsbD (w / 8) && !bad.contains (w / 8)
  if bad.isEmpty && corr.isEmpty then s
  else
    let s := corr.foldl (fun s _ => s.countCe (bankPa n 0)) s
    (bad.foldl (fun s _ => s.countUe (bankPa n 0)) s).onCase n k (·.scanRows j rows)

/-- Tiles that are read whole. -/
def State.scanTiles (s : State) (n k : Nat) (js : List Nat) : State :=
  js.foldl (fun s j => s.scanTile n k j (BitVec.allOnes 16)) s

/-- Vector register j with its slot poison. -/
def Casement.vreg (c : Casement) (j : Nat) : BitVec 2048 := tabGet 0 c.v j
def Casement.vregBad (c : Casement) (j : Nat) : BitVec 32 := tabGet 0 c.vpoison j
def Casement.vregRes (c : Casement) (j : Nat) : BitVec 32 := tabGet 0 c.vres j

/-- Write vector register j. -/
def Casement.setV (c : Casement) (j : Nat) (v : BitVec 2048) (bad res : BitVec 32) : Casement :=
  { c with v := tabSet 0 c.v j v, vpoison := tabSet 0 c.vpoison j bad, vres := tabSet 0 c.vres j res }.touch (6 + j / 4)

/-- Mask register j. -/
def Casement.mreg (c : Casement) (j : Nat) : BitVec 256 := tabGet 0 c.m j

/-- Write mask register j. -/
def Casement.setM (c : Casement) (j : Nat) (v : BitVec 256) : Casement :=
  { c with m := tabSet 0 c.m j v }.touch 6

/-- The rounding attribute of the task, FPC.RM (Table 04-7). -/
def Casement.rm (c : Casement) : Nat := fld c.fpc 0 3

/-! ### Result ports (R43, R44) -/

/-- What a result port shows; a port that has received no result reads 0. -/
def showOn (l : List (Port × PortVal)) (p : Port) : PortVal :=
  match l.find? (·.1 == p) with
  | some (_, v) => v
  | none => {}

/-- Show a value on a port. -/
def putShown (l : List (Port × PortVal)) (p : Port) (v : PortVal) : List (Port × PortVal) :=
  (p, v) :: l.filter (·.1 != p)

/-- The value a port shows. -/
def Casement.port (c : Casement) (p : Port) : PortVal := showOn c.shown p

/-- R94, R101: land a contribution in the task's reporting registers. -/
def Casement.landRegs (c : Casement) (x : Contrib) : Casement :=
  { c with
    fpc := c.fpc ||| BitVec.ofNat 64 (x.flags.toNat * 256)
    rmax := match x.rmax with
      | none => c.rmax
      | some m => rmaxWith c.rmax m
    nsat := bumpBy c.nsat x.nsat
    nflz := bumpBy c.nflz x.nflz
    tstart := c.tstart ||| BitVec.ofNat 64 (x.sat.toNat * 65536) }

/-- R94, R96: a contribution lands in the present issue cycle: a read of this cycle does not show it, a write of this cycle
goes first; `Casement.settleRegs` puts it into the registers at the end of the cycle. -/
def Casement.land (c : Casement) (x : Contrib) : Casement :=
  if x == {} then c else Casement.touch { c with landed := c.landed.join x } 0

/-- R94: the contributions of an operation that completes between issue cycles. -/
def Casement.landNow (c : Casement) (x : Contrib) : Casement := if x == {} then c else Casement.touch (c.landRegs x) 0

/-- R94, R96: the end of an issue cycle: what landed in it is in the registers. -/
def Casement.settleRegs (c : Casement) : Casement := { c.landRegs c.landed with landed := {} }

/-- Whether a pending list has a result of port `p` whose delay has elapsed at issue cycle t. -/
def elapsedOn (t : Nat) (p : Port) (l : List Pending) : Bool := l.any fun e => e.port == p && e.due ≤ t

/-- R43, R94, R281: deliver every pending result whose delay has elapsed at issue cycle t, in trigger order. The latest
elapsed trigger of a port shows; an earlier one lands its contributions and is never visible. A result whose data has not
come stays. -/
def deliverList (t : Nat) : List Pending → Casement → Casement
  | [], c => c
  | e :: rest, c =>
    let super := e.hidden || elapsedOn t e.port rest
    if e.due ≤ t && e.await == .ready then
      let c := c.land e.contrib
      let c := match e.keyWrite with
        | none => c
        | some w => c.setKey w.dst w.key w.lent
      let c := if super then c else { c with shown := putShown c.shown e.port e.data }
      deliverList t rest c
    else deliverList t rest { c with pend := c.pend ++ [{ e with hidden := super }] }

/-- Deliver at the task's present issue cycle. -/
def Casement.deliver (c : Casement) : Casement :=
  if c.pend.any fun e => e.due ≤ c.icount then deliverList c.icount c.pend { c with pend := [] } else c

/-- R44: a read of the port waits, because its latest elapsed result has no data yet. -/
def Casement.portWaits (c : Casement) (p : Port) : Bool :=
  c.pend.any fun e => e.port == p && e.due ≤ c.icount && !e.hidden

/-- Add a pending result whose trigger issues now with delay `d`. -/
def Casement.addPend (c : Casement) (p : Port) (d : Nat) (v : Word) : Casement :=
  Casement.touch { c with pend := c.pend ++ [{ port := p, due := c.icount + d, id := 0, data := { val := v } }] } 0

/-- Add a pending result given in full; its `due` is the delay. -/
def Casement.addPending (c : Casement) (e : Pending) : Casement :=
  Casement.touch { c with pend := c.pend ++ [{ e with due := c.icount + e.due }] } 0

/-! ### Faults (R224–R225, R290, Table 12-5) -/

/-- Fault classes. -/
def clsALIGN : BitVec 8 := 0x01
def clsEXTENT : BitVec 8 := 0x02
def clsKEY : BitVec 8 := 0x03
def clsS2T : BitVec 8 := 0x04
def clsS2P : BitVec 8 := 0x05
def clsWALKBUS : BitVec 8 := 0x06
def clsWALKATTR : BitVec 8 := 0x07
def clsPOISON : BitVec 8 := 0x08
def clsASYNC : BitVec 8 := 0x09
def clsRESIDUE : BitVec 8 := 0x0A
def clsILLEGAL : BitVec 8 := 0x0B
def clsTSB : BitVec 8 := 0x0C
def clsOVERFLOW : BitVec 8 := 0x0D
def clsBANKOFF : BitVec 8 := 0x0E
def clsLINKRESET : BitVec 8 := 0x0F

/-- A fault as it is found: class, stage, level, access code, WBE, extent, virtual and intermediate addresses
(Table 09-12); `syn`: the class writes the syndrome registers (R225). -/
structure Flt where
  cls : BitVec 8
  syn : Bool := false
  stage : Nat := 0
  level : Nat := 0
  acc : Nat := 0
  wbe : Bool := false
  ext : Nat := 0x10
  va : Nat := 0
  ia : Nat := 0
  /-- a register was read with bad parity (Table 15-1) -/
  par : Bool := false
  deriving DecidableEq, Repr

/-- POISON of a word that read a register with a parity error (Table 15-1). -/
def fltParity : Flt := { cls := clsPOISON, par := true }

/-- ILLEGAL_MOVE, which writes no syndrome. -/
def fltIllegal : Flt := { cls := clsILLEGAL }

/-- TFS of a fault (Table 09-12). -/
def Flt.tfs (f : Flt) : Word :=
  BitVec.ofNat 64 (f.cls.toNat + f.stage * 2 ^ 8 + f.level * 2 ^ 10 + f.acc * 2 ^ 12 + b2n f.wbe * 2 ^ 15 + f.ext * 2 ^ 16)

/-- The class the first read of a tainted value raises (R63, R332, Table 12-5). -/
def Taint.cls : Taint → Option (BitVec 8)
  | .clean => none
  | .poison => some clsPOISON
  | .residue => some clsRESIDUE
  | .bankOff => some clsBANKOFF
  | .linkReset => some clsLINKRESET

/-- What a trigger, or a whole word, comes to. A wait may ask for something first: a table walk, a line fill, an access
over a link. A fault may keep effects that stand (the rows of a tile operation, R125): they act on the state before the
word, as no move of it takes effect (R290). -/
inductive Req where
  | walk (w : Walk)
  | fill (ic : Bool) (line : Nat) (trans : Option (Nat × Nat))
  | held (pa len : Nat) (trans : Option (Nat × Nat))
  deriving DecidableEq, Repr

/-- The outcome of a trigger. -/
inductive Trig where
  | done (s : State)
  | wait (kind : WaitKind) (req : List Req)
  | fault (keep : Option (State → State)) (f : Flt)
  /-- the word waits, and part of its operation has gone ahead (R124) -/
  | pause (keep : State → State) (req : List Req)
  /-- the core has locked up: nothing more of the word happens -/
  | stop (s : State)

/-- Continue with the next part of a word. -/
def Trig.bind (t : Trig) (f : State → Trig) : Trig :=
  match t with
  | .done s => f s
  | .wait k r => .wait k r
  | .fault ks fl => .fault ks fl
  | .pause g r => .pause g r
  | .stop s => .stop s

end Sys2Proof.Machine
end

