-- ==== Sys2Proof/Machine/Events.lean ====
section
/-! DEFINITION. The scheduler of a core (chapter 11): event bits, wakes, preemption, selection of the next task, the
overflow trap; and how a task is stopped, a core locked up, a fault recorded. -/

namespace Sys2Proof.Machine

/-! ### Selection and switches -/

/-- The task number of what a killed task leaves behind: no task has it. -/
def noTask : Nat := 64

/-- R46, R144, R170: work of casement k whose end is still to come: data due on a result port, VXU, array and memory
operations. -/
def Core.caseBusy (c : Core) (k : Nat) : Bool :=
  (tabGet ({} : Casement) c.cases k).pend.any (fun e => e.await != .ready) || c.vxuOps.any (·.case == k) ||
    c.vecOps.any (·.case == k) || c.tileOps.any (·.case == k) || c.arrayQ.any (·.case == k)

/-- R267, R273: a casement is free when it holds no task, the results of a killed one have been delivered and discarded, and
no hardware fill into it is under way. -/
def Core.caseFree (c : Core) (k : Nat) : Bool :=
  c.taskFill.all (fun f => f.2 != k) &&
  match (tabGet ({} : Casement) c.cases k).task with
  | none => true
  | some t => t == noTask && !c.caseBusy k

/-- The lowest free task casement (R255, R273). -/
def Core.freeCase (c : Core) : Option Nat := (List.range 8).find? fun k => c.caseFree k

/-- R264: no task RUNNING or READY, the keeper not running, no switch in progress. -/
def Core.isIdle (c : Core) : Bool := c.running.isNone && c.readyQ.isEmpty && c.woken.isEmpty && c.taskFill.isNone

/-- Whether the keeper holds the issue slot. -/
def Core.keeperRuns (c : Core) : Bool := c.running == some 8

/-- R264: the idle detector, after a change of the core's scheduler state; `was` is whether the core was idle before. -/
def State.settle (was : Bool) (s : State) (n : Nat) : State :=
  let c := s.core n
  if was && !c.isIdle then
    s.setCore n { c with fresh := false, eligible := false,
                         tmrOwner := if c.tmrOwner == .detector then .none else c.tmrOwner }
  else if !was && c.isIdle && c.lockCause == 0 && c.tmrOwner == .none then
    s.setCore n { c with tmrOwner := .detector, tmrCount := 20000 }
  else s

/-- Make resident task t in casement k the RUNNING task (R256). Wakes held through the switch go on being held until its first
word (R262). -/
def State.runTask (s : State) (n t k : Nat) : State :=
  ((s.onTask n t fun x => { x with st := .running, mask := 0 }).onCore n fun c =>
    { c with running := some k, readyQ := c.readyQ.filter (· != t) }).onCase n k fun c =>
    { c with switched := !(s.core n).woken.isEmpty }

/-- R125: a switch event during row issue: TSTART.ROW records the next row to issue. -/
def Casement.stopRows (c : Casement) : Casement :=
  match c.rowNext with
  | none => c
  | some (_, r) => Casement.touch { c with tstart := setFld c.tstart 0 8 r, rowNext := none } 0

/-- R262: the running task becomes READY at the head of the queue. -/
def State.parkRunning (s : State) (n : Nat) : State :=
  match (s.core n).running with
  | none => s
  | some k =>
    match (s.case n k).task with
    | none => s.onCore n fun c => { c with running := none }
    | some t => ((s.onTask n t fun x => { x with st := .ready }).onCore n fun c =>
        { c with running := none, readyQ := t :: c.readyQ }).onCase n k Casement.stopRows

/-- R273: the victim of an overflow trap: the resident task whose last issue is earliest, the one that would run
excepted. -/
def victimOf (c : Core) : Option (Nat × Nat) :=
  let res := c.tasks.filterMap fun (t, x) => match x.loc with
    | some k => if c.running == some k then none else some (x.lastIssue, t, k)
    | none => none
  match res with
  | [] => none
  | a :: l => some (l.foldl (fun b x => if x.1 < b.1 then x else b) a).2

/-- A TCMD word of SPILL or FILL (Table 11-7). -/
def tcmdWord (op task case_ : Nat) : Word := BitVec.ofNat 64 (op + task * 2 ^ 8 + case_ * 2 ^ 16)

/-- R273: take the overflow trap for the spilled task t, or count it when KEN = 0; the incoming task stays READY. -/
def State.overflowTrap (s : State) (n t : Nat) : State :=
  let c := s.core n
  if !c.ken then s.setCore n { c with ovfblk := bump c.ovfblk }
  else
    match victimOf c with
    | none => s
    | some (vt, vk) =>
      let s := s.parkRunning n
      let cause : Word := BitVec.ofNat 64 (vk + vt * 2 ^ 8 + t * 2 ^ 16 + 2 ^ 22 + 0x0D * 2 ^ 24)
      let s := s.onCore n fun c =>
        { c with scause := cause, running := some 8, keeperIssues := 0,
                 readyQ := t :: c.readyQ.filter (· != t) }
      s.onCase n 8 fun k => { (((k.setD 0 (tcmdWord 2 vt vk)).setD 1 (tcmdWord 3 t vk)).setD 3 cause) with
                               pc := (s.core n).keeperPc }

/-- R273: a hardware fill of the spilled task t into the lowest free casement begins. -/
def State.startHwFill (s : State) (n t : Nat) : State := s.onCore n fun c => { c with taskFill := c.freeCase.map (t, ·) }

/-- Select the next task from the ready queue (Table 11-2): a resident head runs; a spilled head waits for its hardware
fill if a casement is free, else takes an overflow trap, or is skipped when KEN = 0. One fill at a time is under way. -/
def State.selectFrom (s : State) (n : Nat) : List Nat → State
  | [] => s.onCore n fun c => { c with running := none }
  | t :: rest =>
    match s.task n t with
    | none => s.selectFrom n rest
    | some x =>
      match x.loc with
      | some k => s.runTask n t k
      | none =>
        if (s.core n).taskFill.isSome then s.onCore n fun c => { c with running := none }
        else if (s.core n).freeCase.isSome then (s.startHwFill n t).onCore n fun c => { c with running := none }
        else if (s.core n).ken then s.overflowTrap n t
        else (s.overflowTrap n t).selectFrom n rest

/-- The core selects its next task; none while it is under test, locked up, or the block drains. -/
def State.selectNext (s : State) (n : Nat) : State :=
  let s := s.onCore n fun c => { c with running := none }
  if (s.core n).underTest || (s.core n).lockCause != 0 || s.drain.st != .run then s else s.selectFrom n (s.core n).readyQ

/-- If nobody runs and no fill is on its way, the core selects a task. -/
def State.kick (s : State) (n : Nat) : State :=
  if (s.core n).running.isNone && (s.core n).woken.isEmpty && (s.core n).taskFill.isNone then s.selectNext n else s

/-- R262: let the woken tasks `ts` run: the first preempts, the others join the tail. -/
def State.release (s : State) (n : Nat) : List Nat → State
  | [] => s
  | t :: rest =>
    let s := s.onCore n fun c => { c with readyQ := c.readyQ ++ rest }
    match s.task n t with
    | none => if (s.core n).running.isNone then s.selectNext n else s
    | some x =>
      match x.loc with
      | some k => (s.parkRunning n).runTask n t k
      | none =>
        if (s.core n).freeCase.isSome then s.startHwFill n t
        else if (s.core n).ken then s.overflowTrap n t
        else
          let s := (s.overflowTrap n t).onCore n fun c => { c with readyQ := c.readyQ ++ [t] }
          if (s.core n).running.isNone then s.selectNext n else s

/-- R262, R265: wakes are held during an uninterruptible repeat, while the keeper runs, during a test slot, while the block drains
(R349), while a fill is under way, from a fault until its handler's first word has issued (R291), and during a frame return
(R292). -/
def State.wakesHeld (s : State) (n : Nat) : Bool :=
  let c := s.core n
  c.keeperRuns || c.underTest || s.drain.st != .run || !c.woken.isEmpty || c.taskFill.isSome ||
    (match c.running with
     | none => false
     | some k =>
       let r := (s.case n k).rptc
       (bitAt r 32 && bitAt r 33) || (s.case n k).raised.isSome || (s.case n k).first || (s.case n k).frameRet)

/-- Make the WAITING tasks `ts` (rising) READY and let them run, or hold them. -/
def State.wake (s : State) (n : Nat) (ts : List Nat) : State :=
  if ts.isEmpty || (s.core n).lockCause != 0 then s
  else
    let was := (s.core n).isIdle
    let s := ts.foldl (fun x t => x.onTask n t fun y => { y with st := .ready }) s
    let s := if s.wakesHeld n then s.onCore n fun c => { c with woken := c.woken ++ ts } else s.release n ts
    s.settle was n

/-- Let the held wakes go, if nothing holds them any more: together, lowest task number first. -/
def State.releaseHeld (s : State) (n : Nat) : State :=
  let c := s.core n
  if c.woken.isEmpty || c.keeperRuns || c.underTest || c.lockCause != 0 || s.drain.st != .run then s
  else
    let ts := (setAddAll [] c.woken)
    let s := s.setCore n { c with woken := [] }
    if s.wakesHeld n then s.setCore n c else s.release n ts

/-- R262: wakes are let go, but not during the switch to a task the core has selected: those go with its first word. -/
def State.releaseIdle (s : State) (n : Nat) : State := if (s.core n).running.isNone then s.releaseHeld n else s

/-- The running task leaves the issue slot: the core selects its next task; with none to run, wakes that the task held are let
go. -/
def State.leaveSlot (s : State) (n : Nat) : State := (s.selectNext n).releaseIdle n

/-! ### Event bits (R257, R261, R70, R71) -/

/-- Whether setting bit `b` wakes the task. -/
def Task.wokenBy (x : Task) (b : Nat) : Bool :=
  x.st == .waiting && !x.stopped && (b == 3069 || (3064 ≤ b && b < 3072 && b != 3069 && x.mask.getLsbD (b - 3064)))

/-- The scheduler sets an event bit of a task (R257). -/
def State.setEvent (s : State) (n t b : Nat) : State :=
  match s.task n t with
  | none => s
  | some x =>
    let s := s.onCtx n (some t) (·.setBit b true)
    if x.wokenBy b then s.wake n [t] else s

/-- R357: set one event bit in every task of a core. -/
def State.setEventAll (s : State) (n b : Nat) : State :=
  let ts := (s.core n).tasks
  let s' := ts.foldl (fun x (t, _) => x.onCtx n (some t) (·.setBit b true)) s
  s'.wake n (ts.filterMap fun (t, x) => if x.wokenBy b then some t else none)

/-- R70, R71: a remote write of a signal bit of a task; a watch on it fires and disarms. -/
def State.remoteBit (s : State) (n t b : Nat) (v : Bool) : State :=
  match s.task n t with
  | none => s
  | some _ =>
    if b < 3072 then s
    else
      let fires := (s.ctx n (some t)).watches.contains b
      let s := s.onCtx n (some t) fun c => { (c.setBit b v) with watches := setDel c.watches b }
      if fires then s.setEvent n t 3066 else s

/-! ### Faults -/

/-- R294: the core locks up with a cause of Table 12-9; FSUM counts it, LOCKUP_N goes low, and the core is permanent (R347). -/
def State.lockup (s : State) (n : Nat) (cause : BitVec 4) : State :=
  if (s.core n).lockCause != 0 then s
  else
    let s := s.onCore n fun c => { c with lockCause := cause, eligible := false }
    State.record { s with drain := { s.drain with locks := bump s.drain.locks } } n 5 0

/-- Table 12-9 (R423): LOCKUP_N is low while any core of the block is locked up. -/
def State.lockupN (s : State) : Bool := s.cores.any fun (_, c) => c.lockCause != 0

/-- The task of casement k, none for the keeper. -/
def State.whoIs (s : State) (n k : Nat) : Option Nat := if k == 8 then none else (s.case n k).task

/-- R336 steps 1 and 2: the task stops at the consuming word, leaves the issue slot, and its job is reported to the job
sequencer. -/
def State.stopTask (s : State) (n k : Nat) (cls : BitVec 8) (va : Word) : State :=
  match s.whoIs n k with
  | none => s
  | some t =>
    match s.task n t with
    | none => s
    | some x =>
      let was := (s.core n).isIdle
      let rep : JobReport := { job := x.job, cls := cls, core := n, task := t, pc := (s.case n k).pc, addr := va }
      let s := { s with jobs := { s.jobs with reports := s.jobs.reports ++ [rep] } }
      let s := s.onTask n t fun y => { y with st := .waiting, mask := 0, stopped := true }
      let s := s.onCore n fun c => { c with readyQ := c.readyQ.filter (· != t), woken := c.woken.filter (· != t) }
      let s := s.onCase n k fun c => { c with waiting := none, held := [] }
      (if (s.core n).running == some k then s.leaveSlot n else s).settle was n

/-- Field f of an extent, and its replacement. -/
def Extent.field (e : Extent) (f : Nat) : Word :=
  match f with | 0 => e.base | 1 => e.limit | 2 => e.offset | _ => e.ctl
def Extent.setField (e : Extent) (f : Nat) (v : Word) : Extent :=
  match f with
  | 0 => { e with base := v } | 1 => { e with limit := v } | 2 => { e with offset := v } | _ => { e with ctl := v }

/-- Apply one pending write. -/
def Casement.applyWrite (c : Casement) (w : Nat × Word) : Casement :=
  if w.1 == 0x103 then { c with s2ctl := w.2 }
  else { c with x := tabSet {} c.x (w.1 / 4) ((c.ext (w.1 / 4)).setField (w.1 % 4) w.2) }

/-- R77, R207: apply every pending write together. -/
def Casement.serialise (c : Casement) : Casement :=
  Casement.touch { c.xpend.foldl Casement.applyWrite c with xpend := [] } 0

/-- R288: end a wicket call: k15 and x15 restored, every lent key NULL, one still on its way included. -/
def Casement.endCall (c : Casement) (w : Call) : Casement :=
  let lentKeys := c.lent
  let c := (List.range 16).foldl (fun (x : Casement) i => if lentKeys.getLsbD i then x.setKey i 0 false else x) c
  let c := c.setKey 15 w.k15 false
  Casement.touch { c with
    x := tabSet {} c.x 15 w.x15
    call := none
    pend := c.pend.map fun e => match e.keyWrite with
      | some kw => if kw.lent then { e with keyWrite := some { kw with key := 0, lent := false } } else e
      | none => e } 0

/-- R225: a fault of classes 0x02 to 0x07 writes the syndrome registers. -/
def Casement.syndrome (c : Casement) (f : Flt) : Casement :=
  if f.syn then
    { c with tfs := f.tfs, tfva := BitVec.ofNat 64 f.va, tfia := if f.stage == 2 then BitVec.ofNat 64 f.ia else 0 }.touch 0
  else c

/-- A fault found at a word of casement k (R290, Table 12-5): the syndrome is written; POISON and RESIDUE stop the task; a fault
of the keeper locks the core up (R275), and bad parity is recorded (R346); any other class is recorded for frame entry, and a
wicket call is first ended as sys.wret ends it, pending extent and S2CTL writes applied, so that it is tried again as a whole
(R288, R289). -/
def State.raise (s : State) (n k : Nat) (f : Flt) (async : Bool := false) : State :=
  let s := s.onCore n fun c => { c with walks := c.walks.filter (·.use != .word k) }
  let s := if f.par then s.record n 4 0 else s
  if k == 8 then (s.onCase n k fun c => c.syndrome f).lockup n 4
  else if f.cls == clsPOISON || f.cls == clsRESIDUE then s.stopTask n k f.cls (BitVec.ofNat 64 f.va)
  else
    s.onCase n k fun c =>
      let c := { c.syndrome f with waiting := none, held := [], frameRet := false }
      match c.call with
      | none => { c with raised := some { cls := f.cls, async := async } }
      | some w =>
        { c.serialise.endCall w with
          pc := w.at_, xfer := none, rptc := 0, skip := false
          raised := some { cls := f.cls, async := async, inCall := true, wicket := w.wicket } }

end Sys2Proof.Machine
end

