-- ==== Sys2Proof/Machine/Translate.lean ====
section
/-! DEFINITION. Address translation (chapter 09): extents and keys, the TLBs, the stage-2 walk, the order of its faults. -/

namespace Sys2Proof.Machine

/-! ### Keys (R276, R277) -/

/-- BASE of a key. -/
def keyBase (k : Key) : Nat := bitsOf k.toNat 0 52
/-- JOB of a key. -/
def keyJob (k : Key) : Nat := bitsOf k.toNat 52 12
/-- LENGTH of a key. -/
def keyLen (k : Key) : Nat := bitsOf k.toNat 64 52
/-- TYPE of a key: 0 NULL, 1 MEMORY, 2 TRANSLATION, 3 DEVICE, 4 WICKET. -/
def keyType (k : Key) : Nat := bitsOf k.toNat 116 4
/-- PERM of a key: R W X RS ST DR from bit 0. -/
def keyPerm (k : Key) : Nat := bitsOf k.toNat 120 8

/-- Build a key (Table 12-1). -/
def mkKey (base job len type perm : Nat) : Key :=
  BitVec.ofNat 128 (base % 2 ^ 52 + job % 2 ^ 12 * 2 ^ 52 + len % 2 ^ 52 * 2 ^ 64 + type % 16 * 2 ^ 116 + perm % 256 * 2 ^ 120)

/-- R277: the key covers [a, a + n − 1]. -/
def keyCovers (k : Key) (a n : Nat) : Bool :=
  keyType k != 0 && n ≥ 1 && keyBase k ≤ a && a + n ≤ keyBase k + keyLen k

/-- PERM includes the bits of `p`. -/
def keyHas (k : Key) (p : Nat) : Bool := (keyPerm k) &&& p == p

/-! ### Stage 1 -/

/-- What an access is, for its permissions and its ACC code (Tables 09-5, 09-12). -/
inductive Acc where
  | read | write | accum | cas | fetch | rsWrite | rsRead | rsCheck
  deriving DecidableEq, Repr

/-- ACC of TFS (Table 09-12). -/
def Acc.code : Acc → Nat
  | .read => 0 | .write => 1 | .accum => 2 | .cas => 3 | .fetch => 4 | .rsWrite => 5 | .rsRead => 5 | .rsCheck => 5

/-- The R, W, X permissions an access needs of a leaf (Table 09-5), as bits R = 1, W = 2, X = 4. -/
def Acc.leaf : Acc → Nat
  | .read => 1 | .write => 2 | .accum => 2 | .cas => 3 | .fetch => 4 | .rsWrite => 2 | .rsRead => 1 | .rsCheck => 0

/-- Whether it is a return-stack access. -/
def Acc.isRs : Acc → Bool
  | .rsWrite => true | .rsRead => true | .rsCheck => true | _ => false

/-- First and last byte of an extent (R203). -/
def Extent.lo (e : Extent) : Nat := fld e.base 16 32 * 65536
def Extent.hi (e : Extent) : Nat := fld e.limit 16 32 * 65536 + 65535

/-- R203: a valid extent that contains the address. -/
def Extent.holds (e : Extent) (va : Nat) : Bool := bitAt e.ctl 0 && e.lo ≤ va && va ≤ e.hi

/-- R204, R287: the extent an access uses. -/
def Casement.extentOf (c : Casement) (acc : Acc) (va : Nat) : Option Nat :=
  if acc == .fetch && c.call.isSome then (if (c.ext 15).holds va then some 15 else none)
  else (List.range 16).find? fun i => (c.ext i).holds va

/-- Permissions an extent grants, as PERM bits (R75, R206). -/
def Extent.grants (e : Extent) : Nat := if bitAt e.ctl 4 then 8 else fld e.ctl 1 3

/-- Whether the extent permits the access (Table 09-5). -/
def Extent.permits (e : Extent) (a : Acc) : Bool :=
  if a.isRs then bitAt e.ctl 4 else (e.grants &&& a.leaf) == a.leaf && !bitAt e.ctl 4

/-- R206: whether a key covers every intermediate address the extent yields, with its permissions. -/
def keyForExtent (k : Key) (e : Extent) : Bool :=
  let off := fld e.offset 16 32 * 65536
  let a := e.lo + off
  let b := e.hi + off
  keyType k == 1 && keyHas k e.grants &&
    (if b < 2 ^ 48 then keyCovers k a (b + 1 - a)
     else if a ≥ 2 ^ 48 then keyCovers k (a - 2 ^ 48) (b + 1 - a)
     else keyCovers k a (2 ^ 48 - a) && keyCovers k 0 (b + 1 - 2 ^ 48))

/-- R198: the intermediate address. -/
def Extent.ia (e : Extent) (va : Nat) : Nat := (va + fld e.offset 16 32 * 65536) % 2 ^ 48

/-! ### Stage 2 -/

/-- A stage-2 entry's fields (Table 09-7). -/
def entValid (e : Nat) : Bool := bitsOf e 0 1 == 1
def entTable (e : Nat) : Bool := bitsOf e 1 1 == 1
def entPerm (e : Nat) : Nat := bitsOf e 2 3
def entAttr (e : Nat) : Nat := bitsOf e 5 2
def entHint (e : Nat) : Bool := bitsOf e 7 1 == 1
def entOa (e : Nat) : Nat := bitsOf e 16 36

/-- R209: an entry is invalid at its level. -/
def entInvalid (e level : Nat) : Bool :=
  let leaf := level == 3 || (level == 2 && !entTable e)
  !entValid e || ((level == 1 || level == 3) && !entTable e) || (leaf && entAttr e == 3) ||
    bitsOf e 8 8 != 0 || bitsOf e 52 4 != 0 || (bitsOf e 51 1 == 0 && bitsOf e 41 10 != 0) ||
    (level == 2 && !entTable e && bitsOf e 16 13 != 0)

/-- The slot of a level-3 entry alone. -/
def pageSlot (tag ia e : Nat) : TlbEntry :=
  { tag := tag, ia := ia / 65536 * 65536, size := 65536, pa := entOa e * 65536,
    perm := BitVec.ofNat 3 (entPerm e), attr := BitVec.ofNat 2 (entAttr e), level := 3 }

/-- The slot of a level-2 block. -/
def blockSlot (tag ia e : Nat) : TlbEntry :=
  { tag := tag, ia := ia / 2 ^ 29 * 2 ^ 29, size := 2 ^ 29, pa := entOa e * 65536,
    perm := BitVec.ofNat 3 (entPerm e), attr := BitVec.ofNat 2 (entAttr e), level := 2 }

/-- R212: the slot for a level-3 entry with CH = 1, widened to its contiguous group where the group's conditions hold on its 32
entries. Where software set CH on entries that break them, which entry of the group serves is free (Config.groupEntry). -/
def State.leaf3 (s : State) (tag ia e : Nat) (ents : List Nat) : State × TlbEntry :=
  let same := fun (a b : Nat) => entPerm a == entPerm b && entAttr a == entAttr b
  let e0 := ents.headD 0
  let good := entOa e0 % 32 == 0 && ents.zipIdx.all fun (x, i) =>
    !entInvalid x 3 && entHint x && same x e0 && entOa x == entOa e0 + i
  let grp : Nat → Nat → TlbEntry := fun x i =>
    { pageSlot tag ia x with ia := ia / 2 ^ 21 * 2 ^ 21, size := 2 ^ 21, pa := (entOa x + 2 ^ 36 - i) % 2 ^ 36 * 65536 }
  if good then (s, grp e0 0)
  else
    let cand := (ents.zipIdx).filter fun (x, _) => !entInvalid x 3 && entHint x
    let pick := Config.groupEntry s.free
    let s := { s with free := s.free + 1 }
    if pick % 2 == 0 then (s, pageSlot tag ia e)
    else match cand[pick / 2 % (cand.length + 1)]? with
      | none => (s, pageSlot tag ia e)
      | some (x, i) => (s, grp x i)

/-! ### TLBs (R213, R214) -/

/-- The slot translates the address for the tag. -/
def TlbEntry.covers (e : TlbEntry) (tag ia : Nat) : Bool := e.tag == tag && e.ia ≤ ia && ia < e.ia + e.size

/-- Put a slot into a TLB of the given capacity; replacement is random (Config.tlbVictim). -/
def tlbFill (cap k : Nat) (l : List TlbEntry) (e : TlbEntry) : List TlbEntry :=
  if l.contains e then l
  else if l.length < cap then l ++ [e]
  else modifyAt (fun _ => e) l (Config.tlbVictim k % cap)

/-- R213: fill both TLBs of core n. -/
def State.fillTlbs (s : State) (n : Nat) (e : TlbEntry) : State :=
  let s := s.onCore n fun c => { c with tlb := tlbFill 64 s.free c.tlb e }
  let s := s.onCluster (clusterOf n) fun c => { c with tlb := tlbFill 2048 (s.free + 1) c.tlb e }
  { s with free := s.free + 2 }

/-- R213: a slot of the core TLB, else of the cluster TLB. -/
def State.tlbLook (s : State) (n tag ia : Nat) : Option TlbEntry :=
  match (s.core n).tlb.find? (·.covers tag ia) with
  | some e => some e
  | none => (s.cluster (clusterOf n)).tlb.find? (·.covers tag ia)

/-- R213: a cluster-TLB hit fills the core TLB. -/
def State.touchTlb (s : State) (n tag ia : Nat) : State :=
  if (s.core n).tlb.any (·.covers tag ia) then s
  else match (s.cluster (clusterOf n)).tlb.find? (·.covers tag ia) with
    | none => s
    | some e => { (s.onCore n fun c => { c with tlb := tlbFill 64 s.free c.tlb e }) with free := s.free + 1 }

/-! ### Translation -/

/-- Effective type of an access (R211): 0 cacheable, 1 uncached, 2 device. -/
inductive MType where
  | cached | uncached | device
  deriving DecidableEq, Repr

/-- A translated access: physical address, type, extent, level of the leaf, intermediate address, tag. -/
structure Xl where
  pa : Nat
  type : MType
  ext : Nat
  level : Nat
  ia : Nat
  tag : Nat
  deriving DecidableEq, Repr

/-- What translation comes to. -/
inductive XlRes where
  | ok (x : Xl)
  | fault (f : Flt)
  | miss (tag root ia ext : Nat)
  deriving DecidableEq, Repr

/-- Orders 6 and 7 of Table 09-11 and the effective type, on a leaf. `device`: the access may reach device memory; `kyu`:
device memory raises KEY instead (R280). -/
def leafCheck (e : TlbEntry) (x : Extent) (xi va ia : Nat) (acc : Acc) (device kyu : Bool) : XlRes :=
  let pa := (e.pa + (ia - e.ia)) % 2 ^ 52
  let f : Flt := { cls := clsS2P, syn := true, stage := 2, level := e.level, acc := acc.code, ext := xi, va := va, ia := ia }
  if (e.perm.toNat &&& acc.leaf) != acc.leaf then .fault f
  else
    let dev := e.attr == 2 || ctlRange pa
    if kyu && (dev || pa ≥ 2 ^ 51) then .fault { f with cls := clsKEY }
    else if dev && !device then .fault f
    else
      .ok { pa := pa, type := if dev then .device else if e.attr == 1 || bitAt x.ctl 5 then .uncached else .cached,
            ext := xi, level := e.level, ia := ia, tag := e.tag }

/-- Orders 2 to 4 of Table 09-11: the extent, its permissions, its key, S2CTL.EN. A key register with a parity error raises
POISON in its place (Table 15-1). -/
def stage1 (c : Casement) (va : Nat) (acc : Acc) : Except Flt (Nat × Extent) :=
  let f : Flt := { cls := clsEXTENT, syn := true, stage := 1, acc := acc.code, va := va }
  match c.extentOf acc va with
  | none => .error f
  | some i =>
    let e := c.ext i
    if !e.permits acc then .error { f with ext := i }
    else if c.kBad.getLsbD (fld e.ctl 8 4) then .error fltParity
    else if !keyForExtent (c.key (fld e.ctl 8 4)) e then .error { f with cls := clsKEY, ext := i }
    else if !bitAt c.s2ctl 52 then
      .error { f with cls := clsS2T, stage := 2, level := 1, ext := i, ia := e.ia va }
    else .ok (i, e)

/-- R224: translate one access of the registers `c` on core n with the TLBs as they stand. -/
def State.xlate (s : State) (n : Nat) (c : Casement) (va : Nat) (acc : Acc) (device kyu : Bool := false) : XlRes :=
  match stage1 c va acc with
  | .error f => .fault f
  | .ok (i, e) =>
    let ia := e.ia va
    let tag := fld c.s2ctl 0 16
    match s.tlbLook n tag ia with
    | some t => leafCheck t e i va ia acc device kyu
    | none => .miss tag (fld c.s2ctl 16 36) ia i

/-! ### The cluster's walker (R210, R213) -/

/-- The walk a miss joins: misses of one tag and page are merged. -/
def Walk.page (w : Walk) : Nat × Nat := (w.tag, w.ia / 65536)
def WalkJob.page (j : WalkJob) : Nat × Nat := (j.tag, j.ia / 65536)

/-- The address and length of the read a walk makes (Table 09-8): the entry of its level, or the 32 entries of a group. -/
def WalkJob.read (j : WalkJob) : Nat × Nat :=
  match j.entry, j.level with
  | some _, _ => (j.table + bitsOf j.ia 16 13 / 32 * 256, 256)
  | none, 1 => (j.table + bitsOf j.ia 42 6 * 8, 8)
  | none, 2 => (j.table + bitsOf j.ia 29 13 * 8, 8)
  | none, _ => (j.table + bitsOf j.ia 16 13 * 8, 8)

/-- Replace the walk with the number of j. -/
def State.putWalk (s : State) (cl : Nat) (j : WalkJob) : State :=
  s.onCluster cl fun c => { c with walker := c.walker.map fun x => if x.id == j.id then j else x }

/-- R210, R227: a walk makes the read it has come to, through the mesh; none where the table's place forbids it. -/
def State.walkAsk (s : State) (cl : Nat) (j : WalkJob) : State :=
  if j.table ≥ 2 ^ 51 || ctlRange j.table then s.putWalk cl { j with res := some (.fault clsWALKATTR j.level false) }
  else
    let (pa, len) := j.read
    (s.putWalk cl j).send (.core j.core) (s.agentOf j.core pa) (.read pa len) (.walk cl j.id)

/-- A walk begins, or begins again, under a new number. -/
def State.walkBegin (s : State) (cl : Nat) (j : WalkJob) : State :=
  let (id, s) := s.fresh
  let j' : WalkJob := { id := id, core := j.core, tag := j.tag, root := j.root, ia := j.ia, mode := s.walkErrMode, table := j.root * 65536 }
  (s.onCluster cl fun c => { c with walker := (c.walker.filter fun x => x.page != j.page) ++ [j'] }).walkAsk cl j'

/-- The misses of the cores of a cluster whose walk has not ended, in the order they came, with their cores. -/
def State.clusterWalks (s : State) (cl : Nat) : List (Nat × Walk) :=
  let all := (s.cores.map fun (n, c) => if clusterOf n == cl then (c.walks.filter (·.fault.isNone)).map (n, ·) else []).flatten
  all.insertionSort (·.2.id ≤ ·.2.id)

/-- R213, R226: the walker begins what it can, up to eight walks; a miss joins the walk of its page. A walk that has ended and
that no miss waits for any longer is dropped. -/
def State.startWalks (s : State) (cl : Nat) : State :=
  let reqs := s.clusterWalks cl
  let s := s.onCluster cl fun c => { c with walker := c.walker.filter fun j => j.res.isNone || reqs.any fun (_, w) => w.page == j.page }
  reqs.foldl (fun s (n, w) =>
    let js := (s.cluster cl).walker
    if js.any (fun j => j.page == w.page) || js.length ≥ 8 then s
    else s.walkBegin cl { id := 0, core := n, tag := w.tag, root := w.root, ia := w.ia, mode := false }) s

/-- A miss asks for a walk. -/
def State.askWalk (s : State) (n : Nat) (w : Walk) : State :=
  let (id, s) := s.fresh
  (s.onCore n fun c => { c with walks := c.walks ++ [{ w with id := id }] }).startWalks (clusterOf n)

/-- The miss of a page for one use. -/
def Walk.same (w x : Walk) : Bool := w.use == x.use && w.page == x.page && w.root == x.root

/-- The cores of the cluster with a miss of a page. -/
def State.walkers (s : State) (cl : Nat) (p : Nat × Nat) : List Nat :=
  s.cores.filterMap fun (n, c) => if clusterOf n == cl && c.walks.any fun w => w.page == p && w.fault.isNone then some n else none

/-! ### Translating -/

/-- The fault a walk has ended in, as an access of extent i raises it. -/
def walkFlt (f : BitVec 8 × Nat × Bool) (acc : Acc) (i va ia : Nat) : Flt :=
  { cls := f.1, syn := true, stage := 2, level := f.2.1, acc := acc.code, wbe := f.2.2, ext := i, va := va, ia := ia }

/-- What translating outside a word comes to. -/
inductive NowRes where
  | ok (x : Xl)
  | fault (f : Flt)
  /-- a walk is under way -/
  | held
  deriving DecidableEq, Repr

/-- Translate an access of the XMU, of frame entry, of fetch-ahead or a prefetch: a miss asks for a walk. -/
def State.xlateNow (s : State) (n : Nat) (use : WalkFor) (c : Casement) (va : Nat) (acc : Acc) (device kyu : Bool := false) :
    State × NowRes :=
  match s.xlate n c va acc device kyu with
  | .ok x => (s.touchTlb n x.tag x.ia, .ok x)
  | .fault f => (if f.stage == 2 then s.touchTlb n (fld c.s2ctl 0 16) f.ia else s, .fault f)
  | .miss tag root ia i =>
    let w : Walk := { use := use, tag := tag, root := root, ia := ia }
    match (s.core n).walks.find? w.same with
    | some { fault := some f, .. } =>
      (s.onCore n fun c => { c with walks := c.walks.filter (!w.same ·) }, .fault (walkFlt f acc i va ia))
    | some _ => (s, .held)
    | none => (s.askWalk n w, .held)

/-- What a fault of a translation leaves: one found on a leaf of the cluster TLB still fills the core TLB (R213). -/
def State.keepTlb (s : State) (n k : Nat) (f : Flt) : Option (State → State) :=
  some fun b => if f.stage == 2 then b.touchTlb n (fld (s.case n k).s2ctl 0 16) f.ia else b

/-- Translate an access of a word of casement k: a miss asks for a walk and the word waits; a walk that has ended in a fault
raises it. -/
def State.xlateWord (s : State) (n k : Nat) (va : Nat) (acc : Acc) (device kyu : Bool := false) : Xl ⊕ Trig :=
  match s.xlate n (s.case n k) va acc device kyu with
  | .ok x => .inl x
  | .fault f => .inr (.fault (s.keepTlb n k f) f)
  | .miss tag root ia i =>
    let w : Walk := { use := .word k, tag := tag, root := root, ia := ia }
    match (s.core n).walks.find? w.same with
    | some { fault := some f, .. } => .inr (.fault none (walkFlt f acc i va ia))
    | some _ => .inr (.wait .trigger [])
    | none => .inr (.wait .trigger [.walk w])

/-- An ALIGN fault of an access (order 1; STAGE 0, no syndrome registers written: R225 names classes 0x02 to 0x07). -/
def fltAlign : Flt := { cls := clsALIGN }

/-- R59: the virtual address of a short address. -/
def Casement.short (c : Casement) (a : Nat) : Nat := fld c.bnk 0 16 * 2 ^ 32 + a % 2 ^ 32

end Sys2Proof.Machine
end

