-- ==== Sys2Proof/Machine/Links.lean ====
section
/-! DEFINITION. Sending over a link module (R302–R312): the choice of module, credits, the replay partition, requests and
responses. -/

namespace Sys2Proof.Machine

/-- An all-zero message. -/
def Msg.blank : Msg :=
  { type := 0, ch := 0, strict := false, seq := 0, srcblk := 0, src := 0, rpl := false, rlast := false, offset := 0,
    dstblk := 0, len := 0, af := 0, rank := 0, size := 0, rtag := 0, job := 0, arg := 0, payload := [],
    corrupt := false, badReserved := false }

/-- Credits a message needs, in units of 32 bytes (R310). -/
def msgUnits (m : Msg) : Nat := (32 + m.payload.length + 31) / 32

/-- Bytes a message takes in a buffer. -/
def msgBytes (m : Msg) : Nat := 32 + m.payload.length

/-- H of HSPLIT in MiB (Table 13-8). -/
def hMiB (h : BitVec 2) : Nat := match h.toNat with | 1 => 2 | 2 => 4 | 3 => 8 | _ => 0

/-- Table 13-7: bytes of the replay partition of a channel. -/
def Link.replaySize (l : Link) (host : Bool) : Nat :=
  let h := if l.role == 2 then hMiB l.hsplit else 0
  if host then h * 2 ^ 20 / 2 else (16 - h) * 2 ^ 20 / 2

/-- Table 13-7: bytes of the receive partition of a channel, which the peer's credits cover. -/
def Link.recvSize (l : Link) (ch : Nat) : Nat :=
  let h := if l.role == 2 then hMiB l.hsplit else 0
  if ch < 4 then (16 - h) * 2 ^ 20 / 16 else if ch == 4 then (16 - h) * 2 ^ 20 / 4
  else if ch ≥ 6 then h * 2 ^ 20 / 4 else 0

/-- Whether a channel is of the host partition. -/
def hostCh (ch : BitVec 3) : Bool := ch ≥ 6

/-- R304: a message of the host partition's channels or of the reserved one breaks the rules of a module's role. -/
def chOk (ch : Nat) (host : Bool) : Bool := ch < 5 || (host && ch ≥ 6)

/-- R310, R312: whether a sequenced message can be sent now. -/
def Link.canSend (l : Link) (m : Msg) : Bool :=
  let held := (l.replay.filter fun x => hostCh x.ch == hostCh m.ch).foldl (fun a x => a + msgBytes x) 0
  l.st == .up && msgUnits m ≤ tabGet 0 l.credits m.ch.toNat && held + msgBytes m ≤ l.replaySize (hostCh m.ch)

/-- A message of an outbound request, which an RTAG of this module names. -/
def isAsk (m : Msg) : Bool := 1 ≤ m.type.toNat && m.type.toNat ≤ 4

/-- Put a sequenced message on the link with the next SEQ; the request it makes counts as sent (R315). -/
def Link.put (l : Link) (m : Msg) : Link :=
  let m := { m with seq := l.txSeq, rpl := false, rlast := false }
  { l with
    txSeq := l.txSeq + 1
    credits := tabSet 0 l.credits m.ch.toNat (tabGet 0 l.credits m.ch.toNat - msgUnits m)
    replay := l.replay ++ [m]
    wire := l.wire ++ [m]
    reqs := l.reqs.map fun r => if isAsk m && r.msg.rtag == m.rtag && !r.sent
      then { r with sent := true, msg := { r.msg with seq := m.seq } } else r }

/-- R310: send every waiting message that can go; a message that waits holds up only its own channel. -/
def Link.drainWait (l : Link) : List Msg → List Msg → Link
  | [], keep => { l with waiting := keep }
  | m :: t, keep =>
    if !(keep.any fun x => x.ch == m.ch) && l.canSend m then (l.put m).drainWait t keep
    else l.drainWait t (keep ++ [m])

/-- R316 step 5: send the VOIDs owed, in order, as credit allows. -/
def Link.payOwed (l : Link) : List Msg → Link
  | [] => { l with owed := [] }
  | m :: t => if l.canSend m then (l.put m).payOwed t else { l with owed := m :: t }

/-- Send what can be sent: the VOIDs owed, and once none is left the rest. -/
def Link.pump (l : Link) : Link :=
  if l.st != .up then l
  else
    let l := l.payOwed l.owed
    if l.owed.isEmpty then l.drainWait l.waiting [] else l

/-- Send a sequenced message, or let it wait for credit or room. -/
def Link.send (l : Link) (m : Msg) : Link := Link.pump { l with waiting := l.waiting ++ [m] }

/-- Put an unsequenced link-control message on the link (CRD, LACK, NAK). -/
def Link.control (l : Link) (m : Msg) : Link := { l with wire := l.wire ++ [m] }

/-- Return the credit of a message, as it is handed on (R310). -/
def crdMsg (ch : BitVec 3) (units : Nat) : Msg := { Msg.blank with type := 8, ch := ch, arg := BitVec.ofNat 64 units }
def Link.giveBack (l : Link) (m : Msg) : Link := l.control (crdMsg m.ch (msgUnits m))

/-- Positions of the set bits of MODS. -/
def modList (mods : Nat) : List Nat := (List.range 16).filter mods.testBit

/-- R302: the module that carries the traffic of one source to block b; none: answered as unpopulated. -/
def State.moduleFor (s : State) (b src : Nat) : Option Nat :=
  let ms := modList (fld (tabGet 0 s.routes b) 0 16)
  if b == s.self.toNat then none
  else if ms.isEmpty then none
  else ms[src % ms.length]?

/-- R155, R315, R316: the VOID owed for a request that ends with LINK_RESET: of a strict ACCP, with its header's names. -/
def voidsOf (m : Msg) : List Msg :=
  if m.type == 3 && m.strict then [{ m with type := 7, len := 0, arg := 0, payload := [], rpl := false, rlast := false }]
  else []

/-- R302, R303, R305: make an outbound request to the remote block of `pa`. How it ends at once, if it does. -/
def State.request (s : State) (src pa : Nat) (m : Msg) (ret : Ret) (trans : Option (Nat × Nat) := none) :
    State × Option RStat :=
  let b := bitsOf pa 41 10
  match s.moduleFor b src with
  | none => (s, some .busErr)
  | some k =>
    let l := s.link k
    let m := { m with
      strict := m.strict && !s.rel10
      ch := BitVec.ofNat 3 (src % 4), srcblk := s.self, src := BitVec.ofNat 14 src, dstblk := BitVec.ofNat 10 b,
      offset := BitVec.ofNat 41 pa, rtag := l.rtag }
    if l.st != .up then (s.onLink k fun l => { l with owed := l.owed ++ voidsOf m }, some .linkReset)
    else
      let (id, s) := s.fresh
      (s.onLink k fun l =>
        Link.send { l with rtag := l.rtag + 1, reqs := l.reqs ++ [{ id := id, msg := m, ret := ret, trans := trans }] } m,
      none)

/-- R12: an address in core n's own bank, reached through the bonds at once. Every other access is a packet. -/
def State.near (s : State) (n pa : Nat) : Bool := match s.place pa with | .bank b _ => b == n | _ => false

/-- The agent an access is made by (R298): the XMU for a descriptor's, else the core. -/
def Ret.agent (n : Nat) : Ret → Agent
  | .xmu .. => .xmu n
  | .poisonWr _ => .escapement
  | _ => .core n

/-- Make a PUT or GET that does not end at once: a packet to another place of this block, or a request over a link. -/
def State.reach (s : State) (n pa : Nat) (m : Msg) (ret : Ret) (trans : Option (Nat × Nat) := none) : State × Option RStat :=
  if pa < 2 ^ 51 then
    (s.send (ret.agent n) (s.agentOf n pa) (if m.type == 1 then .write pa m.payload (m.arg != 0) else .read pa m.len.toNat) ret trans, none)
  else s.request n pa m ret trans

/-- A PUT of bytes; poisoned data marks every 64-byte unit (R334). -/
def putMsg (job : BitVec 12) (bs : List Byte) (bad : Bool) : Msg :=
  { Msg.blank with
    type := 1, len := BitVec.ofNat 9 bs.length, job := job, payload := bs,
    arg := if bad then BitVec.ofNat 64 (2 ^ ((bs.length + 63) / 64) - 1) else 0 }

/-- A GET of `len` bytes. -/
def getMsg (job : BitVec 12) (len : Nat) : Msg := { Msg.blank with type := 2, len := BitVec.ofNat 9 len, job := job }

/-- STATUS of a response (Table 13-6). -/
def RStat.linkStatus : RStat → Nat
  | .ok => 0 | .poisoned => 0x08 | .busErr => 0x80 | .bankOff => 0x0E | .linkReset => 0x0E

/-- The outcome a STATUS stands for at the source. -/
def statusOf (x : Nat) : RStat :=
  match x with | 0 => .ok | 0x08 => .poisoned | 0x0E => .bankOff | _ => .busErr

/-- R307: answer a request that came in on module k; `mask` names the poisoned 64-byte units of the data (R334). -/
def State.respond (s : State) (k : Nat) (q : Msg) (st : RStat) (data : List Byte) (getr : Bool) (mask : Nat := 0) : State :=
  let m : Msg := { Msg.blank with
    type := if getr then 5 else 6
    ch := 4, srcblk := s.self, src := q.src, dstblk := q.srcblk, offset := q.offset, rtag := q.rtag, job := q.job
    len := BitVec.ofNat 9 (if getr then data.length else 0)
    payload := if getr then data else []
    arg := BitVec.ofNat 64 (st.linkStatus + mask * 256) }
  if (s.link k).st == .up then s.onLink k (·.send m) else s

/-- R314: answer an HREQ on module k. -/
def State.hrsp (s : State) (k : Nat) (q : Msg) (st : RStat) (data : List Byte) : State :=
  let m : Msg := { Msg.blank with
    type := 0xC, ch := 6, srcblk := s.self, src := q.src, dstblk := q.srcblk, offset := q.offset, rtag := q.rtag, job := q.job
    len := BitVec.ofNat 9 data.length, payload := data, arg := BitVec.ofNat 64 st.linkStatus }
  if (s.link k).st == .up then s.onLink k (·.send m) else s

end Sys2Proof.Machine
end

