-- ==== Sys2Proof/Machine/Cache.lean ====
section
/-! DEFINITION. The caches and the store buffer of a core (chapter 10): lookup, allocation and replacement, fills,
write-backs, the performing of a store-buffer entry. Lines are named by physical address ÷ 64. -/

namespace Sys2Proof.Machine

/-! ### Lines and bytes of lines -/

/-- Bytes 0 .. n − 1 of `new` where the mask has a bit, of `old` elsewhere. -/
def mergeBytes (old new mask : Nat) : Nat → Nat
  | 0 => 0
  | n + 1 => mergeBytes old new mask n + (if mask.testBit n then elemOf new 8 n else elemOf old 8 n) * 2 ^ (8 * n)

/-- A line with the masked bytes of another. -/
def mergeLine (old new : BitVec 512) (mask : BitVec 64) : BitVec 512 :=
  BitVec.ofNat 512 (mergeBytes old.toNat new.toNat mask.toNat 64)

/-- The mask of `len` bytes from byte `off` of a line. -/
def maskOf (off len : Nat) : BitVec 64 := BitVec.ofNat 64 ((2 ^ len - 1) * 2 ^ off)

/-- The bytes of a line that belong to the granules of a dirty mask. -/
def granMask (d : BitVec 8) : BitVec 64 :=
  BitVec.ofNat 64 (packElems 8 ((List.range 8).map fun i => if d.getLsbD i then 255 else 0))

/-- Granules that a byte mask touches; granules it covers whole. -/
def granTouched (m : BitVec 64) : BitVec 8 :=
  BitVec.ofNat 8 (packElems 1 ((List.range 8).map fun i => if elemOf m.toNat 8 i == 0 then 0 else 1))
def granWhole (m : BitVec 64) : BitVec 8 :=
  BitVec.ofNat 8 (packElems 1 ((List.range 8).map fun i => if elemOf m.toNat 8 i == 255 then 1 else 0))

/-- A line of 64 bytes as a value, and back. -/
def lineOf (bs : List Byte) : BitVec 512 := BitVec.ofNat 512 (leToNat bs)
def lineBytes (l : BitVec 512) (off len : Nat) : List Byte := natToLe (l.toNat >>> (8 * off)) len

/-- The contiguous runs of set bits of a byte mask: offset and length (R307). -/
def runsOf (mask : Nat) : Nat → List (Nat × Nat)
  | 0 => []
  | n + 1 =>
    let r := runsOf mask n
    if mask.testBit n then
      match r.getLast? with
      | some (o, l) => if o + l == n then r.dropLast ++ [(o, l + 1)] else r ++ [(n, 1)]
      | none => [(n, 1)]
    else r

/-- A loaded value: `n` bytes at byte `off` of a line, zero- or sign-extended (Table 03-4). -/
def loadVal (l : BitVec 512) (off n : Nat) (signed : Bool) : Word :=
  let x := bitsOf l.toNat (8 * off) (8 * n)
  if signed then sext x (8 * n) else BitVec.ofNat 64 x

/-! ### Lookup and allocation -/

/-- R234: one step of a replacement LFSR. -/
def lfsrStep (l : BitVec 16) : BitVec 16 :=
  let f := (l.getLsbD 0) ^^ (l.getLsbD 2) ^^ (l.getLsbD 3) ^^ (l.getLsbD 5)
  (l >>> 1) ||| (if f then 0x8000 else 0)

/-- The lines of one cache. -/
def Core.lines (c : Core) (ic : Bool) : List (Nat × Line) := if ic then c.icache else c.dcache
def Core.setLines (c : Core) (ic : Bool) (l : List (Nat × Line)) : Core :=
  if ic then { c with icache := l } else { c with dcache := l }

/-- Set of a line (Table 10-1). -/
def setIdx (ic : Bool) (line : Nat) : Nat := line % (if ic then 64 else 128)

/-- The valid line of a cache, and its way key. -/
def Core.hit (c : Core) (ic : Bool) (line : Nat) : Option (Nat × Line) :=
  (c.lines ic).find? fun (_, l) => l.addr == line && !l.filling

/-- The line is being filled. -/
def Core.filling (c : Core) (ic : Bool) (line : Nat) : Bool :=
  (c.lines ic).any fun (_, l) => l.addr == line && l.filling

/-- Replace the line of a way. -/
def Core.putLine (c : Core) (ic : Bool) (key : Nat) (l : Line) : Core := c.setLines ic (tabPut (c.lines ic) key l)

/-- Make a way invalid. -/
def Core.dropLine (c : Core) (ic : Bool) (key : Nat) : Core := c.setLines ic (tabErase (c.lines ic) key)

/-- R234: choose the way for a line: the lowest invalid one, else the one the LFSR names or the next that is not being filled.
An allocation that finds every way being filled waits, and then takes the first whose fill has completed, counting from the
way its own step of the LFSR named. -/
def Core.allocWay (c : Core) (ic : Bool) (line : Nat) : Core × Option Nat :=
  let base := setIdx ic line * 4
  let ls := c.lines ic
  let way := fun (r : Nat) => (List.range 4).find? fun i =>
    match tabFind ls (base + (r + i) % 4) with | some l => !l.filling | none => true
  match c.stalled.find? fun (i, l, _) => i == ic && l == line with
  | some (_, _, r) =>
    match way r with
    | some i => ({ c with stalled := c.stalled.filter fun (i, l, _) => !(i == ic && l == line) }, some (base + (r + i) % 4))
    | none => (c, none)
  | none =>
    let c := if ic then { c with ilfsr := lfsrStep c.ilfsr } else { c with dlfsr := lfsrStep c.dlfsr }
    match (List.range 4).find? fun w => (tabFind ls (base + w)).isNone with
    | some w => (c, some (base + w))
    | none =>
      let r := (if ic then c.ilfsr else c.dlfsr).toNat % 4
      match way r with
      | some i => (c, some (base + (r + i) % 4))
      | none => ({ c with stalled := c.stalled ++ [(ic, line, r)] }, none)

/-- Count a parity error (Table 20-5, R237) and record it (R346). -/
def State.countPar (s : State) (n : Nat) : State :=
  (s.onCluster (clusterOf n) fun c => { c with parErr := bump c.parErr }).record n 4 0

/-- R237: the poison and count of a write-back that reads granules with bad parity. -/
def State.wbParity (s : State) (n : Nat) (l : Line) : State × Bool :=
  if l.parBad &&& l.dirty != 0 then (s.countPar n, true) else (s, l.poison)

/-- R238: a way of core n whose line cannot be named is lost: the core is reported suspect. -/
def State.reportTag (s : State) (n : Nat) : State :=
  (s.onCluster (clusterOf n) fun c => { c with tagLost := bump c.tagLost }).record n 6 0

/-- R238: a way of the line's set whose two tag copies are both bad is invalidated, and the core reported suspect. -/
def State.tagScan (s : State) (n : Nat) (ic : Bool) (line : Nat) : State :=
  let base := setIdx ic line * 4
  let bad := ((s.core n).lines ic).filter fun (k, l) => base ≤ k && k < base + 4 && l.tagBad
  bad.foldl (fun s (k, _) => (s.onCore n fun c => c.dropLine ic k).reportTag n) s

/-- Put a dirty line into the core's evictions; a line that cannot be named is lost (R238). -/
def State.evictLine (s : State) (n : Nat) (l : Line) : State :=
  if l.tagBad then s.reportTag n
  else if l.dirty == 0 then s
  else
    let (s, bad) := s.wbParity n l
    s.onCore n fun c => { c with evicts := c.evicts ++ [{ addr := l.addr, dirty := l.dirty, data := l.data, poison := bad }] }

/-- R230, R233, R234: start the fill of a line: a way is allocated, a dirty victim goes to write-back, and a line of a
remote block is asked for. False: all four ways are being filled and the allocation waits. -/
def State.startFill (s : State) (n : Nat) (ic : Bool) (line : Nat) (job : BitVec 12) (trans : Option (Nat × Nat)) :
    State × Bool :=
  let s := s.tagScan n ic line
  match (s.core n).allocWay ic line with
  | (c, none) => (s.setCore n c, false)
  | (c, some key) =>
    let old := tabFind (c.lines ic) key
    let s := match old with
      | some v => (s.setCore n c).evictLine n v
      | none => s.setCore n c
    let victim := old.bind fun v => if v.dirty == 0 then none else some v.addr
    let (fid, s) := s.fresh
    let s := s.onCore n fun c => c.putLine ic key
      { addr := line, data := 0, filling := true, victim := victim, fid := fid, trans := trans }
    if s.near n (line * 64) then (s, true)
    else
      match s.reach n (line * 64) (getMsg job 64) (.fill n ic line) trans with
      | (s, none) => (s, true)
      | (s, some st) => (s.onCore n fun c => { c with arrived := c.arrived ++ [(ic, line, st, [])] }, true)

/-- Start a fill unless the line is present or being filled. -/
def State.wantLine (s : State) (n : Nat) (ic : Bool) (line : Nat) (job : BitVec 12) (trans : Option (Nat × Nat)) :
    State × Bool :=
  let s := s.tagScan n ic line
  if ((s.core n).hit ic line).isSome || (s.core n).filling ic line then (s, true) else s.startFill n ic line job trans

/-! ### The store buffer -/

/-- R64: what the buffered stores to a line hold, oldest first: bytes and their values. -/
def sbOverlay (line : Nat) : List SbEntry → BitVec 64 × BitVec 512 → BitVec 64 × BitVec 512
  | [], acc => acc
  | e :: t, (m, d) =>
    if e.line == line && e.addend.isNone && !e.clean then
      sbOverlay line t (m ||| e.mask, mergeLine d e.data e.mask)
    else sbOverlay line t (m, d)

/-- Table 15-1: the bytes `want` of a line that the buffer holds come from an entry with bad parity. -/
def sbPoison (line : Nat) (want : BitVec 64) (l : List SbEntry) : Bool :=
  l.any fun e => e.line == line && e.addend.isNone && !e.clean && e.poison && e.mask &&& want != 0

/-- Addends that have left for their engine and are not applied. -/
def State.openAddends (s : State) : List Addend :=
  let of := fun (e : Engine) => e.ready ++ e.held
  s.addends ++ s.refused ++ (s.engines.map fun (_, e) => of e).flatten ++ (s.ports.map fun (_, p) => of p.eng).flatten

/-- R246: a lsu.cas of the task to a line has not been performed. -/
def State.casBusy (s : State) (n : Nat) (who : Option Nat) (line : Nat) : Bool :=
  let mine := fun (r : Ret) => match r with | .load a t _ => a == n && t == who | _ => false
  s.openAddends.any (fun a => a.af == 8 && mine a.ret && a.pa / 64 == line) ||
    s.links.any fun (_, l) => l.reqs.any fun r => mine r.ret && r.msg.type == 3 &&
      (2 ^ 51 + r.msg.dstblk.toNat * 2 ^ 41 + r.msg.offset.toNat) / 64 == line

/-- R246: an earlier access of the task on a bypassing path to the line has not been performed: a buffered uncached store, a
write-back of a clean, a read on the mesh or at a port, a request over a link. -/
def State.bypassBusy (s : State) (n : Nat) (who : Option Nat) (line : Nat) : Bool :=
  let c := s.core n
  let opHits := fun (o : MemOp) => o.lines.contains line
  let mine := fun (r : Ret) => match r with
    | .load a t _ => a == n && t == who
    | .key a t _ => a == n && t == who
    | .store a e => a == n && c.sbuf.any fun x => x.eid == e && x.task == who
    | .tile a o _ => a == n && c.tileOps.any fun x => x.op == o && s.whoIs n x.case == who
    | .vec a o _ => a == n && c.vecOps.any fun x => x.op == o && s.whoIs n x.case == who
    | _ => false
  c.sbuf.any (fun e => e.task == who && e.line == line && !e.cacheable && e.addend.isNone) || s.casBusy n who line ||
    s.packets.any (fun p => mine p.ret && opHits p.op) ||
    s.ports.any (fun (_, p) => p.queue.any fun q => mine q.ret && opHits q.op) ||
    s.links.any fun (_, l) => l.reqs.any fun r => mine r.ret && (r.msg.type == 1 || r.msg.type == 2) &&
      (unitsOf 64 (2 ^ 51 + r.msg.dstblk.toNat * 2 ^ 41 + r.msg.offset.toNat) r.msg.len.toNat).contains line

/-- R64, R246: an uncached load waits for the task's earlier stores that overlap its line, of any type. -/
def State.storesTo (s : State) (n : Nat) (who : Option Nat) (line : Nat) : Bool :=
  (s.core n).sbuf.any fun e => e.task == who && e.line == line && e.addend.isNone

/-- One more in WB_ERR of core n's cluster. -/
def State.countWb (s : State) (n : Nat) : State := s.onCluster (clusterOf n) fun c => { c with wbErr := bump c.wbErr }

/-- R267, R294: a store is reported to no task: its task has been killed, or its core is locked up. -/
def State.storeGone (s : State) (n : Nat) (e : SbEntry) : Bool :=
  e.orphan || (s.core n).lockCause != 0 || match e.task with | some t => (s.task n t).isNone | none => false

/-- R249, R267, R294: a store of a task has failed: it is noted for the task's report; one that is reported to no task is
counted in WB_ERR. -/
def State.failStore (s : State) (n : Nat) (e : SbEntry) : State :=
  if s.storeGone n e then s.countWb n
  else s.onCtx n e.task fun c =>
    { c with fails := c.fails ++ [{ order := e.order, va := e.va, acc := e.addend.isSome }] }

/-- R249, R349 step 2: an entry of the store buffer has failed; while the block drains the failure is counted in WB_ERR as
well. DEDUCED (log entry 98). -/
def State.failBuffered (s : State) (n : Nat) (e : SbEntry) : State :=
  (if s.drain.st != .run && !s.storeGone n e then s.countWb n else s).failStore n e

/-- An entry of the buffer has been performed, or has failed. -/
def State.entryDone (s : State) (n eid : Nat) (st : RStat) : State :=
  match (s.core n).sbuf.find? (·.eid == eid) with
  | none => s
  | some e =>
    let bad := if st == .ok || st == .poisoned then e.bad else some st
    if e.open_ > 1 then
      s.onCore n fun c => { c with sbuf := c.sbuf.map fun x =>
        if x.eid == eid then { x with open_ := x.open_ - 1, bad := bad } else x }
    else
      let s := s.onCore n fun c => { c with sbuf := c.sbuf.filter (·.eid != eid) }
      match bad with
      | none => s
      | some _ => s.failBuffered n e

/-- R251: an eviction write-back has been performed, or has failed; an adopted one is every cleaning task's as well (R242). -/
def State.evictDone (s : State) (n line : Nat) (st : RStat) : State :=
  match (s.core n).evicts.find? (·.addr == line) with
  | none => s
  | some v =>
    let bad := if st == .ok || st == .poisoned then v.bad else some st
    if v.open_ > 1 then
      s.onCore n fun c => { c with evicts := c.evicts.map fun x =>
        if x.addr == line then { x with open_ := x.open_ - 1, bad := bad } else x }
    else
      let s := s.onCore n fun c => { c with evicts := c.evicts.filter (·.addr != line) }
      match bad with
      | none => s
      | some _ =>
        let s := s.countWb n
        v.adopted.foldl (fun s e => s.failStore n e) { s with lost := s.lost ++ [line] }

/-! ### Sending writes -/

/-- Send the masked bytes of a line to memory: to the core's own bank at once, to another place of the block as packets, to
another block as PUTs. Answers how many are outstanding and the first failure of those that have ended. -/
def State.sendRuns (s : State) (n line : Nat) (data : BitVec 512) (bad : Bool) (job : BitVec 12) (ret : Ret)
    (trans : Option (Nat × Nat)) : List (Nat × Nat) → State × Nat × Option RStat
  | [] => (s, 0, none)
  | (off, len) :: t =>
    let pa := line * 64 + off
    let bs := lineBytes data off len
    let (s, k, f) : State × Nat × Option RStat :=
      if s.near n pa then
        match s.writePa pa bs bad (some n) with
        | (s, .ok) => (s, 0, none)
        | (s, st) => (s, 0, some st)
      else
        match s.reach n pa (putMsg job bs bad) ret trans with
        | (s, none) => (s, 1, none)
        | (s, some st) => (s, 0, some st)
    let (s, k', f') := s.sendRuns n line data bad job ret trans t
    (s, k + k', f.or f')

/-- R251: write an eviction back: its dirty granules leave, or, once answered, nothing more. -/
def State.sendEvict (s : State) (n i : Nat) : State :=
  match (s.core n).evicts[i]? with
  | none => s
  | some v =>
    if v.left then s
    else
      let (s, k, f) := s.sendRuns n v.addr v.data v.poison 0 (.evict n v.addr) none (runsOf (granMask v.dirty).toNat 64)
      let s := s.onCore n fun c => { c with evicts := c.evicts.map fun x =>
        if x.addr == v.addr then { x with left := true, open_ := k, bad := f } else x }
      if k == 0 then s.evictDone n v.addr (f.getD .ok) else s

/-! ### Performing a store in the cache -/

/-- R237: a store that writes fewer than 8 bytes of a granule reads it: one with bad parity. -/
def Line.partBad (l : Line) (mask : BitVec 64) : Bool := l.parBad &&& (granTouched mask &&& ~~~granWhole mask) != 0

/-- R239, R334: write masked bytes into a present line: dirty granules, new parity, poison that a write of all 64 bytes since
it was set clears. -/
def State.writeLine (s : State) (n key : Nat) (l : Line) (data : BitVec 512) (mask : BitVec 64) : State :=
  let touched := granTouched mask
  let since := if l.poison then l.since ||| mask else 0
  let all := since == BitVec.allOnes 64
  s.onCore n fun c => c.putLine false key { l with
    data := mergeLine l.data data mask
    dirty := l.dirty ||| touched
    since := if all then 0 else since
    poison := l.poison && !all
    parBad := l.parBad &&& ~~~touched }

/-- R237: a line with bad parity is invalidated; a dirty one is written back poisoned. -/
def State.parityDrop (s : State) (n : Nat) (key : Nat) (l : Line) : State :=
  let s := (s.countPar n).onCore n fun c => c.dropLine false key
  s.onCore n fun c => if l.dirty == 0 then c
    else { c with evicts := c.evicts ++ [{ addr := l.addr, dirty := l.dirty, data := l.data, poison := true }] }

/-- Whether the i-th entry of the buffer may leave: every older entry of its line has been performed. -/
def olderSame (l : List SbEntry) (i : Nat) : Bool :=
  match l[i]? with
  | none => true
  | some e => (l.take i).any fun x => x.line == e.line

/-- Who a control-space store comes from. -/
def requesterOf (n : Nat) (who : Option Nat) : Requester :=
  if h : n < 10240 then (match who with | some _ => .task ⟨n, h⟩ | none => .keeper ⟨n, h⟩) else .host

/-- Mark an entry of the buffer as having left, with its writes outstanding and the first failure so far. -/
def State.markLeaving (s : State) (n eid k : Nat) (f : Option RStat) : State :=
  s.onCore n fun c => { c with sbuf := c.sbuf.map fun x : SbEntry =>
    if x.eid == eid then { x with leaving := true, open_ := k, bad := f } else x }

/-- Send an entry's bytes to memory. -/
def State.entryToMem (s : State) (n : Nat) (e : SbEntry) : State :=
  let (s, k, f) := s.sendRuns n e.line e.data e.poison e.job (.store n e.eid) e.trans (runsOf e.mask.toNat 64)
  let s := s.markLeaving n e.eid k f
  if k == 0 then s.entryDone n e.eid (f.getD .ok) else s

/-- Send a device store as the single access its trigger made (R231). DESIGN CHOICE (log entry 119): a control-space store whose
data has bad parity is not performed and ends as a bus error. -/
def State.sendDevice (s : State) (n : Nat) (e : SbEntry) : State :=
  let off := (e.va.toNat) % 64
  let pa := e.line * 64 + off
  match s.place pa with
  | .ctl o =>
    if e.poison then s.entryDone n e.eid .busErr
    else
    let v := BitVec.ofNat 64 (bitsOf e.data.toNat (8 * off) (8 * e.size))
    let op : MemOp := if e.size == 8 then .ctlWrite o true v (requesterOf n e.task)
      else if e.size == 4 then .ctlWrite o false v (requesterOf n e.task)
      else .write pa (lineBytes e.data off e.size) e.poison
    (s.send (.core n) .escapement op (.store n e.eid) e.trans).markLeaving n e.eid 1 none
  | _ => s.entryToMem n e

/-- An entry waits for the fill of its line (R230). -/
def State.askedBy (s : State) (n eid : Nat) : State :=
  s.onCore n fun c => { c with sbuf := c.sbuf.map fun x : SbEntry => if x.eid == eid then { x with asked := true } else x }

/-- R346: the parity event of an entry whose data is found bad as it leaves. -/
def State.noteEntry (s : State) (n : Nat) (e : SbEntry) : State := if e.poison && !e.clean then s.record n 4 0 else s

/-- R244: the i-th store-buffer entry leaves. A cacheable store is written into a present line, allocates on a miss (R230),
or goes to memory in no-allocate mode, behind the line's own write-back (R232, R245); an uncached, device or clean entry goes to its destination; an
accumulate-write goes to its engine. -/
def State.performEntry (s : State) (n i : Nat) : State :=
  let c := s.core n
  match c.sbuf[i]? with
  | none => s
  | some e =>
    if e.leaving || olderSame c.sbuf i then s
    else
      match e.addend with
      | some a =>
        let s := (s.noteEntry n e).markLeaving n e.eid 1 none
        let a := { a with poison := a.poison || e.poison }
        if a.pa < 2 ^ 51 then
          s.pushAddend { a with src := n, srcblk := s.self.toNat, trans := e.trans }
        else
          let z := if a.af == 1 || a.af == 3 || a.af == 7 then 4 else if a.af == 2 then 2 else 8
          let m : Msg := { Msg.blank with
            type := 3, strict := a.strict, af := BitVec.ofNat 4 a.af, rank := BitVec.ofNat 16 a.rank
            size := BitVec.ofNat 16 a.size, job := e.job, len := BitVec.ofNat 9 z, payload := natToLe a.val.toNat z
            arg := if a.poison then 1 else 0 }
          match s.request n a.pa m (.store n e.eid) e.trans with
          | (s, none) => s
          | (s, some st) => s.entryDone n e.eid st
      | none =>
        if !e.cacheable && s.casBusy n e.task e.line then s
        else if let some key := e.key then
          let pa := e.line * 64 + e.va.toNat % 64
          ((s.noteEntry n e).send (.core n) (s.agentOf n pa) (.keyWrite pa key e.poison) (.store n e.eid) e.trans).markLeaving n
            e.eid 1 none
        else if e.device then (s.noteEntry n e).sendDevice n e
        else if !e.cacheable || e.clean then (s.noteEntry n e).entryToMem n e
        else
          let s := s.tagScan n false e.line
          let c := s.core n
          match c.hit false e.line with
          | some (key, l) =>
            if l.partBad e.mask then s.parityDrop n key l
            else
            let s := (s.noteEntry n e).writeLine n key l e.data e.mask
            let s := if e.poison then s.onCore n fun c => match c.hit false e.line with
                | some (k, l) => c.putLine false k { l with poison := true, since := 0 }
                | none => c else s
            s.entryDone n e.eid .ok
          | none =>
            if c.filling false e.line then s.askedBy n e.eid
            else if e.noAlloc then
              if c.evicts.any (·.addr == e.line) then s else (s.noteEntry n e).entryToMem n e
            else ((s.startFill n false e.line e.job e.trans).1).askedBy n e.eid

/-! ### Fills -/

/-- Apply `f` to every casement and image of core n. -/
def State.mapCtx (s : State) (n : Nat) (f : Casement → Casement) : State :=
  s.onCore n fun c => { c with
    cases := tabMap (fun _ x => f x) c.cases
    tasks := tabMap (fun _ x => { x with image := f x.image }) c.tasks }

/-- Give a load that waits on a line its data: the line's bytes, those the store buffer held in front (R64). -/
def Pending.fromLine (e : Pending) (d : BitVec 512) (st : RStat) : Pending :=
  let off := e.pa % 64
  let raw := bitsOf d.toNat (8 * off) 64
  let v := mergeBytes raw e.fwd.toNat e.fwdMask.toNat 8
  let x := v % 2 ^ (8 * e.bytes)
  { e with
    await := .ready
    data := {
      val := if e.signed then sext x (8 * e.bytes) else BitVec.ofNat 64 x
      taint := if e.data.taint != .clean then e.data.taint else st.taint } }

/-- Give every load of core n that waits on a line its data. -/
def State.wakeLoads (s : State) (n line : Nat) (d : BitVec 512) (st : RStat) : State :=
  s.mapCtx n fun c =>
    if c.pend.any fun e => e.await == .fill && e.pa / 64 == line then
      { c with pend := c.pend.map fun e => if e.await == .fill && e.pa / 64 == line then e.fromLine d st else e }
    else c

/-- The fills of core n in progress: those of the data cache, then those of the instruction cache. -/
def Core.fills (c : Core) : List (Bool × Nat × Nat) :=
  (c.dcache.filterMap fun (k, l) => if l.filling then some (false, k, l.addr) else none) ++
    c.icache.filterMap fun (k, l) => if l.filling then some (true, k, l.addr) else none

/-- R249: a fill that brings no line fails the stores that wait for it to allocate. -/
def State.failAsked (s : State) (n line : Nat) (st : RStat) : State :=
  ((s.core n).sbuf.filter fun e => e.line == line && e.asked).foldl (fun s e =>
    s.entryDone n e.eid st) s

/-- R233, R239: the i-th fill of core n ends. A fill whose line's own write-back is in progress, or that of the dirty line its
way held, waits for it (R234). -/
def State.endFill (s : State) (n i : Nat) : State :=
  let c := s.core n
  match c.fills[i]? with
  | none => s
  | some (ic, key, line) =>
    let victim := (tabFind (c.lines ic) key).bind (·.victim)
    if c.evicts.any (fun v => v.addr == line || victim == some v.addr) || c.sbuf.any (fun e => e.line == line && (e.clean || (e.noAlloc && e.leaving))) then s
    else
      let got : Option (State × RStat × List Byte) :=
        if s.near n (line * 64) then some (s.readPa (line * 64) 64 (some n))
        else match c.arrived.find? fun (a, l, _, _) => a == ic && l == line with
          | none => none
          | some (_, _, st, d) =>
            some (s.onCore n fun c => { c with arrived := c.arrived.filter fun (a, l, _, _) => !(a == ic && l == line) }, st, d)
      match got with
      | none => s
      | some (s, st, d) =>
        let data := lineOf d
        let s := match st with
          | .bankOff => s.onCore n fun c => c.dropLine ic key
          | .linkReset => s.onCore n fun c => c.dropLine ic key
          | _ => s.onCore n fun c => c.putLine ic key { addr := line, data := data, poison := st != .ok }
        let s := if st == .bankOff || st == .linkReset then
            s.mapCtx n fun x => match x.waiting with
              | some w => if w.kind == (if ic then .fetch else .trigger) then { x with held := (line * 64, some (st, [])) :: x.held } else x
              | none => x
          else s
        if ic then s
        else if st == .bankOff || st == .linkReset then (s.wakeLoads n line data st).failAsked n line st
        else s.wakeLoads n line data st

/-- The extent an access uses, if one does. -/
def Casement.extFor (c : Casement) (acc : Acc) (va : Nat) : Extent :=
  match c.extentOf acc va with | some i => c.ext i | none => {}

/-- R65, R221: ask for a line that no word demands; dropped when every way it could take is being filled. -/
def State.aheadWant (s : State) (n : Nat) (ic : Bool) (line : Nat) (job : BitVec 12) (trans : Option (Nat × Nat)) : State :=
  let base := setIdx ic line * 4
  let busy := (List.range 4).all fun w => match tabFind ((s.core n).lines ic) (base + w) with
    | some l => l.filling
    | none => false
  if busy then s else (s.wantLine n ic line job trans).1

/-- R233: the prefetch of the line after a missed line that follows the previous miss; dropped when it would fault, when it
is device memory, and when every way is being filled (R221). -/
def State.prefetchLine (s : State) (n : Nat) (c : Casement) (va : Nat) : State :=
  match s.xlateNow n (.ahead false (c.extFor .read va) 0) c va .read with
  | (s', .held) => s'
  | (s', .ok x) =>
    if x.type != .cached then s'
    else s'.aheadWant n false (x.pa / 64) 0 (some (x.tag, x.ia))
  | _ => s

/-- R232: the streaming detector after a cacheable store to bytes of a line. -/
def Stream.step (d : Stream) (line : Nat) (mask : BitVec 64) : Stream :=
  match d.line with
  | none => { line := some line, mask := mask, run := 0, noAlloc := false }
  | some l =>
    let full := d.mask == BitVec.allOnes 64
    if line == l && !full then { d with mask := d.mask ||| mask }
    else if full && line == l + 1 then
      let run := d.run + 1
      { line := some line, mask := mask, run := run, noAlloc := d.noAlloc || run ≥ 4 }
    else { line := some line, mask := mask, run := 0, noAlloc := false }

end Sys2Proof.Machine
end

