-- ==== Sys2Proof/Machine/Walker.lean ====
section
/-! DEFINITION. The reads of a cluster's walker and the end of its walks (R210–R213, R221, R226). -/

namespace Sys2Proof.Machine

/-- The 8-byte entries of a group. -/
def groupEntries : Nat → List Byte → List Nat
  | 0, _ => []
  | k + 1, bs => leToNat (bs.take 8) :: groupEntries k (bs.drop 8)

/-- R209, R210, R226: what a walk's read brought: the walk ends, or reads the next level; a level-3 entry with CH = 1 has its
group read (R212), and serves alone where that read fails. -/
def State.walkGot (s : State) (cl id : Nat) (st : RStat) (bs : List Byte) : State :=
  match (s.cluster cl).walker.find? (·.id == id) with
  | none => s
  | some j =>
    let ends := fun (s : State) (r : WalkRes) => s.putWalk cl { j with res := some r }
    let e := leToNat bs
    match j.entry with
    | some e3 =>
      if st != .ok then ends s (.leaf (pageSlot j.tag j.ia e3))
      else
        let (s, l) := s.leaf3 j.tag j.ia e3 (groupEntries 32 bs)
        ends s (.leaf l)
    | none =>
      if st != .ok then ends s (.fault (if j.mode then clsS2T else clsWALKBUS) j.level true)
      else if entInvalid e j.level then ends s (.fault clsS2T j.level false)
      else
        match j.level with
        | 1 => s.walkAsk cl { j with level := 2, table := entOa e * 65536 }
        | 2 =>
          if entTable e then s.walkAsk cl { j with level := 3, table := entOa e * 65536 }
          else ends s (.leaf (blockSlot j.tag j.ia e))
        | _ => if entHint e then s.walkAsk cl { j with entry := some e } else ends s (.leaf (pageSlot j.tag j.ia e))

/-- The line that a miss nobody waits on wants (R221, R233): none where the access would fault or is not cacheable. -/
def Walk.wants (w : Walk) (e : TlbEntry) : Option (Bool × Nat × BitVec 12) :=
  match w.use with
  | .ahead ic ext job =>
    match leafCheck e ext 0 0 w.ia (if ic then .fetch else .read) false false with
    | .ok x => if x.type == .cached then some (ic, x.pa / 64, job) else none
    | _ => none
  | _ => none

/-- A miss that lets a finished walk fill the TLBs: one of a word or the XMU, or one that would not fault (R221). -/
def Walk.fills (w : Walk) (e : TlbEntry) : Bool :=
  match w.use with
  | .ahead ic ext _ => match leafCheck e ext 0 0 w.ia (if ic then .fetch else .read) false false with | .ok _ => true | _ => false
  | _ => true

/-- R213: a walk has found slot e: the misses of core m that were merged into it are met. -/
def State.walkFills (s : State) (e : TlbEntry) (p : Nat × Nat) (m : Nat) : State :=
  let mine := fun (x : Walk) => x.page == p && x.fault.isNone
  let ws := (s.core m).walks.filter mine
  let s := s.onCore m fun c => { c with walks := c.walks.filter (!mine ·) }
  let s := if ws.any (·.fills e) then s.fillTlbs m e else s
  ws.foldl (fun s w => match w.wants e with
    | some (ic, line, job) => s.aheadWant m ic line job (some (w.tag, w.ia))
    | none => s) s

/-- R213, R221, R226: a walk has ended in a fault: it is kept for the words and the XMU, and drops what nobody waits for. -/
def State.walkFails (s : State) (f : BitVec 8 × Nat × Bool) (p : Nat × Nat) (m : Nat) : State :=
  let mine := fun (x : Walk) => x.page == p && x.fault.isNone
  let ahead := fun (x : Walk) => match x.use with | .ahead .. => true | _ => false
  let note := fun (x : Walk) => if mine x then { x with fault := some f } else x
  s.onCore m fun c => { c with walks := (c.walks.filter fun x => !(mine x && ahead x)).map note }

/-- R210, R213: the walk of the i-th miss of core n ends, once its reads have, with every miss of its cluster that was merged
with it. -/
def State.endWalk (s : State) (n i : Nat) : State :=
  let cl := clusterOf n
  match (s.core n).walks[i]? with
  | none => s
  | some w =>
    match (s.cluster cl).walker.find? (·.page == w.page) with
    | some { res := some r, .. } =>
      if w.fault.isSome then s
      else
        let ms := s.walkers cl w.page
        let s := s.onCluster cl fun c => { c with walker := c.walker.filter (·.page != w.page) }
        let s := match r with
          | .leaf e => ms.foldl (fun (s : State) m => s.walkFills e w.page m) s
          | .fault cls lv wbe => ms.foldl (fun (s : State) m => s.walkFails (cls, lv, wbe) w.page m) s
        s.startWalks cl
    | _ => s

end Sys2Proof.Machine
end

