-- ==== Sys2Proof/Machine/Complete.lean ====
section
/-! DEFINITION. How an access ends: the delivery of its outcome to the load, buffer entry, fill, tile row, vector line,
descriptor or inbound request it belongs to; and the sending of addends. -/

namespace Sys2Proof.Machine

/-- R43, R63: the data of an access comes to a pending result. -/
def Pending.arrive (e : Pending) (st : RStat) (bs : List Byte) : Pending :=
  let x := leToNat bs % 2 ^ (8 * e.bytes)
  { e with
    await := .ready
    data := { val := if e.signed then sext x (8 * e.bytes) else BitVec.ofNat 64 x, taint := st.taint } }

/-- R267: the result with number `pid` of a killed task has come: it is discarded. -/
def State.discardLoad (s : State) (n pid : Nat) : State :=
  s.onCore n fun c => { c with cases := tabMap (fun _ x =>
    if x.task == some noTask then { x with pend := x.pend.filter (·.id != pid) } else x) c.cases }

/-- Give the pending result with number `pid` its data. -/
def State.arriveLoad (s : State) (n : Nat) (who : Option Nat) (pid : Nat) (st : RStat) (bs : List Byte) : State :=
  (s.onCtx n who fun c => Casement.touch
    { c with pend := c.pend.map fun e => if e.await == .access && e.id == pid then e.arrive st bs else e } 0).discardLoad n pid

/-- kyu.ld: the key and the value kyu.res shows (Table 12-4). -/
def keyLoaded (job : BitVec 12) (st : RStat) (key : Key) (tag : Bool) : Key × PortVal :=
  if st != .ok then (0, { val := 0, taint := st.taint })
  else if !tag || !inR (keyType key) 1 4 then (0, { val := 0 })
  else if keyJob key != job.toNat then (0, { val := 2 })
  else (key, { val := 1 })

/-- The granule of a kyu.ld has come: sixteen bytes and its tag (R280). -/
def Pending.arriveKey (e : Pending) (job : BitVec 12) (st : RStat) (bs : List Byte) : Pending :=
  let r := keyLoaded job st (BitVec.ofNat 128 (leToNat (bs.take 16))) (bs.drop 16 == [1])
  { e with await := .ready, data := r.2, keyWrite := e.keyWrite.map fun w => { w with key := r.1 } }

/-- The job of a task (R282). -/
def State.jobOf (s : State) (n : Nat) (who : Option Nat) : BitVec 12 :=
  match who with
  | none => (s.core n).keeperJob
  | some t => match s.task n t with | some x => x.job | none => 0

/-- Give the kyu.ld with number `pid` its key. -/
def State.arriveKey (s : State) (n : Nat) (who : Option Nat) (pid : Nat) (st : RStat) (bs : List Byte) : State :=
  let job := s.jobOf n who
  (s.onCtx n who fun c => Casement.touch
    { c with pend := c.pend.map fun e => if e.await == .access && e.id == pid then e.arriveKey job st bs else e } 0).discardLoad n
      pid

/-! ### Addends -/

/-- Element size in bytes of an engine operation (Table 08-3; AF 8 is compare-and-swap). -/
def afBytes (af : Nat) : Nat := if af == 1 || af == 3 || af == 7 then 4 else if af == 2 then 2 else 8

/-- The message of an ACCP (Table 13-4). -/
def accpMsg (job : BitVec 12) (a : Addend) : Msg :=
  { Msg.blank with
    type := 3, strict := a.strict, af := BitVec.ofNat 4 a.af, rank := BitVec.ofNat 16 a.rank
    size := BitVec.ofNat 16 a.size, job := job, len := BitVec.ofNat 9 (afBytes a.af)
    payload := natToLe a.val.toNat (afBytes a.af)
    arg := if a.af == 8 then a.cmp else if a.poison then 1 else 0 }

/-- Send an addend toward its engine; how it ends at once, if it does. -/
def State.sendAddend (s : State) (src : Nat) (job : BitVec 12) (a : Addend) (trans : Option (Nat × Nat) := none) :
    State × Option RStat :=
  if a.pa < 2 ^ 51 then
    (s.pushAddend { a with src := src, srcblk := s.self.toNat, trans := trans }, none)
  else s.request src a.pa (accpMsg job a) a.ret trans

/-! ### Descriptors (R194–R196) -/

/-- Whose descriptors a queue holds: registers, job, task (none: the keeper, or a task that has been killed). -/
structure XOwner where
  ctx : Casement
  job : BitVec 12
  who : Option Nat
  dead : Bool

/-- Every owner of descriptor queues on core n, with its queues. -/
def State.xowners (s : State) (n : Nat) : List (XOwner × Tab XQueue) :=
  let c := s.core n
  (c.tasks.map fun (t, x) => ({ ctx := s.ctx n (some t), job := x.job, who := some t, dead := false }, x.xq)) ++
    [({ ctx := s.case n 8, job := c.keeperJob, who := none, dead := false }, c.kxq)] ++
    c.graves.map fun x => ({ ctx := x.image, job := x.job, who := none, dead := true }, x.xq)

/-- Change the queues of every owner on core n. -/
def State.mapQueues (s : State) (n : Nat) (f : XQueue → XQueue) : State :=
  let g := fun (t : Tab XQueue) => tabMap (fun _ q => f q) t
  s.onCore n fun c => { c with
    tasks := tabMap (fun _ (x : Task) => { x with xq := g x.xq }) c.tasks
    kxq := g c.kxq
    graves := c.graves.map fun x : Task => { x with xq := g x.xq } }

/-- The descriptor with a number, and its owner. -/
def State.item (s : State) (n id : Nat) : Option (XOwner × XItem) :=
  (s.xowners n).findSome? fun (o, t) =>
    (t.findSome? fun (_, q) => q.items.find? (·.id == id)).map fun i => (o, i)

/-- Change one descriptor. -/
def State.onItem (s : State) (n id : Nat) (f : XItem → XItem) : State :=
  s.mapQueues n fun q =>
    if q.items.any (·.id == id) then { q with items := q.items.map fun i => if i.id == id then f i else i } else q

/-- OP, AF, LEN, source and destination of a descriptor that has been read (Table 08-5). -/
def XItem.w (i : XItem) : Word × Word × Word := i.words.getD (0, 0, 0)
def XItem.op (i : XItem) : Nat := fld i.w.1 0 6
def XItem.af (i : XItem) : Nat := fld i.w.1 6 4
def XItem.len (i : XItem) : Nat := fld i.w.1 32 32
def XItem.src (i : XItem) : Nat := fld i.w.2.1 0 48
def XItem.dst (i : XItem) : Nat := fld i.w.2.2 0 48

/-- R195: a COPY whose ranges overlap, and one performed in descending address order. -/
def XItem.overlaps (i : XItem) : Bool := i.op == 1 && i.src < i.dst + i.len && i.dst < i.src + i.len
def XItem.descends (i : XItem) : Bool := i.overlaps && i.dst > i.src

/-- The code a failed write or addend gives a descriptor (Table 08-8). -/
def writeCode : RStat → BitVec 8
  | .bankOff => clsBANKOFF
  | .linkReset => clsLINKRESET
  | _ => clsASYNC

/-- Record a failure at bytes [off, off + len): BYTES counts what comes before it in the order of the transfer. -/
def XItem.fail (i : XItem) (off len : Nat) (code : BitVec 8) : XItem :=
  let before := if i.descends then i.len - (off + len) else off
  match i.bad with
  | some (b, _) => if before < b then { i with bad := some (before, code) } else i
  | none => { i with bad := some (before, code) }

/-- One access of a descriptor has ended for good. -/
def State.xmuPart (s : State) (n id off len : Nat) (st : RStat) : State :=
  s.onItem n id fun i =>
    let i := { i with open_ := i.open_.erase off }
    if st == .ok || st == .poisoned then i else i.fail (off % 2 ^ 32) len (writeCode st)

/-- The piece of a descriptor at an offset, among those begun. -/
def XItem.piece (i : XItem) (off : Nat) : Option XPiece := i.begun.find? (·.off == off % 2 ^ 32)

/-- Write bytes of a descriptor at a physical address: in the core's own bank at once, elsewhere by a packet or a PUT. -/
def State.xmuWrite (s : State) (n id : Nat) (job : BitVec 12) (off pa : Nat) (bs : List Byte) (bad : Bool)
    (trans : Option (Nat × Nat) := none) : State :=
  if s.near n pa then
    match s.writePa pa bs bad (some n) with
    | (s, st) => s.xmuPart n id off bs.length st
  else
    match s.reach n pa (putMsg job bs bad) (.xmu n id off bs.length none) trans with
    | (s, none) => s
    | (s, some st) => s.xmuPart n id off bs.length st

/-- Send one addend of a descriptor with its captured RANK, SIZE and STRICT (R186). -/
def State.xmuAddend (s : State) (n : Nat) (i : XItem) (job : BitVec 12) (off pa : Nat) (v : Word) (bad : Bool)
    (trans : Option (Nat × Nat) := none) : State :=
  let (aid, s) := s.fresh
  let z := afBytes i.af
  let a : Addend := {
    id := aid, pa := pa, af := i.af, rank := i.rank.toNat, size := i.size.toNat, strict := i.strict, val := v, poison := bad
    ret := .xmu n i.id off z none }
  let s := s.onItem n i.id fun i => { i with open_ := i.open_ ++ [off] }
  match s.sendAddend n job a trans with
  | (s, none) => s
  | (s, some st) => s.xmuPart n i.id off z st

/-- Send the addends of the bytes of a piece, in increasing address. -/
def State.xmuAddends (s : State) (n : Nat) (i : XItem) (job : BitVec 12) (off pa : Nat) (bad : Bool)
    (trans : Option (Nat × Nat)) : Nat → List Byte → State
  | 0, _ => s
  | fuel + 1, bs =>
    let z := afBytes i.af
    if bs.isEmpty then s
    else
      (s.xmuAddend n i job off pa (BitVec.ofNat 64 (leToNat (bs.take z))) bad trans).xmuAddends n i job (off + z) (pa + z) bad
        trans fuel (bs.drop z)

/-- The data of a piece has been read: it goes on to its destination (R196: poison and bus errors are carried). -/
def State.xmuData (s : State) (n id off len dst : Nat) (st : RStat) (bs : List Byte) : State :=
  match s.item n id with
  | none => s
  | some (o, i) =>
    if st == .bankOff || st == .linkReset then s.xmuPart n id off len st
    else
      let bad := st != .ok
      let bs := if bs.length == len then bs else natToLe 0 len
      let s := if bad then s.onItem n id fun i => { i with poisoned := true } else s
      let tdst := (i.piece off).bind (·.tdst)
      if i.op == 3 then
        let s := s.onItem n id fun i => { i with open_ := i.open_.erase off }
        s.xmuAddends n i o.job (off % 2 ^ 32) dst bad tdst len bs
      else s.xmuWrite n id o.job off dst bs bad tdst

/-- Whether every byte of a transfer has been translated. -/
def XItem.planned (i : XItem) : Bool := i.next ≥ i.len

/-- R106: an ACC descriptor that still has addends to send, or one that is being read and may be an ACC. -/
def XItem.accAhead (i : XItem) : Bool :=
  i.phase == .reading || ((i.phase == .read || i.phase == .working) && i.op == 3 && i.bad.isNone &&
    (!i.planned || i.open_.any (2 ^ 32 ≤ ·)))

/-- R106: an ACC descriptor of the same owner, enqueued before i, has addends to send: those of i would overtake them. -/
def State.accWaits (s : State) (n : Nat) (i : XItem) : Bool :=
  (s.xowners n).any fun (_, t) =>
    t.any (fun (_, q) => q.items.any (·.id == i.id)) &&
      t.any fun (_, q) => q.items.any fun x => x.order < i.order && x.accAhead

/-- Whether the next piece may be translated: all of an overlapping COPY's before its first access (R195); an ACC's one after
another, in increasing address and in enqueue order (R106); none of a transfer that has failed. -/
def State.mayPlan (s : State) (n : Nat) (i : XItem) : Bool :=
  i.phase == .working && inR i.op 1 3 && !i.planned && i.bad.isNone &&
    (i.op != 3 || (i.open_.all (· < 2 ^ 32) && !s.accWaits n i))

/-- How the translation of a piece ended: the piece, a byte that cannot be translated with its class (R222), or a walk. -/
inductive PieceRes where
  | piece (p : XPiece)
  | fault (cls : BitVec 8)
  | held
  deriving DecidableEq, Repr

/-- R222: translate the next piece of a transfer: source and destination cut at 64-byte lines, the source first. DESIGN CHOICE
(log entry 135): addresses beyond 2⁴⁸ wrap, whereas R195's overlap is that of the ranges as numbers. -/
def State.xmuPiece (s : State) (n : Nat) (o : XOwner) (i : XItem) : State × PieceRes :=
  let off := i.next
  let a := (i.src + off) % 2 ^ 48
  let b := (i.dst + off) % 2 ^ 48
  let two := i.op != 2
  let m := min (i.len - off) (if two then min (64 - a % 64) (64 - b % 64) else 64 - b % 64)
  let dest := fun (s : State) (sp : Nat) (ts : Option (Nat × Nat)) =>
    match s.xlateNow n .xmu o.ctx b (if i.op == 3 then .accum else .write) with
    | (s, .held) => (s, PieceRes.held)
    | (s, .fault f) => (s, .fault f.cls)
    | (s, .ok x) =>
      let (id, s) := s.fresh
      (s, .piece { id := id, off := off, len := m, src := sp, dst := x.pa, tsrc := ts, tdst := some (x.tag, x.ia) })
  if two then
    match s.xlateNow n .xmu o.ctx a .read with
    | (s, .held) => (s, .held)
    | (s, .fault f) => (s, .fault f.cls)
    | (s, .ok x) => dest s x.pa (some (x.tag, x.ia))
  else dest s 0 none

/-- The bytes of a FILL from byte `off` (R194). -/
def fillBytes (pat : Word) (off len : Nat) : List Byte :=
  (List.range len).map fun j => BitVec.ofNat 8 (fld pat (8 * ((off + j) % 8)) 8)

/-- Begin a piece: a FILL writes it, a COPY or ACC reads it. -/
def State.xmuStep (s : State) (n : Nat) (o : XOwner) (i : XItem) (p : XPiece) : State :=
  let key := if i.op == 3 then p.off + 2 ^ 32 else p.off
  let s := s.onItem n i.id fun i => { i with begun := i.begun ++ [p], open_ := i.open_ ++ [key] }
  if i.op == 2 then s.xmuWrite n i.id o.job p.off p.dst (fillBytes i.w.2.1 p.off p.len) false p.tdst
  else if s.near n p.src then
    match s.readPa p.src p.len (some n) with
    | (s, st, bs) => s.xmuData n i.id key p.len p.dst st bs
  else
    match s.reach n p.src (getMsg o.job p.len) (.xmu n i.id key p.len (some p.dst)) p.tsrc with
    | (s, none) => s
    | (s, some st) => s.xmuData n i.id key p.len p.dst st []

/-- R195: the next piece of an overlapping COPY that has been translated whole, in its copy order. -/
def XItem.nextPiece (i : XItem) : Option XPiece := if i.descends then i.todo.getLast? else i.todo.head?

/-- End a descriptor: a failure that is not CANCELLED halts its queue, whose CODE keeps the first (R196). -/
def State.xmuEnd (s : State) (n id : Nat) (code : BitVec 8) (bytes : Nat) (unread : Bool) : State :=
  let fails := code != 0 && code != 0x80
  s.mapQueues n fun q =>
    if q.items.any (·.id == id) then
      { q with
        items := q.items.map fun i : XItem => if i.id == id then
          { i with phase := .ended, todo := [], unread := unread
                   outcome := some { code := code, poisoned := i.poisoned, bytes := bytes } } else i
        halt := q.halt || fails
        code := if fails && !q.halt then code else q.code }
    else q

/-- End a descriptor whose accesses have all ended. -/
def State.xmuSettle (s : State) (n id : Nat) : State :=
  match s.item n id with
  | none => s
  | some (_, i) =>
    if i.phase == .working && i.open_.isEmpty && ((i.todo.isEmpty && (i.op == 4 || i.planned)) || i.bad.isSome) then
      match i.bad with
      | some (b, code) => s.xmuEnd n id code (if i.op == 4 then 0 else b) false
      | none => s.xmuEnd n id 0 (if i.op == 4 then 0 else i.len) false
    else s

/-- Carry a descriptor's accesses on as far as they may go: an overlapping COPY does one piece at a time, and goes no further once
one has failed (R195); a fault of its translation ends it with nothing written. -/
def State.xmuGo (s : State) (n id : Nat) : Nat → State
  | 0 => s
  | fuel + 1 =>
    match s.item n id with
    | none => s
    | some (o, i) =>
      if s.mayPlan n i then
        match s.xmuPiece n o i with
        | (s, .held) => s
        | (s, .fault cls) =>
          if i.overlaps then s.xmuEnd n id cls 0 false
          else s.onItem n id fun i => { i.fail i.next 0 cls with next := i.len }
        | (s, .piece p) =>
          let s := s.onItem n id fun i => { i with next := i.next + p.len, todo := if i.overlaps then i.todo ++ [p] else i.todo }
          (if i.overlaps then s else s.xmuStep n o i p).xmuGo n id fuel
      else if i.phase == .working && i.overlaps && i.planned && i.open_.isEmpty && i.bad.isNone then
        match i.nextPiece with
        | none => s
        | some p => ((s.onItem n id fun i => { i with todo := i.todo.filter (·.id != p.id) }).xmuStep n o i p).xmuGo n id fuel
      else s

/-- The descriptors core n's XMU works on, by number, in enqueue order. -/
def State.xmuWorking (s : State) (n : Nat) : List Nat :=
  let all := ((s.xowners n).map fun (_, t) => (t.map fun (_, q) => q.items.filter (·.phase == .working)).flatten).flatten
  (all.insertionSort (·.order ≤ ·.order)).map (·.id)

/-- Carry every descriptor of core n on, and end those whose accesses have all ended. -/
def State.xmuResume (s : State) (n : Nat) : State :=
  (s.xmuWorking n).foldl (fun s id =>
    match s.item n id with
    | some (_, i) => (s.xmuGo n id (2 * i.len + 2)).xmuSettle n id
    | none => s) s

/-- A walk has ended: the transfer units of a cluster that waited go on. -/
def State.xmuResumeAll (s : State) (cl : Nat) : State :=
  (s.cores.filterMap fun (n, _) => if clusterOf n == cl then some n else none).foldl State.xmuResume s

/-- The words of a descriptor (Table 08-5). -/
def descWords (bs : List Byte) : Word × Word × Word :=
  let w := fun (j : Nat) => BitVec.ofNat 64 (leToNat ((bs.drop (8 * j)).take 8))
  (w 0, w 1, w 2)

/-- R196: a cancelled descriptor is read for CSIG and CEV; one that cannot be read sets neither. -/
def XItem.cancelWords (i : XItem) (st : RStat) (bs : List Byte) : XItem :=
  { i with phase := .ended, words := some (if st == .ok then descWords bs else (0, 0, 0)) }

/-- The words of a descriptor come (R193, R196): a descriptor that cannot be read halts its queue. -/
def State.xmuWords (s : State) (n id : Nat) (st : RStat) (bs : List Byte) : State :=
  match st with
  | .ok => s.onItem n id fun i => { i with phase := .read, words := some (descWords bs) }
  | .bankOff => s.xmuEnd n id clsBANKOFF 0 true
  | .linkReset => s.xmuEnd n id clsLINKRESET 0 true
  | _ => s.xmuEnd n id clsPOISON 0 true

/-- What came back over a link for a descriptor. -/
def State.xmuArrive (s : State) (n id off len : Nat) (dst : Option Nat) (st : RStat) (bs : List Byte) : State :=
  match s.item n id with
  | none => s
  | some (_, i) =>
    match i.phase with
    | .reading => if i.outcome.isSome then s.onItem n id (·.cancelWords st bs) else (s.xmuWords n id st bs).xmuResume n
    | .closing => s.onItem n id fun i => { i with phase := .closed }
    | .working =>
      let s := match dst with
        | some pa => s.xmuData n id off len pa st bs
        | none => s.xmuPart n id off len st
      (s.xmuSettle n id).xmuResume n
    | _ => s

/-! ### Inbound requests (R306–R309) -/

/-- R309: an inbound SIGNAL is applied, sets the LINK event of the task it names, and is acknowledged. -/
def State.applySignal (s : State) (k : Nat) (m : Msg) : State :=
  let core := fld m.arg 0 14
  let t := fld m.arg 16 6
  let b := fld m.arg 22 12
  if core < 10240 && !s.clusterOn core then s.respond k m .bankOff [] false
  else
    let s := if core < 10240 && (s.task core t).isSome then
        (s.remoteBit core t b (bitAt m.arg 63)).setEvent core t 3065 else s
    s.respond k m .ok [] false

/-- R306: whether a SIGNAL must wait for earlier writes of its source on its channel. -/
def Link.signalWaits (l : Link) (m : Msg) : Bool :=
  l.inbound.any fun r => r.msg.src == m.src && r.msg.srcblk == m.srcblk && r.msg.ch == m.ch &&
    (r.msg.type == 1 || r.msg.type == 3)

/-- Bytes of the next piece of an access of `len` bytes from `off` at `pa`: within 64-byte units of the payload and 4 KiB of
the address, which lie at one place. -/
def pieceLen (pa off len : Nat) : Nat := min (len - off) (min (64 - off % 64) (4096 - (pa + off) % 4096))

/-- The pieces of an inbound access: offset in the payload, length. -/
def inboundPieces (pa len : Nat) : Nat → Nat → List (Nat × Nat)
  | 0, _ => []
  | fuel + 1, off => if off ≥ len then [] else (off, pieceLen pa off len) :: inboundPieces pa len fuel (off + pieceLen pa off len)

/-- R308: the bytes are neither unpopulated, nor in control space, nor in a spill area. -/
def State.inboundOk (s : State) (pa len : Nat) : Bool :=
  (inboundPieces pa len 16 0).all fun (off, n) =>
    match s.place (pa + off) with
    | .bank b o => !(s.clusterOn b && s.inSpill b o n)
    | .ext p _ => let x := s.port p; !(x.st == .off || x.st == .failed || x.fenced)
    | _ => false

/-- The mesh agent of the place of an inbound access. -/
def State.inboundDst (s : State) (pa : Nat) : Agent := s.agentOf 0 pa

/-- Enter an inbound request with `left` parts. -/
def State.inboundNew (s : State) (k : Nat) (m : Msg) (left : Nat) : Nat × State :=
  let (id, s) := s.fresh
  let data := if m.type == 2 then natToLe 0 m.len.toNat else []
  (id, s.onLink k fun l => { l with inbound := l.inbound ++ [{ id := id, msg := m, left := left, data := data }] })

/-- R308: a PUT. -/
def State.takePut (s : State) (k : Nat) (m : Msg) : State :=
  let pa := m.offset.toNat
  let len := m.len.toNat
  if !s.inboundOk pa len then s.respond k m .busErr [] false
  else
    let ps := inboundPieces pa len 16 0
    let (id, s) := s.inboundNew k m ps.length
    ps.foldl (fun s (off, n) => s.send (.link k) (s.inboundDst (pa + off))
      (.write (pa + off) ((m.payload.drop off).take n) (m.arg.getLsbD (off / 64))) (.link k id)) s

/-- R308: a GET. -/
def State.takeGet (s : State) (k : Nat) (m : Msg) : State :=
  let pa := m.offset.toNat
  let len := m.len.toNat
  if !s.inboundOk pa len then s.respond k m .busErr [] true
  else
    let ps := inboundPieces pa len 16 0
    let (id, s) := s.inboundNew k m ps.length
    ps.foldl (fun s (off, n) => s.send (.link k) (s.inboundDst (pa + off)) (.read (pa + off) n) (.linkGet k id off)) s

/-- R308, R187: an ACCP hands its elements to the engine, in address order. -/
def State.takeAccp (s : State) (k : Nat) (m : Msg) : State :=
  let pa := m.offset.toNat
  let z := afBytes m.af.toNat
  if !s.inboundOk pa m.len.toNat then s.respond k m .busErr [] (m.af == 8)
  else
    let n := m.len.toNat / z
    let (id, s) := s.inboundNew k m n
    (List.range n).foldl (fun s i =>
      s.pushAddend {
        id := 0, pa := pa + i * z, af := m.af.toNat, rank := m.rank.toNat, size := m.size.toNat, strict := m.strict && !s.rel10
        val := BitVec.ofNat 64 (leToNat ((m.payload.drop (i * z)).take z)), cmp := m.arg
        poison := m.af != 8 && m.arg.getLsbD (i * z / 64), srcblk := m.srcblk.toNat, src := m.src.toNat
        ret := .link k id }) s

/-- R155, R425: a VOID goes on to the engine behind the ACCP it names; release 1.0 discards it (R424). DESIGN CHOICE (log entry
131): it names the element at OFFSET alone, also where the ACCP carried several. -/
def State.takeVoid (s : State) (k : Nat) (m : Msg) : State :=
  if s.rel10 then s
  else
    s.pushAddend {
      id := 0, pa := m.offset.toNat, af := m.af.toNat, rank := m.rank.toNat, size := m.size.toNat, strict := true, val := 0
      void := true, srcblk := m.srcblk.toNat, src := m.src.toNat, ret := .link k s.nextId }

/-- Hand an accepted request to the mesh (R306, R308, R309); its credit goes back (R310). -/
def State.handOver (s : State) (k : Nat) (m : Msg) : State :=
  let s := s.onLink k (·.giveBack m)
  match m.type.toNat with
  | 1 => s.takePut k m
  | 2 => s.takeGet k m
  | 3 => s.takeAccp k m
  | 4 => s.applySignal k m
  | 7 => s.takeVoid k m
  | _ => s

/-- R306: hand over accepted requests, in SEQ order for each channel: a SIGNAL that waits holds up what came behind it on its
channel. -/
def State.handOn (s : State) (k : Nat) : List Msg → List Msg → State
  | [], keep => s.onLink k fun l => { l with held := keep }
  | m :: t, keep =>
    if keep.any (·.ch == m.ch) || (m.type == 4 && (s.link k).signalWaits m) then s.handOn k t (keep ++ [m])
    else (s.handOver k m).handOn k t keep

/-- Hand over what need not wait any longer. -/
def State.releaseSignals (s : State) (k : Nat) : State :=
  if (s.link k).held.isEmpty then s else s.handOn k (s.link k).held []

/-- Put the bytes of a piece at its place. -/
def putPiece (d : List Byte) (off : Nat) (bs : List Byte) : List Byte := d.take off ++ bs ++ d.drop (off + bs.length)

/-- One part of an inbound request has ended; the last one answers it (R307, R314). -/
def State.inboundDone (s : State) (k id off : Nat) (st : RStat) (bs : List Byte) : State :=
  match (s.link k).inbound.find? (·.id == id) with
  | none => s
  | some r =>
    let bad := if st == .ok || (st == .poisoned && r.bad.isSome) then r.bad else some st
    let mask := if st == .poisoned then r.mask ||| 2 ^ (off / 64) else r.mask
    let r := { r with left := r.left - 1, bad := bad, data := putPiece r.data off bs, mask := mask }
    if r.left > 0 then s.onLink k fun l => { l with inbound := l.inbound.map fun x => if x.id == id then r else x }
    else
      let s := s.onLink k fun l => { l with inbound := l.inbound.filter (·.id != id) }
      let getr := r.msg.type == 2 || (r.msg.type == 3 && r.msg.af == 8)
      let s := if r.dead then s
        else if r.msg.type == 0xB then s.hrsp k r.msg (r.bad.getD .ok) []
        else s.respond k r.msg (r.bad.getD .ok) (if getr then r.data else []) getr (if getr then r.mask else 0)
      s.releaseSignals k

/-! ### The end of an access -/

/-- The unit a poison write failed at, as FIRSTUNIT names it: DESIGN CHOICE (log entry 46), the stop, port or module that did not take it. -/
def State.poisonUnit (s : State) (line : Nat) : Nat :=
  match s.place (line * 64) with
  | .bank n _ => unitCluster (clusterOf n)
  | .ext p _ => unitPort p
  | .remote => match s.moduleFor (bitsOf (line * 64) 41 10) 10240 with | some m => unitLink m | none => 0xFFFF
  | _ => 0xFFFF

/-- Deliver the outcome of an access to whom it belongs. -/
def State.finish (s : State) (ret : Ret) (st : RStat) (bs : List Byte) : State :=
  match ret with
  | .load n who pid => s.arriveLoad n who pid st bs
  | .key n who pid => s.arriveKey n who pid st bs
  | .fill n ic line => s.onCore n fun c => { c with arrived := c.arrived ++ [(ic, line, st, bs)] }
  | .store n eid => s.entryDone n eid st
  | .held n who pa => s.onCtx n who fun c =>
      { c with held := c.held.map fun h => if h.1 == pa && h.2.isNone then (pa, some (st, bs)) else h }
  | .evict n line => s.evictDone n line st
  | .tile n op row => s.onCore n fun c => { c with tileOps := c.tileOps.map fun o =>
      if o.op == op then { o with open_ := o.open_.erase row, got := o.got ++ [(row, st, bs)] } else o }
  | .vec n op idx => s.onCore n fun c => { c with vecOps := c.vecOps.map fun o =>
      if o.op == op then { o with open_ := o.open_.erase idx, got := o.got ++ [(idx, st, bs)] } else o }
  | .xmu n id off len dst => s.xmuArrive n id off len dst st bs
  | .link k id => s.inboundDone k id 0 st bs
  | .linkGet k id off => s.inboundDone k id off st bs
  | .walk c id => s.walkGot c id st bs
  | .poisonWr line => if st == .ok || st == .poisoned then s else s.startDrain .poisonWr (s.poisonUnit line)
  | .none => s

/-- The cluster an outcome comes back to. -/
def Ret.cluster? : Ret → Option Nat
  | .load n _ _ | .fill n _ _ | .store n _ | .held n _ _ | .evict n _ | .tile n _ _ | .vec n _ _ | .key n _ _ | .xmu n _ _ _ _ =>
    some (clusterOf n)
  | .walk c _ => some c
  | .link _ _ | .linkGet _ _ _ | .poisonWr _ | .none => Option.none

/-- R369: the stop discards what comes back to a cluster that is off or waking, or that fences once its held addends have been
completed. -/
def State.dropsBack (s : State) (ret : Ret) : Bool :=
  match ret.cluster? with
  | none => false
  | some c =>
    let x := s.cluster c
    x.dst == .off || x.dst == .waking || (x.dst == .fencing && x.released)

/-- R369: the outcome of an access comes back to its stop, from the mesh or over a link: delivered, or discarded there. -/
def State.comesBack (s : State) (ret : Ret) (st : RStat) (bs : List Byte) : State :=
  if s.dropsBack ret then s else s.finish ret st bs

end Sys2Proof.Machine
end

