-- ==== Sys2Proof/Machine/Flags.lean ====
section
/-! DEFINITION. Every flag computation of the block: FLG as the twelve flag-setting ALU triggers set it (Table 03-1). -/

namespace Sys2Proof.Machine

/-- FLG of a result with its carry and overflow (Table 02-10, R55): Z, N, C, V from bit 0. -/
def flgOf (r : Word) (c v : Bool) : Word :=
  BitVec.ofNat 64 (b2n (r == 0) + 2 * b2n (r.getLsbD 63) + 4 * b2n c + 8 * b2n v)

/-- Whether an exact signed value lies outside 64 bits. -/
def outOf64 (i : Int) : Bool := i < -(2 ^ 63 : Nat) || i ≥ (2 ^ 63 : Nat)

/-- A result and its FLG. -/
structure AluRes where
  val : Word
  flg : Word
  deriving DecidableEq, Repr

/-- alu.add and alu.adc (Table 03-1). -/
def addFlags (a b : Word) (cin : Bool) : AluRes :=
  let r := a + b + (if cin then 1 else 0)
  { val := r, flg := flgOf r (a.toNat + b.toNat + b2n cin ≥ 2 ^ 64) (outOf64 (a.toInt + b.toInt + b2n cin)) }

/-- alu.sub, alu.cmp and alu.sbc (Table 03-1): C is the borrow. -/
def subFlags (a b : Word) (cin : Bool) : AluRes :=
  let r := a - b - (if cin then 1 else 0)
  { val := r, flg := flgOf r (a.toNat < b.toNat + b2n cin) (outOf64 (a.toInt - b.toInt - b2n cin)) }

/-- A bitwise result: C and V are 0. -/
def logicFlags (r : Word) : AluRes := { val := r, flg := flgOf r false false }

/-- alu.shl by s = v[5:0]. -/
def shlFlags (a v : Word) : AluRes :=
  let s := fld v 0 6
  let r := a <<< s
  { val := r, flg := flgOf r (s ≥ 1 && a.getLsbD (64 - s)) false }

/-- alu.shr. -/
def shrFlags (a v : Word) : AluRes :=
  let s := fld v 0 6
  let r := a >>> s
  { val := r, flg := flgOf r (s ≥ 1 && a.getLsbD (s - 1)) false }

/-- alu.sar. -/
def sarFlags (a v : Word) : AluRes :=
  let s := fld v 0 6
  let r := a.sshiftRight s
  { val := r, flg := flgOf r (s ≥ 1 && a.getLsbD (s - 1)) false }

/-- alu.rol. -/
def rolFlags (a v : Word) : AluRes :=
  let s := fld v 0 6
  let r := a.rotateLeft s
  { val := r, flg := flgOf r (s ≥ 1 && r.getLsbD 0) false }

/-- Z, N, C, V of FLG. -/
def flgZ (f : Word) : Bool := f.getLsbD 0
def flgN (f : Word) : Bool := f.getLsbD 1
def flgC (f : Word) : Bool := f.getLsbD 2
def flgV (f : Word) : Bool := f.getLsbD 3

end Sys2Proof.Machine
end

