-- ==== Sys2Proof/Machine/Operands.lean ====
section
/-! DEFINITION. Instruction words, sockets and guards (chapter 02): the socket map, the long and the paired word, the
legality of words, the evaluation of guards, the reading of sources and the writing of registers and operand ports. -/

namespace Sys2Proof.Machine

/-! ### The socket map (Table 02-11) -/

/-- The units that have trigger ports. -/
inductive Unit_ where
  | alu | lsu | bit | bru | dfm | vxu | tmu | xmu | kyu | sys
  deriving DecidableEq, Repr

/-- The kinds of Table 02-1, with the unit of a trigger and the port of a result; `tid` is sys.tid (Table 03-10). -/
inductive Sock where
  | reg | opnd | trig (u : Unit_) | res (p : Port) | tid
  deriving DecidableEq, Repr

/-- Table 02-11: what a socket is; none for a reserved one. -/
def sockOf (n : Nat) : Option Sock :=
  if n < 0x20 then some .reg
  else if n == 0x20 then some .opnd
  else if inR n 0x28 0x39 || inR n 0x40 0x42 || inR n 0x48 0x4B then some (.trig .alu)
  else if n == 0x50 then some (.res .aluRes)
  else if n == 0x51 then some (.res .aluMres)
  else if n == 0x52 then some (.res .aluDres)
  else if n == 0x53 then some .reg
  else if inR n 0x60 0x62 then some .opnd
  else if inR n 0x68 0x6E || inR n 0x70 0x7C then some (.trig .lsu)
  else if n == 0x7E then some (.res .lsuRes)
  else if n == 0x80 then some .opnd
  else if inR n 0x88 0x97 then some (.trig .bit)
  else if n == 0xA0 then some (.res .bitRes)
  else if inR n 0xC0 0xC3 then some .reg
  else if inR n 0xC8 0xCE || n == 0xD0 || n == 0xD1 then some (.trig .bru)
  else if n == 0xE0 then some (.res .bruRes)
  else if inR n 0x100 0x108 then some .reg
  else if inR n 0x110 0x113 then some (.trig .dfm)
  else if n == 0x120 then some (.res .dfmAcc)
  else if n == 0x180 then some .reg
  else if inR n 0x181 0x183 then some .opnd
  else if inR n 0x190 0x197 then some (.trig .vxu)
  else if n == 0x1A0 then some (.res .vxuSres)
  else if inR n 0x280 0x284 then some .opnd
  else if inR n 0x285 0x288 then some .reg
  else if inR n 0x290 0x298 then some (.trig .tmu)
  else if n == 0x2A0 then some (.res .tmuStat)
  else if inR n 0x380 0x383 || n == 0x388 then some (.trig .xmu)
  else if n == 0x390 then some (.res .xmuRes)
  else if n == 0x400 || n == 0x401 then some .opnd
  else if inR n 0x410 0x416 then some (.trig .kyu)
  else if n == 0x420 then some (.res .kyuRes)
  else if inR n 0x480 0x482 then some .reg
  else if n == 0x483 then some .opnd
  else if n == 0x484 then some .tid
  else if inR n 0x490 0x499 then some (.trig .sys)
  else if n == 0x4A0 then some (.res .sysRes)
  else none

/-- R28: a kind whose reading is forbidden; whose writing is forbidden. -/
def Sock.readable : Sock → Bool
  | .reg => true | .res _ => true | .tid => true | _ => false
def Sock.writable : Sock → Bool
  | .reg => true | .opnd => true | .trig _ => true | _ => false

/-- The triggers marked F in Table 02-11. -/
def setsFlags (n : Nat) : Bool := inR n 0x28 0x34

/-- The control triggers of R48 (bru.jmp to bru.ret). -/
def isTransfer (n : Nat) : Bool := inR n 0xC8 0xCC

/-- What a delay slot of a taken transfer, and a repeat body, must not trigger (R48, R51). -/
def isControl (n : Nat) : Bool := inR n 0xC8 0xCE || n == 0x494 || n == 0x495

/-! ### Words (Tables 02-2 to 02-4) -/

/-- A source: an immediate value or a socket. -/
inductive Source where
  | imm (v : Word)
  | sock (n : Nat)
  deriving DecidableEq, Repr

/-- One move of a word: its guard code (a long code, or the bit variable of a short one), source and destination. -/
structure Move where
  long : Bool := true
  guard : Nat := 0
  src : Source
  dst : Nat
  deriving DecidableEq, Repr

/-- Table 02-4: the source of a short code; none for the reserved codes. -/
def shortSource (c : Nat) : Option Source :=
  if c < 0x20 then some (.sock c)
  else if c < 0x2F then some (.imm (BitVec.ofNat 64 (c - 0x20)))
  else
    match c with
    | 0x2F => some (.imm (BitVec.allOnes 64))
    | 0x30 => some (.sock 0x50) | 0x31 => some (.sock 0x51) | 0x32 => some (.sock 0x52)
    | 0x33 => some (.sock 0x7E) | 0x34 => some (.sock 0xA0) | 0x35 => some (.sock 0xE0)
    | 0x36 => some (.sock 0x120) | 0x37 => some (.sock 0x1A0) | 0x38 => some (.sock 0x2A0)
    | 0x39 => some (.sock 0x390) | 0x3A => some (.sock 0x420) | 0x3B => some (.sock 0x4A0)
    | 0x3C => some (.sock 0x53)
    | _ => none

/-- Whether a source can be read and a destination written (Table 02-6). -/
def Source.ok : Source → Bool
  | .imm _ => true
  | .sock n => match sockOf n with | some k => k.readable | none => false
def dstOk (n : Nat) : Bool := match sockOf n with | some k => k.writable | none => false

/-- The unit whose trigger a destination is. -/
def trigUnit (n : Nat) : Option Unit_ := match sockOf n with | some (.trig u) => some u | _ => none

/-- Bytes of code of a word (R33). -/
def wordBytes (w : BitVec 32) : Nat := if w.getLsbD 31 then 4 else if bitsOf w.toNat 0 2 == 1 then 8 else 4

/-- R32–R36: decode a word with the word after it; none: a decode fault, ILLEGAL_MOVE. -/
def decodeWord (w ext : BitVec 32) : Option (List Move) :=
  let x := w.toNat
  if !w.getLsbD 31 then
    let imm := x.testBit 26
    let src := bitsOf x 14 12
    let e := bitsOf x 0 2
    let m : Move := { long := true, guard := bitsOf x 27 4, dst := bitsOf x 2 12,
                      src := if e == 1 then .imm (sext ext.toNat 32) else if imm then .imm (sext src 12) else .sock src }
    if e ≥ 2 then none
    else if e == 1 && (imm || src != 0) then none
    else if !m.src.ok || !dstOk m.dst then none
    else some [m]
  else if x.testBit 0 then none
  else
    match shortSource (bitsOf x 23 6), shortSource (bitsOf x 8 6) with
    | some s1, some s2 =>
      let m1 : Move := { long := false, guard := bitsOf x 29 2, src := s1, dst := bitsOf x 16 7 }
      let m2 : Move := { long := false, guard := bitsOf x 14 2, src := s2, dst := bitsOf x 1 7 }
      if !m1.src.ok || !m2.src.ok || !dstOk m1.dst || !dstOk m2.dst then none
      else if m1.dst == m2.dst then none
      else if (trigUnit m1.dst).isSome && trigUnit m1.dst == trigUnit m2.dst then none
      else if (m1.dst == 0x53 && setsFlags m2.dst) || (m2.dst == 0x53 && setsFlags m1.dst) then none
      else some [m1, m2]
    | _, _ => none

/-! ### Guards (R37–R39) -/

/-- Table 02-9: a GSEL entry on the flags and bits; none for a reserved condition. -/
def gselTrue (c : Casement) (e : Nat) : Option Bool :=
  let inv := e.testBit 7
  let sel := e % 64
  if e.testBit 6 then some (c.bit sel != inv)
  else
    let f := c.flg
    match sel with
    | 0 => some (flgZ f != inv)
    | 1 => some (flgN f != inv)
    | 2 => some (flgC f != inv)
    | 3 => some (flgV f != inv)
    | 4 => some ((flgN f != flgV f) != inv)
    | 5 => some ((flgZ f || flgN f != flgV f) != inv)
    | 6 => some ((flgC f || flgZ f) != inv)
    | _ => none

/-- Table 02-7, R39: whether the guard of a move holds; none for a reserved condition. -/
def Casement.guardTrue (c : Casement) (m : Move) : Option Bool :=
  if !m.long then some (c.bit m.guard)
  else
    let f := c.flg
    match m.guard with
    | 0 => some true
    | 1 => some (flgZ f)
    | 2 => some (!flgZ f)
    | 3 => some (flgN f)
    | 4 => some (!flgN f)
    | 5 => some (flgC f)
    | 6 => some (!flgC f)
    | 7 => some (flgN f != flgV f)
    | 8 => some (flgN f == flgV f)
    | g => gselTrue c (fld c.gsel (8 * (g - 9)) 8)

/-- The bit variable a guard reads; b0 is no variable (R39). -/
def Casement.guardBit (c : Casement) (m : Move) : Option Nat :=
  let b := if !m.long then m.guard
    else if m.guard ≥ 9 then (let e := fld c.gsel (8 * (m.guard - 9)) 8; if e.testBit 6 then e % 64 else 0)
    else 0
  if b == 0 then none else some b

/-- Table 15-1: the guards of a word read a bit of a group with a parity error. -/
def Casement.guardBad (c : Casement) (ms : List Move) : Bool :=
  ms.any fun m => match c.guardBit m with | some b => c.gBad.getLsbD (b / 64) | none => false

/-- The moves whose guards hold; none if a guard holds a reserved condition (R36). -/
def Casement.liveMoves (c : Casement) : List Move → Option (List Move)
  | [] => some []
  | m :: t =>
    match c.guardTrue m, c.liveMoves t with
    | some g, some l => some (if g then m :: l else l)
    | _, _ => none

/-! ### Reading sources -/

/-- sys.tid (Table 03-10). DESIGN CHOICE (log entry 139): in the keeper, which has no task number, TASK reads 0. -/
def tidOf (n k : Nat) (task : Option Nat) : Word :=
  BitVec.ofNat 64 (n % 2 ^ 14 + task.getD 0 % 64 * 2 ^ 16 + k % 16 * 2 ^ 24)

/-- sys.tmr as casement k reads it (Table 11-4, R263). -/
def tmrOf (c : Core) (task : Option Nat) : Word :=
  let own := match c.tmrOwner with | .task t => t | _ => 0
  let armed := match c.tmrOwner with | .task _ => true | _ => false
  let mine := match c.tmrOwner, task with | .task t, some u => t == u | _, _ => false
  BitVec.ofNat 64 (c.tmrCount.toNat + own % 64 * 2 ^ 38 + b2n armed * 2 ^ 44 + b2n mine * 2 ^ 45 +
    b2n (c.tmrOwner == .detector) * 2 ^ 46)

/-- The value held in a register socket. -/
def State.readReg (s : State) (n k sock : Nat) : Word :=
  let c := s.case n k
  if sock < 0x20 then c.dreg sock
  else
    match sock with
    | 0x53 => c.flg
    | 0xC0 => c.gsel
    | 0xC1 => c.rptc
    | 0xC2 => c.dsp.setWidth 64
    | 0xC3 => c.rsa
    | 0x108 => c.dfmFmt
    | 0x180 => c.vlen.setWidth 64
    | 0x285 => c.tstart
    | 0x286 => c.rmax
    | 0x287 => c.nsat.setWidth 64
    | 0x288 => c.nflz.setWidth 64
    | 0x480 => c.bnk
    | 0x481 => c.tsbp
    | 0x482 => tmrOf (s.core n) (s.whoIs n k)
    | _ => if inR sock 0x100 0x107 then (tabGet (0 : BitVec 32) c.gen (sock - 0x100)).setWidth 64 else 0

/-- What reading a source comes to. -/
inductive ReadRes where
  | val (v : Word)
  | wait
  | fault (cls : BitVec 8)
  /-- a general register with a parity error (Table 15-1) -/
  | parity
  deriving DecidableEq, Repr

/-- R95: a VXU or array operation still in flight whose destination a later trigger of casement k reads: what reads FPC or the
reporting registers must show its contribution, so it waits. DESIGN CHOICE (log entry 100): the read waits, not the trigger. -/
def State.reportsOwed (s : State) (n k : Nat) : Bool :=
  ((s.core n).vxuOps.any fun o => o.case == k && o.chained) || (s.core n).arrayQ.any fun o => o.case == k && o.chained

/-- R28, R44, R63, Table 15-1: read a source for casement k of core n. A poisoned value raises at its first read; a general
register with a parity error raises POISON. -/
def State.readSrc (s : State) (n k : Nat) : Source → ReadRes
  | .imm v => .val v
  | .sock m =>
    let c := s.case n k
    match sockOf m with
    | some (.res p) =>
      if c.portWaits p then .wait
      else
        let v := c.port p
        match v.taint.cls with
        | some cls => .fault cls
        | none => .val v.val
    | some .tid => .val (tidOf n k (s.whoIs n k))
    | some .reg =>
      if m < 0x20 && c.dBad.getLsbD m then .parity
      else if inR m 0x286 0x288 && s.reportsOwed n k then .wait
      else .val (s.readReg n k m)
    | _ => .val 0

/-- Read the sources of the live moves, in order: all values, or the first wait or fault. DESIGN CHOICE (log entry 137): of two
moves of a word that fault or wait, move 1 goes first (R36 names no order). -/
def State.readAll (s : State) (n k : Nat) : List Move → Except ReadRes (List (Nat × Word))
  | [] => .ok []
  | m :: t =>
    match s.readSrc n k m.src with
    | .val v => match s.readAll n k t with
      | .ok l => .ok ((m.dst, v) :: l)
      | .error e => .error e
    | r => .error r

/-! ### Writing registers and operand ports -/

/-- R263: a write to sys.tmr by the task of casement k. -/
def tmrWrite (c : Core) (task : Option Nat) (v : Word) : Core :=
  let count : BitVec 32 := v.setWidth 32
  let off := bitAt v 32 || count == 0
  match task with
  | none => c
  | some t =>
    match c.tmrOwner with
    | .task u =>
      if u != t then c
      else if off then { c with tmrOwner := .none, tmrCount := 0 }
      else { c with tmrCount := count }
    | _ => if off then c else { c with tmrOwner := .task t, tmrCount := count }

/-- Mask of the bits a register socket holds; the others are RSV (R7). -/
def regMask (sock : Nat) : Nat :=
  match sock with
  | 0x53 => 0xF
  | 0xC0 => 2 ^ 56 - 1
  | 0xC1 => 2 ^ 34 - 1
  | 0xC2 => 2 ^ 48 - 1
  | 0x108 => 0xFFFFFFFF00FFFF07
  | 0x180 => 0x1FF
  | 0x285 => 0xFF00FF
  | 0x287 => 2 ^ 32 - 1
  | 0x288 => 2 ^ 32 - 1
  | 0x480 => 0xFFFF
  | 0x481 => 2 ^ 64 - 1 - 0x1FF
  | _ => if inR sock 0x100 0x107 then 2 ^ 32 - 1 else 2 ^ 64 - 1

/-- Write a register socket or an operand port (R28, R29). The keeper has no VXU registers (R158): its vxu.vlen reads 0 and a
write to it is discarded, a DESIGN CHOICE (log entry 106). -/
def State.writeSock (s : State) (n k sock : Nat) (v : Word) : State :=
  let m := v &&& BitVec.ofNat 64 (regMask sock)
  match sockOf sock with
  | some .opnd => s.onCase n k fun c => Casement.touch { c with opnd := tabSet 0 c.opnd sock v } 0
  | some .reg =>
    if sock < 0x20 then s.onCase n k (·.setD sock v)
    else if sock == 0x482 then
      let was := (s.core n).isIdle
      (s.onCore n fun c => tmrWrite c (s.whoIs n k) v).settle was n
    else s.onCase n k fun c =>
      let c := c.touch 0
      match sock with
      | 0x53 => { c with flg := m }
      | 0xC0 => { c with gsel := m }
      | 0xC1 => { c with rptc := m }
      | 0xC2 => { c with dsp := m.setWidth 48 }
      | 0xC3 => { c with rsa := m }
      | 0x108 => { c with dfmFmt := m }
      | 0x180 => if k == 8 then c else { c with vlen := m.setWidth 9 }
      | 0x285 => { c with tstart := m }
      | 0x286 => { c with rmax := m }
      | 0x287 => { c with nsat := m.setWidth 32 }
      | 0x288 => { c with nflz := m.setWidth 32 }
      | 0x480 => { c with bnk := m }
      | 0x481 => { c with tsbp := m }
      | _ => { c with gen := tabSet 0 c.gen (sock - 0x100) (m.setWidth 32) }
  | _ => s

/-- R31 step 2: the writes of a word to registers and operand ports. -/
def State.writeAll (s : State) (n k : Nat) : List (Nat × Word) → State
  | [] => s
  | (d, v) :: t => (s.writeSock n k d v).writeAll n k t

end Sys2Proof.Machine
end

