-- ==== Sys2Proof/Machine/UnitLsu.lean ====
section
/-! DEFINITION. Memory accesses of a word and the LSU (R59–R65, R244–R250): loads, stores, accumulate-writes, fences. -/

namespace Sys2Proof.Machine

/-! ### Shared accesses -/

/-- R278: an access to local control space is covered by a DEVICE key of the task with R (bit 0) or W (bit 1). -/
def Casement.deviceKey (c : Casement) (off bytes perm : Nat) : Bool :=
  (List.range 16).any fun i =>
    let k := c.key i
    keyType k == 3 && keyHas k perm && keyCovers k off bytes

/-- A fault found after a complete translation (R225). -/
def fltLeaf (cls : BitVec 8) (x : Xl) (acc : Acc) (va : Nat) : Flt :=
  { cls := cls, syn := true, stage := 2, level := x.level, acc := acc.code, ext := x.ext, va := va, ia := x.ia }

/-- R278: the key check of an access to control space; control space of another block always raises KEY. The check reads every
key register, so one with a parity error raises POISON (Table 15-1). -/
def ctlCheck (c : Casement) (x : Xl) (acc : Acc) (va bytes : Nat) : Option Flt :=
  if ctlRange x.pa then
    if x.pa ≥ 2 ^ 51 then some (fltLeaf clsKEY x acc va)
    else if c.kBad != 0 then some fltParity
    else if c.deviceKey (x.pa - 0x18000000000) bytes (if acc == .read then 1 else 2) then none
    else some (fltLeaf clsKEY x acc va)
  else none

/-- R281: an access or KYU trigger uses the new key of a register whose write is due; it waits while the read it comes from
has not ended. -/
def Casement.keyDue (c : Casement) : Bool :=
  c.pend.any fun e => e.keyWrite.isSome && e.due ≤ c.icount

/-- A load's pending result: visible after `delay` issue cycles. -/
def loadPend (port : Port) (delay pid bytes : Nat) (signed : Bool) : Pending :=
  { port := port, due := delay, id := pid, bytes := bytes, signed := signed }

/-- R230, R233, R237, R64: a cacheable load: from the store buffer, from the cache, or by a fill. -/
def State.loadCached (s : State) (n k : Nat) (va : Nat) (x : Xl) (bytes : Nat) (signed : Bool) (port : Port) (delay : Nat) : Trig :=
  let pa := x.pa
  let line := pa / 64
  let off := pa % 64
  let s := s.tagScan n false line
  let (m, d) := sbOverlay line (s.core n).sbuf (0, 0)
  let want := maskOf off bytes
  let held := sbPoison line want (s.core n).sbuf
  let (pid, s) := s.fresh
  let p := { loadPend port delay pid bytes signed with trans := some (x.tag, x.ia) }
  let ready := fun (s : State) (l : BitVec 512) (bad : Bool) =>
    Trig.done (s.onCase n k fun c => c.addPending
      { p with data := { val := loadVal l off bytes signed, taint := if bad || held then .poison else .clean } })
  let miss := fun (s : State) =>
    let who := s.whoIs n k
    let busy := (s.core n).filling false line
    let last := (s.core n).lastMiss
    match s.wantLine n false line (s.jobOf n who) p.trans with
    | (_, false) => Trig.wait .trigger [.fill false line p.trans]
    | (s, true) =>
      let s := if busy then s else
        let s := s.onCore n fun c => { c with lastMiss := some line }
        if last == some (line - 1) && line != 0 then s.prefetchLine n (s.case n k) (va - va % 64 + 64) else s
      .done (s.onCase n k fun c => c.addPending
        { p with
          await := .fill, pa := pa, data := { taint := if held then .poison else .clean }
          fwdMask := BitVec.ofNat 8 (bitsOf m.toNat off 8), fwd := BitVec.ofNat 64 (bitsOf d.toNat (8 * off) 64) })
  if m &&& want == want then ready s d false
  else
    match (s.core n).hit false line with
    | none => miss s
    | some (key, l) =>
      if l.parBad &&& granTouched want != 0 then
        if l.dirty == 0 then miss ((s.countPar n).onCore n fun c => c.dropLine false key)
        else ready (s.parityDrop n key l) (mergeLine l.data d m) true
      else ready s (mergeLine l.data d m) l.poison

/-- R64, R229, R246: a load that bypasses the cache: it waits for the task's earlier stores to its line, then reads its
destination: the core's own bank at once, another place by a packet, another block by a GET. -/
def State.loadDirect (s : State) (n k : Nat) (x : Xl) (bytes : Nat) (signed : Bool) (port : Port) (delay : Nat) : Trig :=
  let line := x.pa / 64
  let who := s.whoIs n k
  if s.storesTo n who line || s.bypassBusy n who line then .wait .trigger []
  else
    let (pid, s) := s.fresh
    let p := { loadPend port delay pid bytes signed with trans := some (x.tag, x.ia) }
    let later := fun (s : State) => Trig.done (s.onCase n k fun c => c.addPending { p with await := .access })
    if s.near n x.pa then
      let (s, st, bs) := s.readPa x.pa bytes (some n)
      .done (s.onCase n k fun c => c.addPending { p.arrive st bs with due := delay })
    else
      match s.place x.pa with
      | .ctl o =>
        let op : MemOp := if bytes == 8 then .ctlRead o true else if bytes == 4 then .ctlRead o false else .read x.pa bytes
        later (s.send (.core n) .escapement op (.load n who pid) p.trans)
      | _ =>
        match s.reach n x.pa (getMsg (s.jobOf n who) bytes) (.load n who pid) p.trans with
        | (s, none) => later s
        | (s, some st) => .done (s.onCase n k fun c => c.addPending { p with data := { val := 0, taint := st.taint } })

/-- A load of `bytes` bytes at a virtual address onto a result port. -/
def State.load (s : State) (n k va bytes : Nat) (signed : Bool) (port : Port) (delay : Nat) (device : Bool) : Trig :=
  if va % bytes != 0 then .fault none fltAlign
  else if (s.case n k).keyDue then .wait .read []
  else
    match s.xlateWord n k va .read device with
    | .inr t => t
    | .inl x =>
      match ctlCheck (s.case n k) x .read va bytes with
      | some f => .fault (some (State.touchTlb · n x.tag x.ia)) f
      | none =>
        let s := s.touchTlb n x.tag x.ia
        if x.type == .cached then s.loadCached n k va x bytes signed port delay
        else s.loadDirect n k x bytes signed port delay

/-- R231: the youngest entry of the task takes a store to the same line, if it holds plain stores. -/
def SbEntry.takes (e : SbEntry) (line : Nat) (cacheable : Bool) : Bool :=
  e.line == line && e.addend.isNone && e.key.isNone && !e.clean && !e.device && !e.leaving && e.cacheable == cacheable

/-- The youngest entry of a task. -/
def youngest (who : Option Nat) (l : List SbEntry) : Option SbEntry := (l.filter (·.task == who)).getLast?

/-- Control offset of the TCMD register of core n (Table 11-5). -/
def tcmdOff (n : Nat) : Nat := 0x01000000 + n / 64 * 0x10000 + 0x8000 + n % 64 * 0x200 + 0x10

/-- R266: a TCMD store arrives at the scheduler block of core n: accepted, refused for the keeper's wait, or discarded.
`none`: the store is not performed yet; `some`: performed at once. -/
def State.tcmdArrive (s : State) (n : Nat) (w : Word) (fromKeeper : Bool) (ret : Ret) : State × Option Bool :=
  let c := s.core n
  if c.tcmdQ.length < 2 then
    (s.setCore n { c with tcmdQ := c.tcmdQ ++ [{ word := w, fromKeeper := fromKeeper, ret := ret }], tsDrop := false }, none)
  else if fromKeeper && (fld w 0 3 == 2 || fld w 0 3 == 3) then (s, some false)
  else (s.setCore n { c with tsDrop := true }, some true)

/-- R64, R231, R232: a store trigger waits while the store buffer is full, and then puts its bytes into it. A TCMD store to the
core's own scheduler block arrives as it issues (R266). -/
def State.store (s : State) (n k va bytes : Nat) (v : Word) (device : Bool) (acc : Acc := .write) : Trig :=
  if va % bytes != 0 then .fault none fltAlign
  else if (s.case n k).keyDue then .wait .read []
  else
    match s.xlateWord n k va acc device with
    | .inr t => t
    | .inl x =>
      match ctlCheck (s.case n k) x .write va bytes with
      | some f => .fault (some (State.touchTlb · n x.tag x.ia)) f
      | none =>
        let s := s.touchTlb n x.tag x.ia
        let who := s.whoIs n k
        let c := s.core n
        let line := x.pa / 64
        let off := x.pa % 64
        let cacheable := x.type == .cached
        let dev := x.type == .device
        let mask := maskOf off bytes
        let data : BitVec 512 := BitVec.ofNat 512 ((v.toNat % 2 ^ (8 * bytes)) * 2 ^ (8 * off))
        let stream := if cacheable then c.stream.step line mask else c.stream
        let order := (s.case n k).stores
        let count := fun (s : State) => s.onCase n k fun c => { c with stores := c.stores + 1 }
        if c.sbuf.length ≥ 16 then .wait .trigger []
        else
        match youngest who c.sbuf with
        | some e =>
          if !dev && e.takes line cacheable then
            .done (count (s.setCore n { c with
              stream := stream
              sbuf := c.sbuf.map fun y => if y.eid == e.eid
                then { y with mask := y.mask ||| mask, data := mergeLine y.data data mask, also := y.also ++ [(x.tag, x.ia)] }
                else y }))
          else fresh s c who line cacheable dev mask data stream order count x
        | none => fresh s c who line cacheable dev mask data stream order count x
where
  /-- A new entry. -/
  fresh (s : State) (c : Core) (who : Option Nat) (line : Nat) (cacheable dev : Bool) (mask : BitVec 64) (data : BitVec 512)
      (stream : Stream) (order : Nat) (count : State → State) (x : Xl) : Trig :=
    let (eid, s) := s.fresh
    let e : SbEntry := {
      eid := eid, task := who, order := order, va := BitVec.ofNat 64 va, line := line, mask := mask, data := data
      cacheable := cacheable, device := dev, noAlloc := cacheable && stream.noAlloc, job := s.jobOf n who, size := bytes
      trans := some (x.tag, x.ia) }
    let put := fun (s : State) (e : SbEntry) => s.onCore n fun c => { c with stream := stream, sbuf := c.sbuf ++ [e] }
    if dev && bytes == 8 && s.place x.pa == .ctl (tcmdOff n) then
      let fromKeeper := k == 8 && bitAt c.scause 22
      match s.tcmdArrive n v fromKeeper (.store n eid) with
      | (s, none) => .done (count (put s { e with leaving := true, open_ := 1 }))
      | (s, some true) => .done (count s)
      | (s, some false) => .done (count (put s { e with inTrap := fromKeeper }))
    else .done (count (put s e))

/-! ### Accumulate-writes (R62, R186) -/

/-- The captured pair and STRICT of an accumulate-write (R153, R186). -/
def Casement.addend (c : Casement) (id pa af : Nat) (v cmp : Word) (ret : Ret) : Addend :=
  { id := id, pa := pa, af := af, rank := fld c.asl 0 16, size := fld c.asl 16 16, strict := bitAt c.rdc 0,
    val := v, cmp := cmp, ret := ret }

/-- An accumulate-write of operation `af` at a virtual address. -/
def State.accum (s : State) (n k va af : Nat) (v : Word) : Trig :=
  let bytes := afBytes af
  if va % bytes != 0 then .fault none fltAlign
  else if (s.case n k).keyDue then .wait .read []
  else
    match s.xlateWord n k va .accum with
    | .inr t => t
    | .inl x =>
      let s := s.touchTlb n x.tag x.ia
      if (s.core n).sbuf.length ≥ 16 then .wait .trigger []
      else
        let who := s.whoIs n k
        let (eid, s) := s.fresh
        let (id, s) := s.fresh
        let c := s.case n k
        let a := c.addend id x.pa af (BitVec.ofNat 64 (v.toNat % 2 ^ (8 * bytes))) 0 (.store n eid)
        let e : SbEntry := {
          eid := eid, task := who, order := c.stores, va := BitVec.ofNat 64 va, line := x.pa / 64
          addend := some { a with src := n, srcblk := s.self.toNat }, cacheable := false, device := false
          job := s.jobOf n who, trans := some (x.tag, x.ia) }
        .done ((s.onCore n fun y => { y with sbuf := y.sbuf ++ [e] }).onCase n k fun c => { c with stores := c.stores + 1 })

/-- lsu.cas: a compare-and-swap at the destination engine; the old value comes back on lsu.res. -/
def State.cas (s : State) (n k va : Nat) (v cmp : Word) : Trig :=
  if va % 8 != 0 then .fault none fltAlign
  else if (s.case n k).keyDue then .wait .read []
  else
    match s.xlateWord n k va .cas with
    | .inr t => t
    | .inl x =>
      let s := s.touchTlb n x.tag x.ia
      let who := s.whoIs n k
      if s.storesTo n who (x.pa / 64) || s.bypassBusy n who (x.pa / 64) then .wait .trigger []
      else
        let (pid, s) := s.fresh
        let (id, s) := s.fresh
        let a := (s.case n k).addend id x.pa 8 v cmp (.load n who pid)
        let p := { loadPend .lsuRes 4 pid 8 false with trans := some (x.tag, x.ia) }
        match s.sendAddend n (s.jobOf n who) a (some (x.tag, x.ia)) with
        | (s, none) => .done (s.onCase n k fun c => c.addPending { p with await := .access })
        | (s, some st) => .done (s.onCase n k fun c => c.addPending { p with data := { val := 0, taint := st.taint } })

/-! ### Fences (R247–R250) -/

/-- Every earlier load of the task has been performed (Table 10-5). -/
def State.loadsDone (s : State) (n k : Nat) : Bool :=
  !((s.case n k).pend.any fun e => e.await == .access || e.await == .fill) &&
    !((s.core n).tileOps.any fun o => o.case == k && o.load) && !((s.core n).vecOps.any fun o => o.case == k && o.load)

/-- Every earlier store and accumulate-write of the task has been performed, or has failed. -/
def State.storesDone (s : State) (n k : Nat) : Bool :=
  let who := s.whoIs n k
  let c := s.core n
  !(c.sbuf.any (·.task == who)) &&
    !(c.evicts.any fun v => v.adopted.any (·.task == who)) &&
    !(c.tileOps.any fun o => o.case == k && !o.load) && !(c.vecOps.any fun o => o.case == k && !o.load)

/-- R194: every descriptor the task has enqueued has completed. -/
def State.descDone (s : State) (n k : Nat) : Bool :=
  let xq := match s.whoIs n k with
    | none => (s.core n).kxq
    | some t => match s.task n t with | none => [] | some x => x.xq
  xq.all fun (_, q) => q.items.isEmpty

/-- The first failed store of the task in its issue order (R250). -/
def firstFail : List StoreFail → Option StoreFail
  | [] => none
  | f :: t => match firstFail t with
    | none => some f
    | some g => some (if f.order ≤ g.order then f else g)

/-- R250: the STORE_ASYNC report of a task's failures: one report covers them all. -/
def asyncFault (l : List StoreFail) : Flt :=
  match firstFail l with
  | none => { cls := clsASYNC, syn := true, acc := 1, ext := 0 }
  | some f => { cls := clsASYNC, syn := true, acc := if f.acc then 2 else 1, ext := 0, va := f.va.toNat }

/-- Raise the report: the failures are reported. -/
def State.reportAsync (s : State) (n k : Nat) : Trig :=
  let l := (s.case n k).fails
  .fault (some fun s => s.onCase n k fun c => { c.stopRows with fails := [], asyncDue := false }) (asyncFault l)

/-- lsu.rel (R247). -/
def State.releaseFence (s : State) (n k : Nat) : Trig :=
  if !(s.loadsDone n k && s.storesDone n k && s.descDone n k) then .wait .trigger []
  else if (s.case n k).fails.isEmpty then .done s
  else s.reportAsync n k

/-- lsu.acq (R248). -/
def State.acquireFence (s : State) (n k : Nat) : Trig := if s.loadsDone n k then .done s else .wait .trigger []

/-- lsu.pf (R65): never faults, never waits. -/
def State.prefetch (s : State) (n k va : Nat) : Trig := .done (s.prefetchLine n (s.case n k) va)

/-! ### The triggers of the LSU (Table 03-4) -/

/-- AF of lsu.amax (Table 03-5). -/
def amaxAf (cmpv : Word) : Nat :=
  match fld cmpv 0 2 with | 0 => 4 | 1 => 5 | 2 => 6 | _ => 7

/-- The virtual address of an LSU trigger (R59). -/
def Casement.lsuVa (c : Casement) (v : Word) : Nat := c.short ((fld (c.opnd_ 0x60) 0 32) + fld v 0 32)

/-- An LSU trigger. -/
def trigLsu (s : State) (n k sock : Nat) (v : Word) : Trig :=
  let c := s.case n k
  let va := c.lsuVa v
  let d := c.opnd_ 0x61
  match sock with
  | 0x68 => s.load n k va 1 false .lsuRes 4 true
  | 0x69 => s.load n k va 1 true .lsuRes 4 true
  | 0x6A => s.load n k va 2 false .lsuRes 4 true
  | 0x6B => s.load n k va 2 true .lsuRes 4 true
  | 0x6C => s.load n k va 4 false .lsuRes 4 true
  | 0x6D => s.load n k va 4 true .lsuRes 4 true
  | 0x6E => s.load n k va 8 false .lsuRes 4 true
  | 0x70 => s.store n k va 1 d true
  | 0x71 => s.store n k va 2 d true
  | 0x72 => s.store n k va 4 d true
  | 0x73 => s.store n k va 8 d true
  | 0x74 => s.accum n k va 0 d
  | 0x75 => s.accum n k va 1 d
  | 0x76 => s.accum n k va 2 d
  | 0x77 => s.accum n k va 3 d
  | 0x78 => s.accum n k va (amaxAf (c.opnd_ 0x62)) d
  | 0x79 => s.cas n k va d (c.opnd_ 0x62)
  | 0x7A => s.acquireFence n k
  | 0x7B => s.releaseFence n k
  | _ => s.prefetch n k va

end Sys2Proof.Machine
end

