-- ==== Sys2Proof/Machine/UnitCore.lean ====
section
/-! DEFINITION. The triggers of the ALU, BIT and BRU units (chapter 03). -/

namespace Sys2Proof.Machine

/-! ### ALU (R55–R58) -/

/-- A flag-setting trigger: its result on alu.res after one issue cycle, its flags from the next. -/
def State.aluFlag (s : State) (n k : Nat) (r : AluRes) : Trig :=
  .done (s.onCase n k fun c => Casement.addPend { c with flg := r.flg } .aluRes 1 r.val)

/-- alu.cmp: the flags alone. -/
def State.aluFlagOnly (s : State) (n k : Nat) (r : AluRes) : Trig :=
  .done (s.onCase n k fun c => Casement.touch { c with flg := r.flg } 0)

/-- A trigger that writes no flags: its result on a port after `d` issue cycles. -/
def State.result (s : State) (n k : Nat) (p : Port) (d : Nat) (v : Word) : Trig :=
  .done (s.onCase n k fun c => c.addPend p d v)

/-- R57: signed quotient, truncated toward zero. -/
def divS (a b : Word) : Word := if b == 0 then BitVec.allOnes 64 else BitVec.ofInt 64 (a.toInt.tdiv b.toInt)
/-- R57: unsigned quotient. -/
def divU (a b : Word) : Word := if b == 0 then BitVec.allOnes 64 else BitVec.ofNat 64 (a.toNat / b.toNat)
/-- R57: signed remainder, with the sign of o1. -/
def remS (a b : Word) : Word := if b == 0 then a else BitVec.ofInt 64 (a.toInt.tmod b.toInt)
/-- R57: unsigned remainder. -/
def remU (a b : Word) : Word := if b == 0 then a else BitVec.ofNat 64 (a.toNat % b.toNat)

/-- R58: a division occupies the core's divider for 20 cycles; a trigger waits while it is occupied. -/
def State.divide (s : State) (n k : Nat) (v : Word) : Trig :=
  if (s.core n).divLeft > 0 then .wait .busy []
  else .done ((s.onCore n fun c => { c with divLeft := 20 }).onCase n k fun c => c.addPend .aluDres 20 v)

/-- Sign extension of o1 from bit v[5:0] (Table 03-2). -/
def sextAt (a v : Word) : Word := sext a.toNat (fld v 0 6 + 1)

/-- Bits [127:64] of a signed and of an unsigned product. -/
def mulHiS (a b : Word) : Word := BitVec.ofInt 64 ((a.toInt * b.toInt) / (2 ^ 64 : Nat))
def mulHiU (a b : Word) : Word := BitVec.ofNat 64 (a.toNat * b.toNat / 2 ^ 64)

/-- An ALU trigger (Tables 03-1, 03-2). -/
def trigAlu (s : State) (n k sock : Nat) (v : Word) : Trig :=
  let c := s.case n k
  let a := c.opnd_ 0x20
  match sock with
  | 0x28 => s.aluFlag n k (addFlags a v false)
  | 0x29 => s.aluFlag n k (subFlags a v false)
  | 0x2A => s.aluFlag n k (addFlags a v (flgC c.flg))
  | 0x2B => s.aluFlag n k (subFlags a v (flgC c.flg))
  | 0x2C => s.aluFlag n k (logicFlags (a &&& v))
  | 0x2D => s.aluFlag n k (logicFlags (a ||| v))
  | 0x2E => s.aluFlag n k (logicFlags (a ^^^ v))
  | 0x2F => s.aluFlag n k (logicFlags (a &&& ~~~v))
  | 0x30 => s.aluFlag n k (shlFlags a v)
  | 0x31 => s.aluFlag n k (shrFlags a v)
  | 0x32 => s.aluFlag n k (sarFlags a v)
  | 0x33 => s.aluFlag n k (rolFlags a v)
  | 0x34 => s.aluFlagOnly n k (subFlags a v false)
  | 0x35 => s.result n k .aluRes 1 (if a.toInt < v.toInt then a else v)
  | 0x36 => s.result n k .aluRes 1 (if a.toInt < v.toInt then v else a)
  | 0x37 => s.result n k .aluRes 1 (if a.toNat < v.toNat then a else v)
  | 0x38 => s.result n k .aluRes 1 (if a.toNat < v.toNat then v else a)
  | 0x39 => s.result n k .aluRes 1 (sextAt a v)
  | 0x40 => s.result n k .aluMres 3 (a * v)
  | 0x41 => s.result n k .aluMres 3 (mulHiS a v)
  | 0x42 => s.result n k .aluMres 3 (mulHiU a v)
  | 0x48 => s.divide n k (divS a v)
  | 0x49 => s.divide n k (divU a v)
  | 0x4A => s.divide n k (remS a v)
  | _ => s.divide n k (remU a v)

/-! ### BIT (R66–R71) -/

/-- Leading zero bits (Table 03-6). -/
def clz64 (v : Word) : Nat := 64 - bitLen v.toNat

/-- Trailing zero bits among the low n bits, from bit i. -/
def ctzFrom (v : Word) : Nat → Nat → Nat
  | _, 0 => 64
  | i, m + 1 => if v.getLsbD i then i else ctzFrom v (i + 1) m

/-- Bytes in reverse order; bits in reverse order. -/
def bswap64 (v : Word) : Word := BitVec.ofNat 64 (leToNat (natToLe v.toNat 8).reverse)
def rev64 (v : Word) : Word :=
  BitVec.ofNat 64 (packElems 1 ((List.range 64).map fun i => if v.getLsbD (63 - i) then 1 else 0))

/-- bit.ext: the field of o1 at LSB, LEN; it ends at bit 63 (R68). -/
def bitExtract (a v : Word) : Word :=
  let lsb := fld v 0 6
  let len := min (fld v 6 7) (64 - lsb)
  if bitAt v 13 then sext (a.toNat >>> lsb) len else BitVec.ofNat 64 (bitsOf a.toNat lsb len)

/-- bit.ins: the field of `r` at LSB, LEN replaced by the low LEN bits of o1. -/
def bitInsert (r a v : Word) : Word :=
  let lsb := fld v 0 6
  let len := min (fld v 6 7) (64 - lsb)
  BitVec.ofNat 64 (setBitsOf r.toNat lsb len a.toNat)

/-- A BIT trigger that changes bit variables. -/
def State.bitWrite (s : State) (n k : Nat) (f : Casement → Casement) : Trig := .done (s.onCase n k f)

/-- Table 15-1: a trigger that reads a bit group with a parity error raises POISON. -/
def State.groupRead (s : State) (n k g : Nat) (t : Trig) : Trig :=
  if (s.case n k).gBad.getLsbD g then .fault none fltParity else t

/-- A BIT trigger (Table 03-6). -/
def trigBit (s : State) (n k sock : Nat) (v : Word) : Trig :=
  let c := s.case n k
  let a := c.opnd_ 0x80
  let b := fld v 0 12
  let g := fld v 0 6
  let badLen := fld v 6 7 == 0 || fld v 6 7 > 64
  match sock with
  | 0x88 => s.groupRead n k (b / 64) (s.bitWrite n k (·.setBit b true))
  | 0x89 => s.groupRead n k (b / 64) (s.bitWrite n k (·.setBit b false))
  | 0x8A => s.groupRead n k (b / 64) (s.bitWrite n k (·.setBit b (!c.bit b)))
  | 0x8B => s.groupRead n k (b / 64) (s.bitWrite n k (·.setBit b (a.getLsbD 0)))
  | 0x8C => s.groupRead n k (b / 64) (s.result n k .bitRes 1 (if c.bit b then 1 else 0))
  | 0x8D => s.groupRead n k g (s.result n k .bitRes 1 (c.group g))
  | 0x8E => s.bitWrite n k (·.setGroup g a)
  | 0x8F =>
    if b < 3072 then .fault none fltIllegal
    else s.bitWrite n k fun c => Casement.touch
      { c with watches := if a.getLsbD 0 then setAdd c.watches b else setDel c.watches b } 0
  | 0x90 => s.result n k .bitRes 1 (BitVec.ofNat 64 (popCount v.toNat 64))
  | 0x91 => s.result n k .bitRes 1 (BitVec.ofNat 64 (clz64 v))
  | 0x92 => s.result n k .bitRes 1 (BitVec.ofNat 64 (ctzFrom v 0 64))
  | 0x93 => s.result n k .bitRes 1 (bswap64 v)
  | 0x94 => s.result n k .bitRes 1 (rev64 v)
  | 0x95 => s.result n k .bitRes 1 (BitVec.ofNat 64 (popCount v.toNat 64 % 2))
  | 0x96 => if badLen then .fault none fltIllegal else s.result n k .bitRes 1 (bitExtract a v)
  | _ => if badLen then .fault none fltIllegal else s.result n k .bitRes 1 (bitInsert (c.port .bitRes).val a v)

/-! ### BRU (R48–R51, R72–R76) -/

/-- Take a transfer: its target issues after two delay slots (R48). -/
def State.transfer (s : State) (n k : Nat) (target : BitVec 48) (call : Bool) : Trig :=
  .done (s.onCase n k fun c => Casement.touch { c with xfer := some { target := target, slots := 2, call := call } } 0)

/-- R72: a target must be a multiple of 4. -/
def badTarget (t : BitVec 48) : Bool := t.toNat % 4 != 0

/-- The signed byte offset of a relative target (R48). -/
def relTarget (pc : BitVec 48) (v : Word) : BitVec 48 := pc + v.setWidth 48

/-- PTR and DEPTH of bru.rsa (Table 03-8). -/
def rsaPtr (r : Word) : Nat := fld r 0 48
def rsaDepth (r : Word) : Nat := fld r 48 16
def mkRsa (ptr depth : Nat) : Word := BitVec.ofNat 64 (ptr % 2 ^ 48 + depth % 2 ^ 16 * 2 ^ 48)

/-- R74–R76: a call; a full hardware stack spills its oldest entry first. -/
def State.callTo (s : State) (n k : Nat) (target : BitVec 48) : Trig :=
  let c := s.case n k
  if badTarget target then .fault none fltAlign
  else if c.rstack.length < 32 then s.transfer n k target true
  else if rsaDepth c.rsa == 0xFFFF then .fault none fltIllegal
  else
    (s.store n k (rsaPtr c.rsa) 8 ((c.rstack.getLastD 0).setWidth 64) false .rsWrite).bind fun s =>
      (s.onCase n k fun c => { c with
        rstack := c.rstack.dropLast, rsa := mkRsa (rsaPtr c.rsa + 8) (rsaDepth c.rsa + 1) }).transfer n k target true

/-- What the refill of the return stack reads, or the outcome it comes to (R74). -/
def State.refillRead (s : State) (n k va : Nat) : (State × RStat × Word) ⊕ Trig :=
  if va % 8 != 0 then .inr (.fault none fltAlign)
  else if (s.case n k).keyDue then .inr (.wait .read [])
  else
    match s.xlateWord n k va .rsRead with
    | .inr t => .inr t
    | .inl x =>
      let s := s.touchTlb n x.tag x.ia
      let who := s.whoIs n k
      let line := x.pa / 64
      let off := x.pa % 64
      let c := s.case n k
      if x.type == .cached then
        let (m, d) := sbOverlay line (s.core n).sbuf (0, 0)
        let want := maskOf off 8
        let held := sbPoison line want (s.core n).sbuf
        if m &&& want == want then .inl (s, if held then .poisoned else .ok, loadVal d off 8 false)
        else
          let s := s.tagScan n false line
          match (s.core n).hit false line with
          | some (key, l) =>
            if l.parBad &&& granTouched want != 0 then
              if l.dirty == 0 then .inr (.wait .trigger [.fill false line (some (x.tag, x.ia))])
              else .inl (s.parityDrop n key l, .poisoned, 0)
            else .inl (s, if l.poison || held then .poisoned else .ok, loadVal (mergeLine l.data d m) off 8 false)
          | none =>
            match c.held.find? (·.1 == line * 64) with
            | some (_, some (st, _)) => .inl (s, st, 0)
            | _ => .inr (.wait .trigger [.fill false line (some (x.tag, x.ia))])
      else if s.storesTo n who line || s.bypassBusy n who line then .inr (.wait .trigger [])
      else if !s.near n x.pa then
        match c.held.find? (·.1 == x.pa) with
        | some (_, some (st, bs)) => .inl (s, st, BitVec.ofNat 64 (leToNat bs))
        | some (_, none) => .inr (.wait .trigger [])
        | none => .inr (.wait .trigger [.held x.pa 8 (some (x.tag, x.ia))])
      else
        let (s, st, bs) := s.readPa x.pa 8 (some n)
        .inl (s, st, BitVec.ofNat 64 (leToNat bs))

/-- bru.ret (R74, R76). -/
def State.ret (s : State) (n k : Nat) : Trig :=
  let c := s.case n k
  match c.rstack with
  | t :: rest =>
    if badTarget t then .fault none fltAlign
    else (s.onCase n k fun c => { c with rstack := rest }).transfer n k t false
  | [] =>
    if rsaDepth c.rsa == 0 then .fault none fltIllegal
    else
      let va := (rsaPtr c.rsa + 2 ^ 48 - 8) % 2 ^ 48
      match s.refillRead n k va with
      | .inr t => t
      | .inl (s, st, w) =>
        match st.taint.cls with
        | some cls => .fault none { cls := cls, va := va }
        | none =>
          let t : BitVec 48 := w.setWidth 48
          if badTarget t then .fault none fltAlign
          else (s.onCase n k fun c => { c with rsa := mkRsa va (rsaDepth c.rsa - 1) }).transfer n k t false

/-- R49, R50: a repeat prefix. -/
def State.repeat_ (s : State) (n k count : Nat) (unint : Bool) : Trig :=
  .done (s.onCase n k fun c => Casement.touch
    (if count == 0 then { c with skip := true }
     else { c with rptc := BitVec.ofNat 64 (count + b2n unint * 2 ^ 32 + 2 ^ 33) }) 0)

/-- bru.push (R73). -/
def State.push (s : State) (n k : Nat) (v : Word) : Trig :=
  let sp := (s.case n k).dsp - 8
  (s.store n k sp.toNat 8 v false).bind fun s => .done (s.onCase n k fun c => { c with dsp := sp })

/-- bru.pop (R73). -/
def State.pop (s : State) (n k : Nat) : Trig :=
  let sp := (s.case n k).dsp
  (s.load n k sp.toNat 8 false .bruRes 4 false).bind fun s => .done (s.onCase n k fun c => { c with dsp := sp + 8 })

/-- A BRU trigger (Table 03-7, R49, R73). -/
def trigBru (s : State) (n k sock : Nat) (v : Word) : Trig :=
  let c := s.case n k
  match sock with
  | 0xC8 => if badTarget (v.setWidth 48) then .fault none fltAlign else s.transfer n k (v.setWidth 48) false
  | 0xC9 => if badTarget (relTarget c.pc v) then .fault none fltAlign else s.transfer n k (relTarget c.pc v) false
  | 0xCA => s.callTo n k (v.setWidth 48)
  | 0xCB => s.callTo n k (relTarget c.pc v)
  | 0xCC => s.ret n k
  | 0xCD => s.repeat_ n k (fld v 0 32) false
  | 0xCE => if v.toNat > 64 then .fault none fltIllegal else s.repeat_ n k v.toNat true
  | 0xD0 => s.push n k v
  | _ => s.pop n k

end Sys2Proof.Machine
end

