-- ==== Sys2Proof/Machine/UnitSys.lean ====
section
/-! DEFINITION. The SYS unit (R77, R91, R202, R215–R217, R240–R243, R258–R259, R286–R292), frames and their port images. -/

namespace Sys2Proof.Machine

/-! ### Pending extent and S2CTL writes (R202, R207, R208) -/

/-- Bits an extent field holds (Table 09-4). -/
def extMask (f : Nat) : Nat := if f == 3 then 0xF3F else 0xFFFFFFFF0000

/-- Bits S2CTL holds (Table 09-6). -/
def s2Mask : Nat := 0x0F1FFFFFFFFFFFFF

/-- sys.ser (R77). -/
def State.serialise (s : State) (n k : Nat) : State := s.onCase n k Casement.serialise

/-- KEY raised without an access: STAGE 0, no extent (R225). -/
def fltKey : Flt := { cls := clsKEY, syn := true }

/-- R208: a write of S2CTL with EN = 1 needs a translation key of the job that covers ROOT. -/
def s2Allowed (c : Casement) (job : BitVec 12) (v : Word) : Bool :=
  let key := c.key (fld v 56 4)
  !bitAt v 52 || (keyType key == 2 && keyJob key == job.toNat && keyCovers key (fld v 16 36 * 65536) 65536)

/-- sys.xwr (R91, R153, R156, R186, R202, R207, R208, R287). -/
def State.xwr (s : State) (n k : Nat) (v : Word) : Trig :=
  let c := s.case n k
  let sel := fld (c.opnd_ 0x483) 0 16
  let put := fun (f : Casement → Casement) => Trig.done (s.onCase n k fun c => (f c).touch 0)
  let masked := fun (m : Nat) => v &&& BitVec.ofNat 64 m
  if sel < 64 then
    if sel / 4 == 15 && c.call.isSome then .fault none fltIllegal
    else put fun c => { c with xpend := c.xpend ++ [(sel, masked (extMask (sel % 4)))] }
  else
    match sel with
    | 0x100 =>
      if fld v 0 3 ≥ 5 then .fault none fltIllegal
      else put fun c => { c with fpc := masked 0x1F07 }
    | 0x101 => if s.rel10 then .fault none fltIllegal else put fun c => { c with rdc := masked 1 }
    | 0x102 =>
      if fld v 16 16 != 0 && fld v 0 16 ≥ fld v 16 16 then .fault none fltIllegal
      else put fun c => { c with asl := masked 0xFFFFFFFF }
    | 0x103 =>
      if bitAt v 52 && c.kBad.getLsbD (fld v 56 4) then .fault none fltParity
      else if s2Allowed c (s.jobOf n (s.whoIs n k)) v then put fun c => { c with xpend := c.xpend ++ [(0x103, masked s2Mask)] }
      else .fault none fltKey
    | 0x104 => put fun c => { c with tfs := masked 0x1FFFFF }
    | 0x105 => put fun c => { c with tfva := masked 0xFFFFFFFFFFFF }
    | 0x106 => put fun c => { c with tfia := masked 0xFFFFFFFFFFFF }
    | _ => .fault none fltIllegal

/-- R207: the last pending write of a selection, if one is held. -/
def Casement.pendingOf (c : Casement) (sel : Nat) : Option Word :=
  (c.xpend.filter (·.1 == sel)).getLast?.map (·.2)

/-- sys.xrd (R156, R202, R207). -/
def State.xrd (s : State) (n k : Nat) : Trig :=
  let c := s.case n k
  let sel := fld (c.opnd_ 0x483) 0 16
  let give := fun (v : Word) => s.result n k .sysRes 2 v
  if sel < 64 then give ((c.pendingOf sel).getD ((c.ext (sel / 4)).field (sel % 4)))
  else
    match sel with
    | 0x100 => if s.reportsOwed n k then .wait .read [] else give c.fpc
    | 0x101 => if s.rel10 then .fault none fltIllegal else give c.rdc
    | 0x102 => give c.asl
    | 0x103 => give ((c.pendingOf 0x103).getD c.s2ctl)
    | 0x104 => give c.tfs
    | 0x105 => give c.tfva
    | 0x106 => give c.tfia
    | _ => .fault none fltIllegal

/-! ### TLB invalidation (R215–R217) -/

/-- R216: queue an invalidation command; a full queue becomes one ALL of the widest scope. -/
def State.queueTlbi (s : State) (n : Nat) (who : Option Nat) (v : Word) : State :=
  let c := s.core n
  let e : Tlbi := { num := c.tlbiNum, kind := fld v 0 2, scope := fld v 2 2, tag := fld v 48 16, ia := fld v 16 32 * 65536, owners := [who] }
  let c := { c with tlbiNum := c.tlbiNum + 1 }
  if c.tlbiQ.length < 8 then s.setCore n { c with tlbiQ := c.tlbiQ ++ [e] }
  else
    let all := c.tlbiQ ++ [e]
    let nums := all.map (·.num)
    let m : Tlbi := {
      num := c.tlbiNum, kind := 2, scope := all.foldl (fun a x => max a x.scope) 0, tag := 0, ia := 0
      absorbed := nums ++ (all.map (·.absorbed)).flatten, owners := (all.map (·.owners)).flatten }
    let s := s.setCore n { c with tlbiNum := c.tlbiNum + 1, tlbiQ := [m] }
    s.mapCtx n fun x => { x with pend := x.pend.map fun p : Pending => match p.await with
      | .barrier l => if l.any nums.contains then { p with await := .barrier (m.num :: l.filter fun i => !nums.contains i) } else p
      | _ => p }

/-- sys.tlbi with the command `kind` (Table 09-9). -/
def State.tlbi (s : State) (n k : Nat) (v : Word) : Trig :=
  if fld v 0 2 == 3 || fld v 2 2 == 3 then .fault none fltIllegal
  else .done (s.queueTlbi n (s.whoIs n k) v)

/-- R217: the commands a barrier of this task waits for. -/
def Core.outstanding (c : Core) (who : Option Nat) : List Nat :=
  (c.tlbiQ.filterMap fun e => if e.owners.contains who then some e.num else none) ++
    c.tlbiOpen.filterMap fun (i, o, _) => if o.contains who then some i else none

/-- sys.tlbsync (R217). -/
def State.tlbsync (s : State) (n k : Nat) : Trig :=
  let cmds := (s.core n).outstanding (s.whoIs n k)
  let p : Pending := { port := .sysRes, due := 4, id := 0, data := { val := 1 }, await := if cmds.isEmpty then .ready else .barrier cmds }
  .done (s.onCase n k fun c => c.addPending p)

/-- Whether a slot falls under a command. -/
def Tlbi.hits (e : Tlbi) (t : TlbEntry) : Bool :=
  match e.kind with
  | 0 => t.tag == e.tag && t.ia ≤ e.ia && e.ia < t.ia + t.size
  | 1 => t.tag == e.tag
  | _ => true

/-- Whether a core lies in the scope of a command of core n. -/
def Tlbi.reaches (e : Tlbi) (n m : Nat) : Bool :=
  match e.scope with | 0 => m == n | 1 => clusterOf m == clusterOf n | _ => true

/-- R217: whether some write of a store-buffer entry that has left has not arrived: it is on the mesh, or over a link and not
answered. -/
def State.travels (s : State) (n eid : Nat) : Bool :=
  s.packets.any (·.ret == .store n eid) || s.addends.any (·.ret == .store n eid) || s.refused.any (·.ret == .store n eid) ||
    s.links.any fun (_, l) => l.reqs.any (·.ret == .store n eid)

/-- The store-buffer entry has not arrived at its destination. -/
def State.entryOpen (s : State) (n : Nat) (e : SbEntry) : Bool := !e.leaving || s.travels n e.eid

/-- R217: whether a piece of a descriptor has not ended: it waits to be done, or an access of it is outstanding. -/
def XItem.pieceOpen (i : XItem) (p : XPiece) : Bool :=
  i.todo.any (·.id == p.id) || i.open_.any fun o => p.off ≤ o % 2 ^ 32 && o % 2 ^ 32 < p.off + p.len

/-- The pieces of the descriptors of core n that have not ended. -/
def State.openPieces (s : State) (n : Nat) : List XPiece :=
  ((s.xowners n).map fun (_, t) => (t.map fun (_, q) =>
    (q.items.map fun i => (i.todo ++ i.begun).filter i.pieceOpen).flatten).flatten).flatten

/-- R217, R242: an eviction that a clean adopted has not reached memory. -/
def State.evictOpen (s : State) (n : Nat) (v : Evict) : Bool :=
  !v.left || s.packets.any (·.ret == .evict n v.addr) || s.links.any fun (_, l) => l.reqs.any (·.ret == .evict n v.addr)

/-- R217: the accesses in flight from cores in the scope that were translated with a removed entry: by number. A load is in
flight until its data has come, a store or addend until it has arrived, an access over a link until it is answered. -/
def State.openAccesses (s : State) (n : Nat) (removed : List TlbEntry) (e : Tlbi) : List Nat :=
  let hit := fun (t : Option (Nat × Nat)) => match t with
    | some (tag, ia) => removed.any (·.covers tag ia)
    | none => false
  let from_ := fun (a : Agent) => match a.core? with | some m => e.reaches n m | none => false
  let ofCore := fun (m : Nat) (c : Core) =>
    if !e.reaches n m then []
    else
      (c.sbuf.filterMap fun x => if (hit x.trans || x.also.any fun t => hit (some t)) && s.entryOpen m x then some x.eid else none) ++
      ((c.evicts.map fun v => if s.evictOpen m v then v.adopted.filterMap fun x => if hit x.trans then some x.eid else none
        else []).flatten) ++
      ((c.dcache ++ c.icache).filterMap fun (_, l) => if l.filling && hit l.trans then some l.fid else none) ++
      ((s.openPieces m).filterMap fun p => if hit p.tsrc || hit p.tdst then some p.id else none) ++
      ((c.cases.map fun (_, x) => x.pend.filterMap fun p =>
          if p.await != .ready && hit p.trans then some p.id else none).flatten) ++
      (c.tasks.map fun (_, x) => x.image.pend.filterMap fun p =>
          if p.await != .ready && hit p.trans then some p.id else none).flatten
  let packet := fun (p : Packet) => if from_ p.src && hit p.trans then some p.id else none
  let addend := fun (a : Addend) => if from_ a.agent && hit a.trans then some a.birth else none
  (s.cores.map fun (m, c) => ofCore m c).flatten ++ s.packets.filterMap packet ++
    (s.ports.map fun (_, p) => (p.queue.filter (·.op.reads)).filterMap packet).flatten ++
    s.addends.filterMap addend ++ s.refused.filterMap addend ++
    (s.links.map fun (_, l) => l.reqs.filterMap fun r =>
      if e.reaches n r.msg.src.toNat && hit r.trans then some r.id else none).flatten

/-- Whether the access with a number is still in flight. -/
def State.inFlight (s : State) (i : Nat) : Bool :=
  (s.cores.any fun (m, c) => c.sbuf.any (fun e => e.eid == i && s.entryOpen m e) ||
    c.evicts.any (fun v => v.adopted.any (·.eid == i) && s.evictOpen m v) ||
    (c.dcache ++ c.icache).any (fun (_, l) => l.filling && l.fid == i) || (s.openPieces m).any (·.id == i) ||
    c.cases.any (fun (_, x) => x.pend.any fun p => p.await != .ready && p.id == i) ||
    c.tasks.any fun (_, x) => x.image.pend.any fun p => p.await != .ready && p.id == i) ||
  s.packets.any (·.id == i) || s.ports.any (fun (_, p) => p.queue.any fun q => q.id == i && q.op.reads) ||
  s.responses.any (fun r => r.num == i && !r.data.isEmpty) ||
  s.addends.any (·.birth == i) || s.refused.any (·.birth == i) ||
  s.links.any fun (_, l) => l.reqs.any (·.id == i)

/-- Remove a finished command from every barrier. -/
def State.barrierDone (s : State) (n num : Nat) : State :=
  s.mapCtx n fun x =>
    if x.pend.any fun p => match p.await with | .barrier l => l.contains num | _ => false then
      { x with pend := x.pend.map fun p : Pending => match p.await with
        | .barrier l => { p with await := if (l.filter (· != num)).isEmpty then .ready else .barrier (l.filter (· != num)) }
        | _ => p }
    else x

/-- R217: close the commands whose translated accesses have all arrived. -/
def State.tlbiSweep (s : State) (n : Nat) : State :=
  (s.core n).tlbiOpen.foldl (fun s (num, _, ids) =>
    if ids.any s.inFlight then s
    else (s.onCore n fun c => { c with tlbiOpen := c.tlbiOpen.filter (·.1 != num) }).barrierDone n num) s

/-- R217: a walk that began before a removal fills no removed translation: those the command may touch begin again. -/
def State.walkAgain (s : State) (cl : Nat) (e : Tlbi) : State :=
  ((s.cluster cl).walker.filter fun j => e.kind == 2 || j.tag == e.tag).foldl (fun s j => s.walkBegin cl j) s

/-- R215, R216: the head command of the queue removes its entries. -/
def State.tlbiRun (s : State) (n : Nat) : State :=
  match (s.core n).tlbiQ with
  | [] => s
  | e :: rest =>
    let ofCores := (s.cores.map fun (m, c) => if e.reaches n m then c.tlb.filter e.hits else []).flatten
    let ofClusters := (s.clusters.map fun (c, x) =>
      if e.scope == 2 || (e.scope == 1 && c == clusterOf n) then x.tlb.filter e.hits else []).flatten
    let ids := s.openAccesses n (ofCores ++ ofClusters) e
    let s := { s with
      cores := tabMap (fun m c => if e.reaches n m then { c with tlb := c.tlb.filter fun t => !e.hits t } else c) s.cores
      clusters := tabMap (fun c x => if e.scope == 2 || (e.scope == 1 && c == clusterOf n)
        then { x with tlb := x.tlb.filter fun t => !e.hits t } else x) s.clusters }
    let s := s.onCore n fun c => { c with tlbiQ := rest }
    let s := s.clusters.foldl (fun s (c, _) => if e.scope == 2 || c == clusterOf n then s.walkAgain c e else s) s
    if ids.isEmpty then s.barrierDone n e.num
    else s.onCore n fun c => { c with tlbiOpen := c.tlbiOpen ++ [(e.num, e.owners, ids)] }

/-! ### Cache maintenance (R240–R243) -/

/-- R242, R243: the clean of a present line: its dirty granules become a write-back of the task. False: the buffer is full. -/
def State.cleanLine (s : State) (n k key : Nat) (l : Line) (va : Word) (trans : Option (Nat × Nat)) : State × Bool :=
  if l.dirty == 0 then (s, true)
  else if (s.core n).sbuf.length ≥ 16 then (s, false)
  else
    let (s, bad) := s.wbParity n l
    let (eid, s) := s.fresh
    let who := s.whoIs n k
    let e : SbEntry := {
      eid := eid, task := who, order := (s.case n k).stores, va := va, line := l.addr, mask := granMask l.dirty, data := l.data
      cacheable := false, device := false, clean := true, poison := bad, job := s.jobOf n who, trans := trans }
    let s := s.onCore n fun c => { c.putLine false key { l with dirty := 0 } with sbuf := c.sbuf ++ [e] }
    (s.onCase n k fun c => { c with stores := c.stores + 1 }, true)

/-- R242: a clean adopts an eviction write-back in progress. -/
def State.adoptEvict (s : State) (n k line : Nat) (va : Word) (trans : Option (Nat × Nat)) : State :=
  if (s.core n).evicts.any fun v => v.addr == line then
    let (eid, s) := s.fresh
    let who := s.whoIs n k
    let e : SbEntry := {
      eid := eid, task := who, order := (s.case n k).stores, va := va, line := line, cacheable := false, device := false
      clean := true, job := s.jobOf n who, trans := trans }
    (s.onCore n fun c => { c with evicts := c.evicts.map fun v : Evict =>
      if v.addr == line then { v with adopted := v.adopted ++ [e] } else v }).onCase n k
        fun c => { c with stores := c.stores + 1 }
  else s

/-- R242: an operation on the data-cache line in way `key`, or on a line not present. -/
def State.cmoData (s : State) (n k op line : Nat) (va : Word) (trans : Option (Nat × Nat)) : Trig :=
  match (s.core n).hit false line with
  | none => .done (if op == 1 then s else s.adoptEvict n k line va trans)
  | some (key, l) =>
    match op with
    | 0 => match s.cleanLine n k key l va trans with
      | (_, false) => .wait .trigger []
      | (s, true) => .done s
    | 1 => .done (s.onCore n fun c => c.dropLine false key)
    | _ => match s.cleanLine n k key l va trans with
      | (_, false) => .wait .trigger []
      | (s, true) => .done (s.onCore n fun c => c.dropLine false key)

/-- R243: a store of the task that has neither entered the cache nor left for memory. -/
def SbEntry.cmoWaits (e : SbEntry) (who : Option Nat) : Bool := e.task == who && e.addend.isNone && !e.clean && !e.leaving

/-- sys.cmo (R240–R243). -/
def State.cmo (s : State) (n k : Nat) (v : Word) : Trig :=
  let op := fld v 32 2
  let ic := bitAt v 34
  let who := s.whoIs n k
  if op == 3 then .fault none fltIllegal
  else if bitAt v 35 then
    let set := fld v 0 7
    let key := set * 4 + fld v 8 2
    if ic && set > 63 then .fault none fltIllegal
    else if (s.core n).sbuf.any (·.cmoWaits who) then .wait .trigger []
    else
      let s := s.tagScan n ic set
      match tabFind ((s.core n).lines ic) key with
      | none => .done s
      | some l =>
        if l.filling then .wait .trigger []
        else if ic then .done (if op == 0 then s else s.onCore n fun c => c.dropLine true key)
        else s.cmoData n k (if op == 1 then 2 else op) l.addr 0 none
  else
    let va := (s.case n k).short (fld v 0 32)
    if (s.case n k).keyDue then .wait .read []
    else
    match s.xlateWord n k va (if op == 0 then .read else .write) true with
    | .inr t => t
    | .inl x =>
      let s := s.touchTlb n x.tag x.ia
      let line := x.pa / 64
      if x.type == .device then .done s
      else if (s.core n).sbuf.any fun e => e.cmoWaits who && e.line == line then .wait .trigger []
      else
      let s := s.tagScan n ic line
      if (s.core n).filling ic line then .wait .trigger []
      else if ic then
        match (s.core n).hit true line with
        | none => .done s
        | some (key, _) => .done (if op == 0 then s else s.onCore n fun c => c.dropLine true key)
      else s.cmoData n k op line (BitVec.ofNat 64 va) (some (x.tag, x.ia))

/-! ### Wickets (R284–R289) -/

/-- R287: a register holds a lent key: lent to it, or k15 during a call. -/
def Casement.lentKey (c : Casement) (i : Nat) : Bool := c.lent.getLsbD i || (i == 15 && c.call.isSome)

/-- sys.wkt (R286): step 1's serialisation stands even when step 2 raises. It reads k15, after a write of a key that is due
(R281). -/
def State.wkt (s : State) (n k len : Nat) (v : Word) : Trig :=
  let s1 := s.serialise n k
  let c := s1.case n k
  let w := fld v 0 4
  if c.call.isSome then .fault (some (State.serialise · n k)) fltIllegal
  else
    match tabFind (s1.core n).wickets w with
    | none => .fault (some (State.serialise · n k)) fltKey
    | some wk =>
      if c.keyDue then .wait .read []
      else if c.kBad.getLsbD 15 then .fault (some (State.serialise · n k)) fltParity
      else .done (s1.onCase n k fun c =>
        let c := { c with call := some { wicket := w, at_ := c.pc, ret := c.pc + BitVec.ofNat 48 len, k15 := c.key 15, x15 := c.ext 15 } }
        let c := c.setKey 15 wk.key false
        { c with x := tabSet {} c.x 15 wk.ext, pc := wk.entry })

/-- sys.wret with v[0] = 0 (R288). -/
def State.wicketReturn (s : State) (n k : Nat) : Trig :=
  match (s.case n k).call with
  | none => .fault none fltIllegal
  | some w => if (s.case n k).keyDue then .wait .read [] else .done ((s.serialise n k).onCase n k fun c => { c.endCall w with pc := w.ret })

/-! ### Frames (R290–R293) -/

/-- Frame words 0x030–0x060: FLG RPTC GSEL BNK TSTART DSP bru.rsa (Table 12-7). -/
def frameRegs : List Nat := [0x53, 0xC1, 0xC0, 0x480, 0x285, 0xC2, 0xC3]

/-- The port image of a casement (R290, Table 12-7): pending results with their remaining delays. -/
def Casement.image (c : Casement) : PortImage :=
  { shown := c.shown, opnd := c.opnd, skip := c.skip
    pend := c.pend.map fun e => { e with due := e.due - c.icount }
    xfer := match c.xfer with | some x => if x.slots == 0 then none else some x | none => none }

/-- PTR, DEPTH and LIMIT of TSBP (Table 12-6). -/
def tsbPtr (w : Word) : Nat := fld w 9 39
def tsbDepth (w : Word) : Nat := fld w 48 8
def tsbLimit (w : Word) : Nat := fld w 56 8
def mkTsbp (ptr depth limit : Nat) : Word :=
  BitVec.ofNat 64 (ptr % 2 ^ 39 * 2 ^ 9 + depth % 256 * 2 ^ 48 + limit % 256 * 2 ^ 56)

/-- CAUSE (Table 12-8). -/
def causeOf (r : Raised) : Word :=
  BitVec.ofNat 64 (r.cls.toNat + b2n r.async * 2 ^ 8 + b2n r.inCall * 2 ^ 9 + (if r.inCall then r.wicket % 16 else 0) * 2 ^ 10)

/-- The 8-byte words of the port-image region, 40 of them: word 0 is the frame's number, the others are free values (the
layout is not architectural). -/
def portWords (s : State) (id : Nat) : List Word :=
  BitVec.ofNat 64 id :: (List.range 39).map fun i => Config.freeWord (s.free + i)

/-- Words 0x008–0x1FF of a frame (Table 12-7). -/
def frameWords (s : State) (n k : Nat) (r : Raised) (ws : List Word) : List Word :=
  let c := s.case n k
  [c.pc.setWidth 64, causeOf r, c.tfs, c.tfva, c.tfia] ++ frameRegs.map (s.readReg n k) ++ [0, 0, 0] ++
    (List.range 8).map c.dreg ++ ws

/-- R291: the number and the port-image words of the frame casement k writes, chosen once. -/
def State.frameMark (s : State) (n k : Nat) : State × Nat × List Word :=
  match (s.case n k).frame with
  | some (id, ws) => (s, id, ws)
  | none =>
    let (id, s) := s.fresh
    ({ s with free := s.free + 39 }, id, portWords s id)

/-- Bytes of a list of words. -/
def wordsBytes (l : List Word) : List Byte := (l.map fun w => natToLe w.toNat 8).flatten

/-- Cut a list of bytes into the parts a frame's lines hold: bytes from `a`, each part inside one 64-byte line. -/
def lineParts (a : Nat) : Nat → List Byte → List (Nat × List Byte)
  | 0, _ => []
  | fuel + 1, bs =>
    if bs.isEmpty then []
    else
      let m := 64 - a % 64
      (a, bs.take m) :: lineParts (a + m) fuel (bs.drop m)

/-- Read or write the parts of a frame at physical addresses: local ones at once, remote ones through `held`. `none`: some
part has not come; the state has asked for it. -/
def State.frameIo (s : State) (n k : Nat) (write : Bool) (trans : Option (Nat × Nat)) :
    List (Nat × List Byte) → State × Option (List (RStat × List Byte))
  | [] => (s, some [])
  | (pa, bs) :: t =>
    let who := s.whoIs n k
    let (s, r) : State × Option (RStat × List Byte) :=
      if s.near n pa then
        if write then
          match s.writePa pa bs false (some n) with
          | (s, st) => (s, some (st, []))
        else
          match s.readPa pa bs.length (some n) with
          | (s, st, d) => (s, some (st, d))
      else
        match (s.case n k).held.find? (·.1 == pa) with
        | some (_, some r) => (s, some r)
        | some (_, none) => (s, none)
        | none =>
          let m := if write then putMsg (s.jobOf n who) bs false else getMsg (s.jobOf n who) bs.length
          match s.reach n pa m (.held n who pa) trans with
          | (s, none) => (s.onCase n k fun c => { c with held := c.held ++ [(pa, none)] }, none)
          | (s, some st) => (s.onCase n k fun c => { c with held := c.held ++ [(pa, some (st, []))] }, some (st, []))
    match s.frameIo n k write trans t with
    | (s, some l) => (s, r.map (· :: l))
    | (s, none) => (s, none)

/-- Every part ended well. -/
def allOk (l : List (RStat × List Byte)) : Bool := l.all fun r => r.1 == .ok

/-- Some of d0–d7 or of the other registers a frame holds has a parity error: step 3 of R291 would write poison. -/
def Casement.frameBad (c : Casement) : Bool := c.otherBad || (c.dBad &&& 0xFF) != 0

/-- R246: the task's earlier bypassing accesses to the lines of a frame have not all been performed. -/
def State.frameBusy (s : State) (n k pa : Nat) : Bool :=
  (keysFrom (pa / 64) 8).any fun l => s.bypassBusy n (s.whoIs n k) l

/-- R291: frame entry of the raised fault of casement k. It waits for outstanding data, for the task's earlier bypassing
accesses to the frame's lines (R246), and for parts of the frame that travel over a link; then it ends in the handler or in
lockup. -/
def State.enterFrame (s : State) (n k : Nat) (r : Raised) : State :=
  let c := s.case n k
  if tsbDepth c.tsbp == tsbLimit c.tsbp then s.lockup n 1
  else if c.pend.any fun e => e.await != .ready then s
  else
    let frame := tsbPtr c.tsbp * 512
    match s.xlateNow n (.word k) c frame .read with
    | (s, .held) => s
    | (s, .fault _) => s.lockup n 2
    | (s, .ok xr) =>
      match s.xlateNow n (.word k) c frame .write with
      | (s, .held) => s
      | (s, .fault _) => s.lockup n 2
      | (s, .ok xw) =>
        if s.frameBusy n k xr.pa then s
        else
        match s.frameIo n k false (some (xr.tag, xr.ia)) [(xr.pa, natToLe 0 8)] with
        | (s, none) => s
        | (s, some l) =>
          let handler := leToNat ((l.map (·.2)).flatten)
          if !allOk l || handler % 4 != 0 || c.frameBad then s.lockup n 2
          else
            let (s, id, ws) := s.frameMark n k
            match s.frameIo n k true (some (xw.tag, xw.ia)) (lineParts (xr.pa + 8) 16 (wordsBytes (frameWords s n k r ws))) with
            | (s, none) => s.onCase n k fun c => { c with frame := some (id, ws) }
            | (s, some l) =>
              if !allOk l then s.lockup n 2
              else
                let s := { s with frames := tabPut s.frames id { c.image with check := ws } }
                s.onCase n k fun c =>
                  let c := (c.setD 0 (BitVec.ofNat 64 frame)).setD 1 (causeOf r)
                  Casement.touch { c with
                    frame := none, rptc := 0, tstart := 0, shown := [], opnd := [], pend := [], xfer := none, skip := false, held := []
                    raised := none, waiting := none, first := true, pc := BitVec.ofNat 48 handler
                    tsbp := mkTsbp (tsbPtr c.tsbp + 1) (tsbDepth c.tsbp + 1) (tsbLimit c.tsbp) } 0

/-- R292: the frame return of casement k. While it waits, switch events are held. DESIGN CHOICE (log entry 136): the contributions
of results of the handler that are still pending are dropped with them. -/
def State.frameReturn (s : State) (n k : Nat) : Trig :=
  let c := s.case n k
  let wait := Trig.pause (State.onCase · n k fun c => { c with frameRet := true })
  if c.call.isSome || tsbDepth c.tsbp == 0 then .fault none fltIllegal
  else if !s.storesDone n k then wait []
  else
    let s1 := s.serialise n k
    let frame := ((tsbPtr c.tsbp + 2 ^ 39 - 1) % 2 ^ 39) * 512
    match s1.xlateWord n k frame .read with
    | .inr (.fault _ _) => .stop (s1.lockup n 3)
    | .inr (.wait _ reqs) => wait reqs
    | .inr _ => wait []
    | .inl x =>
      let s := s1.touchTlb n x.tag x.ia
      let parts := lineParts (x.pa + 8) 16 (natToLe 0 504)
      let reqs := if s.near n x.pa then [] else
        parts.filterMap fun (pa, bs) => if c.held.any (·.1 == pa) then none else some (Req.held pa bs.length (some (x.tag, x.ia)))
      if !reqs.isEmpty then wait reqs
      else
        match s.frameIo n k false (some (x.tag, x.ia)) parts with
        | (_, none) => wait []
        | (s, some l) =>
          if !allOk l then .stop (s.lockup n 3)
          else
            let bs := (l.map (·.2)).flatten
            let word := fun (off : Nat) => BitVec.ofNat 64 (leToNat ((bs.drop (off - 8)).take 8))
            let id := (word 0x0C0).toNat
            let check := (List.range 40).map fun i => word (0x0C0 + 8 * i)
            match tabFind s.frames id with
            | none => .fault none fltIllegal
            | some img =>
              if img.check != check then .fault none fltIllegal
              else if fld (word 8) 0 2 != 0 then .fault none fltAlign
              else
                let s := (frameRegs.zipIdx).foldl (fun s (r, i) => s.writeSock n k r (word (0x30 + 8 * i))) s
                let s := (List.range 8).foldl (fun s i => s.writeSock n k i (word (0x80 + 8 * i))) s
                .done (s.onCase n k fun c => Casement.touch { c with
                  shown := img.shown, opnd := img.opnd, xfer := img.xfer, skip := img.skip
                  pend := img.pend.map fun e => { e with due := c.icount + 1 + e.due }
                  pc := (word 8).setWidth 48
                  tsbp := mkTsbp (tsbPtr c.tsbp + 2 ^ 39 - 1) (tsbDepth c.tsbp - 1) (tsbLimit c.tsbp) } 0)

/-! ### sys.wait and sys.yield (R258, R259, R274) -/

/-- R274: the keeper's handler ends: VALID clears, the incoming task runs if it has been filled, or the core selects its next
task; wakes held while the keeper ran go with the first word of the task that runs, or at once where none does (R262). -/
def State.keeperEnd (s : State) (n : Nat) : State :=
  let t := fld (s.core n).scause 16 6
  let was := (s.core n).isIdle
  let s := s.onCore n fun c => { c with scause := c.scause &&& ~~~(BitVec.ofNat 64 (2 ^ 22)), running := none }
  let s := match s.task n t with
    | some { st := .ready, loc := some k, .. } => s.runTask n t k
    | _ => s.selectNext n
  (s.releaseIdle n).settle was n

/-- The present word counts as the task's last issue (R273). -/
def State.issuesNow (s : State) (n t : Nat) : State := s.onTask n t fun x => { x with lastIssue := (s.core n).cycle + 1 }

/-- sys.wait (R258). It reads the group of the event bits (Table 15-1). The keeper's ends its handler once the word has issued (R274, `State.commit`). -/
def State.sysWait (s : State) (n k : Nat) (v : Word) : Trig :=
  if k == 8 then .done s
  else
    let c := s.case n k
    let mask := BitVec.ofNat 8 (fld v 0 8) ||| 0x20
    if c.gBad.getLsbD 47 then .fault none fltParity
    else if (List.range 6).any fun j => mask.getLsbD j && c.bit (3064 + j) then .done s
    else if (mask.getLsbD 6 && c.bit 3070) || (mask.getLsbD 7 && c.bit 3071) then .done s
    else
      match s.whoIs n k with
      | none => .done s
      | some t =>
        let was := (s.core n).isIdle
        .done ((((s.issuesNow n t).onTask n t fun x => { x with st := .waiting, mask := mask }).leaveSlot n).settle was n)

/-- sys.yield (R259). A task woken and not yet run, for one whose hardware fill is under way, is READY too: it runs next. -/
def State.sysYield (s : State) (n k : Nat) : Trig :=
  match s.whoIs n k with
  | none => .done s
  | some t =>
    let c := s.core n
    let s1 := ((s.issuesNow n t).onTask n t fun x => { x with st := .ready }).onCore n fun c => { c with readyQ := c.readyQ ++ [t] }
    if !c.readyQ.isEmpty then .done (s1.leaveSlot n)
    else if c.woken.isEmpty && c.taskFill.isNone then .done s
    else .done (((s1.onCore n fun c => { c with running := none }).releaseHeld n).kick n)

/-- A SYS trigger (Table 02-11). -/
def trigSys (s : State) (n k sock len : Nat) (v : Word) : Trig :=
  match sock with
  | 0x490 => .done (s.serialise n k)
  | 0x491 => s.tlbi n k v
  | 0x492 => s.tlbsync n k
  | 0x493 => s.cmo n k v
  | 0x494 => s.wkt n k len v
  | 0x495 => if v.getLsbD 0 then s.frameReturn n k else s.wicketReturn n k
  | 0x496 => s.sysWait n k v
  | 0x497 => s.sysYield n k
  | 0x498 => s.xwr n k v
  | _ => s.xrd n k

end Sys2Proof.Machine
end

