-- ==== Sys2Proof/Machine/UnitDfm.lean ====
section
/-! DEFINITION. The dual-fetch MAC (R78–R83, R332, R333). -/

namespace Sys2Proof.Machine

/-- The generator registers of a casement: xa xs xb xl ya ys yb yl at 0–7 (Table 03-11). -/
def Casement.genReg (c : Casement) (i : Nat) : BitVec 32 := tabGet 0 c.gen i

/-- R79: the next address of a generator for a step. DESIGN CHOICE (log entry 110): base + length is compared as a number and
does not wrap at 2³². -/
def genNext (a step b l : BitVec 32) : BitVec 32 :=
  let a := a + step
  if l == 0 then a
  else
    let a := if a.toNat ≥ b.toNat + l.toNat then a - l else a
    if a.toNat < b.toNat then a + l else a

/-- TAPS, WC, WB and OA of dfm.fmt (Table 03-12). -/
def dfmTaps (f : Word) : Nat := fld f 8 8
def dfmWc (f : Word) : Nat := fld f 16 8
def dfmOa (f : Word) : Nat := fld f 32 32

/-- R78, R81: translate a DFM access and check where it lands: bank offsets [lo, hi) of the core's own bank. -/
def State.dfmXlate (s : State) (n k va lo hi : Nat) (acc : Acc) : Xl ⊕ Trig :=
  if va % 8 != 0 then .inr (.fault none fltAlign)
  else
    match s.xlateWord n k va acc with
    | .inr t => .inr t
    | .inl x =>
      match s.place x.pa with
      | .bank b off =>
        if b == n && lo ≤ off && off < hi && !s.inSpill n off 8 then
          if s.bypassBusy n (s.whoIs n k) (x.pa / 64) then .inr (.wait .trigger []) else .inl x
        else .inr (.fault (some (State.touchTlb · n x.tag x.ia)) (fltLeaf clsEXTENT x acc va))
      | _ => .inr (.fault (some (State.touchTlb · n x.tag x.ia)) (fltLeaf clsEXTENT x acc va))

/-- R213: a later access of the trigger that faults leaves the TLBs as the earlier ones did. -/
def Trig.after (t : Trig) (g : State → State) : Trig :=
  match t with
  | .fault keep f => .fault (some fun s => (keep.getD id) (g s)) f
  | t => t

/-- R82: the line buffers of a generator after a fetch of a row. -/
def useRow (rows : List RowBuf) (r : RowBuf) : List RowBuf := (r :: rows.filter (·.row != r.row)).take 2

/-- R82: fetch 8 bytes for a generator, X or Y: from its line buffers, else its bank's port reads the row. Answers whether the
row was poisoned, and the bytes. -/
def State.dfmRead (s : State) (n : Nat) (y : Bool) (pa : Nat) : State × Bool × List Byte :=
  let rows := if y then (s.core n).dfmY else (s.core n).dfmX
  let (s, r) : State × RowBuf := match rows.find? (·.row == pa / 64) with
    | some r => (s, r)
    | none =>
      let (s, st, bs) := s.readPa (pa / 64 * 64) 64 (some n)
      (s, { row := pa / 64, data := lineOf bs, bad := st != .ok })
  (s.onCore n fun c => if y then { c with dfmY := useRow c.dfmY r } else { c with dfmX := useRow c.dfmX r },
    r.bad, lineBytes r.data (pa % 64) 8)

/-- One lane of a multiply-accumulate (Table 03-14): op 0 mac, 1 msb, 2 mul. -/
def dfmFma (f : FFmt) (rm op acc x y : Nat) : FRes :=
  if op == 2 then fmul f rm x y else ffma f rm (op == 1) false x y acc

/-- A W16 code as FP32. -/
def w16to32 (c : Nat) : Nat := (convert (.flt .w16) (.flt .fp32) 0 c).code

/-- One lane of FMT 2. -/
def dfmLane16 (rm op acc x0 y0 x1 y1 : Nat) : FRes :=
  let p := fmul .fp32 rm (w16to32 x0) (w16to32 y0)
  let q := fmul .fp32 rm (w16to32 x1) (w16to32 y1)
  let pq := p.c.join q.c
  if op == 2 then
    let r := fadd .fp32 rm p.code q.code
    { r with c := pq.join r.c }
  else
    let add := if op == 1 then fsub .fp32 rm else fadd .fp32 rm
    let a := add acc p.code
    let b := add a.code q.code
    { code := b.code, c := (pq.join a.c).join b.c }

/-- The accumulator after a trigger, and its contributions (R80, Table 03-14). -/
def dfmOp (fmt rm op acc x y : Nat) : Nat × Contrib :=
  match fmt with
  | 0 => let r := dfmFma .fp64 rm op acc x y; (r.code, r.c)
  | 1 =>
    let a := dfmFma .fp32 rm op (elemOf acc 32 0) (elemOf x 32 0) (elemOf y 32 0)
    let b := dfmFma .fp32 rm op (elemOf acc 32 1) (elemOf x 32 1) (elemOf y 32 1)
    (packElems 32 [a.code, b.code], a.c.join b.c)
  | _ =>
    let a := dfmLane16 rm op (elemOf acc 32 0) (elemOf x 16 0) (elemOf y 16 0) (elemOf x 16 1) (elemOf y 16 1)
    let b := dfmLane16 rm op (elemOf acc 32 1) (elemOf x 16 2) (elemOf y 16 2) (elemOf x 16 3) (elemOf y 16 3)
    (packElems 32 [a.code, b.code], a.c.join b.c)

/-- The poison of an accumulator after an operation on it (R332, R333). -/
def accTaint (bad fetchBad : Bool) (old : Taint) (op : Nat) : Taint :=
  if bad then .residue else if fetchBad then .poison else if op == 2 then .clean else old

/-- A fetching trigger (R78–R82): op 0 mac, 1 msb, 2 mul. DESIGN CHOICE (log entry 134): the write-back at the end of a window,
due within 4 core cycles, is performed with the trigger. -/
def State.dfmFetch (s : State) (n k op : Nat) : Trig :=
  let c := s.case n k
  let f := c.dfmFmt
  let taps := dfmTaps f
  let wc := dfmWc f
  if fld f 0 2 == 3 then .fault none fltIllegal
  else if taps > 0 && wc ≥ taps then .fault none fltIllegal
  else if c.keyDue then .wait .read []
  else
    let xva := c.short (c.genReg 0).toNat
    let yva := c.short (c.genReg 4).toNat
    let ends := taps > 0 && wc + 1 == taps
    let wb := ends && bitAt f 2
    let ova := c.short (dfmOa f)
    match s.dfmXlate n k xva 0 0x20000 .read with
    | .inr t => t
    | .inl x =>
      let gx := fun (s : State) => s.touchTlb n x.tag x.ia
      match s.dfmXlate n k yva 0x20000 0x40000 .read with
      | .inr t => t.after gx
      | .inl y =>
        let gy := fun (s : State) => (gx s).touchTlb n y.tag y.ia
        match (if wb then s.dfmXlate n k ova 0 0x40000 .write else .inl x) with
        | .inr t => t.after gy
        | .inl o =>
          let (s, badX, bx) := s.dfmRead n false x.pa
          let (s, badY, by_) := s.dfmRead n true y.pa
          let s := (gy s).touchTlb n o.tag o.ia
          let start := taps > 0 && wc == 0
          let acc : PortVal := if start then {} else c.acc
          let (v, contrib) := dfmOp (fld f 0 2) c.rm op acc.val.toNat (leToNat bx) (leToNat by_)
          let bad := (s.core n).badDfm
          let s := if bad then s.mismatch n 1 else s
          let taint := accTaint bad (badX || badY) acc.taint op
          let res : PortVal := { val := BitVec.ofNat 64 v, taint := taint }
          let s := if wb then (s.writePa o.pa (natToLe v 8) (taint != .clean) (some n)).1 else s
          let step := if taps > 0 && wc + 1 == taps then BitVec.ofInt 32 ((c.genReg 1).toInt * (2 - (taps : Int))) else c.genReg 1
          .done (s.onCase n k fun c =>
            let c := { c with
              acc := res
              gen := tabSet 0 (tabSet 0 c.gen 0 (genNext (c.genReg 0) step (c.genReg 2) (c.genReg 3)))
                4 (genNext (c.genReg 4) (c.genReg 5) (c.genReg 6) (c.genReg 7))
              dfmFmt := if taps == 0 then f
                else setFld (if wb then setFld f 32 32 (dfmOa f + 8) else f) 16 8 ((wc + 1) % taps) }
            c.addPending { port := .dfmAcc, due := 4, id := 0, data := res, contrib := contrib })

/-- dfm.set (Table 03-13). -/
def State.dfmSet (s : State) (n k : Nat) (v : Word) : Trig :=
  if fld (s.case n k).dfmFmt 0 2 == 3 then .fault none fltIllegal
  else .done (s.onCase n k fun c => Casement.addPend { c with acc := { val := v } } .dfmAcc 4 v)

/-- A DFM trigger. -/
def trigDfm (s : State) (n k sock : Nat) (v : Word) : Trig :=
  match sock with
  | 0x110 => s.dfmFetch n k 0
  | 0x111 => s.dfmFetch n k 1
  | 0x112 => s.dfmFetch n k 2
  | _ => s.dfmSet n k v

end Sys2Proof.Machine
end

