-- ==== Sys2Proof/Machine/UnitVxu.lean ====
section
/-! DEFINITION. The long-vector unit (R158–R178): the command word, the datapath operations, element and mask ports, vector
loads and stores, reductions. -/

namespace Sys2Proof.Machine

/-- R365, R366: VXU and DFM triggers are not accepted: the shutter path is active, or was released less than 200 µs ago. -/
def State.braked (s : State) : Bool := s.power.shut || s.power.lift < 200000

/-! ### Registers, operations in flight, poison (R159, R169, R176) -/

/-- The value of a vector register with its poisoned and residue-poisoned slots. -/
structure VVal where
  val : BitVec 2048 := 0
  bad : BitVec 32 := 0
  res : BitVec 32 := 0
  deriving DecidableEq, Repr

/-- One element that an operation writes. -/
structure Elem where
  i : Nat
  v : Nat
  bad : Bool := false
  res : Bool := false
  deriving DecidableEq, Repr

/-- Bits as a word of slots. -/
def slotBits (f : Nat → Bool) : BitVec 32 := BitVec.ofNat 32 (packElems 1 ((List.range 32).map fun q => b2n (f q)))

/-- Write elements of width w: a slot written whole takes the poison of its elements, another keeps its own beside it. -/
def VVal.put (x : VVal) (w : Nat) (es : List Elem) : VVal :=
  let at_ := fun (q : Nat) => es.filter fun e => e.i * w / 64 == q
  let whole := fun (q : Nat) => (at_ q).length * w ≥ 64
  { val := BitVec.ofNat 2048 (es.foldl (fun a e => setBitsOf a (w * e.i) w e.v) x.val.toNat)
    bad := slotBits fun q => (at_ q).any (·.bad) || (!whole q && x.bad.getLsbD q)
    res := slotBits fun q => (at_ q).any (·.res) || (!whole q && x.res.getLsbD q) }

/-- A vector register as an operation reads it: the result of the youngest operation in flight that writes it, else the
register (R169); and the poisoned slots already written. -/
def State.vread (s : State) (n k j : Nat) : VVal × BitVec 32 :=
  let c := s.case n k
  let own : VVal := { val := c.vreg j, bad := c.vregBad j, res := c.vregRes j }
  match ((s.core n).vxuOps.filter fun o => o.case == k && o.vregs.any (·.1 == j)).getLast? with
  | none => (own, own.bad)
  | some o => match o.vregs.find? (·.1 == j) with
    | none => (own, own.bad)
    | some (_, v, b, r) => ({ val := v, bad := b, res := r }, b &&& own.bad)

/-- R95: a trigger reads vector registers `vs` and mask registers `ms`: the operations in flight that write them are marked,
and a later read of FPC, tmu.rmax, tmu.nsat or tmu.nflz waits for them (`State.reportsOwed`). -/
def State.chain (s : State) (n k : Nat) (vs ms : List Nat) : State :=
  let hit := fun (o : VxuOp) => o.case == k && (o.vregs.any (vs.contains ·.1) || o.mreg.any (ms.contains ·.1))
  if (s.core n).vxuOps.any hit then
    s.onCore n fun c => { c with vxuOps := c.vxuOps.map fun o => if hit o then { o with chained := true } else o }
  else s

/-- A mask register as an operation reads it. -/
def State.mread (s : State) (n k j : Nat) : BitVec 256 :=
  let hit := fun (o : VxuOp) => if o.case == k then o.mreg else none
  match (((s.core n).vxuOps.filterMap hit).filter (·.1 == j)).getLast? with
  | none => (s.case n k).mreg j
  | some (_, v) => v

/-- R158: the casement has no VXU registers: the keeper, and a task of the scalar profile (R269). -/
def State.noVector (s : State) (n k : Nat) : Bool :=
  match s.whoIs n k with
  | none => true
  | some t => match s.task n t with | none => true | some x => x.prof == 0

/-- R174: a trigger waits while it reads or writes a register that an incomplete vxu.ld of its task writes. -/
def State.vecBusy (s : State) (n k : Nat) (regs : List Nat) : Bool :=
  (s.core n).vecOps.any fun o => o.case == k && o.load && regs.contains o.reg

/-- R176: the fault of an operand slot that is poisoned and written: RESIDUE if a slot is residue-poisoned, else POISON. -/
def State.slotFault (s : State) (n k : Nat) (ops : List (Nat × Nat)) : Option Flt :=
  let hit := ops.filter fun (r, q) => (s.vread n k r).2.getLsbD q
  if hit.isEmpty then none
  else if hit.any fun (r, q) => (s.vread n k r).1.res.getLsbD q then some { cls := clsRESIDUE }
  else some { cls := clsPOISON }

/-! ### The command word (Table 07-2) -/

/-- The fields of a command word. -/
structure VCmd where
  opc : Nat
  vd : Nat
  va : Nat
  vb : Nat
  vc : Nat
  msk : Nat
  men : Bool
  mz : Bool
  ef : Nat
  ss : Bool
  u : Bool
  df : Nat
  deriving DecidableEq, Repr

/-- Read a command word. -/
def vcmdOf (v : Word) : VCmd :=
  { opc := fld v 0 6, vd := fld v 6 4, va := fld v 10 4, vb := fld v 14 4, vc := fld v 18 4, msk := fld v 22 2,
    men := bitAt v 24, mz := bitAt v 25, ef := fld v 26 4, ss := bitAt v 30, u := bitAt v 31, df := fld v 32 4 }

/-- R161: the format of EF; none for INT4, UINT4 and 0xC–0xF. -/
def vfmt (code : Nat) : Option EFmt := if code == 5 || code == 6 then none else efmtOf code

/-- U of Table 07-2: INT16, INT32 and INT64 taken as unsigned. -/
def withU (u : Bool) : EFmt → EFmt
  | .int w s => .int w (s && !(u && w ≥ 16))
  | f => f

/-- The groups of operations of Table 07-3. -/
def isMaskOp (o : Nat) : Bool := inR o 0x28 0x2B
def isCompare (o : Nat) : Bool := inR o 0x20 0x24
def isPair (o : Nat) : Bool := o == 0x18 || o == 0x19
def isPermute (o : Nat) : Bool := inR o 0x39 0x3E

/-- The Formats column of Table 07-3. -/
def vFormatOk (o : Nat) (f : EFmt) : Bool :=
  let ieee := match f with | .flt .fp64 => true | .flt .fp32 => true | _ => false
  if inR o 0x03 0x05 || o == 0x24 then f.isFlt
  else if o == 0x06 || o == 0x07 || isPair o then ieee
  else if inR o 0x10 0x15 || o == 0x3F then !f.isFlt
  else inR o 0x00 0x02 || inR o 0x08 0x0C || inR o 0x20 0x23 || o == 0x30 || inR o 0x38 0x3E

/-- R160–R166: whether a command word is legal at a length; its width when it is. -/
def vLegal (m : VCmd) (len : Nat) : Option Nat :=
  if isMaskOp m.opc then
    if m.vd / 4 != 0 || m.va / 4 != 0 || m.vb / 4 != 0 then none else some 0
  else
    match vfmt m.ef with
    | none => none
    | some f =>
      if !vFormatOk m.opc f then none
      else if isCompare m.opc && m.vd ≥ 4 then none
      else if isPair m.opc && m.vd == m.vc then none
      else if (m.opc == 0x3D || m.opc == 0x3E) && len % 2 == 1 then none
      else
        match (if m.opc == 0x30 then (if m.ef == m.df then none else vfmt m.df) else some f) with
        | none => none
        | some g =>
          let w := max f.width g.width
          if len * w > 2048 then none else some w

/-! ### Element arithmetic (Table 07-3, R164) -/

/-- One element of an integer operation; `s` its signedness in MAX and MIN. -/
def vInt (o w : Nat) (s : Bool) (a b : Nat) : Nat :=
  let sh := b % w
  match o with
  | 0x00 => (a + b) % 2 ^ w
  | 0x01 => (a + 2 ^ w - b % 2 ^ w) % 2 ^ w
  | 0x02 => a * b % 2 ^ w
  | 0x08 => if intVal w s a < intVal w s b then b else a
  | 0x09 => if intVal w s a > intVal w s b then b else a
  | 0x0B => (2 ^ w - a) % 2 ^ w
  | 0x0C => a
  | 0x10 => a &&& b
  | 0x11 => a ||| b
  | 0x12 => a ^^^ b
  | 0x13 => a * 2 ^ sh % 2 ^ w
  | 0x14 => a / 2 ^ sh
  | 0x15 => ofInt (signedOf a w / (2 ^ sh : Nat)) w
  | _ => a

/-- ABS of an integer element wraps (R164); an unsigned element is its own magnitude. -/
def vIntAbs (w : Nat) (s : Bool) (a : Nat) : Nat := if s && a ≥ 2 ^ (w - 1) then (2 ^ w - a) % 2 ^ w else a

/-- One element of a floating operation. -/
def vFlt (o : Nat) (f : FFmt) (rm a b c : Nat) : FRes :=
  match o with
  | 0x00 => fadd f rm a b
  | 0x01 => fsub f rm a b
  | 0x02 => fmul f rm a b
  | 0x03 => ffma f rm false false a b c
  | 0x04 => ffma f rm false true a b c
  | 0x05 => ffma f rm true false a b c
  | 0x06 => fdiv f rm a b
  | 0x07 => fsqrt f rm a
  | 0x08 => fmaxmin f true a b
  | 0x09 => fmaxmin f false a b
  | 0x0A => { code := fsign f 1 a }
  | 0x0B => { code := fsign f 2 a }
  | _ => { code := fsign f 0 a }

/-- An element-wise operation on one element. -/
def vElem (o : Nat) (f : EFmt) (u : Bool) (rm a b c : Nat) : FRes :=
  match f, withU u f with
  | .flt g, _ => vFlt o g rm a b c
  | .int w s, .int _ su => if o == 0x0A then { code := vIntAbs w s a } else { code := vInt o w su a b }
  | .int _ _, _ => { code := a }

/-- A comparison of one element, with its flags (R103). -/
def vCompare (o : Nat) (f : EFmt) (u : Bool) (a b : Nat) : Bool × BitVec 5 :=
  match withU u f with
  | .flt g => fcompare g (o - 0x20) a b
  | .int w s =>
    let x := intVal w s a
    let y := intVal w s b
    (match o with | 0x20 => x == y | 0x21 => x != y | 0x22 => x < y | _ => x ≤ y, 0)

/-- Whether a code is finite. -/
def FFmt.isFin (f : FFmt) (c : Nat) : Bool := match f.decode c with | .fin .. => true | _ => false

/-- R150, R151: TWOSUM: h and l. -/
def twoSum (f : FFmt) (a b : Nat) : FRes × Nat :=
  let h := fadd f 0 a b
  let l := if f.isFin h.code then
      (finish f 0 (xadd 0 (xadd 0 (f.decode a) (f.decode b)) (xneg (f.decode h.code)))).code else 0
  ({ h with c := { flags := h.c.flags &&& (flOF ||| flNV) } }, l)

/-- R150, R151: TWOPROD: h and l. -/
def twoProd (f : FFmt) (a b : Nat) : FRes × Nat :=
  let h := fmul f 0 a b
  let keep := h.c.flags &&& (flOF ||| flNV)
  if f.isFin h.code then
    let l := ffma f 0 false true a b h.code
    ({ h with c := { flags := keep ||| (l.c.flags &&& (flNX ||| flUF)) } }, l.code)
  else ({ h with c := { flags := keep } }, 0)

/-- R163: where element i of a permutation comes from: an element of VA (false) or VB (true); none gives 0. `act` lists the
active elements, rising; `j` is VB element i. -/
def permSource (o len k i j : Nat) (act : List Nat) : Option (Bool × Nat) :=
  match o with
  | 0x39 => if i ≥ k then some (false, i - k) else none
  | 0x3A => if i + k < len then some (false, i + k) else none
  | 0x3B => if j < len then some (false, j) else none
  | 0x3C => (act[i]?).map fun x => (false, x)
  | 0x3D => some (i % 2 == 1, i / 2)
  | _ => if i < len / 2 then some (false, 2 * i) else some (false, 2 * (i - len / 2) + 1)

/-! ### vxu.op -/

/-- The operand slots of an operation: register and slot (R163, R176). -/
def vOperands (m : VCmd) (w len : Nat) (act : List Nat) : List (Nat × Nat) :=
  let slots := fun (r : Nat) (is : List Nat) => is.map fun i => (r, i * w / 64)
  let o := m.opc
  if isMaskOp o || o == 0x38 || o == 0x3F then []
  else if o == 0x3B then slots m.va (List.range len) ++ slots m.vb act
  else
    let two := inR o 0x00 0x06 || o == 0x08 || o == 0x09 || inR o 0x10 0x15 || isPair o || isCompare o
    slots m.va act ++ (if (two && !m.ss) || o == 0x3D then slots m.vb act else []) ++
      if inR o 0x03 0x05 then slots m.vc act else []

/-- Whether an operation reads VB as elements of an element-wise operation, and VC. -/
def VCmd.usesB (m : VCmd) : Bool :=
  !m.ss && (inR m.opc 0x00 0x06 || m.opc == 0x08 || m.opc == 0x09 || inR m.opc 0x10 0x15 || isPair m.opc || isCompare m.opc)
def VCmd.usesC (m : VCmd) : Bool := inR m.opc 0x03 0x05

/-- The vector registers whose elements an operation reads (Table 07-3). -/
def VCmd.reads (m : VCmd) : List Nat :=
  if isMaskOp m.opc || m.opc == 0x38 || m.opc == 0x3F then []
  else m.va :: ((if m.usesB || m.opc == 0x3B || m.opc == 0x3D then [m.vb] else []) ++ if m.usesC then [m.vc] else [])

/-- The vector registers an operation writes. -/
def VCmd.writes (m : VCmd) : List Nat :=
  if isMaskOp m.opc || isCompare m.opc then [] else if isPair m.opc then [m.vd, m.vc] else [m.vd]

/-- The mask registers an operation reads. -/
def VCmd.readsM (m : VCmd) : List Nat :=
  if isMaskOp m.opc then [m.va, m.vb] else if m.men then [m.msk] else []

/-- The registers an operation reads and writes, for R174. -/
def vRegs (m : VCmd) : List Nat := m.reads ++ m.writes

/-- Cycles an operation occupies the datapath (Table 07-4). -/
def vOccupancy (m : VCmd) (len w : Nat) : Nat :=
  let k := max 1 ((len * w + 511) / 512)
  if isMaskOp m.opc then 1 else if m.opc == 0x06 || m.opc == 0x07 then 16 * k else if isPair m.opc then 2 * k else k

/-- Put an operation into flight: registers and their new elements at a width, a mask, contributions. A faulty datapath
residue-poisons every destination slot and is reported (R176, R332). -/
def State.vxuStart (s : State) (n k occ : Nat) (outs : List (Nat × Nat × List Elem)) (mreg : Option (Nat × BitVec 256))
    (contrib : Contrib) (checked : Bool) : State :=
  let wrong := checked && (s.core n).badVxu
  let s := if wrong then s.mismatch n 1 else s
  let vregs := outs.map fun (r, w, es) =>
    let es := if wrong then es.map fun e => { e with bad := true, res := true } else es
    let x := (s.vread n k r).1.put w es
    (r, x.val, x.bad, x.res)
  s.onCore n fun c => { c with
    vxuLeft := occ
    vxuOps := c.vxuOps ++ [{ case := k, vregs := vregs, mreg := mreg, contrib := contrib }] }

/-- A mask operation (Table 07-3): bits below LEN of the destination. -/
def State.vxuMask (s : State) (n k : Nat) (m : VCmd) : State :=
  let len := (s.case n k).vlen.toNat
  let a := (s.mread n k m.va).toNat
  let b := (s.mread n k m.vb).toNat
  let d := (s.mread n k m.vd).toNat
  let r := match m.opc with | 0x28 => a &&& b | 0x29 => a ||| b | 0x2A => a ^^^ b | _ => a &&& (b ^^^ (2 ^ 256 - 1))
  s.vxuStart n k 1 [] (some (m.vd, BitVec.ofNat 256 (setBitsOf d 0 len (bitsOf r 0 len)))) {} false

/-- Whether element i is active (R162). -/
def State.vxuOn (s : State) (n k : Nat) (m : VCmd) (i : Nat) : Bool := !m.men || (s.mread n k m.msk).getLsbD i

/-- The active elements, rising; those that MZ zeroes. -/
def State.vxuAct (s : State) (n k : Nat) (m : VCmd) : List Nat := (List.range (s.case n k).vlen.toNat).filter (s.vxuOn n k m)
def State.vxuZeros (s : State) (n k : Nat) (m : VCmd) : List Elem :=
  if m.mz then ((List.range (s.case n k).vlen.toNat).filter (!s.vxuOn n k m ·)).map fun i => ({ i := i, v := 0 } : Elem) else []

/-- The format of EF. -/
def VCmd.fmt (m : VCmd) : EFmt := (vfmt m.ef).getD (.flt .fp64)

/-- Element i of register r as an operation reads it, and whether its slot is poisoned, or residue-poisoned. -/
def State.vxuEl (s : State) (n k : Nat) (m : VCmd) (r i : Nat) : Nat := elemOf (s.vread n k r).1.val.toNat m.fmt.width i
def State.vxuBad (s : State) (n k : Nat) (m : VCmd) (r i : Nat) : Bool := (s.vread n k r).1.bad.getLsbD (i * m.fmt.width / 64)
def State.vxuRes (s : State) (n k : Nat) (m : VCmd) (r i : Nat) : Bool := (s.vread n k r).1.res.getLsbD (i * m.fmt.width / 64)

/-- The second operand of element i: of VB, or the scalar port (SS). -/
def State.vxuB (s : State) (n k : Nat) (m : VCmd) (i : Nat) : Nat :=
  if m.ss then ((s.case n k).opnd_ 0x183).toNat % 2 ^ m.fmt.width else s.vxuEl n k m m.vb i

/-- A poisoned, or residue-poisoned, operand of element i (R176). -/
def State.vxuAnyBad (s : State) (n k : Nat) (m : VCmd) (i : Nat) : Bool :=
  s.vxuBad n k m m.va i || (m.usesB && s.vxuBad n k m m.vb i) || (m.usesC && s.vxuBad n k m m.vc i)
def State.vxuAnyRes (s : State) (n k : Nat) (m : VCmd) (i : Nat) : Bool :=
  s.vxuRes n k m m.va i || (m.usesB && s.vxuRes n k m m.vb i) || (m.usesC && s.vxuRes n k m m.vc i)

/-- A comparison (R103, R165). -/
def State.vxuCmp (s : State) (n k : Nat) (m : VCmd) (occ : Nat) : State :=
  let rs := (s.vxuAct n k m).map fun i => (i, vCompare m.opc m.fmt m.u (s.vxuEl n k m m.va i) (s.vxuB n k m i))
  let d := (s.mread n k m.vd).toNat
  let d := rs.foldl (fun a (i, r, _) => setBitsOf a i 1 (b2n r)) d
  let d := (s.vxuZeros n k m).foldl (fun a e => setBitsOf a e.i 1 0) d
  s.vxuStart n k occ [] (some (m.vd, BitVec.ofNat 256 d)) (joinAll (rs.map fun (_, _, fl) => ({ flags := fl } : Contrib))) false

/-- TWOSUM and TWOPROD (R150). -/
def State.vxuPair (s : State) (n k : Nat) (m : VCmd) (occ : Nat) : State :=
  let g : FFmt := match m.fmt with | .flt .fp32 => .fp32 | _ => .fp64
  let rs := (s.vxuAct n k m).map fun i =>
    let a := s.vxuEl n k m m.va i
    (i, if m.opc == 0x18 then twoSum g a (s.vxuB n k m i) else twoProd g a (s.vxuB n k m i))
  let el := fun (i v : Nat) => ({ i := i, v := v, bad := s.vxuAnyBad n k m i, res := s.vxuAnyRes n k m i } : Elem)
  let zeros := s.vxuZeros n k m
  s.vxuStart n k occ
    [(m.vd, m.fmt.width, (rs.map fun (i, h, _) => el i h.code) ++ zeros),
     (m.vc, m.fmt.width, (rs.map fun (i, _, l) => el i l) ++ zeros)] none
    (joinAll (rs.map fun (_, h, _) => h.c)) true

/-- The permutations (R163). PERM reads its index too, which poisons the destination also where it is not below LEN. DESIGN CHOICE
(log entry 141): an element that SLIDE, ZIP or UNZIP takes though its own index is not active is no operand (R176), so it raises
nothing; a destination slot it fills takes its poison. -/
def State.vxuPermute (s : State) (n k : Nat) (m : VCmd) (occ : Nat) : State :=
  let len := (s.case n k).vlen.toNat
  let act := s.vxuAct n k m
  let dst := if m.opc == 0x3C then List.range len else act
  let by_ := ((s.case n k).opnd_ 0x183).toNat % 512
  let ix := m.opc == 0x3B
  let es := dst.map fun i =>
    match permSource m.opc len by_ i (s.vxuEl n k m m.vb i) act with
    | none => ({ i := i, v := 0, bad := ix && s.vxuBad n k m m.vb i, res := ix && s.vxuRes n k m m.vb i } : Elem)
    | some (fromB, j) =>
      let x := if fromB then m.vb else m.va
      { i := i, v := s.vxuEl n k m x j, bad := s.vxuBad n k m x j || (ix && s.vxuBad n k m m.vb i)
        res := s.vxuRes n k m x j || (ix && s.vxuRes n k m m.vb i) }
  s.vxuStart n k occ [(m.vd, m.fmt.width, es ++ (if m.opc == 0x3C then [] else s.vxuZeros n k m))] none {} false

/-- BCAST and IOTA. -/
def State.vxuMake (s : State) (n k : Nat) (m : VCmd) (occ : Nat) : State :=
  let s1 := ((s.case n k).opnd_ 0x183).toNat
  let es := (s.vxuAct n k m).map fun i => ({ i := i, v := (if m.opc == 0x38 then s1 else i) % 2 ^ m.fmt.width } : Elem)
  s.vxuStart n k occ [(m.vd, m.fmt.width, es ++ s.vxuZeros n k m)] none {} false

/-- CVT (R166). -/
def State.vxuCvt (s : State) (n k : Nat) (m : VCmd) (occ : Nat) : State :=
  let g := (vfmt m.df).getD m.fmt
  let src := withU m.u m.fmt
  let rs := (s.vxuAct n k m).map fun i =>
    let a := s.vxuEl n k m m.va i
    let r := convert src (withU m.u g) (s.case n k).rm a
    (i, { r with c := { r.c with rmax := magnitude src a } })
  let es := rs.map fun (i, r) =>
    ({ i := i, v := r.code, bad := s.vxuBad n k m m.va i, res := s.vxuRes n k m m.va i } : Elem)
  s.vxuStart n k occ [(m.vd, g.width, es ++ s.vxuZeros n k m)] none (joinAll (rs.map fun (_, r) => r.c)) true

/-- The element-wise operations: one result for each active element. -/
def State.vxuEach (s : State) (n k : Nat) (m : VCmd) (occ : Nat) : State :=
  let rs := (s.vxuAct n k m).map fun i =>
    (i, vElem m.opc m.fmt m.u (s.case n k).rm (s.vxuEl n k m m.va i) (s.vxuB n k m i) (s.vxuEl n k m m.vc i))
  let es := rs.map fun (i, r) =>
    ({ i := i, v := r.code, bad := s.vxuAnyBad n k m i, res := s.vxuAnyRes n k m i } : Elem)
  s.vxuStart n k occ [(m.vd, m.fmt.width, es ++ s.vxuZeros n k m)] none (joinAll (rs.map fun (_, r) => r.c)) true

/-- An operation on elements goes into flight, by its group of Table 07-3; `w` is the width its occupancy counts. -/
def State.vxuFly (s : State) (n k : Nat) (m : VCmd) (w : Nat) : State :=
  let occ := vOccupancy m (s.case n k).vlen.toNat w
  if isCompare m.opc then s.vxuCmp n k m occ
  else if isPair m.opc then s.vxuPair n k m occ
  else if isPermute m.opc then s.vxuPermute n k m occ
  else if m.opc == 0x38 || m.opc == 0x3F then s.vxuMake n k m occ
  else if m.opc == 0x30 then s.vxuCvt n k m occ
  else s.vxuEach n k m occ

/-- vxu.op (R160–R170). -/
def State.vxuOp (s : State) (n k : Nat) (v : Word) : Trig :=
  let m := vcmdOf v
  match vLegal m (s.case n k).vlen.toNat with
  | none => .fault none fltIllegal
  | some w =>
    if (s.core n).vxuLeft > 0 then .wait .busy []
    else if s.vecBusy n k (vRegs m) then .wait .trigger []
    else if isMaskOp m.opc then .done ((s.chain n k [] m.readsM).vxuMask n k m)
    else
      match s.slotFault n k (vOperands m m.fmt.width (s.case n k).vlen.toNat (s.vxuAct n k m)) with
      | some fl => .fault none fl
      | none => .done ((s.chain n k m.reads m.readsM).vxuFly n k m w)

/-- R167: the oldest VXU operation of core n completes: its destinations are written and its contributions land. -/
def State.vxuComplete (s : State) (n : Nat) : State :=
  match (s.core n).vxuOps with
  | [] => s
  | o :: rest =>
    (s.onCore n fun c => { c with vxuOps := rest }).onCase n o.case fun c =>
      let c := o.vregs.foldl (fun (c : Casement) (r, v, b, x) => c.setV r v b x) c
      let c := match o.mreg with | some (j, v) => c.setM j v | none => c
      c.landNow o.contrib

/-! ### Element and mask ports (R171) -/

/-- vxu.get. -/
def State.vxuGet (s : State) (n k : Nat) (v : Word) : Trig :=
  let w := 8 * 2 ^ fld v 12 2
  let i := fld v 4 8
  let r := fld v 0 4
  if i * w ≥ 2048 then .fault none fltIllegal
  else if (s.core n).vxuLeft > 0 then .wait .busy []
  else if s.vecBusy n k [r] then .wait .trigger []
  else
    match s.slotFault n k [(r, i * w / 64)] with
    | some f => .fault none f
    | none =>
      let x := (s.vread n k r).1
      let e := elemOf x.val.toNat w i
      let q := i * w / 64
      let t : Taint := if x.res.getLsbD q then .residue else if x.bad.getLsbD q then .poison else .clean
      let val := if bitAt v 14 then sext e w else BitVec.ofNat 64 e
      .done (((s.chain n k [r] []).onCore n fun c => { c with vxuLeft := 1 }).onCase n k fun c =>
        c.addPending { port := .vxuSres, due := 3, id := 0, data := { val := val, taint := t } })

/-- vxu.put: a 64-bit put clears its slot's poison, a narrower one leaves it. -/
def State.vxuPut (s : State) (n k : Nat) (v : Word) : Trig :=
  let w := 8 * 2 ^ fld v 12 2
  let i := fld v 4 8
  let r := fld v 0 4
  if i * w ≥ 2048 then .fault none fltIllegal
  else if (s.core n).vxuLeft > 0 then .wait .busy []
  else if s.vecBusy n k [r] then .wait .trigger []
  else .done (s.vxuStart n k 1 [(r, w, [{ i := i, v := ((s.case n k).opnd_ 0x183).toNat % 2 ^ w }])] none {} false)

/-- vxu.mrd. -/
def State.vxuMrd (s : State) (n k : Nat) (v : Word) : Trig :=
  if (s.core n).vxuLeft > 0 then .wait .busy []
  else
    let m := (s.mread n k (fld v 0 2)).toNat
    (State.onCore (s.chain n k [] [fld v 0 2]) n fun c => { c with vxuLeft := 1 }).result n k .vxuSres 3 (BitVec.ofNat 64 (elemOf m 64 (fld v 2 2)))

/-- vxu.mwr. -/
def State.vxuMwr (s : State) (n k : Nat) (v : Word) : Trig :=
  if (s.core n).vxuLeft > 0 then .wait .busy []
  else
    let j := fld v 0 2
    let m := (s.mread n k j).toNat
    let x := setBitsOf m (64 * fld v 2 2) 64 ((s.case n k).opnd_ 0x183).toNat
    .done (s.vxuStart n k 1 [] (some (j, BitVec.ofNat 256 x)) {} false)

/-! ### Reductions (R177, R178) -/

/-- One level of the lane combination. -/
def pairUp (add : Nat → Nat → FRes) : List (Option FRes) → List (Option FRes)
  | some a :: some b :: t =>
    let r := add a.code b.code
    some { r with c := (a.c.join b.c).join r.c } :: pairUp add t
  | some a :: none :: t => some a :: pairUp add t
  | none :: b :: t => b :: pairUp add t
  | l => l

/-- Combine lanes until one is left. -/
def combine (add : Nat → Nat → FRes) : Nat → List (Option FRes) → Option FRes
  | _, [] => none
  | 0, a :: _ => a
  | n + 1, l => combine add n (pairUp add l)

/-- R178: sum in lane order of (index, value) pairs. -/
def laneSum (add : Nat → Nat → FRes) (lanes : Nat) (xs : List (Nat × Nat)) : Option FRes :=
  let lane := fun (j : Nat) =>
    match xs.filter fun x => x.1 % lanes == j with
    | [] => none
    | (_, a) :: t => some (t.foldl (fun (r : FRes) x => let y := add r.code x.2; { y with c := r.c.join y.c }) { code := a })
  combine add (Nat.log2 lanes) ((List.range lanes).map lane)

/-- R105: the reduction by maximum or minimum of a list of codes; NaN elements are ignored unless all are NaN; a signalling
one raises NV in the IEEE class (R93). -/
def fextreme (f : FFmt) (max : Bool) (xs : List Nat) : FRes :=
  let c : Contrib := { flags := if f.ieee && xs.any f.isSnan then flNV else 0 }
  match xs.filter (!f.isNan ·) with
  | a :: t => { code := t.foldl (fun a b => fpick f max a b) a, c := c }
  | [] =>
    match xs with
    | a :: _ => { code := ((nanOf f [a]).getD { code := f.nan }).code, c := c }
    | [] => { code := if f.short8 then f.max max else f.inf max }

/-- Maximum or minimum of integer codes. -/
def iextreme (w : Nat) (s max : Bool) (xs : List Nat) : Nat :=
  match xs with
  | [] => ofInt (if max then intMin w s else intMax w s) w
  | a :: t => t.foldl (fun a b =>
      if (if max then intVal w s a < intVal w s b else intVal w s b < intVal w s a) then b else a) a

/-- Table 07-6, R178: SUM over the active elements; integers are extended by the signedness of the format. With a NaN among
them the adds of every lane still raise their flags, and the result is the lowest-indexed NaN. -/
def vSum (f : EFmt) (rm : Nat) (xs : List (Nat × Nat)) : FRes :=
  let lanes := 512 / f.width
  match f with
  | .flt g =>
    let dst : FFmt := if g == .fp64 then .fp64 else .fp32
    let cv := fun (c : Nat) => convert (.flt g) (.flt dst) rm c
    let sum := (laneSum (fadd dst rm) lanes (xs.map fun x => (x.1, (cv x.2).code))).getD { code := 0 }
    match xs.find? fun x => g.isNan x.2 with
    | some (_, c) => { code := (cv c).code, c := sum.c.join { flags := if xs.any fun x => g.isSnan x.2 then flNV else 0 } }
    | none => sum
  | .int w s =>
    { code := ofInt (xs.foldl (fun a x => a + intVal w s x.2) 0) 64 }

/-- Table 07-6: every reduction, by OP. DESIGN CHOICE (log entry 140): a signalling NaN that ARGMAX or ARGMIN of FP64 or FP32
ignores raises NV, as it does in MAX and MIN. -/
def vReduce (op : Nat) (f : EFmt) (u : Bool) (rm : Nat) (xs : List (Nat × Nat)) : FRes :=
  let codes := xs.map (·.2)
  let ext := fun (max : Bool) => match f, withU u f with
    | .flt g, _ => fextreme g max codes
    | .int w _, .int _ s => { code := iextreme w s max codes }
    | .int w s, _ => { code := iextreme w s max codes }
  let widen := fun (r : FRes) => match withU u f with
    | .int w true => { r with code := (sext r.code w).toNat }
    | _ => r
  let argOf := fun (max : Bool) =>
    let r := ext max
    let nan := match f with | .flt g => xs.all fun x => g.isNan x.2 | _ => false
    match xs with
    | [] => { code := 2 ^ 64 - 1 }
    | (i, _) :: _ => match if nan then none else xs.find? fun x => x.2 == r.code with
      | some (j, _) => { r with code := j }
      | none => { r with code := i }
  match op with
  | 0 => vSum f rm xs
  | 1 => widen (ext true)
  | 2 => widen (ext false)
  | 3 => argOf true
  | 4 => argOf false
  | 5 => { code := match codes with | [] => 0 | a :: t => t.foldl (· &&& ·) a }
  | 6 => { code := codes.foldl (· ||| ·) 0 }
  | _ => { code := codes.foldl (· ^^^ ·) 0 }

/-- vxu.red (R177). -/
def State.vxuRed (s : State) (n k : Nat) (v : Word) : Trig :=
  let c := s.case n k
  let r := fld v 0 4
  let op := fld v 4 4
  let len := c.vlen.toNat
  match vfmt (fld v 8 4) with
  | none => .fault none fltIllegal
  | some f =>
    let w := f.width
    if op ≥ 8 || (op ≥ 5 && f.isFlt) || len * w > 2048 then .fault none fltIllegal
    else if (s.core n).vxuLeft > 0 then .wait .busy []
    else if s.vecBusy n k [r] then .wait .trigger []
    else
      let mask := s.mread n k (fld v 12 2)
      let act := (List.range len).filter fun i => !bitAt v 14 || mask.getLsbD i
      match s.slotFault n k (act.map fun i => (r, i * w / 64)) with
      | some fl => .fault none fl
      | none =>
        let x := (s.vread n k r).1
        let out := vReduce op f (bitAt v 15) c.rm (act.map fun i => (i, elemOf x.val.toNat w i))
        let wrong := (s.core n).badVxu
        let s := (if wrong then s.mismatch n 1 else s).chain n k [r] (if bitAt v 14 then [fld v 12 2] else [])
        let t : Taint :=
          if wrong || act.any (fun i => x.res.getLsbD (i * w / 64)) then .residue
          else if act.any (fun i => x.bad.getLsbD (i * w / 64)) then .poison else .clean
        let nn := (len * w + 511) / 512
        .done ((s.onCore n fun c => { c with vxuLeft := max 1 nn }).onCase n k fun c =>
          c.addPending { port := .vxuSres, due := nn + 8, id := 0,
                         data := { val := BitVec.ofNat 64 out.code, taint := t }, contrib := out.c })

/-! ### Loads and stores (R172–R175) -/

/-- R173: the check phase: every active element in order; the physical address of each, or a wait, or the fault of the first
faulting element. -/
def State.vecCheck (s : State) (n k bytes : Nat) (acc : Acc) : List (Nat × Nat) → Except Trig (List (Nat × Nat × Xl))
  | [] => .ok []
  | (i, va) :: t =>
    if va % bytes != 0 then .error (.fault none fltAlign)
    else
      match s.xlateWord n k va acc with
      | .inr r => .error r
      | .inl x => match s.vecCheck n k bytes acc t with
        | .ok l => .ok ((i, va, x) :: l)
        | .error e => .error e

/-- The distinct lines of a list of checked elements, in element order. -/
def linesOf (l : List (Nat × Nat × Xl)) : List Nat :=
  l.foldl (fun a (_, _, x) => if a.contains (x.pa / 64) then a else a ++ [x.pa / 64]) []

/-- Read the lines of a vector load: local ones at once, others by GETs. Answers the accesses outstanding and what came. -/
def State.vecReads (s : State) (n op : Nat) (job : BitVec 12) : List (Nat × Nat × Option (Nat × Nat)) →
    State × List Nat × List (Nat × RStat × List Byte)
  | [] => (s, [], [])
  | (idx, line, tr) :: t =>
    let (s, o, g) : State × List Nat × List (Nat × RStat × List Byte) :=
      if s.near n (line * 64) then
        match s.readPa (line * 64) 64 (some n) with
        | (s, st, bs) => (s, [], [(idx, st, bs)])
      else
        match s.reach n (line * 64) (getMsg job 64) (.vec n op idx) tr with
        | (s, none) => (s, [idx], [])
        | (s, some st) => (s, [], [(idx, st, [])])
    let (s, o', g') := s.vecReads n op job t
    (s, o ++ o', g ++ g')

/-- Write the runs of a vector store: number, physical address, bytes, poison. -/
def State.vecWrites (s : State) (n op : Nat) (job : BitVec 12) :
    List (Nat × Nat × List Byte × Bool × Option (Nat × Nat)) → State × List Nat × List (Nat × RStat × List Byte)
  | [] => (s, [], [])
  | (idx, pa, bs, bad, tr) :: t =>
    let (s, o, g) : State × List Nat × List (Nat × RStat × List Byte) :=
      if s.near n pa then
        match s.writePa pa bs bad (some n) with
        | (s, st) => (s, [], [(idx, st, [])])
      else
        match s.reach n pa (putMsg job bs bad) (.vec n op idx) tr with
        | (s, none) => (s, [idx], [])
        | (s, some st) => (s, [], [(idx, st, [])])
    let (s, o', g') := s.vecWrites n op job t
    (s, o ++ o', g ++ g')

/-- vxu.ld and vxu.st (R172–R175). DESIGN CHOICE (log entry 142): the address that the report of a failed line of a store names is
that of the first byte of the run of adjacent bytes whose write failed; the runs of a line count in rising order. -/
def State.vxuMem (s : State) (n k : Nat) (load : Bool) (v : Word) : Trig :=
  let c := s.case n k
  let r := fld v 0 4
  let w := 8 * 2 ^ fld v 4 2
  let bytes := w / 8
  let len := c.vlen.toNat
  if len * w > 2048 then .fault none fltIllegal
  else if (s.core n).vxuLeft > 0 then .wait .busy []
  else if (s.core n).vecOps.length ≥ 4 || s.vecBusy n k [r] then .wait .trigger []
  else if load && (s.core n).vxuOps.any (fun o => o.case == k && o.vregs.any (·.1 == r)) then .wait .trigger []
  else if c.keyDue then .wait .read []
  else
    let mask := s.mread n k (fld v 6 2)
    let on := fun (i : Nat) => !bitAt v 8 || mask.getLsbD i
    let act := (List.range len).filter on
    let base := fld (c.opnd_ 0x181) 0 32
    let strd := signedOf (c.opnd_ 0x182).toNat 32
    let va := fun (i : Nat) => c.short (ofInt ((base : Int) + (i : Int) * strd) 32)
    match s.vecCheck n k bytes (if load then .read else .write) (act.map fun i => (i, va i)) with
    | .error t => t
    | .ok es =>
      let who := s.whoIs n k
      let lines := linesOf es
      if lines.any fun l => s.storesTo n who l || s.bypassBusy n who l then .wait .trigger []
      else
        let s := es.foldl (fun s (_, _, x) => s.touchTlb n x.tag x.ia) s
        let job := s.jobOf n who
        let (op, s) := s.fresh
        let trOf := fun (l : Nat) => (es.find? fun (_, _, x) => x.pa / 64 == l).map fun (_, _, x) => (x.tag, x.ia)
        let occ := if load then 1 else max 1 ((len * w + 511) / 512)
        let s := (s.chain n k (if load then [] else [r]) (if bitAt v 8 then [fld v 6 2] else [])).onCore n fun c =>
          { c with vxuLeft := occ }
        if load then
          let dest := lines.zipIdx.map fun (l, i) =>
            (i, es.filterMap fun (e, _, x) => if x.pa / 64 == l then some (e, x.pa % 64) else none)
          let zeros := if bitAt v 9 then (List.range len).filter (!on ·) else []
          let (s, open_, got) := s.vecReads n op job (lines.zipIdx.map fun (l, i) => (i, l, trOf l))
          .done (s.onCore n fun c => { c with vecOps := c.vecOps ++ [{
            op := op, case := k, reg := r, load := true, width := w, open_ := open_
            got := (lines.length, .ok, natToLe 0 8) :: got
            dest := dest ++ [(lines.length, zeros.map fun e => (e, 0))] }] })
        else
          let x := (s.vread n k r).1
          let runs := lines.map fun l =>
            let mine := es.filter fun (_, _, y) => y.pa / 64 == l
            let bad := mine.any fun (e, _, _) => x.bad.getLsbD (e * w / 64)
            let (m, d) := mine.foldl (fun (acc : BitVec 64 × BitVec 512) (e, _, y) =>
              let mk := maskOf (y.pa % 64) bytes
              (acc.1 ||| mk, mergeLine acc.2 (BitVec.ofNat 512 (elemOf x.val.toNat w e * 2 ^ (8 * (y.pa % 64)))) mk)) (0, 0)
            let va0 := match mine with | (_, a, y) :: _ => a - y.pa % 64 | [] => 0
            (runsOf m.toNat 64).map fun (off, ln) => (l * 64 + off, lineBytes d off ln, bad, va0 + off)
          let flat := runs.flatten.zipIdx
          let (s, open_, got) := s.vecWrites n op job (flat.map fun ((pa, bs, bad, _), i) => (i, pa, bs, bad, trOf (pa / 64)))
          let first := (s.case n k).stores
          let s := s.onCase n k fun c => { c with stores := c.stores + flat.length }
          .done (s.onCore n fun c => { c with vecOps := c.vecOps ++ [{
            op := op, case := k, reg := r, load := false, width := w, open_ := open_, got := got
            dest := flat.map fun ((_, _, _, a), i) => (i, [(a, first + i)]) }] })

/-- Report the failed accesses of a tile or vector store (R126, R175, R249). -/
def State.failRuns (s : State) (n k : Nat) (dest : List (Nat × List (Nat × Nat))) (got : List (Nat × RStat × List Byte)) :
    State :=
  got.foldl (fun s (i, st, _) =>
    if st == .ok || st == .poisoned then s
    else match tabFind dest i with
      | some ((va, order) :: _) => s.failStore n
          { eid := 0, task := s.whoIs n k, order := order, va := BitVec.ofNat 64 va, line := 0, cacheable := false, device := false }
      | _ => s) s

/-- R173: the i-th vector memory operation of core n completes once nothing of it is outstanding. DESIGN CHOICE (log entry 102):
the slots of a line whose access ended in a bus error take bytes of 0, and are poisoned (R175). -/
def State.vecComplete (s : State) (n i : Nat) : State :=
  match (s.core n).vecOps[i]? with
  | none => s
  | some o =>
    if !o.open_.isEmpty then s
    else
      let s := s.onCore n fun c => { c with vecOps := dropAt c.vecOps i }
      if !o.load then s.failRuns n o.case o.dest o.got
      else
        let es := (o.got.map fun (j, st, bs) =>
          match tabFind o.dest j with
          | none => []
          | some l => l.map fun (e, off) =>
              ({ i := e, v := leToNat ((bs.drop off).take (o.width / 8)), bad := st != .ok } : Elem)).flatten
        s.onCase n o.case fun c =>
          let x := VVal.put { val := c.vreg o.reg, bad := c.vregBad o.reg, res := c.vregRes o.reg } o.width es
          if es.isEmpty then c else c.setV o.reg x.val x.bad x.res

/-- A VXU trigger (Table 02-11). -/
def trigVxu (s : State) (n k sock : Nat) (v : Word) : Trig :=
  if s.noVector n k then .fault none fltIllegal
  else
    match sock with
    | 0x190 => s.vxuOp n k v
    | 0x191 => s.vxuMem n k true v
    | 0x192 => s.vxuMem n k false v
    | 0x193 => s.vxuRed n k v
    | 0x194 => s.vxuGet n k v
    | 0x195 => s.vxuPut n k v
    | 0x196 => s.vxuMrd n k v
    | _ => s.vxuMwr n k v

end Sys2Proof.Machine
end

