-- ==== Sys2Proof/Machine/UnitTmu.lean ====
section
/-! DEFINITION. Tiles and the matrix array (chapter 05, R147–R148): shapes, tile loads and stores, the array queue, the matrix,
element-wise, conversion and reduction operations. -/

namespace Sys2Proof.Machine

/-! ### Shapes (R116, R117) -/

/-- The fields of tmu.shape (Table 05-1). -/
structure Shape where
  rows : Nat
  bytes : Nat
  efmt : Nat
  afmt : Nat
  pass : Nat
  n : Nat
  deriving DecidableEq, Repr

/-- Read a shape descriptor. -/
def shapeOf (v : Word) : Shape :=
  { rows := fld v 0 4 + 1, bytes := (fld v 4 4 + 1) * 4, efmt := fld v 8 4, afmt := fld v 12 4, pass := fld v 16 2,
    n := fld v 20 4 + 1 }

/-- Element format of the operands, where the code is not reserved. -/
def Shape.fmt (h : Shape) : EFmt := (efmtOf h.efmt).getD (.flt .fp64)
/-- The accumulator or result format. -/
def Shape.acc (h : Shape) : EFmt := (efmtOf h.afmt).getD (.flt .fp64)
/-- Elements per row. -/
def Shape.elems (h : Shape) : Nat := h.bytes * 8 / h.fmt.width
/-- R117: EFMT is not reserved and B is a multiple of the element size. -/
def Shape.ok (h : Shape) : Bool := (efmtOf h.efmt).isSome && (h.bytes * 8) % h.fmt.width == 0

/-- Row r of a tile, and element j of width w of a row. -/
def rowOf (t : Nat) (r : Nat) : Nat := elemOf t 512 r
def cell (t w r j : Nat) : Nat := elemOf (rowOf t r) w j

/-- A tile from its rows. -/
def tileOf (rows : List Nat) : BitVec 8192 := BitVec.ofNat 8192 (packElems 512 rows)

/-- Bits as row poison. -/
def rowBits (f : Nat → Bool) : BitVec 16 := BitVec.ofNat 16 (packElems 1 ((List.range 16).map fun r => b2n (f r)))

/-- R111, R269: only a task of the full profile has tile registers. -/
def State.noTile (s : State) (n k : Nat) : Bool :=
  match s.whoIs n k with
  | none => true
  | some t => match s.task n t with | none => true | some x => x.prof != 2

/-- TSTART.ROW (Table 05-4). -/
def Casement.startRow (c : Casement) : Nat := fld c.tstart 0 8

/-! ### What operations read and write (R142) -/

/-- Tiles an array operation copies at fill. -/
def ArrKind.copies : ArrKind → List Nat
  | .mma _ a b _ ep _ t => if ep then [a, b, t] else [a, b]
  | .mmc _ a b _ _ => [a, b]
  | .zero _ => []
  | .ew _ a b op => if op < 5 then [a, b] else [a]
  | .cvt _ a => [a]
  | .red _ a _ _ => [a]

/-- Tiles an array operation writes. -/
def ArrKind.writes : ArrKind → List Nat
  | .mma c .. => [c]
  | .mmc c _ _ _ e => [c, e]
  | .zero d => [d]
  | .ew d .. => [d]
  | .cvt d _ => [d]
  | .red d .. => [d]

/-- Tiles an array operation reads: those it copies, and C and E where it does not start from zero. -/
def ArrKind.reads : ArrKind → List Nat
  | .mma c a b z ep m t => ArrKind.copies (.mma c a b z ep m t) ++ if z then [] else [c]
  | .mmc c a b z e => [a, b] ++ if z then [] else [c, e]
  | k => k.copies

/-- Whether two lists meet. -/
def meets (a b : List Nat) : Bool := a.any b.contains

/-- R142: a trigger of casement k that reads and writes the given tiles must wait. `own` is the number of the operation whose rows
the trigger itself goes on issuing. -/
def State.tileBusy (s : State) (n k : Nat) (mem : Bool) (reads writes : List Nat) (own : Option Nat := none) : Bool :=
  let c := s.core n
  (c.tileOps.any fun o => o.case == k && own != some o.op &&
    ((o.load && reads.contains o.tile) || writes.contains o.tile)) ||
  (mem && c.arrayQ.any fun o => o.case == k &&
    (meets (reads ++ writes) o.kind.writes || (!o.filled && meets writes o.kind.copies)))

/-- R363–R366: the core's array queue accepts nothing: current guard, droop, shutter, whose release comes to the clusters in
groups of forty, and the first 64 × DUTY cycles of every
1,024-cycle period. -/
def State.arrayHeld (s : State) (n : Nat) : Bool :=
  s.power.guardStop || s.power.shut || s.power.lift < 300000 + 25000 * (clusterOf n / 40) || (s.cluster (clusterOf n)).droopHold || s.now % 1024 < 64 * s.power.duty.toNat

/-- R119, Table 05-5: count an accepted trigger and show its status. -/
def State.tmuAccept (s : State) (n k ahead cyc : Nat) : State :=
  s.onCase n k fun c =>
    let t := c.ticket + 1
    Casement.addPend { c with ticket := t } .tmuStat 1 (BitVec.ofNat 64 (t.toNat + ahead % 4 * 2 ^ 8 + cyc % 2 ^ 16 * 2 ^ 16))

/-! ### Loads and stores (R121–R129) -/

/-- The parts of [a, a + len) in 64-byte lines: offset from a, length. -/
def lineCuts (a : Nat) : Nat → Nat → List (Nat × Nat)
  | 0, _ => []
  | fuel + 1, len =>
    if len == 0 then []
    else
      let m := min len (64 - a % 64)
      (0, m) :: (lineCuts (a + m) fuel (len - m)).map fun (o, l) => (o + m, l)

/-- Translate the parts of one row. A fault of any of them names the row's address (R125; TFIA is that of the part). DESIGN
CHOICE (log entry 101): the row's address wraps at 4 GiB, its bytes run on from there. -/
def State.rowXlate (s : State) (n k va : Nat) (acc : Acc) : List (Nat × Nat) → Except Trig (List (Nat × Nat × Xl))
  | [] => .ok []
  | (o, l) :: t =>
    match s.xlateWord n k (va + o) acc with
    | .inr (.fault g f) => .error (.fault g { f with va := va })
    | .inr r => .error r
    | .inl x => match s.rowXlate n k va acc t with
      | .ok ps => .ok ((o, l, x) :: ps)
      | .error e => .error e

/-- A checked row: its number, virtual address, and translated parts. -/
structure TileRow where
  row : Nat
  va : Nat
  parts : List (Nat × Nat × Xl)

/-- R124, R125: check rows in order: all of them, or those before a row that waits or faults, with that row. A row also waits
for the task's older stores and bypassing accesses to its lines (R231, R246). -/
def State.rowsCheck (s : State) (n k len align : Nat) (acc : Acc) : List (Nat × Nat) → List TileRow × Option (Nat × Trig)
  | [] => ([], none)
  | (r, va) :: t =>
    if va % align != 0 then ([], some (r, .fault none fltAlign))
    else
      match s.rowXlate n k va acc (lineCuts va 4 len) with
      | .error e => ([], some (r, e))
      | .ok ps =>
        let who := s.whoIs n k
        if ps.any fun (_, _, x) => s.storesTo n who (x.pa / 64) || s.bypassBusy n who (x.pa / 64)
        then ([], some (r, .wait .trigger []))
        else
        let (l, e) := s.rowsCheck n k len align acc t
        ({ row := r, va := va, parts := ps } :: l, e)

/-- Read the parts of the rows: local ones at once, others by GETs. -/
def State.tileReads (s : State) (n op : Nat) (job : BitVec 12) :
    List (Nat × Nat × Nat × Option (Nat × Nat)) → State × List Nat × List (Nat × RStat × List Byte)
  | [] => (s, [], [])
  | (idx, pa, len, tr) :: t =>
    let (s, o, g) : State × List Nat × List (Nat × RStat × List Byte) :=
      if s.near n pa then
        match s.readPa pa len (some n) with
        | (s, st, bs) => (s, [], [(idx, st, bs)])
      else
        match s.reach n pa (getMsg job len) (.tile n op idx) tr with
        | (s, none) => (s, [idx], [])
        | (s, some st) => (s, [], [(idx, st, [])])
    let (s, o', g') := s.tileReads n op job t
    (s, o ++ o', g ++ g')

/-- Write the runs of the rows. -/
def State.tileWrites (s : State) (n op : Nat) (job : BitVec 12) :
    List (Nat × Nat × List Byte × Bool × Option (Nat × Nat)) → State × List Nat × List (Nat × RStat × List Byte)
  | [] => (s, [], [])
  | (idx, pa, bs, bad, tr) :: t =>
    let (s, o, g) : State × List Nat × List (Nat × RStat × List Byte) :=
      if s.near n pa then
        match s.writePa pa bs bad (some n) with
        | (s, st) => (s, [], [(idx, st, [])])
      else
        match s.reach n pa (putMsg job bs bad) (.tile n op idx) tr with
        | (s, none) => (s, [idx], [])
        | (s, some st) => (s, [], [(idx, st, [])])
    let (s, o', g') := s.tileWrites n op job t
    (s, o ++ o', g ++ g')

/-- R123: the bytes of a row that a store writes. -/
def storeMask (h : Shape) (cmask : Word) : Nat :=
  let z := h.fmt.width / 8
  packElems 1 ((List.range h.bytes).map fun b => if cmask.getLsbD (if z == 0 then b else b / z) then 0 else 1)

/-- Put the checked rows of an operation into their data phase: a new one, or the one whose rows went on to issue. `c` is the
casement with the operands the trigger uses, `own` the number of the operation begun before. -/
def State.tileIssue (s : State) (n k : Nat) (c : Casement) (own : Option Nat) (load transposed final : Bool)
    (tile lo hi : Nat) (rows : List TileRow) : State :=
  let shape := c.opnd_ 0x280
  let h := shapeOf shape
  let s := rows.foldl (fun s r => r.parts.foldl (fun s (_, _, x) => s.touchTlb n x.tag x.ia) s) s
  let job := s.jobOf n (s.whoIs n k)
  let begun := (s.core n).tileOps.find? fun o => own == some o.op
  let (op, s) := match begun with | some o => (o.op, s) | none => s.fresh
  let at_ := match begun with | some o => o.dest.length | none => 0
  let (s, open_, got, dest) : State × List Nat × List (Nat × RStat × List Byte) × List (Nat × List (Nat × Nat)) :=
    if load then
      let parts := (rows.map fun r => r.parts.map fun (o, l, x) => (r.row, o, l, x)).flatten.zipIdx at_
      let (s, a, b) := s.tileReads n op job (parts.map fun ((_, _, l, x), i) => (i, x.pa, l, some (x.tag, x.ia)))
      (s, a, b, parts.map fun ((r, o, _, _), i) => (i, [(r, o)]))
    else
      let m := storeMask h (c.opnd_ 0x284)
      let s := s.scanTile n k tile (rowBits fun r => rows.any (·.row == r))
      let t := (c.tile tile).toNat
      let bad := (s.case n k).tileBad tile
      let runs := (rows.zipIdx.map fun (r, j) => (r.parts.map fun (o, l, x) =>
        (runsOf (bitsOf m o l) l).map fun (a, len) =>
          (x.pa + a, natToLe (rowOf t r.row >>> (8 * (o + a))) len, bad.getLsbD r.row, some (x.tag, x.ia), r.va, (s.case n k).stores + j)).flatten).flatten.zipIdx at_
      let s := s.onCase n k fun c => { c with stores := c.stores + rows.length }
      let (s, a, b) := s.tileWrites n op job (runs.map fun ((pa, bs, bd, tr, _, _), i) => (i, pa, bs, bd, tr))
      (s, a, b, runs.map fun ((_, _, _, _, va, ord), i) => (i, [(va, ord)]))
  let s := s.onCase n k fun c => { c with rowNext := if final then none else some (op, hi) }
  let more := fun (o : TileOp) => if o.op == op
    then { o with hi := hi, final := final, open_ := o.open_ ++ open_, got := o.got ++ got, dest := o.dest ++ dest } else o
  s.onCore n fun c => { c with tileOps := match begun with
    | some _ => c.tileOps.map more
    | none => c.tileOps ++ [{
        op := op, case := k, tile := tile, load := load, transposed := transposed, shape := shape, lo := lo, hi := hi
        final := final, open_ := open_, got := got, dest := dest }] }

/-- Set TSTART.ROW; a row issue in progress is over. -/
def State.setRow (s : State) (n k r : Nat) : State :=
  s.onCase n k fun c => Casement.touch { c with tstart := setFld c.tstart 0 8 r, rowNext := none } 0

/-- tmu.ld, tmu.ldt (transposed) and tmu.st (R121–R125). Rows before one that waits issue at once and the word goes on from
that row when it is tried again; rows before one that faults complete (R124, R125). -/
def State.tileMem (s : State) (n k : Nat) (load transposed : Bool) (v : Word) : Trig :=
  let c := s.case n k
  let h := shapeOf (c.opnd_ 0x280)
  let own := c.rowNext.map (·.1)
  let lo := match c.rowNext with | some (_, r) => r | none => c.startRow
  let hi := if transposed then h.elems else h.rows
  let tile := fld v 0 3
  let w := h.fmt.width
  if !h.ok || lo ≥ hi || (transposed && w == 4 && h.rows % 2 == 1) then .fault none fltIllegal
  else if own.isNone && (s.core n).tileOps.length ≥ 4 then .wait .trigger []
  else if s.tileBusy n k true (if load then [] else [tile]) (if load then [tile] else []) own then .wait .trigger []
  else if c.keyDue then .wait .read []
  else
    let len := if transposed then h.rows * w / 8 else h.bytes
    let base := fld (c.opnd_ 0x281) 0 32
    let strd := signedOf (c.opnd_ 0x282).toNat 32
    let skip := c.opnd_ 0x283
    let nums := ((List.range hi).drop lo).filter fun r => load || !skip.getLsbD r
    let rows := nums.map fun (r : Nat) => (r, c.short (ofInt (Int.ofNat base + Int.ofNat r * strd) 32))
    let (ok, err) := s.rowsCheck n k len (max 1 (w / 8)) (if load then .read else .write) rows
    let part := fun (r : Nat) (b : State) => if ok.isEmpty then b else b.tileIssue n k c own load transposed false tile lo r ok
    match err with
    | none => .done (((s.tileIssue n k c own load transposed true tile lo hi ok).setRow n k 0).tmuAccept n k 0 0)
    | some (r, .fault _ f) => .fault (some fun b => (part r b).setRow n k r) f
    | some (r, .wait kind reqs) => if ok.isEmpty then .wait kind reqs else .pause (part r) reqs
    | some (_, t) => t

/-- The bytes that came for row r of a load, and whether some of them were lost. DESIGN CHOICE (log entry 102): the bytes of an
access that ended in a bus error are 0; the row is poisoned (R126). -/
def TileOp.rowData (o : TileOp) (r : Nat) : Nat × Bool :=
  o.got.foldl (fun (a : Nat × Bool) (i, st, bs) =>
    match tabFind o.dest i with
    | some ((r', off) :: _) => if r' == r then (a.1 + leToNat bs * 2 ^ (8 * off), a.2 || st != .ok) else a
    | _ => a) (0, false)

/-- The tile after a load's rows have come (R113, R121, R122, R127): value, poison, residue poison. DESIGN CHOICE (log entry
103): a row a stopped load has written has the poison of the loaded bytes alone, though bytes outside the shape are old. -/
def TileOp.loaded (o : TileOp) (c : Casement) : BitVec 8192 × BitVec 16 × BitVec 16 :=
  let h := shapeOf o.shape
  let w := h.fmt.width
  let old := (c.tile o.tile).toNat
  let ob := c.tileBad o.tile
  let orr := c.tileRes o.tile
  let data := (List.range o.hi).map fun r => if r < o.lo then (0, false) else o.rowData r
  let keepOut := fun (r x : Nat) => if o.final then x else setBitsOf (rowOf old r) 0 (8 * h.bytes) x
  if !o.transposed then
    let row := fun (r : Nat) =>
      if o.lo ≤ r && r < o.hi then keepOut r ((data.getD r (0, false)).1 % 2 ^ (8 * h.bytes))
      else if o.final then (if r < o.lo then rowOf old r % 2 ^ (8 * h.bytes) else 0)
      else rowOf old r
    let keep := fun (r : Nat) => r < o.lo || (!o.final && r ≥ o.hi)
    (tileOf ((List.range 16).map row),
     rowBits fun r => if keep r then ob.getLsbD r else (o.lo ≤ r && r < o.hi) && (data.getD r (0, false)).2,
     rowBits fun r => keep r && orr.getLsbD r)
  else
    let any := ((List.range o.hi).drop o.lo).any fun j => (data.getD j (0, false)).2
    let row := fun (i : Nat) =>
      if i ≥ h.rows then (if o.final then 0 else rowOf old i)
      else
        let x := ((List.range o.hi).drop o.lo).foldl
          (fun a j => setBitsOf a (w * j) w (elemOf (data.getD j (0, false)).1 w i)) (rowOf old i)
        if o.final then x % 2 ^ (8 * h.bytes) else x
    let part := o.lo > 0 || !o.final
    (tileOf ((List.range 16).map row),
     rowBits fun i => if i < h.rows then any || (part && ob.getLsbD i) else !o.final && ob.getLsbD i,
     rowBits fun i => if i < h.rows then part && orr.getLsbD i else !o.final && orr.getLsbD i)

/-- The rows of an operation go on issuing: its trigger waits to be tried again. While the block drains no word issues, so what
has issued completes by itself (R349). -/
def State.rowsComing (s : State) (n : Nat) (o : TileOp) : Bool :=
  (s.case n o.case).rowNext.any (·.1 == o.op) && s.drain.st == .run && (s.core n).lockCause == 0

/-- R124: the i-th tile memory operation of core n completes once its rows have issued and nothing of it is outstanding. -/
def State.tileComplete (s : State) (n i : Nat) : State :=
  match (s.core n).tileOps[i]? with
  | none => s
  | some o =>
    if !o.open_.isEmpty || s.rowsComing n o then s
    else
      let s := s.onCore n fun c => { c with tileOps := dropAt c.tileOps i }
      let s := if o.load && (o.lo != 0 || !o.final) then s.scanTiles n o.case [o.tile] else s
      if o.load then s.onCase n o.case fun c => let (v, b, r) := o.loaded c; c.setTile o.tile v b r
      else s.failRuns n o.case o.dest o.got

/-! ### Arithmetic of the array (R132–R137, R147–R148) -/

/-- A value of the array's accumulator with what it met: saturation and flush. -/
structure ARes where
  code : Nat
  sat : Bool := false
  flz : Bool := false
  c : Contrib := {}
  deriving DecidableEq, Repr

/-- R133: acc() of a floating accumulator format. -/
def accF (f : FFmt) (x : XV) : ARes :=
  match x with
  | .nan => { code := f.nan }
  | .inf neg => { code := f.max neg, sat := true }
  | .fin neg m e st =>
    let r := roundTo f 0 neg m e st
    if r.ovf then { code := f.max neg, sat := true } else { code := packFin f neg r, flz := r.flushed }

/-- Keep what a step met beside what came before. -/
def ARes.after (r p : ARes) : ARes := { r with sat := r.sat || p.sat, flz := r.flz || p.flz, c := p.c.join r.c }

/-- One multiply-accumulate step of the short class: c + acc(a × b). -/
def stepF (f g : FFmt) (c : ARes) (a b : Nat) : ARes :=
  let p := accF g (xmul (f.decode a) (f.decode b))
  (accF g (xadd 0 (g.decode c.code) (g.decode p.code))).after (p.after c)

/-- A sum saturated into an integer accumulator (R133). -/
def accI (w : Nat) (s : Bool) (v : Int) : ARes :=
  let r := intSat w s v
  { code := r.code, sat := r.c.nsat != 0 }

/-- The two W16 pieces of an FP32 element (R147). -/
def pieces (a : Nat) : Nat × Nat :=
  let hi := a / 65536
  match FFmt.fp32.decode a with
  | .nan => (0x7FC0, 0)
  | .inf _ => (hi, 0)
  | .fin s m e st =>
    if m == 0 then (hi, 0)
    else (hi, engineFinish .w16 (xadd 0 (.fin s m e st) (xneg (FFmt.w16.decode hi))))

/-- The multi-pass product of one element (R148). -/
def multiPass (pass : Nat) (c : ARes) (ab : List (Nat × Nat)) : ARes :=
  let ps := ab.map fun (a, b) => (pieces a, pieces b)
  let hh := fun (c : ARes) => ps.foldl (fun c (a, b) => stepF .w16 .fp32 c a.1 b.1) c
  match pass with
  | 1 => hh c
  | 2 =>
    let c := hh c
    let x := ps.foldl (fun x (a, b) => stepF .w16 .w16 (stepF .w16 .w16 x a.1 b.2) a.2 b.1) ({ code := 0 } : ARes)
    (accF .fp32 (xadd 0 (FFmt.fp32.decode c.code) (FFmt.w16.decode x.code))).after (x.after c)
  | _ =>
    let c := ps.foldl (fun c (a, b) => stepF .w16 .fp32 c a.2 b.1) c
    let c := ps.foldl (fun c (a, b) => stepF .w16 .fp32 c a.1 b.2) c
    hh c

/-- One output element of tmu.mma before its epilogue (R132). -/
def mmaElem (h : Shape) (rm c0 : Nat) (ab : List (Nat × Nat)) : ARes :=
  let c : ARes := { code := c0 }
  match h.fmt, h.acc with
  | .int w s, .int wc sc =>
    ab.foldl (fun c (a, b) => (accI wc sc (intVal wc sc c.code + intVal w s a * intVal w s b)).after c) c
  | .flt f, .flt g =>
    if f.ieee && h.pass == 0 then
      ab.foldl (fun c (a, b) => let r := ffma g rm false false a b c.code; ARes.after { code := r.code, c := r.c } c) c
    else if h.pass != 0 then multiPass h.pass c ab
    else ab.foldl (fun c (a, b) => stepF f g c a b) c
  | _, _ => c

/-- The epilogue of an output element (R137). -/
def epilogue (h : Shape) (rm : Nat) (mul : Bool) (c : ARes) (t : Nat) : ARes :=
  match h.acc with
  | .int w s =>
    let x := intVal w s c.code
    let y := intVal w s t
    (accI w s (if mul then x * y else x + y)).after c
  | .flt g =>
    if h.fmt.isFlt && (match h.fmt with | .flt f => f.ieee | _ => false) && h.pass == 0 then
      let r := if mul then fmul g rm c.code t else fadd g rm c.code t
      ARes.after { code := r.code, c := r.c } c
    else
      let x := if mul then xmul (g.decode c.code) (g.decode t) else xadd 0 (g.decode c.code) (g.decode t)
      (accF g x).after c

/-- One step of tmu.mmc on (c, e) (R135). -/
def mmcStep (f : FFmt) (ce : ARes × ARes) (a b : Nat) : ARes × ARes :=
  let (c, e) := ce
  let p := accF .fp32 (xmul (f.decode a) (f.decode b))
  let x := xadd 0 (FFmt.fp32.decode c.code) (FFmt.fp32.decode p.code)
  let s := accF .fp32 x
  let nan := FFmt.fp32.isNan s.code
  let t := if s.sat || nan then XV.fin false 0 0 false else xadd 0 x (xneg (FFmt.fp32.decode s.code))
  let e' := (accF .fp32 (xadd 0 (FFmt.fp32.decode e.code) t)).after e
  (s.after (p.after c), if nan then { e' with code := FFmt.fp32.nan } else e')

/-! ### Other array operations (R138–R140) -/

/-- One element of tmu.ew (Table 05-8). DESIGN CHOICE (log entry 104): NEG of a nonzero element of an unsigned format
saturates to 0 and counts. -/
def ewElem (f : EFmt) (op rm a b : Nat) : FRes :=
  match f with
  | .flt g =>
    match op with
    | 0 => fadd g rm a b
    | 1 => fsub g rm a b
    | 2 => fmul g rm a b
    | 3 => fmaxmin g true a b
    | 4 => fmaxmin g false a b
    | 5 => { code := fsign g 0 a }
    | 6 => { code := fsign g 1 a }
    | _ => { code := fsign g 2 a }
  | .int w s =>
    let x := intVal w s a
    let y := intVal w s b
    match op with
    | 0 => intSat w s (x + y)
    | 1 => intSat w s (x - y)
    | 2 => intSat w s (x * y)
    | 3 => { code := if x < y then b else a }
    | 4 => { code := if y < x then b else a }
    | 5 => { code := a }
    | 6 => intSat w s x.natAbs
    | _ => intSat w s (-x)

/-- R99, Table 05-9: AFMT holds every value of EFMT, for a sum. -/
def sumHolds (e a : EFmt) : Bool :=
  match e, a with
  | .flt f, .flt g => (g == .fp64 || g == .fp32 || g == .w16) &&
      (f == g || g == .fp64 || (g == .fp32 && f != .fp64) || (g == .w16 && f.short8))
  | .int w _, .flt g =>
    (match g with | .fp64 => w ≤ 32 | .fp32 => w ≤ 16 | .w16 => w ≤ 8 | _ => false)
  | .int w _, .int z _ => (z == 32 || z == 64) && w ≤ z
  | .flt _, .int _ _ => false

/-- Each counter counts at most once for a result element (R102). -/
def FRes.once (r : FRes) : FRes := { r with c := { r.c with nsat := min 1 r.c.nsat, nflz := min 1 r.c.nflz } }

/-- Add converted elements in order (Table 05-9). -/
def sumAll (a : EFmt) (rm : Nat) : List FRes → FRes
  | [] => { code := 0 }
  | x :: t => t.foldl (fun r y =>
      let z := match a with
        | .flt g => fadd g rm r.code y.code
        | .int w s => intSat w s (intVal w s r.code + intVal w s y.code)
      { z with c := (r.c.join y.c).join z.c }) x

/-- One reduction over a list of element codes, by OP. -/
def redAll (e a : EFmt) (op rm : Nat) (xs : List Nat) : FRes :=
  match op with
  | 0 => (sumAll a rm (xs.map (convert e a rm))).once
  | o => match e with
    | .flt f => fextreme f (o == 1) xs
    | .int w s => { code := iextreme w s (o == 1) xs }

/-- Rows of a tile from a list of packed elements of width z bits, 512 bits a row (R140, AXIS 1). -/
def packRows (z : Nat) (xs : List Nat) : List Nat :=
  let all := packElems z xs
  (List.range 16).map fun r => elemOf all 512 r

/-! ### Legality and cycles -/

/-- Half cycles for each K step of tmu.mma (Table 05-7); none: an illegal pairing. -/
def mmaHalves (h : Shape) : Option Nat :=
  if h.pass != 0 then (if h.efmt == 1 && h.afmt == 1 then some (2 * h.pass) else none)
  else
    match h.efmt, h.afmt with
    | 2, 1 => some 2 | 3, 1 => some 2 | 4, 1 => some 2
    | 2, 2 => some 1 | 3, 2 => some 1 | 4, 2 => some 1
    | 7, 0xA => some 2 | 8, 0xA => some 2 | 5, 0xA => some 2 | 6, 0xA => some 2
    | 7, 9 => some 1 | 8, 9 => some 1 | 5, 9 => some 1 | 6, 9 => some 1
    | 1, 1 => some 8
    | 0, 0 => some 16
    | _, _ => none

/-- The operation a trigger names, for its socket. -/
def arrKindOf (sock : Nat) (v : Word) : ArrKind :=
  let a := fld v 3 3
  let b := fld v 6 3
  let d := fld v 0 3
  match sock with
  | 0x293 => .mma d a b (bitAt v 9) (bitAt v 10) (bitAt v 11) (fld v 12 3)
  | 0x294 => .mmc d a b (bitAt v 9) (fld v 12 3)
  | 0x295 => .zero d
  | 0x296 => .ew d a b (fld v 9 4)
  | 0x297 => .cvt d a
  | _ => .red d a (fld v 6 2) (fld v 8 2)

/-- R117, R120, R130, R137–R140: whether an array operation is legal for a shape; its compute cycles when it is. tmu.zero uses
no format code (log entry 129). -/
def arrLegal (h : Shape) (k : ArrKind) : Option Nat :=
  match k with
  | .zero _ => if (efmtOf h.efmt).isSome && !h.ok then none else some 1
  | .mma c a b _ ep _ t =>
    if !h.ok || (efmtOf h.afmt).isNone || c == a || c == b || (ep && t == c) || h.n * h.acc.width > 512 then none
    else (mmaHalves h).map fun x => h.elems * x / 2
  | .mmc c a b _ e =>
    if !h.ok || c == a || c == b || e == c || e == a || e == b || h.pass != 0 || h.afmt != 1 || !inR h.efmt 2 4 then none
    else some (2 * h.elems)
  | .ew _ _ _ op => if !h.ok || op ≥ 8 then none else some h.rows
  | .cvt _ _ =>
    if !h.ok || (efmtOf h.afmt).isNone then none
    else
      let bits := h.elems * h.acc.width
      if (bits + 31) / 32 * 4 > 64 || (h.acc.width == 4 && h.elems % 2 == 1) then none else some h.rows
  | .red _ _ axis op =>
    if !h.ok || axis == 3 || op == 3 then none
    else if op == 0 && ((efmtOf h.afmt).isNone || !sumHolds h.fmt h.acc) then none
    else some (h.rows + if axis == 2 then 12 else 8)

/-- Operand rows of a tile an operation reads: tile and number of rows (R145). -/
def ArrKind.operands (h : Shape) : ArrKind → List (Nat × Nat)
  | .mma c a b z ep _ t => [(a, h.rows), (b, h.n)] ++ (if z then [] else [(c, h.rows)]) ++ if ep then [(t, h.rows)] else []
  | .mmc c a b z e => [(a, h.rows), (b, h.n)] ++ if z then [] else [(c, h.rows), (e, h.rows)]
  | k => k.copies.map fun t => (t, h.rows)

/-- R145: the fault of a poisoned operand row already written. -/
def State.rowFault (s : State) (n k : Nat) (h : Shape) (kind : ArrKind) : Option Flt :=
  let c := s.case n k
  let due := fun (t : Nat) => (s.core n).arrayQ.any fun o => o.case == k && o.kind.writes.contains t
  let hit := (kind.operands h).filter fun (t, r) => !due t && (c.tileBad t).toNat % 2 ^ r != 0
  if hit.isEmpty then none
  else if hit.any fun (t, r) => ((c.tileBad t) &&& (c.tileRes t)).toNat % 2 ^ r != 0 then some { cls := clsRESIDUE }
  else some { cls := clsPOISON }

/-- An array-path trigger (R118, R120, R141–R145). The operations ahead that write a tile it reads are marked, for the reads of
R95. -/
def State.arrTrig (s : State) (n k sock : Nat) (v : Word) : Trig :=
  let c := s.case n k
  let shape := c.opnd_ 0x280
  let h := shapeOf shape
  let kind := arrKindOf sock v
  if c.startRow != 0 then .fault none fltIllegal
  else
    match arrLegal h kind with
    | none => .fault none fltIllegal
    | some cyc =>
      let q := (s.core n).arrayQ
      if q.length ≥ 3 || s.arrayHeld n then .wait .trigger []
      else if s.tileBusy n k false kind.reads kind.writes then .wait .trigger []
      else
        match s.rowFault n k h kind with
        | some f => .fault none f
        | none =>
          let zero := match kind with | .zero _ => true | _ => false
          let op : ArrOp := { case := k, kind := kind, shape := shape, rm := BitVec.ofNat 3 c.rm, filled := zero }
          let note := fun (p : ArrOp) => if p.case == k && meets p.kind.writes kind.reads then { p with chained := true } else p
          .done ((s.onCore n fun x => { x with arrayQ := x.arrayQ.map note ++ [op] }).tmuAccept n k q.length (if zero then 0 else cyc))

/-! ### The queue (R143) -/

/-- The earliest operation that has not been filled, with its place. -/
def firstUnfilled (q : List ArrOp) : Option (Nat × ArrOp) := (q.zipIdx.find? fun (o, _) => !o.filled).map fun (o, i) => (i, o)

/-- Rows of the result that marked rows of the copied tiles mark: a matrix operation's row m of A and T its row m, a row of B all
of them; of a reduction's operand, row m its row m where the reduction runs along the rows (AXIS 0), else all of them. -/
def ArrKind.spread (h : Shape) (kind : ArrKind) (mark : Nat → BitVec 16) : BitVec 16 :=
  let at_ := fun (j : Nat) => match kind.copies[j]? with | some x => mark x | none => 0
  let whole := fun (x : BitVec 16) (rows : Nat) => if x.toNat % 2 ^ rows != 0 then BitVec.allOnes 16 else 0
  match kind with
  | .ew .. => at_ 0 ||| at_ 1
  | .red _ _ axis _ => if axis == 0 then at_ 0 else whole (at_ 0) h.rows
  | .mma .. | .mmc .. => at_ 0 ||| at_ 2 ||| whole (at_ 1) h.n
  | _ => at_ 0

/-- R143: fill: the operand tiles are copied, unless an operation ahead of it has still to write one of them. -/
def State.arrayFill (s : State) (n : Nat) : State :=
  let q := (s.core n).arrayQ
  match firstUnfilled q with
  | none => s
  | some (i, o) =>
    if (q.take i).any fun p => p.case == o.case && meets p.kind.writes o.kind.copies then s
    else
      let l := o.kind.copies
      let s := s.scanTiles n o.case l
      let c := s.case n o.case
      let t := fun (j : Nat) => match l[j]? with | some x => c.tile x | none => 0
      let h := shapeOf o.shape
      s.onCore n fun x => { x with arrayQ := modifyAt (fun o : ArrOp =>
        { o with
          filled := true, opA := t 0, opB := t 1, opT := t 2, poison := o.kind.spread h c.tileBad
          residue := o.kind.spread h fun x => c.tileBad x &&& c.tileRes x }) x.arrayQ i }

/-- Start the compute of the first operation of a queue whose compute has not started, once its fill is done. -/
def startFirst : List ArrOp → List ArrOp
  | [] => []
  | o :: t => if o.computing then o :: startFirst t else { o with computing := o.filled } :: t

/-- R143: compute starts once the operation's fill is done; the compute of the operation before it has ended, its write-back
may still run. -/
def State.arrayStart (s : State) (n : Nat) : State := s.onCore n fun c => { c with arrayQ := startFirst c.arrayQ }

/-- What an operation writes: tiles with their rows and how many rows carry results, and its contributions. -/
structure ArrOut where
  tiles : List (Nat × List Nat × Nat)
  c : Contrib := {}

/-- Contributions of a matrix operation (R102, R134): saturated and flushed elements, SAT bits of the tiles that saturated,
flags. -/
def matContrib (els : List ARes) (tiles : List (Nat × Bool)) : Contrib :=
  let x := joinAll (els.map (·.c))
  { x with
    nsat := (els.filter (·.sat)).length, nflz := (els.filter (·.flz)).length
    sat := BitVec.ofNat 8 (tiles.foldl (fun a (t, b) => if b then a ||| 2 ^ t else a) 0) }

/-- The result of an operation on its latched operands, with C and E as the casement holds them. -/
def ArrOp.compute (o : ArrOp) (c : Casement) : ArrOut :=
  let h := shapeOf o.shape
  let rm := o.rm.toNat
  let A := o.opA.toNat
  let B := o.opB.toNat
  let w := h.fmt.width
  let wa := h.acc.width
  let ks := List.range h.elems
  let ms := List.range h.rows
  match o.kind with
  | .mma ct _ _ z ep epm _ =>
    let cold := (c.tile ct).toNat
    let ieee := (match h.fmt with | .flt f => f.ieee | _ => false) && h.pass == 0
    let rows := ms.map fun m => (List.range h.n).map fun j =>
      let r := mmaElem h rm (if z then 0 else cell cold wa m j) (ks.map fun k => (cell A w m k, cell B w j k))
      if ep then epilogue h rm epm r (cell o.opT.toNat wa m j) else r
    let els := rows.flatten
    { tiles := [(ct, rows.map fun r => packElems wa (r.map (·.code)), h.rows)]
      c := if ieee then joinAll (els.map (·.c)) else matContrib els [(ct, els.any (·.sat))] }
  | .mmc ct _ _ z et =>
    let f : FFmt := match h.fmt with | .flt f => f | _ => .w16
    let cold := (c.tile ct).toNat
    let eold := (c.tile et).toNat
    let rows := ms.map fun m => (List.range h.n).map fun j =>
      ks.foldl (fun ce k => mmcStep f ce (cell A w m k) (cell B w j k))
        (({ code := if z then 0 else cell cold 32 m j } : ARes), ({ code := if z then 0 else cell eold 32 m j } : ARes))
    let els := rows.flatten
    let both := els.map fun (x, y) => ({ code := 0, sat := x.sat || y.sat, flz := x.flz || y.flz } : ARes)
    { tiles := [(ct, rows.map fun r => packElems 32 (r.map (·.1.code)), h.rows),
                (et, rows.map fun r => packElems 32 (r.map (·.2.code)), h.rows)]
      c := let any := both.any (·.sat)
        matContrib both [(ct, any), (et, any)] }
  | .zero d => { tiles := [(d, [], 0)] }
  | .ew d _ _ op =>
    let rows := ms.map fun m => ks.map fun j => ewElem h.fmt op rm (cell A w m j) (cell B w m j)
    { tiles := [(d, rows.map fun r => packElems w (r.map (·.code)), h.rows)], c := joinAll (rows.flatten.map (·.c)) }
  | .cvt d _ =>
    let rows := ms.map fun m => ks.map fun j =>
      let a := cell A w m j
      let r := convert h.fmt h.acc rm a
      ({ r with c := { r.c with rmax := magnitude h.fmt a } } : FRes)
    { tiles := [(d, rows.map fun r => packElems wa (r.map (·.code)), h.rows)], c := joinAll (rows.flatten.map (·.c)) }
  | .red d _ axis op =>
    let z := if op == 0 then wa else w
    let at_ := fun (m j : Nat) => cell A w m j
    match axis with
    | 0 =>
      let rs := ms.map fun m => redAll h.fmt h.acc op rm (ks.map (at_ m))
      { tiles := [(d, rs.map (·.code), h.rows)], c := joinAll (rs.map (·.c)) }
    | 1 =>
      let rs := ks.map fun j => redAll h.fmt h.acc op rm (ms.map fun m => at_ m j)
      { tiles := [(d, packRows z (rs.map (·.code)), (h.elems * z + 511) / 512)], c := joinAll (rs.map (·.c)) }
    | _ =>
      let r := if op == 0 then
          (sumAll h.acc rm (ms.map fun m => sumAll h.acc rm (ks.map fun j => convert h.fmt h.acc rm (at_ m j)))).once
        else redAll h.fmt h.acc op rm (ms.map fun m => ks.map (at_ m)).flatten
      { tiles := [(d, [r.code], 1)], c := r.c }

/-- The tiles an operation reads as it accumulates: C, and E of tmu.mmc. -/
def ArrKind.inputs : ArrKind → List Nat
  | .mma c _ _ z _ _ _ => if z then [] else [c]
  | .mmc c _ _ z e => if z then [] else [c, e]
  | _ => []

/-- Those of them that the rows written to tile t derive from: C of tmu.mmc takes nothing from E (R135). -/
def ArrKind.inputsOf (k : ArrKind) (t : Nat) : List Nat :=
  match k with
  | .mmc c _ _ _ _ => if t == c then k.inputs.filter (· == c) else k.inputs
  | _ => k.inputs

/-- R143–R145: the operation at the head completes: its tiles are written, its contributions land. DESIGN CHOICE (log entry
105): a row that an operation derives from a residue-poisoned row keeps the residue mark. -/
def State.arrayComplete (s : State) (n : Nat) : State :=
  match (s.core n).arrayQ with
  | [] => s
  | o :: rest =>
    if !o.computing then s
    else
      let h := shapeOf o.shape
      let wrong := (s.core n).badArray && (match o.kind with | .zero _ => false | _ => true)
      let s := if wrong then s.mismatch n 2 else s
      let s := s.scanTiles n o.case o.kind.inputs
      (s.onCore n fun c => { c with arrayQ := rest }).onCase n o.case fun c =>
        let out := o.compute c
        let bad := c.tileBad
        let res := fun (t : Nat) => c.tileBad t &&& c.tileRes t
        let from_ := fun (t : Nat) (own : BitVec 16) (mark : Nat → BitVec 16) => (o.kind.inputsOf t).foldl (fun a t => a ||| mark t) own
        let c := out.tiles.foldl (fun (c : Casement) (t, rows, used) =>
          let rowsOf := fun (m : BitVec 16) => if wrong then BitVec.allOnes 16 else rowBits fun r => r < used && m.getLsbD r
          c.setTile t (tileOf rows) (rowsOf (from_ t o.poison bad)) (rowsOf (from_ t o.residue res))) c
        c.landNow (if h.ok then out.c else {})

/-- A TMU trigger (Table 02-11). -/
def trigTmu (s : State) (n k sock : Nat) (v : Word) : Trig :=
  if s.noTile n k then .fault none fltIllegal
  else
    match sock with
    | 0x290 => s.tileMem n k true false v
    | 0x291 => s.tileMem n k true true v
    | 0x292 => s.tileMem n k false false v
    | _ => s.arrTrig n k sock v

end Sys2Proof.Machine
end

