-- ==== Sys2Proof/Machine/UnitXmu.lean ====
section
/-! DEFINITION. The transfer unit (R193–R197, R426): descriptor queues, the start of descriptors, their completion. -/

namespace Sys2Proof.Machine

/-! ### The queues (R193, R197) -/

/-- The queues of the task of casement k, or of the keeper. -/
def State.queues (s : State) (n k : Nat) : Tab XQueue :=
  match s.whoIs n k with
  | none => (s.core n).kxq
  | some t => match s.task n t with | none => [] | some x => x.xq

/-- Change queue q of the task of casement k. -/
def State.onQueue (s : State) (n k q : Nat) (f : XQueue → XQueue) : State :=
  let g := fun (t : Tab XQueue) => tabSet {} t q (f (tabGet {} t q))
  match s.whoIs n k with
  | none => s.onCore n fun c => { c with kxq := g c.kxq }
  | some t => s.onTask n t fun x => { x with xq := g x.xq }

/-- The sequence number after `q` (Table 08-9). -/
def nextSeq (q : BitVec 8) : BitVec 8 := if q == 255 then 1 else q + 1

/-- xmu.qN (R197): MISAL, HALT or FULL, in this precedence, or the descriptor is enqueued. -/
def State.enqueue (s : State) (n k q : Nat) (v : Word) : Trig :=
  let x := tabGet ({} : XQueue) (s.queues n k) q
  let va := fld v 0 48
  if va % 32 != 0 then s.result n k .xmuRes 2 8
  else if x.halt then s.result n k .xmuRes 2 4
  else if x.items.length ≥ 8 then s.result n k .xmuRes 2 2
  else
    let c := s.case n k
    let (id, s) := s.fresh
    let i : XItem := {
      id := id, seq := x.nextSeq, addr := BitVec.ofNat 48 va, order := (s.core n).xmuOrder, strict := bitAt c.rdc 0
      rank := BitVec.ofNat 16 (fld c.asl 0 16), size := BitVec.ofNat 16 (fld c.asl 16 16) }
    let s := s.onQueue n k q fun y => { y with items := y.items ++ [i], nextSeq := nextSeq y.nextSeq }
    (s.onCore n fun c => { c with xmuOrder := c.xmuOrder + 1 }).result n k .xmuRes 2 (BitVec.ofNat 64 (1 + x.nextSeq.toNat * 256))

/-- FLUSH: every descriptor that has not started ends with CANCELLED (R197). -/
def XQueue.flush (q : XQueue) : XQueue :=
  { q with items := q.items.map fun i : XItem =>
      if i.phase == .queued then { i with phase := .ended, outcome := some { code := 0x80 } } else i }

/-- RESUME clears HALT. -/
def XQueue.resume (q : XQueue) : XQueue := { q with halt := false, code := 0 }

/-- Table 08-10: what xmu.qs shows. -/
def XQueue.show_ (q : XQueue) : Word :=
  BitVec.ofNat 64 (q.items.length % 16 + b2n q.halt * 16 + (if q.halt then q.code.toNat else 0) * 2 ^ 8 + q.doneSeq.toNat * 2 ^ 16)

/-- xmu.qs (R197): FLUSH first, then RESUME. -/
def State.queueStatus (s : State) (n k : Nat) (v : Word) : Trig :=
  let q := fld v 0 2
  let s := if bitAt v 9 then s.onQueue n k q XQueue.flush else s
  let s := if bitAt v 8 then s.onQueue n k q XQueue.resume else s
  s.result n k .xmuRes 2 (tabGet ({} : XQueue) (s.queues n k) q).show_

/-- An XMU trigger (Table 02-11). -/
def trigXmu (s : State) (n k sock : Nat) (v : Word) : Trig :=
  if sock == 0x388 then s.queueStatus n k v else s.enqueue n k (sock - 0x380) v

/-! ### Starting descriptors (R193–R196, R426) -/

/-- Descriptors the XMU of core n is working on. -/
def State.xmuActive (s : State) (n : Nat) : Nat :=
  ((s.xowners n).map fun (_, t) => (t.map fun (_, q) => (q.items.filter fun i =>
    i.phase == .reading || i.phase == .read || i.phase == .working).length).sum).sum

/-- The next descriptor to take up: the earliest enqueued one that has been read and not begun, or, if fewer than four are
in hand, not started, in a queue that is not halted. None starts on a core that is locked up (R294) or while the block drains
(R349); those that have been read go on. -/
def State.xmuNext (s : State) (n : Nat) : Option (XOwner × XItem) :=
  let room := s.xmuActive n < 4 && s.coreOn n && (s.core n).lockCause == 0 && s.drain.st == .run
  let all := ((s.xowners n).map fun (o, t) => (t.map fun (_, q) => (q.items.filter fun i =>
    i.phase == .read || (i.phase == .queued && room && !q.halt)).map fun i => (o, i)).flatten).flatten
  match all with
  | [] => none
  | a :: t => some (t.foldl (fun b x => if x.2.order < b.2.order then x else b) a)

/-- R193, R196: read the descriptor as an access of its task. -/
def State.xmuRead (s : State) (n : Nat) (o : XOwner) (i : XItem) : State :=
  let come := fun (s : State) (st : RStat) (bs : List Byte) =>
    if i.outcome.isSome then s.onItem n i.id (·.cancelWords st bs) else s.xmuWords n i.id st bs
  match s.xlateNow n .xmu o.ctx i.addr.toNat .read with
  | (s, .held) => s
  | (s, .fault f) => if i.outcome.isSome then come s .busErr [] else s.xmuEnd n i.id f.cls 0 true
  | (s, .ok x) =>
    if s.near n x.pa then
      match s.readPa x.pa 32 (some n) with
      | (s, st, bs) => come s st bs
    else
      let s := s.onItem n i.id fun i => { i with phase := .reading }
      match s.reach n x.pa (getMsg o.job 32) (.xmu n i.id 0 32 none) (some (x.tag, x.ia)) with
      | (s, none) => s
      | (s, some st) => come s st []

/-- R426: a malformed descriptor. -/
def XItem.malformed (i : XItem) : Bool :=
  let w0 := i.w.1
  let t := i.w.2.2
  !inR i.op 1 4 || (i.op == 3 && i.af ≥ 8) || fld w0 24 8 != 0 || (bitAt w0 11 && fld w0 12 12 < 3072) ||
    (i.op == 4 && (fld t 45 19 != 0 || fld t 14 2 != 0 || fld t 22 12 < 3072 || (!bitAt t 44 && fld t 0 14 > 10239)))

/-- Table 08-6: the alignment of FILL and ACC. -/
def XItem.misaligned (i : XItem) : Bool :=
  let z := afBytes i.af
  (i.op == 2 && (i.dst % 8 != 0 || i.len % 8 != 0)) ||
    (i.op == 3 && (i.src % z != 0 || i.dst % z != 0 || i.len % z != 0))

/-- Put a descriptor to work. -/
def State.xmuBegin (s : State) (n id : Nat) (f : XItem → XItem) : State :=
  s.onItem n id fun i => f { i with phase := .working }

/-- SIGNAL (R70, Table 08-7): to a task of the block over the mesh, to another block as a SIGNAL message. -/
def State.xmuSig (s : State) (n : Nat) (o : XOwner) (i : XItem) : State :=
  let t := i.w.2.2
  let v := bitAt i.w.2.1 0
  let ret : Ret := .xmu n i.id 0 0 none
  let s := s.xmuBegin n i.id fun x => { x with open_ := [0] }
  if bitAt t 44 then
    let arg := BitVec.ofNat 64 (fld t 0 45 + b2n v * 2 ^ 63)
    match s.request n (2 ^ 51 + fld t 34 10 * 2 ^ 41) { Msg.blank with type := 4, job := o.job, arg := arg } ret with
    | (s, none) => s
    | (s, some st) => (s.xmuPart n i.id 0 0 st).xmuSettle n i.id
  else
    let core := fld t 0 14
    s.send (.xmu n) (.bank core) (.signal core (fld t 16 6) (fld t 22 12) v false) ret

/-- Begin the accesses of a descriptor that has been read, if its OP is `op`; a malformed one and a misaligned one fail at
once. -/
def State.xmuWork (s : State) (n op : Nat) (o : XOwner) (i : XItem) : State :=
  if i.malformed then s.xmuEnd n i.id clsILLEGAL 0 false
  else if i.misaligned then s.xmuEnd n i.id clsALIGN 0 false
  else if i.op != op then s
  else
    if op == 4 then s.xmuSig n o i else s.xmuBegin n i.id id

/-- The XMU of core n starts its next descriptor with OP `op` (R193): it is read, and its accesses begin. A descriptor of
another OP is left as read. A cluster that is fencing finishes what it has started. -/
def State.xmuStart (s : State) (n op : Nat) : State :=
  if !s.hasPower n then s
  else
    match s.xmuNext n with
    | none => s
    | some (o, i) =>
      let s := if i.phase == .read then s else s.xmuRead n o i
      match s.item n i.id with
      | some (o, i) => (if i.phase == .read then s.xmuWork n op o i else s).xmuResume n
      | none => s

/-! ### Completion (R194, R196) -/

/-- STATUS of an outcome (Table 08-8). -/
def XResult.word (r : XResult) : Word :=
  BitVec.ofNat 64 (r.code.toNat + 2 ^ 8 + b2n r.poisoned * 2 ^ 9 + r.bytes % 2 ^ 32 * 2 ^ 32)

/-- Write STATUS as an access of the task; the descriptor is closed once the write has ended, well or not. -/
def State.xmuStatus (s : State) (n : Nat) (o : XOwner) (i : XItem) : State :=
  let close := fun (s : State) => s.onItem n i.id fun i => { i with phase := .closed }
  if i.unread then close s
  else
    match s.xlateNow n .xmu o.ctx (i.addr.toNat + 24) .write with
    | (s, .held) => s
    | (s, .fault _) => close s
    | (s, .ok x) =>
      let bs := natToLe (i.outcome.getD {}).word.toNat 8
      if s.near n x.pa then close (s.writePa x.pa bs false (some n)).1
      else
        let s := s.onItem n i.id fun i => { i with phase := .closing }
        match s.reach n x.pa (putMsg o.job bs false) (.xmu n i.id 0 8 none) (some (x.tag, x.ia)) with
        | (s, none) => s
        | (s, some _) => close s

/-- The events of a closed descriptor (R196): CSIG and CEV of one that was read, and the completion event of a failure; a
killed task receives none (R267). DESIGN CHOICE (log entry 138): a CSIG whose CBIT is below 3,072, as a malformed or cancelled
descriptor can hold it, is discarded for a task, as a SIGNAL to such a bit is, but sets the keeper's own bit. -/
def State.xmuEvents (s : State) (n : Nat) (o : XOwner) (i : XItem) : State :=
  if o.dead then s
  else
    let code := (i.outcome.getD {}).code
    let fails := code != 0 && code != 0x80
    let csig := i.words.isSome && bitAt i.w.1 11
    let cev := (i.words.isSome && bitAt i.w.1 10) || fails
    match o.who with
    | some t =>
      let s := if csig then s.remoteBit n t (fld i.w.1 12 12) true else s
      if cev then s.setEvent n t 3064 else s
    | none =>
      let s := if csig then s.onCase n 8 (·.setBit (fld i.w.1 12 12) true) else s
      if cev then s.onCase n 8 (·.setBit 3064 true) else s

/-- Take a descriptor out of its queue; with the last one, the misses of the transfer unit go. -/
def State.xmuRetire (s : State) (n id : Nat) : State :=
  let s := s.mapQueues n fun q =>
    match q.items with
    | i :: rest => if i.id == id then { q with items := rest, doneSeq := i.seq } else q
    | [] => q
  let s := s.onCore n fun c => { c with graves := c.graves.filter fun x => x.xq.any fun (_, q) => !q.items.isEmpty }
  if (s.xowners n).any fun (_, t) => t.any fun (_, q) => !q.items.isEmpty then s
  else s.onCore n fun c => { c with walks := c.walks.filter (·.use != .xmu) }

/-- The heads of the queues numbered q of task t of core n: those of killed tasks of any number, then its own; the keeper's
for a task number that is not in use. -/
def State.xmuHeads (s : State) (n t q : Nat) : List (XOwner × XItem) :=
  let own := fun (o : XOwner) => o.dead || (match o.who with | some u => u == t | none => (s.task n t).isNone)
  let l := (s.xowners n).filter fun (o, _) => own o
  (l.filter (·.1.dead) ++ l.filter (!·.1.dead)).filterMap fun (o, x) =>
    match (tabGet ({} : XQueue) x q).items with | i :: _ => some (o, i) | [] => none

/-- R196: the first of these heads whose accesses have ended completes: STATUS, then CSIG and CEV. While the block drains,
descriptors that have not started end with CANCELLED (R349). DESIGN CHOICE (log entry 113): a cancelled descriptor has not been
read, so it is read for its CSIG and CEV before STATUS is written. -/
def State.xmuComplete (s : State) (n t q : Nat) : State :=
  let s := if s.drain.st == .run then s else s.mapQueues n XQueue.flush
  match (s.xmuHeads n t q).find? fun (_, i) => i.phase == XPhase.ended || i.phase == XPhase.closed with
  | none => s
  | some (o, i) =>
    let s := if i.phase == XPhase.ended && i.words.isNone && !i.unread && !o.dead then s.xmuRead n o i else s
    let s := match s.item n i.id with
      | some (o, i) => if i.phase == XPhase.ended && (i.words.isSome || i.unread || o.dead) then s.xmuStatus n o i else s
      | none => s
    match s.item n i.id with
    | none => s
    | some (o, i) => if i.phase == XPhase.closed then (s.xmuRetire n i.id).xmuEvents n o i else s

end Sys2Proof.Machine
end

