-- ==== Sys2Proof/Machine/UnitKyu.lean ====
section
/-! DEFINITION. The key unit (R276–R285): loading, storing, narrowing, moving and testing keys, and installing wickets. A KYU
trigger waits for a key write that is due (R281). -/

namespace Sys2Proof.Machine

/-- R280: the translated access of kyu.ld or kyu.st. -/
def State.kyuXlate (s : State) (n k : Nat) (acc : Acc) : Xl ⊕ Trig :=
  let c := s.case n k
  let va := c.short (fld (c.opnd_ 0x401) 0 32)
  if va % 16 != 0 then .inr (.fault none fltAlign)
  else if c.keyDue then .inr (.wait .read [])
  else
    match s.xlateWord n k va acc true true with
    | .inr t => .inr t
    | .inl x =>
      let who := s.whoIs n k
      if s.storesTo n who (x.pa / 64) || s.bypassBusy n who (x.pa / 64) then .inr (.wait .trigger []) else .inl x

/-- kyu.ld (R280, R281). -/
def State.kyuLd (s : State) (n k : Nat) (v : Word) : Trig :=
  let d := fld v 0 4
  if d == 15 && (s.case n k).call.isSome then .fault none fltIllegal
  else
    match s.kyuXlate n k .read with
    | .inr t => t
    | .inl x =>
      let s := s.touchTlb n x.tag x.ia
      let who := s.whoIs n k
      let (pid, s) := s.fresh
      let p : Pending := { port := .kyuRes, due := 4, id := pid, keyWrite := some { dst := d }, trans := some (x.tag, x.ia) }
      if s.near n x.pa then
        let (s, st, bs) := s.readKey x.pa (some n)
        let job := s.jobOf n who
        .done (s.onCase n k fun c => c.addPending (p.arriveKey job st bs))
      else
        let s := s.send (.core n) (s.agentOf n x.pa) (.keyRead x.pa) (.key n who pid) p.trans
        .done (s.onCase n k fun c => c.addPending { p with await := .access })

/-- kyu.st (R280): a store of the task that bypasses the data cache: into the core's own bank at once, elsewhere through the
store buffer, which it waits for while that is full (R64). DESIGN CHOICE (log entry 143): KEY of k[S] comes before the faults
of the address. -/
def State.kyuSt (s : State) (n k : Nat) (v : Word) : Trig :=
  let c := s.case n k
  let i := fld v 0 4
  let key := c.key i
  if c.keyDue then .wait .read []
  else if c.kBad.getLsbD i then .fault none fltParity
  else if key != 0 && (!keyHas key 16 || c.lentKey i) then .fault none fltKey
  else
    match s.kyuXlate n k .write with
    | .inr t => t
    | .inl x =>
      let s := s.touchTlb n x.tag x.ia
      let va := c.short (fld (c.opnd_ 0x401) 0 32)
      let who := s.whoIs n k
      let (eid, s) := s.fresh
      let e : SbEntry := {
        eid := eid, task := who, order := c.stores, va := BitVec.ofNat 64 va, line := x.pa / 64, cacheable := false, device := false
        key := some key, mask := maskOf (x.pa % 64) 16, data := BitVec.ofNat 512 (key.toNat * 2 ^ (8 * (x.pa % 64)))
        job := s.jobOf n who, trans := some (x.tag, x.ia) }
      let count := fun (s : State) => Trig.done (s.onCase n k fun c => { c with stores := c.stores + 1 })
      if s.near n x.pa then
        let (s, st) := s.writeKey x.pa key false (some n)
        count (if st == .ok then s else s.failStore n e)
      else if (s.core n).sbuf.length ≥ 16 then .wait .trigger []
      else count (s.onCore n fun c => { c with sbuf := c.sbuf ++ [e] })

/-- The narrowed key, where kyu.rstr makes it (Table 12-4). -/
def narrowed (key : Key) (base len pmask : Nat) : Option Key :=
  if base + len > 2 ^ 52 then none
  else if len == 0 || (keyHas key 32 && keyCovers key base len) then
    some (if keyType key == 0 then 0 else mkKey base (keyJob key) len (keyType key) (keyPerm key &&& pmask))
  else none

/-- kyu.rstr (R281, R287). -/
def State.kyuRstr (s : State) (n k : Nat) (v : Word) : Trig :=
  let c := s.case n k
  let i := fld v 0 4
  let d := fld v 4 4
  if d == 15 && c.call.isSome then .fault none fltIllegal
  else if c.keyDue then .wait .read []
  else if c.kBad.getLsbD i then .fault none fltParity
  else
    let made := narrowed (c.key i) (c.opnd_ 0x400).toNat (c.opnd_ 0x401).toNat (fld v 8 8)
    .done (s.onCase n k fun c => c.addPending {
      port := .kyuRes, due := 2, id := 0, data := { val := if made.isSome then 1 else 0 }
      keyWrite := made.map fun key => { dst := d, key := key, lent := c.lentKey i } })

/-- kyu.mv with WK = 0 (R281, R287). -/
def State.kyuMove (s : State) (n k : Nat) (v : Word) : Trig :=
  let c := s.case n k
  let i := fld v 0 4
  let d := fld v 4 4
  if d == 15 && c.call.isSome then .fault none fltIllegal
  else if c.keyDue then .wait .read []
  else if c.kBad.getLsbD i then .fault none fltParity
  else .done (s.onCase n k fun c => c.setKey d (c.key i) (c.lentKey i))

/-- kyu.mv with WK = 1: install or empty a wicket (R285). -/
def State.install (s : State) (n k : Nat) (v : Word) : Trig :=
  let c := s.case n k
  let i := fld v 0 4
  let w := fld v 4 4
  let a := fld v 9 4
  let auth := c.key a
  if c.keyDue then .wait .read []
  else if c.kBad.getLsbD i || c.kBad.getLsbD a then .fault none fltParity
  else if !(keyType auth == 4 && keyHas auth 2 && keyCovers auth n 1) || c.lentKey i then .fault none fltKey
  else if fld (c.opnd_ 0x400) 0 2 != 0 then .fault none fltAlign
  else
    let x := c.ext (fld v 13 4)
    let wk : Wicket := {
      entry := BitVec.ofNat 48 (fld (c.opnd_ 0x400) 0 48), key := c.key i, ext := { x with ctl := setFld x.ctl 8 4 15 } }
    .done (s.onCore n fun y => { y with wickets := if c.key i == 0 then tabErase y.wickets w else tabPut y.wickets w wk })

/-- kyu.clr (R281). -/
def State.kyuClr (s : State) (n k : Nat) (v : Word) : Trig :=
  let d := fld v 0 4
  if d == 15 && (s.case n k).call.isSome then .fault none fltIllegal
  else if (s.case n k).keyDue then .wait .read []
  else .done (s.onCase n k fun c => c.setKey d 0 false)

/-- kyu.rd. -/
def State.kyuRd (s : State) (n k : Nat) (v : Word) : Trig :=
  let c := s.case n k
  let i := fld v 0 4
  if c.keyDue then .wait .read []
  else if c.kBad.getLsbD i then .fault none fltParity
  else s.result n k .kyuRes 2 (BitVec.ofNat 64 (bitsOf (c.key i).toNat (if bitAt v 4 then 64 else 0) 64))

/-- kyu.chk (R277). -/
def State.kyuChk (s : State) (n k : Nat) (v : Word) : Trig :=
  let c := s.case n k
  let i := fld v 0 4
  if c.keyDue then .wait .read []
  else if c.kBad.getLsbD i then .fault none fltParity
  else
    let ok := keyCovers (c.key i) (c.opnd_ 0x400).toNat (c.opnd_ 0x401).toNat && keyHas (c.key i) (fld v 4 8)
    s.result n k .kyuRes 2 (if ok then 1 else 0)

/-- A KYU trigger (Table 02-11). -/
def trigKyu (s : State) (n k sock : Nat) (v : Word) : Trig :=
  match sock with
  | 0x410 => s.kyuLd n k v
  | 0x411 => s.kyuSt n k v
  | 0x412 => s.kyuRstr n k v
  | 0x413 => if bitAt v 8 then s.install n k v else s.kyuMove n k v
  | 0x414 => s.kyuClr n k v
  | 0x415 => s.kyuRd n k v
  | _ => s.kyuChk n k v

end Sys2Proof.Machine
end

