-- ==== Sys2Proof/Machine/Issue.lean ====
section
/-! DEFINITION. The issue of a word (R31, R36–R52, R290): which casement issues, the fetch of its code, the order of a word's
parts, waits and faults, and what every issued word does to the program counter, transfers, repeats and calls. -/

namespace Sys2Proof.Machine

/-- What a command answers. -/
abbrev Out := Host.Outcome State Fault Refusal

/-! ### Who issues -/

/-- R256, R294, R265, R349, R413: the casement of core n that may issue a word now: the core has power, is not locked up, in
no test slot, the block is not draining, and no fault of the casement awaits frame entry (R291). -/
def State.issuer (s : State) (n : Nat) : Option Nat :=
  let c := s.core n
  if s.coreOn n && c.lockCause == 0 && !c.underTest && s.drain.st == .run then
    match c.running with
    | none => none
    | some k => if (s.case n k).raised.isSome then none else some k
  else none

/-! ### Triggers -/

/-- Fire one trigger port; nothing for another socket. R365: while the shutter path is active the DFM and the VXU accept
nothing. `len` is the length of the word in bytes. -/
def State.fire (s : State) (n k len sock : Nat) (v : Word) : Trig :=
  match trigUnit sock with
  | none => .done s
  | some .alu => trigAlu s n k sock v
  | some .lsu => trigLsu s n k sock v
  | some .bit => trigBit s n k sock v
  | some .bru => trigBru s n k sock v
  | some .dfm => if s.braked then .wait .trigger [] else trigDfm s n k sock v
  | some .vxu => if s.braked then .wait .trigger [] else trigVxu s n k sock v
  | some .tmu => trigTmu s n k sock v
  | some .xmu => trigXmu s n k sock v
  | some .kyu => trigKyu s n k sock v
  | some .sys => trigSys s n k sock len v

/-- R31 step 3: fire the triggers of a word, move by move. DESIGN CHOICE (log entry 137): the wait or fault of move 1 comes before
that of move 2 (R36 names no order). -/
def State.fireAll (s : State) (n k len : Nat) : List (Nat × Word) → Trig
  | [] => .done s
  | (d, v) :: t => (s.fire n k len d v).bind fun s => s.fireAll n k len t

/-! ### One word -/

/-- The moves of a word; none: a decode fault (R36). -/
def CodeWord.moves : CodeWord → Option (List Move)
  | .code w e => decodeWord w e
  | .move sock v => if dstOk sock.toNat then some [{ src := .imm v, dst := sock.toNat }] else none

/-- Bytes of code a word takes (R33). -/
def CodeWord.bytes : CodeWord → Nat
  | .code w _ => wordBytes w
  | .move _ _ => 4

/-- R48: the casement is in a delay slot of a taken transfer. -/
def Casement.inSlot (c : Casement) : Bool := match c.xfer with | some x => x.slots != 0 | none => false

/-- R49: a repeat is in progress: the word is its body. -/
def Casement.inBody (c : Casement) : Bool := bitAt c.rptc 33

/-- R31, R36: carry out one word of casement k of core n. A parity error of the casement's other state stops the task as
POISON does, and so does a guard that reads a bit of a group with one (Table 15-1, R335). -/
def State.runWord (s : State) (n k : Nat) (w : CodeWord) : Trig :=
  let c := s.case n k
  match w.moves with
  | none => .fault none (if c.otherBad then fltParity else fltIllegal)
  | some ms =>
    if c.otherBad || c.guardBad ms then .fault none fltParity
    else
    match c.liveMoves ms with
    | none => .fault none fltIllegal
    | some live =>
      if (c.inSlot || c.inBody) && live.any fun m => isControl m.dst then .fault none fltIllegal
      else
        match s.readAll n k live with
        | .error .wait => .wait .read []
        | .error (.fault cls) => .fault none { cls := cls }
        | .error .parity => .fault none fltParity
        | .error (.val _) => .fault none fltIllegal
        | .ok vals => (s.writeAll n k vals).fireAll n k w.bytes vals

/-- Whether a word wrote bru.rptc, and whether it entered or left a wicket or a frame (sys.wkt, sys.wret): the live
destinations say so. -/
def State.wrote (s : State) (n k : Nat) (w : CodeWord) (p : Nat → Bool) : Bool :=
  match w.moves with
  | none => false
  | some ms => match (s.case n k).liveMoves ms with
    | none => false
    | some live => live.any fun m => p m.dst

/-! ### After a word -/

/-- R49, R52: RPTC after one execution of a body; the last execution ends the repeat. DESIGN CHOICE (log entry 108): an RPTC
written or restored with ACT = 1 and COUNT = 0 runs the body once and ends. -/
def rptcNext (r : Word) : Word := if fld r 0 32 ≤ 1 then 0 else setFld r 0 32 (fld r 0 32 - 1)

/-- R48, R49, R74: where a word that neither entered nor left a wicket or a frame leaves the program counter, the repeat and
the transfer. DESIGN CHOICE (log entry 109): a call's return address enters the hardware return stack with its second delay
slot. `old` is the casement before the word, `len` the word's length, `wr` whether it wrote RPTC. -/
def Casement.advance (c old : Casement) (len : Nat) (wr : Bool) : Casement :=
  let again := old.inBody && fld old.rptc 0 32 > 1
  let c := if old.inBody && !wr then { c with rptc := rptcNext old.rptc } else c
  let next := if again then old.pc else old.pc + BitVec.ofNat 48 len
  match old.xfer with
  | none => { c with pc := next }
  | some x =>
    if x.slots == 0 then
      { c with pc := next, xfer := match c.xfer with | some y => if y.slots == 0 then none else some y | none => none }
    else if x.slots == 1 then
      { c with
        pc := x.target, xfer := some { x with slots := 0 }
        rstack := if x.call then next :: c.rstack else c.rstack }
    else { c with pc := next, xfer := some { x with slots := x.slots - 1 } }

/-- What every issued word does beside its own effects: the issue cycle is counted, held parts of a link access and finished
walks are forgotten, the task's last issue is noted (R273), the keeper's issues are counted (R275). -/
def State.afterIssue (s : State) (n k : Nat) (who : Option Nat) : State :=
  let s := s.onCase n k fun c => Casement.touch
    { c.settleRegs with icount := c.icount + 1, held := [], waiting := none, first := false, frameRet := false, switched := false } 0
  let s := s.onCore n fun c => { c with
    cycle := c.cycle + 1
    walks := c.walks.filter (·.use != .word k)
    keeperIssues := if k == 8 then c.keeperIssues + 1 else c.keeperIssues }
  match who with
  | none => s
  | some t => s.onTask n t fun x => { x with lastIssue := (s.core n).cycle }

/-- The state after a word that has taken effect. `b` is the state before its effects. The keeper's sys.wait ends its handler
(R274). Wakes held until this word are let go (R262). -/
def State.commit (s b : State) (n k : Nat) (w : CodeWord) : State :=
  let old := b.case n k
  let jumps := b.wrote n k w fun d => d == 0x494 || d == 0x495
  let s := if jumps then s
    else s.onCase n k fun c => c.advance old w.bytes (b.wrote n k w (· == 0xC1))
  let s := s.afterIssue n k (b.whoIs n k)
  if k == 8 then (if b.wrote n k w (· == 0x496) then s.keeperEnd n else s)
  else if old.first || old.frameRet || old.switched || (old.inBody && bitAt old.rptc 32 && !(s.case n k).inBody) then s.releaseHeld n else s

/-! ### Waits -/

/-- R237: a line a wait asks for again is dropped first if it is clean and has bad parity. -/
def State.dropBad (s : State) (n : Nat) (ic : Bool) (line : Nat) : State :=
  match (s.core n).hit ic line with
  | some (key, l) => if l.parBad != 0 && l.dirty == 0 then (s.countPar n).onCore n fun c => c.dropLine ic key else s
  | none => s

/-- Ask for what a waiting word needs. -/
def State.ask (s : State) (n k : Nat) : List Req → State
  | [] => s
  | r :: t =>
    let job := s.jobOf n (s.whoIs n k)
    let s := match r with
      | .walk w => s.askWalk n w
      | .fill ic line at_ => ((s.dropBad n ic line).wantLine n ic line job at_).1
      | .held pa len at_ =>
        match s.reach n pa (getMsg job len) (.held n (s.whoIs n k) pa) at_ with
        | (s, none) => s.onCase n k fun c => { c with held := c.held ++ [(pa, none)] }
        | (s, some st) => s.onCase n k fun c => { c with held := c.held ++ [(pa, some (st, []))] }
    s.ask n k t

/-- R44, R45: the word waits; no part of it has taken effect. Wakes held until the first word after a switch are let go
(R262). -/
def State.hold (s : State) (n k : Nat) (kind : WaitKind) (w : CodeWord) (reqs : List Req) : State :=
  let s := (s.ask n k reqs).onCase n k fun c => { c with waiting := some { kind := kind, word := w } }
  if (s.case n k).switched then s.releaseHeld n else s

/-! ### Issuing -/

/-- R43, R217, R281: what becomes visible at the start of an issue cycle. -/
def State.arrivals (s : State) (n k : Nat) : State := (s.tlbiSweep n).onCase n k Casement.deliver

/-- R249: a failed store is due to be reported at this word. -/
def Casement.asyncNow (c : Casement) : Bool := c.asyncDue && !c.fails.isEmpty && !c.first

/-- The outcome of a word, applied: `b` is the state before its effects. -/
def State.settleWord (b : State) (n k : Nat) (w : CodeWord) (t : Trig) : State :=
  match t with
  | .done s => s.commit b n k w
  | .wait kind reqs => b.hold n k kind w reqs
  | .fault keep f => (keep.getD id b).raise n k f (f.cls == clsASYNC)
  | .pause g reqs => (g b).hold n k .trigger w reqs
  | .stop s => s

/-- R44, R45: a word whose outcome is not to wait has an issue cycle. -/
def Trig.goes : Trig → Bool
  | .wait _ _ | .pause _ _ => false
  | _ => true

/-- Issue a word of casement k: what is due arrives, and it is carried out; in the issue cycle it would have, a due STORE_ASYNC
is reported in its place (R249). -/
def State.issueWord (s : State) (n k : Nat) (w : CodeWord) : State :=
  let s := s.arrivals n k
  let t := s.runWord n k w
  s.settleWord n k w (if (s.case n k).asyncNow && t.goes then s.reportAsync n k else t)

/-- R50: a word that COUNT = 0 passes over: the program counter moves past it. -/
def State.passOver (s : State) (n k len : Nat) : State :=
  s.onCase n k fun c => { c with skip := false, waiting := none, pc := c.pc + BitVec.ofNat 48 len }

/-- The task or keeper that holds the issue slot of core n issues a word of one long move, of the value v into socket
`sock`. A word already waiting is not overtaken. -/
def State.issueMove (s : State) (n sock : Nat) (v : Word) : State :=
  match s.issuer n with
  | none => s
  | some k =>
    if (s.case n k).waiting.isSome then s
    else if (s.case n k).skip then s.passOver n k 4
    else s.issueWord n k (.move (BitVec.ofNat 12 sock) v)

/-! ### Fetch (R72, R221, R230, R236, R287) -/

/-- What fetching four bytes of code comes to. -/
inductive FetchRes where
  | word (s : State) (w : BitVec 32)
  | wait (reqs : List Req)
  | fault (s : State) (f : Flt)

/-- Table 12-5, R335: how an instruction fetch that ends with an outcome faults. -/
def fetchFault (st : RStat) (va : Nat) : Option Flt := st.taint.cls.map fun cls => { cls := cls, va := va }

/-- Four bytes of code that arrived with an outcome. -/
def fetched (s : State) (st : RStat) (va : Nat) (bs : List Byte) : FetchRes :=
  match fetchFault st va with
  | some f => .fault s f
  | none => .word s (BitVec.ofNat 32 (leToNat (bs.take 4)))

/-- Fetch the four bytes of code at a virtual address for casement k of core n. -/
def State.fetch4 (s : State) (n k va : Nat) : FetchRes :=
  if va % 4 != 0 then .fault s fltAlign
  else
    match s.xlateWord n k va .fetch with
    | .inr (.fault g f) => .fault (g.getD id s) f
    | .inr (.wait _ reqs) => .wait reqs
    | .inr _ => .wait []
    | .inl x =>
      let s := s.touchTlb n x.tag x.ia
      let line := x.pa / 64
      let held := (s.case n k).held
      if x.type == .cached then
        let s := s.tagScan n true line
        match (s.core n).hit true line with
        | some (_, l) =>
          if l.parBad &&& granTouched (maskOf (x.pa % 64) 4) != 0 then .wait [.fill true line (some (x.tag, x.ia))]
          else fetched s (if l.poison then .poisoned else .ok) va (lineBytes l.data (x.pa % 64) 4)
        | none =>
          match held.find? (·.1 == line * 64) with
          | some (_, some (st, bs)) => fetched s st va bs
          | _ => .wait [.fill true line (some (x.tag, x.ia))]
      else if !s.near n x.pa then
        match held.find? (·.1 == x.pa) with
        | some (_, some (st, bs)) => fetched s st va bs
        | some (_, none) => .wait []
        | none => .wait [.held x.pa 4 (some (x.tag, x.ia))]
      else
        let (s, st, bs) := s.readPa x.pa 4 (some n)
        fetched s st va bs

/-- A fetch that did not give its word: it waits, or faults; while a handler's first word is fetched, a fault locks the core
up (R291). -/
def State.fetchStops (s : State) (n k : Nat) : FetchRes → State
  | .wait reqs => s.hold n k .fetch (.code 0 0) reqs
  | .fault s f => if (s.case n k).first then s.lockup n 2 else s.raise n k f
  | .word s _ => s

/-- Fetch the word at the program counter of casement k with its immediate word, and go on with it. DESIGN CHOICE (log entry
107): the immediate word is fetched before a decode fault of the first word is raised, so its wait or fault comes first. -/
def State.withWord (s : State) (n k : Nat) (f : State → CodeWord → State) : State :=
  let pc := (s.case n k).pc
  match s.fetch4 n k pc.toNat with
  | .word s w =>
    if wordBytes w == 8 then
      match s.fetch4 n k (pc + 4).toNat with
      | .word s e => f s (.code w e)
      | r => s.fetchStops n k r
    else f s (.code w 0)
  | r => s.fetchStops n k r

/-- The issue slot of core n issues the word at its program counter. A body that COUNT = 0 passes over does not issue (R50):
the word after it does. -/
def State.issueNext (s : State) (n k : Nat) : State :=
  if (s.case n k).skip then
    s.withWord n k fun s w => (s.passOver n k w.bytes).withWord n k fun s w => s.issueWord n k w
  else s.withWord n k fun s w => s.issueWord n k w

/-- A fetch that was waiting is tried again; any other wait is not overtaken. -/
def State.fetchIssue (s : State) (n : Nat) : State :=
  match s.issuer n with
  | none => s
  | some k =>
    match (s.case n k).waiting with
    | none => s.issueNext n k
    | some w => if w.kind == .fetch then s.issueNext n k else s

/-- The word that waits is tried again. -/
def State.retry (s : State) (n k : Nat) (w : Waiting) : State :=
  if w.kind == .fetch then s.issueNext n k else s.issueWord n k w.word

/-- R58, R168: the time a busy unit stays occupied has passed. -/
def State.clearBusy (s : State) (n : Nat) : State := s.onCore n fun c => { c with divLeft := 0, vxuLeft := 0 }

/-- R221: the code the core fetches ahead: the lines of the words after the program counter and of a pending transfer's
target; what would fault is dropped. -/
def State.aheadLine (s : State) (n k va : Nat) : State :=
  let job := s.jobOf n (s.whoIs n k)
  match s.xlateNow n (.ahead true ((s.case n k).extFor .fetch va) job) (s.case n k) va .fetch with
  | (s', .held) => s'
  | (s', .ok x) =>
    if x.type != .cached then s'
    else s'.aheadWant n true (x.pa / 64) job (some (x.tag, x.ia))
  | _ => s

end Sys2Proof.Machine
end

