-- ==== Sys2Proof/Machine/Sched.lean ====
section
/-! DEFINITION. The scheduler block of a core (chapter 11): its command queue, start records, images, and the end of tasks and
jobs. -/

namespace Sys2Proof.Machine

/-! ### The command queue (R266, R268) -/

/-- OP, TASK, CASE, PROF, SLOT and REC of a TCMD word (Table 11-7). -/
def tcOp (w : Word) : Nat := fld w 0 3
def tcTask (w : Word) : Nat := fld w 8 6
def tcCase (w : Word) : Nat := fld w 16 4
def tcProf (w : Word) : Nat := fld w 20 2
def tcSlot (w : Word) : Nat := fld w 24 10
def tcRec (w : Word) : Nat := fld w 36 10

/-- The running command completes: TSTAT takes its CODE and TASK, and its store is performed. -/
def State.tcmdDone (s : State) (n : Nat) (e : Tcmd) (code : BitVec 8) : State :=
  (s.onCore n fun c => { c with
    tcmdQ := c.tcmdQ.tail, tsCode := code, tsTask := BitVec.ofNat 6 (tcTask e.word) }).finish e.ret .ok []

/-! ### Start records (Table 11-9, R266, R282) -/

/-- Word j of a record. -/
def recWord (bs : List Byte) (j : Nat) : Word := BitVec.ofNat 64 (leToNat ((bs.drop (8 * j)).take 8))

/-- Key j of a record, k0 to k3. -/
def recKey (bs : List Byte) (j : Nat) : Key := BitVec.ofNat 128 (leToNat ((bs.drop (0x40 + 16 * j)).take 16))

/-- Extent j of a record, x0 to x3. -/
def recExt (bs : List Byte) (j : Nat) : Extent :=
  let w := fun (f : Nat) => recWord bs (16 + 4 * j + f) &&& BitVec.ofNat 64 (extMask f)
  { base := w 0, limit := w 1, offset := w 2, ctl := w 3 }

/-- The registers a record makes; every other register reads 0, but for GSEL. -/
def recCase (bs : List Byte) : Casement :=
  { pc := (recWord bs 0).setWidth 48
    dsp := (recWord bs 1).setWidth 48
    rsa := mkRsa (fld (recWord bs 2) 0 48) 0
    bnk := recWord bs 3 &&& BitVec.ofNat 64 (regMask 0x480)
    tsbp := recWord bs 4 &&& BitVec.ofNat 64 (regMask 0x481)
    s2ctl := recWord bs 5 &&& BitVec.ofNat 64 s2Mask
    d := tabSet 0 (tabSet 0 [] 0 (recWord bs 6)) 1 (recWord bs 7)
    k := (List.range 4).foldl (fun t j => tabSet 0 t j (recKey bs j)) []
    x := (List.range 4).foldl (fun t j => tabSet {} t j (recExt bs j)) [] }

/-- The checks of a record's keys: a nonzero key untagged, or tagged with a reserved TYPE (R266); for CREATE, k0 NULL, a key of
another job, or job 0 (R282). -/
def recKeysBad (bs : List Byte) (tags : List Bool) (keeper : Bool) : Bool :=
  let keys := (List.range 4).map (recKey bs)
  let job := keyJob (recKey bs 0)
  (keys.zip tags).any (fun (k, t) => k != 0 && (!t || keyType k ≥ 5)) ||
    (!keeper && (recKey bs 0 == 0 || job == 0 || keys.any fun k => k != 0 && keyJob k != job))

/-- Read the start record at a bank offset of core n: the registers and the job, or the CODE it fails with. KSTART does not
reach the spill area (R271): DEDUCED (log entry 117), its record is delivered poisoned, as by any bus error. -/
def State.startRecord (s : State) (n off : Nat) (keeper : Bool) : State × Except (BitVec 8) (Casement × BitVec 12) :=
  let a := bankPa n off
  let (s, bad, bs) := s.readStore a 256
  let tags := (List.range 4).map fun j => s.tags.contains (a / 16 + 4 + j)
  let c := recCase bs
  let job := BitVec.ofNat 12 (keyJob (recKey bs 0))
  if bad || (keeper && s.inSpill n off 256) then (s, .error clsPOISON)
  else if recKeysBad bs tags keeper then (s, .error clsKEY)
  else if !s2Allowed c job c.s2ctl then (s, .error clsKEY)
  else (s, .ok (c, job))

/-! ### Slots (R269, R270, Table 11-10) -/

/-- Bytes of a slot by profile; bytes of the image in it; its groups. -/
def slotSize (prof : Nat) : Nat := match prof with | 0 => 2560 | 1 => 7168 | _ => 15360
def imgBytes (prof : Nat) : Nat := match prof with | 0 => 2560 | 1 => 6784 | _ => 15360
def profGroups (prof : Nat) : Nat := match prof with | 0 => 6 | 1 => 10 | _ => 18

/-- Slot offset of a group. -/
def groupOff (g : Nat) : Nat :=
  if g == 0 then 0 else if g ≤ 4 then 0x800 + 64 * (g - 1) else if g == 5 then 0x900 else if g == 6 then 0xA00
  else if g ≤ 9 then 0xE80 + 1024 * (g - 7) else 0x1C00 + 1024 * (g - 10)

/-- The bytes of a group other than the remainder. -/
def Casement.groupBytes (c : Casement) (g : Nat) : List Byte :=
  let vs := fun (j : Nat) => ((List.range 4).map fun i => natToLe (c.vreg (4 * j + i)).toNat 256).flatten
  if g ≤ 4 then ((List.range 8).map fun i => natToLe (c.dreg (8 * (g - 1) + i)).toNat 8).flatten
  else if g == 5 then ((List.range 16).map fun i => natToLe (c.key i).toNat 16).flatten
  else if g == 6 then vs 0 ++ ((List.range 4).map fun i => natToLe (c.mreg i).toNat 32).flatten
  else if g ≤ 9 then vs (g - 6)
  else natToLe (c.tile (g - 10)).toNat 1024

/-- Write one group of a context into the slot at a bank offset: keys with their tags; the remainder, whose order is not
architectural, as free values. -/
def State.putGroup (s : State) (n off : Nat) (c : Casement) (g : Nat) : State :=
  let a := bankPa n (off + groupOff g)
  if g == 0 then
    { s.writeStore a (((List.range 256).map fun i => natToLe (Config.freeWord (s.free + i)).toNat 8).flatten) false with
      free := s.free + 256 }
  else
    let s := s.writeStore a (c.groupBytes g) false
    if g == 5 then
      { s with tags := setAddAll s.tags (((List.range 16).filter fun i => c.key i != 0).map fun i => a / 16 + i) }
    else s

/-- Write groups of a context. -/
def State.putGroups (s : State) (n off : Nat) (c : Casement) (gs : List Nat) : State :=
  gs.foldl (fun s g => s.putGroup n off c g) s

/-- The context a fill makes: every group of the profile from the slot, the remainder from what is kept of it. -/
def State.takeGroups (s : State) (n off prof : Nat) (img : Casement) : Casement :=
  let a := bankPa n off
  let cells := s.mem.filter fun c => a ≤ c.1 && c.1 < a + imgBytes prof
  let val := fun (o len : Nat) => leToNat ((List.range len).map fun i => (tabGet 0 cells (a + o + i) : Byte))
  let c := { img with
    d := (List.range 32).foldl (fun t i => tabSet 0 t i (BitVec.ofNat 64 (val (0x800 + 8 * i) 8))) []
    k := (List.range 16).foldl (fun t i =>
      tabSet 0 t i (if s.tagged (a + 0x900 + 16 * i) then BitVec.ofNat 128 (val (0x900 + 16 * i) 16) else 0)) [] }
  let c := if prof == 0 then c else { c with
    v := (List.range 16).foldl (fun t i =>
      tabSet 0 t i (BitVec.ofNat 2048 (val (groupOff (6 + i / 4) + 256 * (i % 4)) 256))) []
    m := (List.range 4).foldl (fun t i => tabSet 0 t i (BitVec.ofNat 256 (val (0xE00 + 32 * i) 32))) [] }
  if prof < 2 then c
  else { c with t := (List.range 8).foldl (fun t i => tabSet 0 t i (BitVec.ofNat 8192 (val (groupOff (10 + i)) 1024))) [] }

/-! ### CREATE -/

/-- R266 step 1: the slot lies in the spill area and overlaps no other task's. -/
def Core.slotOk (c : Core) (slot prof : Nat) : Bool :=
  let a := slot * 256
  let z := slotSize prof
  let base := fld c.spa 0 8 * 1024
  let top := base + fld c.spa 8 9 * 1024
  base ≤ a && a + z ≤ top && !(c.tasks.any fun (_, x) => a < x.slot * 256 + slotSize x.prof && x.slot * 256 < a + z)

/-- Whether the slot's data is poisoned or uncorrectable; the errors a read finds are counted. -/
def State.slotBad (s : State) (n : Nat) (x : Task) : State × Bool :=
  let (s, bad, _) := s.readStore (bankPa n (x.slot * 256)) (imgBytes x.prof)
  (s, bad || x.imageBad)

/-- Task t enters casement k from its slot; it counts as issued at its fill (R273). -/
def State.fillIn (s : State) (n t k : Nat) : State :=
  match s.task n t with
  | none => s
  | some x =>
    let img := { s.takeGroups n (x.slot * 256) x.prof x.image with dirty := 0, tCorr := [], tErr := [], task := some t }
    let s := s.onCore n fun c => { c with cycle := c.cycle + 1 }
    (s.onTask n t fun x => { x with loc := some k, lastIssue := (s.core n).cycle, image := {} }).setCase n k img

/-- CREATE: its CODE, and the state with the task made READY at the tail when it is OK. The image is built in the slot, and
filled into a free casement. -/
def State.tcmdCreate (s : State) (n : Nat) (w : Word) : State × BitVec 8 :=
  let c := s.core n
  let t := tcTask w
  if (tabFind c.tasks t).isSome then (s, 0x81)
  else if tcProf w == 3 then (s, clsILLEGAL)
  else if !c.slotOk (tcSlot w) (tcProf w) then (s, clsEXTENT)
  else
    match s.startRecord n (tcRec w * 256) false with
    | (s, .error code) => (s, code)
    | (s, .ok (img, job)) =>
      let was := (s.core n).isIdle
      let s := s.putGroups n (tcSlot w * 256) img (List.range (profGroups (tcProf w)))
      let c := s.core n
      let x : Task := {
        st := .ready, loc := none, prof := tcProf w, slot := tcSlot w, job := job, image := { img with task := some t }
        lastIssue := c.cycle }
      let s := s.setCore n { c with tasks := tabPut c.tasks t x, readyQ := c.readyQ ++ [t] }
      let s := match c.freeCase with | some k => s.fillIn n t k | none => s
      ((s.kick n).settle was n, 0)

/-! ### KILL (R267) -/

/-- The store-buffer entries of a killed task go on, and are reported to no task. -/
def SbEntry.orphaned (e : SbEntry) (t : Nat) : SbEntry :=
  if e.task == some t then { e with task := some noTask, orphan := true } else e

/-- R267: what is left of the casement of a killed task until its outstanding results have come. -/
def Casement.dying (c : Casement) : Casement := { task := some noTask, icount := c.icount, pend := c.pend.filter fun e => e.await != .ready }

/-- Queues whose unstarted descriptors have been cancelled. -/
def flushAll (q : Tab XQueue) : Tab XQueue := tabMap (fun _ x => x.flush) q

/-- Task t of core n becomes NONE, and what it held is released; its casement once its outstanding results have been
delivered and discarded. A hardware fill of it ends, and lets the wakes go that it held (R262). -/
def State.killTask (s : State) (n t : Nat) : State :=
  match s.task n t with
  | none => s
  | some x =>
    let was := (s.core n).isIdle
    let regs := s.ctx n (some t)
    let xq := flushAll x.xq
    let k := x.loc
    let mine := fun (j : Nat) => k == some j
    let filled := (s.core n).taskFill.any (·.1 == t)
    let s := s.onCore n fun c => { c with
      tasks := tabErase c.tasks t
      readyQ := c.readyQ.filter (· != t)
      woken := c.woken.filter (· != t)
      taskFill := c.taskFill.filter (·.1 != t)
      tmrOwner := if c.tmrOwner == .task t then .none else c.tmrOwner
      tmrCount := if c.tmrOwner == .task t then 0 else c.tmrCount
      sbuf := c.sbuf.map (·.orphaned t)
      evicts := c.evicts.map fun v : Evict => { v with adopted := v.adopted.map (·.orphaned t) }
      graves := if xq.all (fun (_, q) => q.items.isEmpty) then c.graves else c.graves ++ [{ x with image := regs, loc := none, xq := xq }]
      cases := match k with | some j => tabSet {} c.cases j regs.dying | none => c.cases
      walks := c.walks.filter fun w => match w.use with | .word j => !mine j | _ => true
      running := if k.isSome && c.running == k then none else c.running }
    ((if filled then s.releaseHeld n else s.releaseIdle n).kick n).settle was n

/-- The tasks of a job on one core. -/
def Core.tasksOf (c : Core) (job : BitVec 12) : List Nat := c.tasks.filterMap fun (t, x) => if x.job == job then some t else none

/-- R283: end a job: every task of it is killed, every wicket that grants a key of it is emptied. -/
def State.endJob (s : State) (job : BitVec 12) : State :=
  let s := (s.cores.map fun (n, c) => (n, c.tasksOf job)).foldl (fun s (n, ts) => ts.foldl (fun s t => s.killTask n t) s) s
  { s with
    cores := s.cores.map fun (n, c) => (n, if c.wickets.any (fun (_, w) => keyJob w.key == job.toNat)
      then { c with wickets := c.wickets.filter fun (_, w) => keyJob w.key != job.toNat } else c)
    jobs := { s.jobs with open_ := s.jobs.open_.filter (·.1 != job) } }

/-! ### Images (R269–R275) -/

/-- Task t leaves casement k: its dirty groups go to its slot (R270). -/
def State.spillOut (s : State) (n t k : Nat) : State :=
  let c := s.case n k
  let s := match s.task n t with
    | some x => s.putGroups n (x.slot * 256) c ((List.range (profGroups x.prof)).filter c.dirty.getLsbD)
    | none => s
  (s.onTask n t fun x => { x with loc := none, image := { c with dirty := 0 } }).onCore n fun c =>
    { c with cases := tabErase c.cases k, walks := c.walks.filter (·.use != .word k) }

/-- SPILL (R268, R274, R275): none while the casement's outstanding work has not ended. The tiles it writes are read from the
main file: an uncorrectable error there fails it. -/
def State.tcmdSpill (s : State) (n : Nat) (e : Tcmd) : Option (State × BitVec 8) :=
  let k := tcCase e.word
  if k ≥ 8 || !e.fromKeeper then some (s, clsILLEGAL)
  else
    match (s.case n k).task with
    | none => some (s, 0x82)
    | some t =>
      match s.task n t with
      | none => some (s, 0x82)
      | some x =>
        let js := (List.range 8).filter fun j => (s.case n k).dirty.getLsbD (10 + j)
        if (s.core n).caseBusy k then none
        else if x.slot * 256 + slotSize x.prof > 0x40000 then some (s.lockup n 5, clsEXTENT)
        else if js.any fun j => tabGet (0 : BitVec 128) (s.case n k).tErr j != 0 then
          some ((s.scanTiles n k js).lockup n 5, clsPOISON)
        else some ((s.scanTiles n k js).spillOut n t k, 0)

/-- FILL (R268, R274, R275). -/
def State.tcmdFill (s : State) (n : Nat) (e : Tcmd) : State × BitVec 8 :=
  let k := tcCase e.word
  let t := tcTask e.word
  if k ≥ 8 || !e.fromKeeper then (s, clsILLEGAL)
  else
    match s.task n t with
    | none => (s, 0x82)
    | some x =>
      if x.loc.isSome || !(s.core n).caseFree k then (s, 0x81)
      else if x.slot * 256 + slotSize x.prof > 0x40000 then (s.lockup n 5, clsEXTENT)
      else
        match s.slotBad n x with
        | (s, true) => (s.lockup n 5, clsPOISON)
        | (s, false) => (s.fillIn n t k, 0)

/-- KSTART (R268, R274): the keeper is made ready; it is entered at an overflow trap (R273). -/
def State.tcmdKstart (s : State) (n : Nat) (w : Word) : State × BitVec 8 :=
  if (s.core n).ken then (s, clsILLEGAL)
  else
    match s.startRecord n (tcRec w * 256) true with
    | (s, .error code) => (s, code)
    | (s, .ok (img, job)) =>
      ((s.setCase n 8 img).onCore n fun c => { c with ken := true, keeperPc := img.pc, keeperJob := job }, 0)

/-! ### Hardware fills (R273) -/

/-- Wakes are held for a reason other than a fill under way. -/
def State.wakesBarred (s : State) (n : Nat) : Bool := (s.onCore n fun c => { c with woken := [], taskFill := none }).wakesHeld n

/-- The hardware fill under way ends: the task enters its casement and runs; wakes held meanwhile go with its first word
(R262). A failed fill locks the core up (R275). With none under way, one begins for the head of the queue of a core that nobody
runs on, once a casement is free. -/
def State.hwFill (s : State) (n : Nat) : State :=
  if s.wakesBarred n then s
  else
    match (s.core n).taskFill with
    | none => if (s.core n).freeCase.isSome then s.kick n else s
    | some (t, k) =>
      match s.task n t with
      | none => s
      | some x =>
        match s.slotBad n x with
        | (s, true) => s.lockup n 5
        | (s, false) => ((((s.fillIn n t k).onCore n fun c => { c with taskFill := none }).parkRunning n).runTask n t k)

/-! ### Test slots (R264, R265, R339–R342) -/

/-- Core i of cluster c may be granted a slot: no fill and no store of it is in progress, so that its caches stay empty (R252). -/
def State.grantable (s : State) (c i : Nat) : Bool :=
  let x := s.core (c * 64 + i)
  x.eligible && x.isIdle && !x.texcl && !x.underTest && x.lockCause == 0 && x.fills.isEmpty && x.sbuf.isEmpty

/-- The lines of core n's data cache that a clean of the whole cache acts on, with their ways: dirty ones, and those that can no
longer be named (R238). -/
def Core.dirtyLines (c : Core) : List (Nat × Line) := c.dcache.filter fun (_, l) => (l.dirty != 0 || l.tagBad) && !l.filling

/-- R238, R252: the caches of a core before its slot: dirty lines leave, valid lines become invalid, and a way that cannot be
named is reported, in either cache. -/
def State.emptyCaches (s : State) (n : Nat) : State :=
  let dirty := (s.core n).dirtyLines
  let s := ((s.core n).icache.filter (·.2.tagBad)).foldl (fun s _ => s.reportTag n) s
  let s := dirty.foldl (fun s (_, l) => s.evictLine n l) s
  s.onCore n fun c => { c with dcache := [], icache := [] }

end Sys2Proof.Machine
end

