-- ==== Sys2Proof/Machine/CmdIssue.lean ====
section
/-! DEFINITION. The commands by which a core issues words and by which what its words began comes to an end: the issue slot,
waits, results, transfers and repeats, frames, units, walks, fills and stores (chapters 02, 05, 07–12). A command that names
something that is not there changes nothing. -/

namespace Sys2Proof.Machine

/-! ### Issuing words -/

/-- INSTRUCTION_WORD (R31). -/
def execInstructionWord (core : CoreId) (s : State) : Out := .next (s.fetchIssue core.val)

/-- REGISTER_SOCKET_WRITE (R28). -/
def execRegisterSocketWrite (core : CoreId) (sock : BitVec 12) (v : Word) (s : State) : Out :=
  .next (s.issueMove core.val sock.toNat v)

/-- The word waiting in the issue slot of core n, if it may be tried again. -/
def State.heldWord (s : State) (n : Nat) : Option (Nat × Waiting) :=
  match s.issuer n with
  | none => none
  | some k => (s.case n k).waiting.map fun w => (k, w)

/-- READ_WAIT_RESUME (R44). -/
def execReadWaitResume (core : CoreId) (s : State) : Out :=
  match s.heldWord core.val with
  | none => .next s
  | some (k, w) => if w.kind == .read then .next (s.retry core.val k w) else .next s

/-- TRIGGER_WAIT_RESUME (R45): a unit that is busy for a fixed time has become free; any other reason to wait is looked at
again. -/
def execTriggerWaitResume (core : CoreId) (s : State) : Out :=
  match s.heldWord core.val with
  | none => .next s
  | some (k, w) =>
    match w.kind with
    | .read => .next s
    | .busy => .next ((s.clearBusy core.val).retry core.val k w)
    | .trigger => .next (s.retry core.val k w)
    | .fetch => .next (s.retry core.val k w)

/-- RESULT_DELIVERY (R43): in the casement that holds the issue slot. -/
def execResultDelivery (core : CoreId) (s : State) : Out :=
  if !s.hasPower core.val then .next s
  else
    match (s.core core.val).running with
    | none => .next s
    | some k => .next (s.arrivals core.val k)

/-- TRANSFER_TARGET_ISSUE (R48): the two delay slots have issued. -/
def execTransferTargetIssue (core : CoreId) (s : State) : Out :=
  match s.issuer core.val with
  | none => .next s
  | some k =>
    match (s.case core.val k).xfer with
    | none => .next s
    | some x => if x.slots == 0 then .next (s.fetchIssue core.val) else .next s

/-- REPEAT_BODY_EXECUTION (R49). -/
def execRepeatBodyExecution (core : CoreId) (s : State) : Out :=
  match s.issuer core.val with
  | none => .next s
  | some k => if (s.case core.val k).inBody then .next (s.fetchIssue core.val) else .next s

/-- FETCH_AHEAD (R221): the line at the program counter, the line after it, and a pending transfer's target. -/
def execFetchAhead (core : CoreId) (s : State) : Out :=
  match s.issuer core.val with
  | none => .next s
  | some k =>
    let c := s.case core.val k
    let s := (s.aheadLine core.val k c.pc.toNat).aheadLine core.val k (c.pc + 64).toNat
    match c.xfer with
    | none => .next s
    | some x => .next (s.aheadLine core.val k x.target.toNat)

/-- FRAME_ENTRY (R291). -/
def execFrameEntry (core : CoreId) (s : State) : Out :=
  let n := core.val
  let c := s.core n
  if s.coreOn n && c.lockCause == 0 && !c.underTest && s.drain.st == .run then
    match c.running with
    | none => .next s
    | some k => match (s.case n k).raised with
      | none => .next s
      | some r => .next (s.enterFrame n k r)
  else .next s

/-! ### What words began -/

/-- STORE_PERFORMED (R244, R266): the i-th entry of the store buffer. -/
def execStorePerformed (core : CoreId) (i : Nat) (s : State) : Out :=
  let n := core.val
  if !s.hasPower n then .next s
  else
    match (s.core n).sbuf[i]? with
    | none => .next s
    | some e =>
      let off := e.va.toNat % 64
      if e.device && !e.leaving && e.size == 8 && !olderSame (s.core n).sbuf i && s.place (e.line * 64 + off) == .ctl (tcmdOff n) then
        let w := BitVec.ofNat 64 (bitsOf e.data.toNat (8 * off) 64)
        match s.tcmdArrive n w e.inTrap (.store n e.eid) with
        | (s, none) => .next (s.markLeaving n e.eid 1 none)
        | (s, some true) => .next (s.entryDone n e.eid .ok)
        | (_, some false) => .next s
      else .next (s.performEntry n i)

/-- STORE_ASYNC_TIMEOUT (R249): 4 µs after the failure. A task that is not running is woken by ERROR. -/
def execStoreAsyncTimeout (core : CoreId) (task : TaskId) (s : State) : Out :=
  let n := core.val
  let t := task.val
  if !s.hasPower n then .next s
  else
    match s.task n t with
    | none => .next s
    | some x =>
      if (s.ctx n (some t)).fails.isEmpty then .next s
      else
        let s := s.onCtx n (some t) fun c => { c with asyncDue := true }
        if x.st == .running then .next s else .next (s.setEvent n t 3069)

/-- TLBI_COMMAND_COMPLETE (R216). -/
def execTlbiCommandComplete (core : CoreId) (s : State) : Out :=
  if s.hasPower core.val then .next ((s.tlbiRun core.val).tlbiSweep core.val) else .next s

/-- WALK_COMPLETE (R210): the i-th walk of the core. -/
def execWalkComplete (core : CoreId) (i : Nat) (s : State) : Out :=
  if s.hasPower core.val then .next ((s.endWalk core.val i).xmuResumeAll (clusterOf core.val)) else .next s

/-- LINE_FILL_COMPLETE (R233): the i-th fill in progress. -/
def execLineFillComplete (core : CoreId) (i : Nat) (s : State) : Out :=
  if s.hasPower core.val then .next (s.endFill core.val i) else .next s

/-- R252, R349 step 4: clean the j-th dirty line of core n: its granules leave as an eviction write-back. -/
def State.cleanOut (s : State) (n j : Nat) : State :=
  match (s.core n).dirtyLines[j]? with
  | none => s
  | some (key, l) =>
    let i := (s.core n).evicts.length
    ((s.evictLine n l).onCore n fun c => if l.tagBad then c.dropLine false key else c.putLine false key { l with dirty := 0 }).sendEvict n i

/-- EVICTION_WRITEBACK (R251): the i-th eviction in progress; while the block drains or the cluster is fencing, numbers past
the last one name the cache's dirty lines (R252, R349). -/
def execEvictionWriteback (core : CoreId) (i : Nat) (s : State) : Out :=
  let n := core.val
  let len := (s.core n).evicts.length
  if !s.hasPower n then .next s
  else if i < len then .next (s.sendEvict n i)
  else if s.drain.st == .draining || !s.clusterOn n then .next (s.cleanOut n (i - len))
  else .next s

/-- VXU_OP_COMPLETE (R167). -/
def execVxuOpComplete (core : CoreId) (s : State) : Out :=
  if s.hasPower core.val then .next (s.vxuComplete core.val) else .next s

/-- VXU_MEM_COMPLETE (R173): the i-th vector memory operation. -/
def execVxuMemComplete (core : CoreId) (i : Nat) (s : State) : Out :=
  if s.hasPower core.val then .next (s.vecComplete core.val i) else .next s

/-- TMU_MEM_COMPLETE (R124): the i-th tile memory operation. -/
def execTmuMemComplete (core : CoreId) (i : Nat) (s : State) : Out :=
  if s.hasPower core.val then .next (s.tileComplete core.val i) else .next s

/-- ARRAY_FILL (R143). -/
def execArrayFill (core : CoreId) (s : State) : Out :=
  if s.hasPower core.val then .next (s.arrayFill core.val) else .next s

/-- ARRAY_COMPUTE_START (R143). -/
def execArrayComputeStart (core : CoreId) (s : State) : Out :=
  if s.hasPower core.val then .next (s.arrayStart core.val) else .next s

/-- ARRAY_OP_COMPLETE (R143). -/
def execArrayOpComplete (core : CoreId) (s : State) : Out :=
  if s.hasPower core.val then .next (s.arrayComplete core.val) else .next s

/-! ### Descriptors (R193–R196) -/

/-- XMU_COPY (R195). -/
def execXmuCopy (core : CoreId) (s : State) : Out := .next (s.xmuStart core.val 1)

/-- XMU_FILL (R194). -/
def execXmuFill (core : CoreId) (s : State) : Out := .next (s.xmuStart core.val 2)

/-- XMU_ACC (R186). -/
def execXmuAcc (core : CoreId) (s : State) : Out := .next (s.xmuStart core.val 3)

/-- XMU_SIGNAL (R70). -/
def execXmuSignal (core : CoreId) (s : State) : Out := .next (s.xmuStart core.val 4)

/-- XMU_DESCRIPTOR_COMPLETE (R196). -/
def execXmuDescriptorComplete (core : CoreId) (task : TaskId) (q : Fin 4) (s : State) : Out :=
  if s.hasPower core.val then .next (s.xmuComplete core.val task.val q.val) else .next s

/-! ### Bits and the timer -/

/-- REMOTE_BIT_WRITE (R70): a signal from another agent. A cluster that is not ON refuses it. -/
def execRemoteBitWrite (core : CoreId) (task : TaskId) (bit : BitVec 12) (val : Bool) (s : State) : Out :=
  if s.coreOn core.val then .next (s.remoteBit core.val task.val bit.toNat val) else .next s

/-- TIMER_EXPIRY (R263): the timer of a locked-up core has stopped (R294). -/
def execTimerExpiry (core : CoreId) (s : State) : Out :=
  let n := core.val
  if !s.hasPower n || (s.core n).lockCause != 0 then .next s
  else
    match (s.core n).tmrOwner with
    | .task t => .next ((s.onCore n fun c => { c with tmrOwner := .none, tmrCount := 0 }).setEvent n t 3067)
    | _ => .next s

end Sys2Proof.Machine
end

