-- ==== Sys2Proof/Machine/CmdKeys.lean ====
section
/-! DEFINITION. The commands of the XMU queues and the KYU (chapters 08, 12). Each is one word of one long move by the task or keeper that holds the core's issue slot
(Sys2Proof.Machine.Issue): v goes to the trigger port, with the field that selects the row's operation forced. -/

namespace Sys2Proof.Machine

/-! ### XMU (R197) -/

/-- XMU_ENQUEUE (R197): a move into xmu.q0 to xmu.q3. -/
def execXmuEnqueue (core : CoreId) (q : Fin 4) (v : Word) (s : State) : Out :=
  .next (s.issueMove core.val (0x380 + q.val) v)

/-- XMU_QUEUE_STATUS (R197). -/
def execXmuQueueStatus (core : CoreId) (v : Word) (s : State) : Out := .next (s.issueMove core.val 0x388 (setFld v 8 2 0))

/-- XMU_QUEUE_RESUME (R197). -/
def execXmuQueueResume (core : CoreId) (v : Word) (s : State) : Out := .next (s.issueMove core.val 0x388 (setFld v 8 1 1))

/-- XMU_QUEUE_FLUSH (R197). -/
def execXmuQueueFlush (core : CoreId) (v : Word) (s : State) : Out := .next (s.issueMove core.val 0x388 (setFld v 9 1 1))

/-! ### KYU (Table 12-4) -/

/-- KYU_LD (R280). -/
def execKyuLd (core : CoreId) (v : Word) (s : State) : Out := .next (s.issueMove core.val 0x410 v)

/-- KYU_ST (R280). -/
def execKyuSt (core : CoreId) (v : Word) (s : State) : Out := .next (s.issueMove core.val 0x411 v)

/-- KYU_RSTR (R281). -/
def execKyuRstr (core : CoreId) (v : Word) (s : State) : Out := .next (s.issueMove core.val 0x412 v)

/-- KYU_MV (R281). -/
def execKyuMv (core : CoreId) (v : Word) (s : State) : Out := .next (s.issueMove core.val 0x413 (setFld v 8 1 0x0))

/-- WICKET_INSTALL (R285). -/
def execWicketInstall (core : CoreId) (v : Word) (s : State) : Out := .next (s.issueMove core.val 0x413 (setFld v 8 1 0x1))

/-- KYU_CLR (R281). -/
def execKyuClr (core : CoreId) (v : Word) (s : State) : Out := .next (s.issueMove core.val 0x414 v)

/-- KYU_RD (R276). -/
def execKyuRd (core : CoreId) (v : Word) (s : State) : Out := .next (s.issueMove core.val 0x415 v)

/-- KYU_CHK (R277). -/
def execKyuChk (core : CoreId) (v : Word) (s : State) : Out := .next (s.issueMove core.val 0x416 v)

end Sys2Proof.Machine
end

