-- ==== Sys2Proof/Machine/CmdScalar.lean ====
section
/-! DEFINITION. The commands of the scalar units: ALU, LSU, BIT, BRU, SYS, DFM (chapters 03, 09–12). Each is one word of one long move by the task or keeper that holds the core's issue slot
(Sys2Proof.Machine.Issue): v goes to the trigger port, with the field that selects the row's operation forced. -/

namespace Sys2Proof.Machine

/-! ### ALU (Tables 03-1, 03-2) -/

/-- ALU_ADD (R55). -/
def execAluAdd (core : CoreId) (v : Word) (s : State) : Out := .next (s.issueMove core.val 0x28 v)

/-- ALU_SUB (R55). -/
def execAluSub (core : CoreId) (v : Word) (s : State) : Out := .next (s.issueMove core.val 0x29 v)

/-- ALU_ADC (R55). -/
def execAluAdc (core : CoreId) (v : Word) (s : State) : Out := .next (s.issueMove core.val 0x2A v)

/-- ALU_SBC (R55). -/
def execAluSbc (core : CoreId) (v : Word) (s : State) : Out := .next (s.issueMove core.val 0x2B v)

/-- ALU_AND (R55). -/
def execAluAnd (core : CoreId) (v : Word) (s : State) : Out := .next (s.issueMove core.val 0x2C v)

/-- ALU_OR (R55). -/
def execAluOr (core : CoreId) (v : Word) (s : State) : Out := .next (s.issueMove core.val 0x2D v)

/-- ALU_XOR (R55). -/
def execAluXor (core : CoreId) (v : Word) (s : State) : Out := .next (s.issueMove core.val 0x2E v)

/-- ALU_ANDN (R55). -/
def execAluAndn (core : CoreId) (v : Word) (s : State) : Out := .next (s.issueMove core.val 0x2F v)

/-- ALU_SHL (R55). -/
def execAluShl (core : CoreId) (v : Word) (s : State) : Out := .next (s.issueMove core.val 0x30 v)

/-- ALU_SHR (R55). -/
def execAluShr (core : CoreId) (v : Word) (s : State) : Out := .next (s.issueMove core.val 0x31 v)

/-- ALU_SAR (R55). -/
def execAluSar (core : CoreId) (v : Word) (s : State) : Out := .next (s.issueMove core.val 0x32 v)

/-- ALU_ROL (R55). -/
def execAluRol (core : CoreId) (v : Word) (s : State) : Out := .next (s.issueMove core.val 0x33 v)

/-- ALU_CMP (R55). -/
def execAluCmp (core : CoreId) (v : Word) (s : State) : Out := .next (s.issueMove core.val 0x34 v)

/-- ALU_MIN (R56). -/
def execAluMin (core : CoreId) (v : Word) (s : State) : Out := .next (s.issueMove core.val 0x35 v)

/-- ALU_MAX (R56). -/
def execAluMax (core : CoreId) (v : Word) (s : State) : Out := .next (s.issueMove core.val 0x36 v)

/-- ALU_MINU (R56). -/
def execAluMinu (core : CoreId) (v : Word) (s : State) : Out := .next (s.issueMove core.val 0x37 v)

/-- ALU_MAXU (R56). -/
def execAluMaxu (core : CoreId) (v : Word) (s : State) : Out := .next (s.issueMove core.val 0x38 v)

/-- ALU_SEXT (R56). -/
def execAluSext (core : CoreId) (v : Word) (s : State) : Out := .next (s.issueMove core.val 0x39 v)

/-- ALU_MUL (R56). -/
def execAluMul (core : CoreId) (v : Word) (s : State) : Out := .next (s.issueMove core.val 0x40 v)

/-- ALU_MULH (R56). -/
def execAluMulh (core : CoreId) (v : Word) (s : State) : Out := .next (s.issueMove core.val 0x41 v)

/-- ALU_MULHU (R56). -/
def execAluMulhu (core : CoreId) (v : Word) (s : State) : Out := .next (s.issueMove core.val 0x42 v)

/-- ALU_DIV (R57). -/
def execAluDiv (core : CoreId) (v : Word) (s : State) : Out := .next (s.issueMove core.val 0x48 v)

/-- ALU_DIVU (R57). -/
def execAluDivu (core : CoreId) (v : Word) (s : State) : Out := .next (s.issueMove core.val 0x49 v)

/-- ALU_REM (R57). -/
def execAluRem (core : CoreId) (v : Word) (s : State) : Out := .next (s.issueMove core.val 0x4A v)

/-- ALU_REMU (R57). -/
def execAluRemu (core : CoreId) (v : Word) (s : State) : Out := .next (s.issueMove core.val 0x4B v)

/-! ### LSU (Table 03-4) -/

/-- LSU_LD8U (R61). -/
def execLsuLd8u (core : CoreId) (v : Word) (s : State) : Out := .next (s.issueMove core.val 0x68 v)

/-- LSU_LD8S (R61). -/
def execLsuLd8s (core : CoreId) (v : Word) (s : State) : Out := .next (s.issueMove core.val 0x69 v)

/-- LSU_LD16U (R61). -/
def execLsuLd16u (core : CoreId) (v : Word) (s : State) : Out := .next (s.issueMove core.val 0x6A v)

/-- LSU_LD16S (R61). -/
def execLsuLd16s (core : CoreId) (v : Word) (s : State) : Out := .next (s.issueMove core.val 0x6B v)

/-- LSU_LD32U (R61). -/
def execLsuLd32u (core : CoreId) (v : Word) (s : State) : Out := .next (s.issueMove core.val 0x6C v)

/-- LSU_LD32S (R61). -/
def execLsuLd32s (core : CoreId) (v : Word) (s : State) : Out := .next (s.issueMove core.val 0x6D v)

/-- LSU_LD64 (R61). -/
def execLsuLd64 (core : CoreId) (v : Word) (s : State) : Out := .next (s.issueMove core.val 0x6E v)

/-- LSU_ST8 (R61). -/
def execLsuSt8 (core : CoreId) (v : Word) (s : State) : Out := .next (s.issueMove core.val 0x70 v)

/-- LSU_ST16 (R61). -/
def execLsuSt16 (core : CoreId) (v : Word) (s : State) : Out := .next (s.issueMove core.val 0x71 v)

/-- LSU_ST32 (R61). -/
def execLsuSt32 (core : CoreId) (v : Word) (s : State) : Out := .next (s.issueMove core.val 0x72 v)

/-- LSU_ST64 (R61). -/
def execLsuSt64 (core : CoreId) (v : Word) (s : State) : Out := .next (s.issueMove core.val 0x73 v)

/-- LSU_AF64 (R61). -/
def execLsuAf64 (core : CoreId) (v : Word) (s : State) : Out := .next (s.issueMove core.val 0x74 v)

/-- LSU_AF32 (R61). -/
def execLsuAf32 (core : CoreId) (v : Word) (s : State) : Out := .next (s.issueMove core.val 0x75 v)

/-- LSU_AW16 (R61). -/
def execLsuAw16 (core : CoreId) (v : Word) (s : State) : Out := .next (s.issueMove core.val 0x76 v)

/-- LSU_AI32 (R61). -/
def execLsuAi32 (core : CoreId) (v : Word) (s : State) : Out := .next (s.issueMove core.val 0x77 v)

/-- LSU_AMAX (R61). -/
def execLsuAmax (core : CoreId) (v : Word) (s : State) : Out := .next (s.issueMove core.val 0x78 v)

/-- LSU_CAS (R61). -/
def execLsuCas (core : CoreId) (v : Word) (s : State) : Out := .next (s.issueMove core.val 0x79 v)

/-- LSU_ACQ (R248). -/
def execLsuAcq (core : CoreId) (v : Word) (s : State) : Out := .next (s.issueMove core.val 0x7A v)

/-- LSU_REL (R247). -/
def execLsuRel (core : CoreId) (v : Word) (s : State) : Out := .next (s.issueMove core.val 0x7B v)

/-- LSU_PF (R65). -/
def execLsuPf (core : CoreId) (v : Word) (s : State) : Out := .next (s.issueMove core.val 0x7C v)

/-! ### BIT (Table 03-6) -/

/-- BIT_SET (R67). -/
def execBitSet (core : CoreId) (v : Word) (s : State) : Out := .next (s.issueMove core.val 0x88 v)

/-- BIT_CLR (R67). -/
def execBitClr (core : CoreId) (v : Word) (s : State) : Out := .next (s.issueMove core.val 0x89 v)

/-- BIT_TGL (R67). -/
def execBitTgl (core : CoreId) (v : Word) (s : State) : Out := .next (s.issueMove core.val 0x8A v)

/-- BIT_PUT (R67). -/
def execBitPut (core : CoreId) (v : Word) (s : State) : Out := .next (s.issueMove core.val 0x8B v)

/-- BIT_GET (R67). -/
def execBitGet (core : CoreId) (v : Word) (s : State) : Out := .next (s.issueMove core.val 0x8C v)

/-- BIT_LD64 (R67). -/
def execBitLd64 (core : CoreId) (v : Word) (s : State) : Out := .next (s.issueMove core.val 0x8D v)

/-- BIT_ST64 (R67). -/
def execBitSt64 (core : CoreId) (v : Word) (s : State) : Out := .next (s.issueMove core.val 0x8E v)

/-- BIT_WATCH (R71). -/
def execBitWatch (core : CoreId) (v : Word) (s : State) : Out := .next (s.issueMove core.val 0x8F v)

/-- BIT_POPC (R67). -/
def execBitPopc (core : CoreId) (v : Word) (s : State) : Out := .next (s.issueMove core.val 0x90 v)

/-- BIT_CLZ (R67). -/
def execBitClz (core : CoreId) (v : Word) (s : State) : Out := .next (s.issueMove core.val 0x91 v)

/-- BIT_CTZ (R67). -/
def execBitCtz (core : CoreId) (v : Word) (s : State) : Out := .next (s.issueMove core.val 0x92 v)

/-- BIT_BSWAP (R67). -/
def execBitBswap (core : CoreId) (v : Word) (s : State) : Out := .next (s.issueMove core.val 0x93 v)

/-- BIT_REV (R67). -/
def execBitRev (core : CoreId) (v : Word) (s : State) : Out := .next (s.issueMove core.val 0x94 v)

/-- BIT_PAR (R67). -/
def execBitPar (core : CoreId) (v : Word) (s : State) : Out := .next (s.issueMove core.val 0x95 v)

/-- BIT_EXT (R67). -/
def execBitExt (core : CoreId) (v : Word) (s : State) : Out := .next (s.issueMove core.val 0x96 v)

/-- BIT_INS (R67). -/
def execBitIns (core : CoreId) (v : Word) (s : State) : Out := .next (s.issueMove core.val 0x97 v)

/-! ### BRU (Table 03-7, R49, R73) -/

/-- BRU_JMP (R72). -/
def execBruJmp (core : CoreId) (v : Word) (s : State) : Out := .next (s.issueMove core.val 0xC8 v)

/-- BRU_BR (R72). -/
def execBruBr (core : CoreId) (v : Word) (s : State) : Out := .next (s.issueMove core.val 0xC9 v)

/-- BRU_CALL (R72). -/
def execBruCall (core : CoreId) (v : Word) (s : State) : Out := .next (s.issueMove core.val 0xCA v)

/-- BRU_CALLR (R72). -/
def execBruCallr (core : CoreId) (v : Word) (s : State) : Out := .next (s.issueMove core.val 0xCB v)

/-- BRU_RET (R72). -/
def execBruRet (core : CoreId) (v : Word) (s : State) : Out := .next (s.issueMove core.val 0xCC v)

/-- BRU_RPT (R49). -/
def execBruRpt (core : CoreId) (v : Word) (s : State) : Out := .next (s.issueMove core.val 0xCD v)

/-- BRU_RPTU (R50). -/
def execBruRptu (core : CoreId) (v : Word) (s : State) : Out := .next (s.issueMove core.val 0xCE v)

/-- BRU_PUSH (R73). -/
def execBruPush (core : CoreId) (v : Word) (s : State) : Out := .next (s.issueMove core.val 0xD0 v)

/-- BRU_POP (R73). -/
def execBruPop (core : CoreId) (v : Word) (s : State) : Out := .next (s.issueMove core.val 0xD1 v)

/-! ### SYS (Table 02-11) -/

/-- SYS_SER (R77). -/
def execSysSer (core : CoreId) (v : Word) (s : State) : Out := .next (s.issueMove core.val 0x490 v)

/-- SYS_TLBI_ADDR (R215). -/
def execSysTlbiAddr (core : CoreId) (v : Word) (s : State) : Out := .next (s.issueMove core.val 0x491 (setFld v 0 2 0x0))

/-- SYS_TLBI_TAG (R215). -/
def execSysTlbiTag (core : CoreId) (v : Word) (s : State) : Out := .next (s.issueMove core.val 0x491 (setFld v 0 2 0x1))

/-- SYS_TLBI_ALL (R215). -/
def execSysTlbiAll (core : CoreId) (v : Word) (s : State) : Out := .next (s.issueMove core.val 0x491 (setFld v 0 2 0x2))

/-- SYS_TLBSYNC (R217). -/
def execSysTlbsync (core : CoreId) (v : Word) (s : State) : Out := .next (s.issueMove core.val 0x492 v)

/-- CMO_CLEAN (R242). -/
def execCmoClean (core : CoreId) (v : Word) (s : State) : Out := .next (s.issueMove core.val 0x493 (setFld v 32 2 0x0))

/-- CMO_INVALIDATE (R242). -/
def execCmoInvalidate (core : CoreId) (v : Word) (s : State) : Out := .next (s.issueMove core.val 0x493 (setFld v 32 2 0x1))

/-- CMO_CLEAN_INVALIDATE (R242). -/
def execCmoCleanInvalidate (core : CoreId) (v : Word) (s : State) : Out := .next (s.issueMove core.val 0x493 (setFld v 32 2 0x2))

/-- SYS_WKT (R286). -/
def execSysWkt (core : CoreId) (v : Word) (s : State) : Out := .next (s.issueMove core.val 0x494 v)

/-- WICKET_RETURN (R288). -/
def execWicketReturn (core : CoreId) (v : Word) (s : State) : Out := .next (s.issueMove core.val 0x495 (setFld v 0 1 0x0))

/-- FRAME_RETURN (R292). -/
def execFrameReturn (core : CoreId) (v : Word) (s : State) : Out := .next (s.issueMove core.val 0x495 (setFld v 0 1 0x1))

/-- SYS_WAIT (R258). -/
def execSysWait (core : CoreId) (v : Word) (s : State) : Out := .next (s.issueMove core.val 0x496 v)

/-- SYS_YIELD (R259). -/
def execSysYield (core : CoreId) (v : Word) (s : State) : Out := .next (s.issueMove core.val 0x497 v)

/-- SYS_XWR (R202). -/
def execSysXwr (core : CoreId) (v : Word) (s : State) : Out := .next (s.issueMove core.val 0x498 v)

/-- SYS_XRD (R202). -/
def execSysXrd (core : CoreId) (v : Word) (s : State) : Out := .next (s.issueMove core.val 0x499 v)

/-- TIMER_WRITE (R263). -/
def execTimerWrite (core : CoreId) (v : Word) (s : State) : Out := .next (s.issueMove core.val 0x482 v)

/-! ### DFM (R80) -/

/-- DFM_MAC (R80). -/
def execDfmMac (core : CoreId) (v : Word) (s : State) : Out := .next (s.issueMove core.val 0x110 v)

/-- DFM_MSB (R80). -/
def execDfmMsb (core : CoreId) (v : Word) (s : State) : Out := .next (s.issueMove core.val 0x111 v)

/-- DFM_MUL (R80). -/
def execDfmMul (core : CoreId) (v : Word) (s : State) : Out := .next (s.issueMove core.val 0x112 v)

/-- DFM_SET (R80). -/
def execDfmSet (core : CoreId) (v : Word) (s : State) : Out := .next (s.issueMove core.val 0x113 v)

end Sys2Proof.Machine
end

