-- ==== Sys2Proof/Machine/MailOps.lean ====
section
/-! DEFINITION. The mailbox hardware (R371–R373, R380): the header, the compare-and-set, the bytes a requester writes, the
doorbells. -/

namespace Sys2Proof.Machine

/-- Mailbox n. -/
def State.box (s : State) (n : Nat) : Mailbox := tabGet {} s.mail.boxes n

/-- Change mailbox n. -/
def State.onBox (s : State) (n : Nat) (f : Mailbox → Mailbox) : State :=
  { s with mail := { s.mail with boxes := tabSet {} s.mail.boxes n (f (s.box n)) } }

/-- STATE of a mailbox (Table 17-1). -/
def MbSt.code : MbSt → Nat
  | .idle => 0 | .posted => 1 | .taken => 2 | .done => 3 | .timeout => 4 | .error => 5

/-- The two words of a header (Table 17-1). -/
def Mailbox.word0 (b : Mailbox) : Word :=
  BitVec.ofNat 64 (b.st.code + b2n b.ack * 8 + b.status.toNat * 2 ^ 8 + b.prog.toNat * 2 ^ 16)
def Mailbox.word1 (b : Mailbox) : Word :=
  BitVec.ofNat 64 (b.seq.toNat + b.opcode.toNat * 2 ^ 16 + b.cls.toNat * 2 ^ 32 + b.len.toNat * 2 ^ 48)

/-- Byte j of a mailbox, 0x000–0x1FF. -/
def Mailbox.byte (b : Mailbox) (j : Nat) : Byte :=
  if j < 8 then BitVec.ofNat 8 (fld b.word0 (8 * j) 8)
  else if j < 16 then BitVec.ofNat 8 (fld b.word1 (8 * (j - 8)) 8)
  else tabGet 0 b.payload (j - 16)

/-- Bytes j .. j + n − 1 of a mailbox. -/
def Mailbox.bytes (b : Mailbox) (j n : Nat) : List Byte := (List.range n).map fun i => b.byte (j + i)

/-- Set byte j ≥ 8 of a mailbox; byte 0x0D is reserved. -/
def Mailbox.setByte (b : Mailbox) (j : Nat) (v : Byte) : Mailbox :=
  if j ≥ 16 then { b with payload := tabSet 0 b.payload (j - 16) v }
  else if j == 13 then b
  else
    let w := setFld b.word1 (8 * (j - 8)) 8 v.toNat
    { b with
      seq := BitVec.ofNat 16 (fld w 0 16), opcode := BitVec.ofNat 16 (fld w 16 16)
      cls := BitVec.ofNat 8 (fld w 32 8), len := BitVec.ofNat 16 (fld w 48 16) }

/-- Set consecutive bytes from byte j. -/
def Mailbox.setBytes (b : Mailbox) (j : Nat) : List Byte → Mailbox
  | [] => b
  | v :: t => (b.setByte j v).setBytes (j + 1) t

/-- MBSTAT.REJ counts a rejected write (Table 17-4a). -/
def State.reject (s : State) : State := { s with mail := { s.mail with rej := bump s.mail.rej } }

/-- MBSTAT.RACE counts a discarded change (R377). -/
def State.race (s : State) : State := { s with mail := { s.mail with race := bump s.mail.race } }

/-- R372, Table 17-2: a requester's compare-and-set of the state word of mailbox n: from `expect` to `new`. -/
def State.mailCas (s : State) (n expect new : Nat) : State :=
  let b := s.box n
  if b.st.code != expect then s.reject
  else
    match b.st, new with
    | .idle, 1 => s.onBox n fun b => { b with st := .posted, bell := true, timer := true }
    | .posted, 0 => s.onBox n fun b => { b with st := .idle, timer := false }
    | .done, 0 => s.onBox n fun b => { b with st := .idle, status := 0, ack := false, prog := 0 }
    | .timeout, 0 => s.onBox n fun b => { b with st := .idle, status := 0, ack := false, prog := 0 }
    | .error, 0 => s.onBox n fun b => { b with st := .idle, status := 0, ack := false, prog := 0 }
    | _, _ => s.reject

/-- A write of the state word: EXPECT and STATE of the written value. -/
def State.mailCasWord (s : State) (n : Nat) (v : Word) : State := s.mailCas n (fld v 5 3) (fld v 0 3)

/-- R373: a requester writes bytes 0x08–0x1FF of mailbox n from byte j. -/
def State.mailWrite (s : State) (n j : Nat) (bs : List Byte) : State :=
  if (s.box n).st == .idle then s.onBox n fun b => b.setBytes j bs else s.reject

/-- R380: set the doorbell of mailbox n. -/
def State.ring (s : State) (n : Nat) : State := s.onBox n fun b => { b with bell := true }

/-- R380: set the doorbells named by the bits of RING. -/
def State.ringAll (s : State) (r : Nat) : State :=
  (List.range 32).foldl (fun s n => if r.testBit n then s.ring n else s) s

end Sys2Proof.Machine
end

