-- ==== Sys2Proof/Machine/Control.lean ====
section
/-! DEFINITION. Control space (chapter 20): the value of every register, reads, and writes. -/

namespace Sys2Proof.Machine

/-! ### Block-level registers (Tables 20-1, 20-3, 20-4) -/

/-- BLKID of release 1.1 (R418). -/
def State.blkId (s : State) : Word := if s.rel10 then 0x0C3E570101000000 else 0x0C3E570101010000

/-- Cores of the block that are locked up. -/
def State.lockedCores (s : State) : Nat := (s.cores.filter fun (_, c) => c.lockCause != 0).length

/-- DSTATE of the drain (Table 15-5). -/
def DrainSt.code : DrainSt → Nat
  | .run => 0 | .draining => 1 | .drained => 2

/-- BLKSTAT (Table 20-3). -/
def State.blkStat (s : State) : Word :=
  BitVec.ofNat 64 (s.drain.st.code + b2n (s.drain.faultN || s.clkLoss) * 2 ^ 2 + b2n s.lockupN * 2 ^ 3 + b2n s.power.ttrip * 2 ^ 4 +
    b2n s.power.shut * 2 ^ 5 + b2n s.clkLoss * 2 ^ 6 + b2n s.start.ready * 2 ^ 7 + s.start.phase.toNat * 2 ^ 8 +
    s.lockedCores * 2 ^ 12)

/-- DRSTAT (Table 20-4). -/
def State.drStat (s : State) : Word :=
  let d := s.drain
  BitVec.ofNat 64 (d.st.code + b2n d.timeout * 4 + d.cause.toNat * 2 ^ 8 + d.firstUnit.toNat * 2 ^ 16 + d.tbeat.toNat * 2 ^ 32)

/-- FSUM (Table 20-4). -/
def State.fsum (s : State) : Word :=
  let d := s.drain
  BitVec.ofNat 64 (d.jobEnd.toNat + d.locks.toNat * 2 ^ 16 + d.perm.toNat * 2 ^ 32 + d.trans.toNat * 2 ^ 48)

/-! ### Mailboxes, links, ports -/

/-- MBSTAT (Table 17-4a). -/
def State.mbStat (s : State) : Word :=
  let pend := packElems 1 ((List.range 34).map fun n => b2n (s.box n).bell)
  BitVec.ofNat 64 (pend + s.mail.rej.toNat * 2 ^ 34 + s.mail.race.toNat * 2 ^ 48)

/-- LMSTAT (Table 13-8). -/
def State.lmStat (s : State) (m : Nat) : Word :=
  let l := s.link m
  let st := match l.st with | .off => 0 | .training => 1 | .up => 2 | .resetting => 3
  BitVec.ofNat 64 (st + l.role.toNat * 2 ^ 2 + l.rate.toNat * 2 ^ 4 + b2n l.degr * 2 ^ 7 + b2n l.retry * 2 ^ 8 +
    l.hsplit.toNat * 2 ^ 9 + l.rto.toNat * 2 ^ 11 + l.rqto.toNat * 2 ^ 19 + s.self.toNat * 2 ^ 35)

/-- LMCNT (Table 13-9). -/
def State.lmCnt (s : State) (m : Nat) : Word :=
  let l := s.link m
  BitVec.ofNat 64 (l.replays.toNat + l.tmo.toNat * 2 ^ 16 + l.late.toNat * 2 ^ 32 + l.resets.toNat * 2 ^ 48)

/-- SPSTAT, SPCNT and DGSTAT (Table 14-5). -/
def Stack.spStat (p : Stack) : Word :=
  let st := match p.st with | .off => 0 | .training => 1 | .up => 2 | .retrain => 3 | .failed => 4
  BitVec.ofNat 64 (st + p.rate.toNat * 2 ^ 3 + p.scap.toNat * 2 ^ 5 + p.retrains.toNat * 2 ^ 9)
def Stack.spCnt (p : Stack) : Word :=
  BitVec.ofNat 64 (p.ce.toNat + p.ue.toNat * 2 ^ 16 + p.orderErr.toNat * 2 ^ 32 + p.scrubs.toNat * 2 ^ 48)
def Stack.dgStat (p : Stack) : Word :=
  BitVec.ofNat 64 (b2n p.dgBusy + b2n p.dgDirty * 2 + b2n p.dgPoisoned * 4 + p.dgMarks.toNat * 2 ^ 8)

/-! ### The escapement (Tables 16-2, 16-3, 16-6, 16-9, 18-4, R360) -/

/-- MPSTAT (Table 16-2). -/
def State.mpStat (s : State) : Word :=
  BitVec.ofNat 64 (packElems 16 ((List.range 4).map fun i =>
    let m := tabGet ({} : Mp) s.mps i
    m.st.toNat + m.cause.toNat * 4 + m.restarts.toNat * 16))

/-- BEATSTAT (Table 16-3). -/
def State.beatStat (s : State) : Word :=
  let b := s.beat
  BitVec.ofNat 64 (b2n b.lock + b2n b.snapSel * 2 + b.lastErr.toNat * 2 ^ 8 + b.capt.toNat * 2 ^ 25 + b.miss.toNat * 2 ^ 41)

/-- PWRSTAT (Table 16-6). -/
def State.pwrStat (s : State) : Word :=
  let p := s.power
  BitVec.ofNat 64 (p.plim.toNat + p.pmeas.toNat * 2 ^ 11 + p.duty.toNat * 2 ^ 22 + p.vtgt.toNat * 2 ^ 26 + b2n p.shut * 2 ^ 36 +
    b2n p.talarm * 2 ^ 37 + b2n p.ttrip * 2 ^ 38 + b2n p.iguard * 2 ^ 39 + p.tlim.toNat * 2 ^ 40)

/-- STARTSTAT (Table 18-4). -/
def State.startStat (s : State) : Word :=
  let x := s.start
  BitVec.ofNat 64 (x.phase.toNat + x.slot.toNat * 2 ^ 4 + b2n x.fallback * 2 ^ 5 + b2n x.libReady * 2 ^ 6 + b2n x.libBad * 2 ^ 7 +
    x.setCopy.toNat * 2 ^ 8 + b2n x.setDef * 2 ^ 9 + x.rollCnt.toNat * 2 ^ 16 + x.session.toNat * 2 ^ 24)

/-- Halfword j of a list of readings. -/
def halfAt (l : List (BitVec 16)) (j : Nat) : Nat := match l[j]? with | some x => x.toNat | none => 0

/-- The 16-bit unit at byte offset 2j of a snapshot buffer (R360). -/
def Snapshot.half (x : Snapshot) (j : Nat) : Nat :=
  if j < 4 then fld x.beat (16 * j) 16
  else if j == 4 then x.vcore.toNat
  else if j == 5 then x.power.toNat
  else if j < 8 then 0
  else if j < 352 then halfAt x.thermal (j - 8)
  else if j < 536 then halfAt x.current (j - 352)
  else if j < 696 then halfAt x.droop (j - 536)
  else 0

/-- The 8 bytes at byte offset o of a snapshot buffer. -/
def Snapshot.word (x : Snapshot) (o : Nat) : Word := BitVec.ofNat 64 (packElems 16 ((List.range 4).map fun i => x.half (o / 2 + i)))

/-! ### Cluster status windows (Tables 11-5 to 11-8, 20-5) -/

/-- DSTATE of a cluster (Table 20-5). -/
def DomSt.code : DomSt → Nat
  | .off => 0 | .waking => 1 | .on => 2 | .fencing => 3

/-- The stop part of cluster c's window at an 8-byte offset. -/
def State.stopReg (s : State) (c o : Nat) : Word :=
  let x := s.cluster c
  let lock := fun (i : Nat) => (s.core (c * 64 + i)).lockCause.toNat
  match o with
  | 0x00 =>
    let locked := ((List.range 64).filter fun i => lock i != 0).length
    BitVec.ofNat 64 (c + x.dst.code * 2 ^ 8 + b2n x.slot.isSome * 2 ^ 10 + x.slot.getD 0 * 2 ^ 11 + locked * 2 ^ 17)
  | 0x08 => BitVec.ofNat 64 (x.ce.toNat + x.parErr.toNat * 2 ^ 16 + x.wbErr.toNat * 2 ^ 32 + x.orderErr.toNat * 2 ^ 48)
  | 0x10 => BitVec.ofNat 64 (x.ue.toNat + x.droop.toNat * 2 ^ 16 + x.tagLost.toNat * 2 ^ 32)
  | _ =>
    if inR o 0x20 0x38 then BitVec.ofNat 64 (packElems 4 ((List.range 16).map fun k => lock ((o - 0x20) / 8 * 16 + k)))
    else 0

/-- TMAP and RMAP (Table 11-5). -/
def Core.tmap (c : Core) : Word := BitVec.ofNat 64 (packElems 1 ((List.range 64).map fun t => b2n (tabFind c.tasks t).isSome))
def Core.rmap (c : Core) : Word :=
  BitVec.ofNat 64 (packElems 1 ((List.range 64).map fun t => match tabFind c.tasks t with | some x => b2n x.loc.isSome | none => 0))

/-- The scheduler block at an 8-byte offset (Tables 11-5 to 11-8, 11-11). -/
def Core.schedReg (c : Core) (o : Nat) : Word :=
  match o with
  | 0x00 => BitVec.ofNat 64 (b2n c.ken + b2n c.texcl * 2 + c.ovfblk.toNat * 2 ^ 16)
  | 0x08 => c.spa
  | 0x18 => BitVec.ofNat 64 (b2n (!c.tcmdQ.isEmpty) + b2n c.tsDrop * 2 + c.tsCode.toNat * 2 ^ 8 + c.tsTask.toNat * 2 ^ 16)
  | 0x20 => c.scause
  | 0x28 => c.tmap
  | 0x30 => c.rmap
  | _ => 0

/-! ### Reads -/

/-- The 8 bytes at an 8-byte offset of control space (Table 20-2); unassigned offsets read 0. -/
def State.ctl8 (s : State) (o : Nat) : RStat × Word :=
  let at_ := fun (w : Word) => (RStat.ok, w)
  if inR o 0x1000 0x4FFF then
    let b := s.box ((o - 0x1000) / 0x200)
    at_ (BitVec.ofNat 64 (leToNat (b.bytes ((o - 0x1000) % 0x200) 8)))
  else if inR o 0x20000 0x20FFF then
    at_ (match o % 0x100 with | 0 => s.lmStat ((o - 0x20000) / 0x100) | 8 => s.lmCnt ((o - 0x20000) / 0x100) | _ => 0)
  else if inR o 0x30000 0x31FFF then at_ (tabGet 0 s.routes ((o - 0x30000) / 8))
  else if inR o 0x50000 0x507FF then
    let p := s.port ((o - 0x50000) / 0x100)
    at_ (match o % 0x100 with | 0 => p.spStat | 8 => p.spCnt | 0x10 => p.dgStat | _ => 0)
  else if inR o 0x70000 0x707FF then at_ (s.beat.snapA.word (o - 0x70000))
  else if inR o 0x70800 0x70FFF then at_ (s.beat.snapB.word (o - 0x70800))
  else if inR o 0x1000000 0x19FFFFF then
    let c := (o - 0x1000000) / 0x10000
    let w := (o - 0x1000000) % 0x10000
    if w < 0x8000 then at_ (s.stopReg c w)
    else if (s.cluster c).dst != .on then (.bankOff, 0)
    else at_ ((s.core (c * 64 + (w - 0x8000) / 0x200)).schedReg (w % 0x200))
  else
    at_ (match o with
      | 0x0 => s.blkId
      | 0x100 => s.blkStat
      | 0x200 => BitVec.ofNat 64 (b2n s.walkErrMode)
      | 0x5008 => s.mbStat
      | 0x10000 => s.drStat
      | 0x10008 => s.fsum
      | 0x10010 => s.drain.lastJob
      | 0x50800 => BitVec.ofNat 64 (s.ilv.toNat + s.cap.toNat * 4)
      | 0x60000 => s.mpStat
      | 0x60100 => BitVec.ofNat 64 (b2n s.beat.en)
      | 0x60108 => s.beatStat
      | 0x60110 => s.beat.count
      | 0x60200 => s.pwrStat
      | 0x60300 => BitVec.ofNat 64 (bitsOf s.domstat.toNat 0 64)
      | 0x60308 => BitVec.ofNat 64 (bitsOf s.domstat.toNat 64 64)
      | 0x60310 => BitVec.ofNat 64 (bitsOf s.domstat.toNat 128 56)
      | 0x60400 => s.startStat
      | _ => 0)

/-- R420: a naturally aligned read of 4 or 8 bytes; any other is answered as unpopulated. -/
def State.ctlRead (s : State) (o : Nat) (wide : Bool) : RStat × Word :=
  if o % (if wide then 8 else 4) != 0 then (.busErr, 0)
  else
    let (st, w) := s.ctl8 (o / 8 * 8)
    (st, if wide then w else BitVec.ofNat 64 (fld w (8 * (o % 8)) 32))

/-! ### Digest marks (R329) -/

/-- Change every port. -/
def State.mapPorts (s : State) (f : Stack → Stack) : State :=
  (List.range 8).foldl (fun s p => s.onPort p f) s

/-- Start a digest if the marks have reached the interval and none runs. -/
def State.digestStart (s : State) : State :=
  if s.digest.busy || s.digest.interval == 0 || s.digest.marks < s.digest.interval.toNat || s.digest.regions.isEmpty then s
  else
    { s with digest := { s.digest with busy := true, dirty := [], marks := 0 } }.mapPorts fun p =>
      { p with dgBusy := true, dgDirty := false, dgPoisoned := false, dgMarks := 0 }

/-- A mark is counted. -/
def State.digestMark (s : State) : State :=
  ({ s with digest := { s.digest with marks := s.digest.marks + 1 } }.mapPorts fun p => { p with dgMarks := bump p.dgMarks }).digestStart

/-! ### Writes -/

/-- R420: a 4-byte write to one half of a register acts as if the other half were written with its current value. -/
def mergeHalf (cur : Word) (o : Nat) (wide : Bool) (v : Word) : Word :=
  if wide then v else setFld cur (8 * (o % 8)) 32 (fld v 0 32)

/-- A write to SCTL or SPA of core n (Table 11-6). -/
def State.schedWrite (s : State) (n o : Nat) (v : Word) : State :=
  match o with
  | 0x00 => s.onCore n fun c => { c with texcl := bitAt v 1 }
  | 0x08 =>
    if !(s.core n).tasks.isEmpty || fld v 0 8 + fld v 8 9 > 256 then s
    else s.onCore n fun c => { c with spa := low v 17 }
  | _ => s

/-- R266: a SPILL or FILL that the keeper stores while both entries are occupied waits in its store buffer. -/
def State.keepTcmd (s : State) (n : Nat) (v : Word) : State :=
  let (eid, s) := s.fresh
  let pa := 0x18000000000 + tcmdOff n
  let e : SbEntry := {
    eid := eid, task := none, order := (s.case n 8).stores, va := BitVec.ofNat 64 pa, line := pa / 64, mask := maskOf (pa % 64) 8
    data := BitVec.ofNat 512 (v.toNat * 2 ^ (8 * (pa % 64))), cacheable := false, device := true, inTrap := true }
  (s.onCase n 8 fun c => { c with stores := c.stores + 1 }).onCore n fun c => { c with sbuf := c.sbuf ++ [e] }

/-- R266, R349: a TCMD store from outside the core, or from its own keeper through a command, arrives. While the block drains
it is discarded and sets DROP. `none`: it ends when its command completes. -/
def State.tcmdStore (s : State) (n : Nat) (v : Word) (fromKeeper : Bool) (ret : Ret) : State × Option RStat :=
  if s.drain.st != .run then (s.onCore n fun c => { c with tsDrop := true }, some .ok)
  else
    match s.tcmdArrive n v fromKeeper ret with
    | (s, none) => (s, none)
    | (s, some true) => (s, some .ok)
    | (s, some false) => (s.keepTcmd n v, some .ok)

/-- The keeper of core n, with a trap in progress, makes the access. -/
def State.keeperOf (s : State) (n : Nat) (by_ : Requester) : Bool :=
  match by_ with
  | .keeper m => m.val == n && bitAt (s.core n).scause 22
  | _ => false

/-- R420: a write of 4 or 8 bytes to control space; `ret` is where the end of a TCMD store goes. How the write ends, if it
ends now. -/
def State.ctlWrite (s : State) (o : Nat) (wide : Bool) (v : Word) (by_ : Requester) (ret : Ret) : State × Option RStat :=
  let size := if wide then 8 else 4
  let o8 := o / 8 * 8
  if o % size != 0 then (s, some .busErr)
  else if inR o 0x1000 0x4FFF then
    let n := (o - 0x1000) / 0x200
    let j := (o - 0x1000) % 0x200
    if j == 0 then (s.mailCasWord n v, some .ok)
    else if j == 4 then (s, some .ok)
    else (s.mailWrite n j (natToLe v.toNat size), some .ok)
  else if o == 0x5000 then (s.ringAll (fld v 0 32), some .ok)
  else if o8 == 0x50808 then (if wide && by_ != .host then s.digestMark else s, some .ok)
  else if o8 == 0x200 then
    ({ s with walkErrMode := bitAt (mergeHalf (BitVec.ofNat 64 (b2n s.walkErrMode)) o wide v) 0 && !s.rel10 }, some .ok)
  else if inR o 0x1000000 0x19FFFFF && (o - 0x1000000) % 0x10000 ≥ 0x8000 then
    let c := (o - 0x1000000) / 0x10000
    let w := (o - 0x1000000) % 0x10000
    let n := c * 64 + (w - 0x8000) / 0x200
    if (s.cluster c).dst != .on then (s, some .bankOff)
    else if o8 % 0x200 == 0x10 then (if wide then s.tcmdStore n v (s.keeperOf n by_) ret else (s, some .ok))
    else (s.schedWrite n (o8 % 0x200) (mergeHalf ((s.core n).schedReg (o8 % 0x200)) o wide v), some .ok)
  else (s, some .ok)

end Sys2Proof.Machine
end

