-- ==== Sys2Proof/Machine/Engine.lean ====
section
/-! DEFINITION. The accumulate engines of banks and stack ports (R184–R192, R155): readiness by rank, hold and order table,
retry notices, VOIDs, and the read-modify-write of a line. -/

namespace Sys2Proof.Machine

/-! ### Engines by place -/

/-- An engine: of bank n, or of stack port p. -/
inductive EngAt where
  | bank (n : Nat)
  | port (p : Nat)
  deriving DecidableEq, Repr

/-- The engine a command names. -/
def engAtOf : EngineId → EngAt
  | .bank n => .bank n.val
  | .port p => .port p.val

/-- The state of an engine. -/
def State.getEng (s : State) : EngAt → Engine
  | .bank n => s.engine n
  | .port p => (s.port p).eng

/-- Replace the state of an engine. -/
def State.setEng (s : State) (k : EngAt) (e : Engine) : State :=
  match k with
  | .bank n => { s with engines := tabSet {} s.engines n e }
  | .port p => s.onPort p fun x => { x with eng := e }

/-- R180, R271, R369: the engine at a physical address, or how an addend to it ends. The core `own` reaches the engine of its
bank through the bonds, behind the fence (R12). -/
def State.engineFor (s : State) (pa : Nat) (own : Option Nat := none) : EngAt ⊕ RStat :=
  match s.place pa with
  | .bank n off =>
    if !(s.clusterOn n || (own == some n && s.hasPower n)) then .inr .bankOff
    else if s.inSpill n off 1 then .inr .busErr
    else .inl (.bank n)
  | .ext p _ =>
    let x := s.port p
    if x.st == .off || x.st == .failed || x.fenced then .inr .busErr else .inl (.port p)
  | _ => .inr .busErr

/-- Entries of the hold and lines of the order table (R189). -/
def EngAt.holdCap : EngAt → Nat
  | .bank _ => 256
  | .port _ => 16384
def EngAt.tableCap : EngAt → Nat
  | .bank _ => 64
  | .port _ => 4096

/-- R192, R313, R325: a retry notice is held by some link module or stack port. -/
def State.notice (s : State) : Bool := s.links.any (fun (_, l) => l.retry) || s.ports.any fun (_, p) => p.notice

/-- R192, R325 step 3: the notice engine k holds: of a link module in retry, which may bring writes to any engine, of a stack
port in recovery for a bank engine, and of its own port for a port's. -/
def State.noticeFor (s : State) (k : EngAt) : Bool :=
  s.links.any (fun (_, l) => l.retry) ||
    match k with
    | .bank _ => s.ports.any fun (_, p) => p.notice
    | .port p => (s.port p).notice

/-- R187: count an order error at an engine. -/
def State.countOrder (s : State) (k : EngAt) (c : Nat) : State :=
  if c == 0 then s
  else match k with
    | .bank n => s.onCluster (clusterOf n) fun x => { x with orderErr := bumpBy x.orderErr c }
    | .port p => s.onPort p fun x => { x with orderErr := bumpBy x.orderErr c }

/-! ### Ranks and rounds -/

/-- R187, R188: only floating adds with SIZE ≠ 0 are ranked. -/
def Addend.ranked (a : Addend) : Bool := a.af ≤ 2 && a.size != 0

/-- The element an addend names: its address and size in bytes (R187). -/
def Addend.elem (a : Addend) : Nat × Nat := let z := afBytes a.af; (a.pa / z * z, z)

/-- The line an addend names. -/
def Addend.line (a : Addend) : Nat := a.pa / 64

/-- The five fields by which a VOID names an addend (R155). -/
def Addend.name (a : Addend) : Nat × Nat × Nat × Nat × Nat := (a.pa, a.rank, a.size, a.srcblk, a.src)

/-- The round state of an element; NEXT is 0 where none is kept. -/
def Engine.round (e : Engine) (el : Nat × Nat) : Round :=
  match e.rounds.find? fun r => r.pa == el.1 && r.bytes == el.2 with
  | some r => r
  | none => { pa := el.1, bytes := el.2, next := 0, size := 0 }

/-- R187 step 1: the size of the open round of an element: one that has advanced, or one a ready addend has opened. -/
def Engine.openSize (e : Engine) (el : Nat × Nat) : Option Nat :=
  let r := e.round el
  if r.next != 0 then some r.size
  else (e.ready.find? fun b => b.ranked && !b.err && !b.loose && b.rank == 0 && b.size > 1 && b.elem == el).map (·.size)

/-- No round is open on the addend's element, or the open one has its size. -/
def Engine.fits (e : Engine) (a : Addend) : Bool := match e.openSize a.elem with | none => true | some z => z == a.size

/-- The rank is the next one of the round, or of a round it opens (R187 step 1). -/
def Engine.inTurn (e : Engine) (a : Addend) : Bool := a.rank == (e.round a.elem).next && e.fits a

/-- R192: the rank is one that a notice has passed over. -/
def Round.isLate (r : Round) (a : Addend) : Bool := r.size == a.size && r.late.contains a.rank

/-- R192: the ranks passed over that are still awaited: those of an open round; of a closed one only while the notice holds,
as the element is back in normal service after it, or while a strict addend that one of them holds up is there (R154). -/
def Engine.awaited (e : Engine) (notice : Bool) (r : Round) : List Nat :=
  if r.next != 0 || notice || e.held.any (fun h => h.elem == (r.pa, r.bytes) && r.isLate h) then r.late else []

/-- Store a round state; one with NEXT = 0 and no rank awaited is not kept. -/
def Engine.setRound (e : Engine) (notice : Bool) (r : Round) : Engine :=
  let l := e.rounds.filter fun x => !(x.pa == r.pa && x.bytes == r.bytes)
  let r := { r with late := e.awaited notice r }
  { e with rounds := if r.next == 0 && r.late.isEmpty then l else l ++ [r] }

/-- R192: the round states after the engine's notice has changed. -/
def Engine.settle (e : Engine) (notice : Bool) : Engine :=
  { e with rounds := (e.rounds.map fun r => { r with late := e.awaited notice r }).filter fun r => r.next != 0 || !r.late.isEmpty }

/-- Two elements share bytes and do not coincide. -/
def elemsClash (x y : Nat × Nat) : Bool := x != y && x.1 < y.1 + y.2 && y.1 < x.1 + x.2

/-- R187 step 5: an open round on an element that overlaps this one without coinciding with it. -/
def Engine.overlapsOpen (e : Engine) (el : Nat × Nat) : Bool :=
  e.rounds.any fun r => r.next != 0 && elemsClash (r.pa, r.bytes) el

/-- R187 step 5: such a round, or one that a ready addend opens. -/
def Engine.overlaps (e : Engine) (el : Nat × Nat) : Bool :=
  e.overlapsOpen el || e.ready.any fun a => a.ranked && !a.err && a.rank == 0 && a.size > 1 && elemsClash a.elem el

/-- R154: a strict addend of a lower rank of the element waits. -/
def Engine.strictBelow (e : Engine) (a : Addend) : Bool :=
  e.held.any fun h => h.strict && h.elem == a.elem && h.size == a.size && h.rank < a.rank

/-- R154: in a recovery, or while ranks it passed over are awaited, a strict addend waits for every earlier rank, and a later
write waits behind a waiting strict one. -/
def Engine.waits (e : Engine) (notice : Bool) (a : Addend) : Bool :=
  let r := e.round a.elem
  ((notice || !r.late.isEmpty) && e.strictBelow a) || (a.strict && r.size == a.size && r.late.any (· < a.rank))

/-- R192: the addend is applied at once. -/
def Engine.relaxed (e : Engine) (notice : Bool) (a : Addend) : Bool :=
  !e.waits notice a && ((notice && !a.strict) || (e.round a.elem).isLate a)

/-- Lines with an open round, and those that a ready addend will open one on (R189). -/
def Engine.tableLines (e : Engine) : List Nat :=
  setAddAll [] ((e.rounds.filterMap fun r => if r.next != 0 then some (r.pa / 64) else none) ++
    e.ready.filterMap fun a => if a.ranked && !a.err && a.size > 1 then some a.line else none)

/-- R189: the addend would open a round on a line not in a full order table. -/
def Engine.tableFull (e : Engine) (k : EngAt) (a : Addend) : Bool :=
  let l := e.tableLines
  (e.round a.elem).next == 0 && a.size > 1 && !l.contains a.line && l.length ≥ k.tableCap

/-- What a hold entry holds: the addends of one write to one line, or one VOID (R189). -/
def Addend.entry (a : Addend) : Nat × Nat × Nat × Nat :=
  if a.void then (0, a.id, 0, 0)
  else match a.ret with
    | .store n eid => (1, n, eid, a.line)
    | .xmu n id _ _ _ => (2, n, id, a.line)
    | .link m id => (3, m, id, a.line)
    | _ => (4, a.id, 0, a.line)

/-- Hold entries in use. -/
def Engine.entries (e : Engine) : List (Nat × Nat × Nat × Nat) := e.held.foldl (fun l a => if l.contains a.entry then l else l ++ [a.entry]) []

/-- R189: the addend must be held and the hold is full. -/
def Engine.holdFull (e : Engine) (k : EngAt) (a : Addend) : Bool :=
  let l := e.entries
  !l.contains a.entry && l.length ≥ k.holdCap

/-- What becomes of an addend that arrives. -/
inductive Slot where
  /-- made ready -/
  | ready (a : Addend)
  /-- an order error: applied at once and counted -/
  | error (a : Addend)
  | hold
  | refuse
  deriving DecidableEq, Repr

/-- R187, R188, R189, R192: classify an arriving addend. -/
def Engine.classify (e : Engine) (k : EngAt) (notice : Bool) (a : Addend) : Slot :=
  if !a.ranked then .ready a
  else
    let r := e.round a.elem
    let loose := e.relaxed notice a
    let waits := e.waits notice a
    if e.overlaps a.elem then
      if loose then .ready { a with err := true } else .error { a with err := true }
    else if loose || (!waits && e.inTurn a) then
      if a.rank + 1 < a.size && e.tableFull k a && !r.isLate a then .refuse else .ready { a with loose := loose }
    else if (a.rank ≥ r.next && e.fits a) || r.isLate a then
      if e.holdFull k a then .refuse else .hold
    else .error { a with err := true }

/-- R187 step 2, R192: the round state after an addend is applied, and whether it proves an order error now. -/
def Engine.advance (e : Engine) (notice : Bool) (a : Addend) : Engine × Bool :=
  if !a.ranked || a.err then (e, false)
  else if e.overlapsOpen a.elem then (e, !a.loose)
  else
    let r := e.round a.elem
    let after := fun (late : List Nat) =>
      e.setRound notice { r with next := if a.rank + 1 ≥ a.size then 0 else a.rank + 1, size := a.size, late := late }
    if r.isLate a then (e.setRound notice { r with late := r.late.filter (· != a.rank) }, false)
    else if e.inTurn a then (after r.late, false)
    else if a.loose then
      if e.fits a && a.rank > r.next then (after (r.late ++ keysFrom r.next (a.rank - r.next)), false) else (e, false)
    else (e, true)

/-- R155: remember a strict ranked addend that came over a link and is applied. One that opens a round of its element lets those
of earlier rounds be forgotten: a later VOID names the open round. DEDUCED (log entry 133). -/
def Engine.remember (e : Engine) (a : Addend) : Engine :=
  if !a.ranked || a.err then e
  else
    let r := e.round a.elem
    let e := if r.next == 0 && !r.isLate a then { e with applied := e.applied.filter (·.1 != a.pa) } else e
    match a.ret with
    | .link _ _ =>
      if a.strict && !a.void && !e.applied.contains a.name then { e with applied := e.applied ++ [a.name] } else e
    | _ => e

/-- An addend takes its turn in its round, and is remembered (R155, R187). -/
def Engine.turn (e : Engine) (notice : Bool) (a : Addend) : Engine × Bool := (e.remember a).advance notice a

/-- The first held addend of an element that need not be held any longer, and whether it is an order error (R187 steps 1
and 4, R192). DESIGN CHOICE (log entry 132): one whose SIZE is not that of a round opened after it came stays held, uncounted,
until that round closes. -/
def Engine.pick (e : Engine) (notice : Bool) (el : Nat × Nat) : Option (Addend × Engine × Bool) :=
  let r := e.round el
  let can := fun (h : Addend) => h.elem == el &&
    ((!e.waits notice h && e.inTurn h) || e.relaxed notice h ||
      (r.next != 0 && r.size == h.size && h.rank < r.next && !r.isLate h))
  match findIdx can e.held with
  | none => none
  | some i =>
    match e.held[i]? with
    | none => none
    | some h =>
      let inTurn := e.inTurn h
      let loose := !inTurn && e.relaxed notice h
      some ({ h with loose := loose, err := !inTurn && !loose }, { e with held := dropAt e.held i }, !inTurn && !loose)

/-- Make ready every held addend of an element that need not be held any longer; a VOID takes its slot at once (R155).
Answers the order errors to count. -/
def Engine.wake (e : Engine) (notice : Bool) (el : Nat × Nat) : Nat → Engine × Nat
  | 0 => (e, 0)
  | fuel + 1 =>
    match e.pick notice el with
    | none => (e, 0)
    | some (h, e, bad) =>
      let e := if h.void then (e.turn notice h).1 else { e with ready := e.ready ++ [h] }
      let (e, c) := e.wake notice el fuel
      (e, c + b2n bad)

/-- Wake the held addends of an engine after element `el` has changed. -/
def State.wakeHeld (s : State) (k : EngAt) (el : Nat × Nat) : State :=
  let e := s.getEng k
  let (e, c) := e.wake (s.noticeFor k) el e.held.length
  (s.setEng k e).countOrder k c

/-- Every engine that holds anything. -/
def State.engines_ (s : State) : List EngAt := (s.engines.map fun (n, _) => EngAt.bank n) ++ s.ports.map fun (p, _) => EngAt.port p

/-- R192: a retry notice begins: every engine it reaches applies at once the held addends that the notice frees. -/
def State.noticeStart (s : State) : State :=
  s.engines_.foldl (fun s k => ((s.getEng k).held.map Addend.elem).foldl (fun s el => s.wakeHeld k el) s) s

/-- R192: a retry notice has ended: elements whose rounds are closed are back in normal service at every engine that holds
no notice. -/
def State.noticeEnd (s : State) : State :=
  s.engines_.foldl (fun s k => s.setEng k ((s.getEng k).settle (s.noticeFor k))) s

/-! ### Arrival -/

/-- R298: the end of an addend goes back to its issuer: as a response behind the earlier ones of its pair of agents, or at once
through the bonds. -/
def State.addendEnds (s : State) (a : Addend) (st : RStat) (bs : List Byte) : State :=
  if s.goesDown a then s.finish a.ret st bs
  else { s with responses := s.responses ++
    [{ num := a.birth, src := s.addendDst a, dst := a.agent, ret := a.ret, stat := st, data := bs }] }

/-- An addend reaches its engine; a refused one stays with its issuer (R189). -/
def State.addendIn (s : State) (a : Addend) : State :=
  match s.engineFor a.pa a.agent.core? with
  | .inr st => s.addendEnds a st []
  | .inl k =>
    let (id, s) := s.fresh
    let a := { a with id := id, born := some a.birth }
    let e := s.getEng k
    match e.classify k (s.noticeFor k) a with
    | .ready a => s.setEng k { e with ready := e.ready ++ [a] }
    | .error a => (s.setEng k { e with ready := e.ready ++ [a] }).countOrder k 1
    | .hold => s.setEng k { e with held := e.held ++ [a] }
    | .refuse => { s with refused := s.refused ++ [a] }

/-- R155: a VOID reaches the engine. It is discarded where the named addend has been applied or is about to be; it removes a
held one; it takes the slot of one that has not arrived. -/
def State.voidIn (s : State) (v : Addend) : State :=
  match s.engineFor v.pa with
  | .inr _ => s
  | .inl k =>
    let e := s.getEng k
    if v.size == 0 || !v.ranked then s
    else if e.applied.contains v.name then s.setEng k { e with applied := e.applied.filter (· != v.name) }
    else if e.ready.any fun a => a.name == v.name && a.strict && !a.void then s
    else
      let (id, s) := s.fresh
      let v := { v with id := id, born := some v.birth, void := true, strict := true, ret := .none }
      let named := fun (a : Addend) => a.name == v.name && a.strict && !a.void
      let s := match e.held.find? named with
        | some a => s.addendEnds a .ok []
        | none => s
      let e := s.getEng k
      let e := match findIdx named e.held with
        | some i => { e with held := dropAt e.held i }
        | none => e
      match e.classify k (s.noticeFor k) v with
      | .ready v => (s.setEng k (e.turn (s.noticeFor k) v).1).wakeHeld k v.elem
      | .error _ => (s.setEng k e).countOrder k 1
      | .hold => s.setEng k { e with held := e.held ++ [v] }
      | .refuse => { s.setEng k e with refused := s.refused ++ [v] }

/-! ### The read-modify-write -/

/-- Table 08-3: what an operation makes of the old value. -/
def engineOp (af old val cmp : Nat) : Nat :=
  let flt := fun (f : FFmt) => engineFinish f (xadd 0 (f.decode old) (f.decode val))
  match af with
  | 0 => flt .fp64
  | 1 => flt .fp32
  | 2 => flt .w16
  | 3 => (old + val) % 2 ^ 32
  | 4 => if signedOf old 64 < signedOf val 64 then val else old
  | 5 => if old < val then val else old
  | 6 => engineMax .fp64 old val
  | 7 => engineMax .fp32 old val
  | _ => if old == cmp then val else old

/-- The storage address of a local physical address. -/
def State.storeAddr (s : State) (pa : Nat) : Nat :=
  match s.place pa with
  | .ext p a => p * 2 ^ 37 + a
  | _ => pa

/-- Apply one addend to its element: the line is read whole, so an error anywhere in it is found, and a poisoned addend or line
leaves it poisoned (R185). Answers how the access ends and, for compare-and-swap, the old value. -/
def State.applyAddend (s : State) (a : Addend) : State × RStat × List Byte :=
  let z := afBytes a.af
  let at_ := s.storeAddr (a.elem.1)
  let (s, bad, _) := s.readStore (at_ / 64 * 64) 64
  let bs := s.bytes at_ z
  let old := leToNat bs
  let new := engineOp a.af old (a.val.toNat % 2 ^ (8 * z)) a.cmp.toNat
  let s := s.writeStore at_ (natToLe new z) (bad || a.poison)
  if a.af == 8 then (s, if bad then .poisoned else .ok, bs) else (s, .ok, [])

/-- R185: apply addends in order; each one applied lets the held ones of its element follow in turn (R187). -/
def State.applyAll (s : State) (k : EngAt) : Nat → List Addend → State
  | 0, _ => s
  | _, [] => s
  | fuel + 1, a :: rest =>
    let (s, st, bs) : State × RStat × List Byte := if a.void then (s, .ok, []) else s.applyAddend a
    let (e, bad) := (s.getEng k).turn (s.noticeFor k) a
    let s := (s.setEng k e).countOrder k (b2n bad)
    let s := if a.void then s else s.addendEnds a st bs
    match (s.getEng k).pick (s.noticeFor k) a.elem with
    | none => s.applyAll k fuel rest
    | some (h, e, err) => ((s.setEng k e).countOrder k (b2n err)).applyAll k fuel (h :: rest)

/-- An engine may work: its bank has power, or its port is not held (R185, R325). -/
def State.engineRuns (s : State) : EngAt → Bool
  | .bank n => s.hasPower n
  | .port p => s.live && (s.port p).st == .up

/-- R427: of the ready addends of a line of a port, those that came before every queued request to that line. -/
def State.mayApply (s : State) (k : EngAt) (line : Nat) (a : Addend) : Bool :=
  a.line == line &&
    match k with
    | .bank _ => true
    | .port p => (s.port p).queue.all fun q => a.id < q.arr || !q.op.lines.contains line

/-- R325 step 5: the notice ends once the port has issued every request the retrain held. -/
def State.endNotice (s : State) (k : Nat) : State :=
  let x := s.port k
  if x.notice && x.st == .up && !(x.queue.any fun q => q.arr < x.mark) && !(x.eng.ready.any fun a => a.id < x.mark) then
    (s.onPort k fun x => { x with notice := false }).noticeEnd
  else s

/-- R325 step 5: a port whose engine has worked may have issued the last request a retrain held. -/
def State.engineNotice (s : State) : EngAt → State
  | .bank _ => s
  | .port p => s.endNotice p

/-- R185: one read-modify-write of a line. -/
def State.engineLine (s : State) (k : EngAt) (line : Nat) : State :=
  if !s.engineRuns k then s
  else
    let e := s.getEng k
    let go := e.ready.filter (s.mayApply k line)
    let s' := s.setEng k { e with ready := e.ready.filter (!s.mayApply k line ·) }
    (s'.applyAll k (go.length + e.held.length + 1) go).engineNotice k

/-! ### The commands -/

/-- R298: no earlier request of the source to the destination is still on the mesh. -/
def State.meshFirst (s : State) (src dst : Agent) (id : Nat) : Bool :=
  !(s.packets.any fun p => p.src == src && p.dst == dst && p.id < id)

/-- R425: a VOID waits while the addend it names is on its way or refused. -/
def State.voidWaits (s : State) (v : Addend) : Bool :=
  let named := fun (b : Addend) => b.name == v.name && b.strict && !b.void && b.birth < v.birth
  v.void && (s.addends.any named || s.refused.any named)

/-- R298: no earlier addend of the source to the destination is on the way, but for a VOID that waits. -/
def State.addendFirst (s : State) (src dst : Agent) (id : Nat) : Bool :=
  !(s.addends.any fun b => b.agent == src && s.addendDst b == dst && b.id < id && !s.voidWaits b)

/-- Table 15-1: an addend reaches its stop: discarded there if its header is uncorrectable, poisoned if its data is bad. One that
goes down through the bonds meets no stop. -/
def State.addendAt (s : State) (a : Addend) : State :=
  if s.goesDown a then s.addendIn a
  else if a.flit == .header then s.badHeader (s.addendDst a).unit
  else if a.void then s.voidIn a
  else (s.noteFlit (s.addendDst a).unit a.flit).addendIn { a with poison := a.poison || a.flit == .data, flit := .none }

/-- ADDEND_ARRIVAL (R187): the i-th addend on the way reaches its engine. -/
def execAddendArrival (i : Nat) (s : State) : Out :=
  match s.addends[i]? with
  | none => .next s
  | some a =>
    if s.live && !s.voidWaits a && s.meshFirst a.agent (s.addendDst a) a.id && s.addendFirst a.agent (s.addendDst a) a.id then
      .next (State.addendAt { s with addends := dropAt s.addends i } a)
    else .next s

/-- ADDEND_RESEND (R189): the i-th refused addend is sent again. -/
def execAddendResend (i : Nat) (s : State) : Out :=
  match s.refused[i]? with
  | none => .next s
  | some a =>
    if s.live then
      let (id, s) := s.fresh
      .next { s with refused := dropAt s.refused i, addends := s.addends ++ [{ a with id := id }] }
    else .next s

/-- ENGINE_RMW (R185): one read-modify-write of line `line` (physical address ÷ 64) at an engine. -/
def execEngineRmw (eng : EngineId) (line : Nat) (s : State) : Out := .next (s.engineLine (engAtOf eng) line)

/-- BANK_SCRUB (R331): every correctable error of the bank and of the tile main file beneath the core is corrected and counted,
and every line or row that is beyond correction is found. -/
def execBankScrub (core : CoreId) (s : State) : Out :=
  if s.coreOn core.val then
    .next ((List.range 8).foldl (fun s k => s.scanTiles core.val k (List.range 8))
      (s.scrubRange (bankPa core.val 0 / 8) (bankPa core.val 0 / 8 + 32768)))
  else .next s

end Sys2Proof.Machine
end

