-- ==== Sys2Proof/Machine/Mesh.lean ====
section
/-! DEFINITION. The mesh and the stack ports (R295–R299, chapter 14, R338): requests served at their stops, responses
delivered, the requests of a stack port in arrival order, retraining and failure, scrubs, digests. -/

namespace Sys2Proof.Machine

/-! ### Requests and responses -/

/-- Send the answer of a request. -/
def State.answer (s : State) (p : Packet) (st : RStat) (bs : List Byte) : State :=
  { s with responses := s.responses ++ [{ num := p.id, src := p.dst, dst := p.src, ret := p.ret, stat := st, data := bs }] }

/-- R252, R369: while its cluster is fenced, a bank takes the write-backs of the cluster's own caches, which are part of the
fencing. DESIGN CHOICE (log entry 114). -/
def Packet.homeward (p : Packet) (n : Nat) : Option Nat :=
  match p.ret with
  | .evict m _ => if clusterOf m == clusterOf n then some n else none
  | _ => none

/-- A bank serves a request (R180, R183, R271, R279, R369). -/
def State.serveBank (s : State) (n : Nat) (p : Packet) : State :=
  match p.op with
  | .read pa len => match s.readPa pa len with | (s, st, bs) => s.answer p st bs
  | .write pa bs bad => match s.writePa pa bs bad (p.homeward n) with | (s, st) => s.answer p st []
  | .keyRead pa => match s.readKey pa with | (s, st, bs) => s.answer p st bs
  | .keyWrite pa key bad => match s.writeKey pa key bad with | (s, st) => s.answer p st []
  | .signal core t b v _ =>
    if s.clusterOn n then (s.remoteBit core t b v).answer p .ok [] else s.answer p .bankOff []
  | _ => s.answer p .busErr []

/-- A stack port accepts a request into its queue, or its attachment stop answers it as unpopulated (R180, R320, R327). -/
def State.servePort (s : State) (k : Nat) (p : Packet) : State :=
  let there := match p.op.span with | some (pa, len) => (s.locate pa len).2 == .ok | none => false
  if !there then s.answer p .busErr []
  else
    let (id, s) := s.fresh
    s.onPort k fun x => { x with queue := x.queue ++ [{ p with arr := id }] }

/-- The escapement's stop serves a control-space access; any other address is unpopulated (R180, R420). -/
def State.serveEscapement (s : State) (p : Packet) : State :=
  match p.op with
  | .ctlRead o wide =>
    match s.ctlRead o wide with
    | (st, w) => s.answer p st (natToLe w.toNat (if wide then 8 else 4))
  | .ctlWrite o wide v by_ =>
    match s.ctlWrite o wide v by_ p.ret with
    | (s, some st) => s.answer p st []
    | (s, none) => s
  | _ => s.answer p .busErr []

/-- A request reaches its destination. -/
def State.serve (s : State) (p : Packet) : State :=
  match p.dst with
  | .bank n => s.serveBank n p
  | .stack k => s.servePort k p
  | .escapement => s.serveEscapement p
  | _ => s.answer p .busErr []

/-- Table 15-1: a request whose data flits have bad parity is delivered with its data poisoned. -/
def Packet.delivered (p : Packet) : Packet :=
  if p.flit != .data then p
  else match p.op with
    | .write pa d _ => { p with op := .write pa d true }
    | .keyWrite pa key _ => { p with op := .keyWrite pa key true }
    | _ => p

/-- DESIGN CHOICE (log entry 119): a control-space write or a signal whose data has bad parity is not performed and ends as a
bus error. -/
def Packet.unusable (p : Packet) : Bool :=
  p.flit == .data && (match p.op with | .ctlWrite .. => true | .signal .. => true | _ => false)

/-- A request flit reaches its stop (Table 15-1): one with an uncorrectable header is discarded there. -/
def State.deliver (s : State) (p : Packet) : State :=
  if p.flit == .header then s.badHeader p.dst.unit
  else
    let s := s.noteFlit p.dst.unit p.flit
    if p.unusable then s.answer p .busErr [] else s.serve p.delivered

/-- R306: an addend of the same agent that has reached the bank's engine before a request to its line is applied before the
request is served. -/
def State.bankFirst (s : State) (p : Packet) : Bool :=
  match p.dst with
  | .bank n => !((s.engine n).ready.any fun a => a.agent == p.src && p.op.lines.contains a.line)
  | _ => true

/-- MESH_REQUEST (R295, R298): the i-th request flit arrives and is served, unless an earlier one of its pair of agents has
not. -/
def execMeshRequest (i : Nat) (s : State) : Out :=
  match s.packets[i]? with
  | none => .next s
  | some p =>
    if s.live && s.meshFirst p.src p.dst p.id && s.addendFirst p.src p.dst p.id && s.bankFirst p then
      .next (State.deliver { s with packets := dropAt s.packets i } p)
    else .next s

/-- A response flit reaches its requester's stop (Table 15-1): one with an uncorrectable header is discarded there, data with
bad parity is delivered poisoned. Poison that firmware of the escapement meets is recorded (R337). -/
def State.deliverBack (s : State) (r : Response) : State :=
  let st := if r.flit == .data && r.stat == .ok && !r.data.isEmpty then .poisoned else r.stat
  let s := s.noteFlit r.dst.unit r.flit
  if r.flit == .header then s.badHeader r.dst.unit
  else (if r.dst == .escapement && st == .poisoned then s.metPoison else s).comesBack r.ret st r.data

/-- MESH_RESPONSE (R295, R298): the i-th response flit arrives at its requester, unless an earlier one of its pair has
not. -/
def execMeshResponse (i : Nat) (s : State) : Out :=
  match s.responses[i]? with
  | none => .next s
  | some r =>
    if s.live && !((s.responses.take i).any fun x => x.src == r.src && x.dst == r.dst) then
      .next (State.deliverBack { s with responses := dropAt s.responses i } r)
    else .next s

/-! ### Stack ports -/

/-- R427: no earlier request, and no earlier addend that is ready, waits for a line of the i-th request of port k. -/
def State.portFirst (s : State) (k i : Nat) (q : Packet) : Bool :=
  let x := s.port k
  let ls := q.op.lines
  !((x.queue.take i).any fun y => y.op.lines.any ls.contains) &&
    !(x.eng.ready.any fun a => a.id < q.arr && ls.contains a.line)

/-- Perform a request in the stack. -/
def State.portPerform (s : State) (q : Packet) : State :=
  match q.op with
  | .read pa len =>
    match s.readStore (s.storeAddr pa) len with
    | (s, bad, bs) => s.answer q (if bad then .poisoned else .ok) bs
  | .write pa bs bad => (s.writeStore (s.storeAddr pa) bs bad).answer q .ok []
  | .keyRead pa => match s.keyStore (s.storeAddr pa) with | (s, st, bs) => s.answer q st bs
  | .keyWrite pa key bad => (s.putKey (s.storeAddr pa) key bad).answer q .ok []
  | _ => s.answer q .busErr []

/-- STACK_REQUEST (R427): port `port` performs the i-th request of its queue, in arrival order for each line. -/
def execStackRequest (port : StackId) (i : Nat) (s : State) : Out :=
  let k := port.val
  match (s.port k).queue[i]? with
  | none => .next s
  | some q =>
    if s.live && (s.port k).st == .up && s.portFirst k i q then
      .next (((s.onPort k fun x => { x with queue := dropAt x.queue i }).portPerform q).endNotice k)
    else .next s

/-- STACK_REFRESH (R324): a refresh fails no request and changes no value; the port refreshes at twice the rate while the stack
reports a temperature above 85 °C (log entry 130). -/
def execStackRefresh (port : StackId) (s : State) : Out :=
  if s.live && (s.port port.val).st != .off then
    .next (s.onPort port.val fun x => { x with hot := s.beat.hotStacks.getLsbD port.val })
  else .next s

/-- PATROL_SCRUB (R322): a port that has read every stored line completes a scrub period; errors are corrected or found. -/
def execPatrolScrub (port : StackId) (s : State) : Out :=
  let k := port.val
  if s.live && (s.port k).st == .up then
    .next ((s.scrubRange (k * 2 ^ 34) ((k + 1) * 2 ^ 34)).onPort k fun x => { x with scrubs := bump x.scrubs })
  else .next s

/-- R325 steps 1–3: the port enters RETRAIN; its notice begins. -/
def State.retrain (s : State) (k : Nat) : State :=
  (s.onPort k fun x => { x with
    st := .retrain, retrains := bump x.retrains, notice := true
    recent := s.beat.count.toNat :: x.recent.filter fun b => s.beat.count.toNat < b + 1000 }).noticeStart

/-- R326: the port becomes FAILED: held requests end as bus errors in queue order, addends held there are not applied, and
the failure is permanent, which starts a drain (R347, R348). -/
def State.failPort (s : State) (k : Nat) : State :=
  let x := s.port k
  let s := s.onPort k fun x => { x with st := .failed, queue := [], eng := {}, notice := false }
  let s := x.queue.foldl (fun s q => s.answer q .busErr []) s
  let s := (x.eng.ready ++ x.eng.held).foldl (fun s a => if a.void then s else s.addendEnds a .busErr []) s
  (s.noticeEnd.addLog 6 (unitPort k) 0 0 0).record (unitPort k) 7 0

/-- PORT_RETRAIN (R325, R326): a port that is up retrains; the ninth retrain within 1,000 beats makes it FAILED. -/
def execPortRetrain (port : StackId) (s : State) : Out :=
  let k := port.val
  if s.live && (s.port k).st == .up then
    let s := s.retrain k
    let s := s.addLog 6 (unitPort k) 0 0 0
    .next (if (s.port k).recent.length ≥ 9 then s.failPort k else s)
  else .next s

/-- PORT_RETRAIN_COMPLETE (R325 steps 4 and 5): the PHY has retrained, at a rate of Table 14-1. -/
def execPortRetrainComplete (port : StackId) (rate : BitVec 2) (s : State) : Out :=
  let k := port.val
  if s.live && (s.port k).st == .retrain && rate != 0 then
    .next ((s.onPort k fun x => { x with st := .up, rate := rate, mark := s.nextId }).endNotice k)
  else .next s

/-- PORT_FAILED (R326): a retrain that has not finished within 2.0 ms makes the port FAILED. -/
def execPortFailed (port : StackId) (s : State) : Out :=
  if s.live && (s.port port.val).st == .retrain then .next (s.failPort port.val) else .next s

/-! ### Digests (R329) -/

/-- One bit of the CRC-64 of ECMA-182, without reflection. -/
def crcBit (c : BitVec 64) : BitVec 64 := if c.getLsbD 63 then (c <<< 1) ^^^ 0x42F0E1EBA9EA3693 else c <<< 1

/-- One byte. -/
def crcByte (c : BitVec 64) (b : Byte) : BitVec 64 :=
  let c := c ^^^ (b.setWidth 64 <<< 56)
  crcBit (crcBit (crcBit (crcBit (crcBit (crcBit (crcBit (crcBit c)))))))

/-- The CRC-64 of a list of bytes: initial value 0, no final XOR. -/
def crc64 (bs : List Byte) : BitVec 64 := bs.foldl crcByte 0

/-- The digest of port k over [pa, pa + n): the bytes that map to the port and are not hidden, in increasing address; and
whether one lies on a poisoned line. -/
def State.portDigest (s : State) (k pa : Nat) : Nat → BitVec 64 × Bool → BitVec 64 × Bool
  | 0, acc => acc
  | n + 1, (c, bad) =>
    match s.place pa with
    | .ext p a =>
      if p == k then
        let at_ := p * 2 ^ 37 + a
        s.portDigest k (pa + 1) n (crcByte c (s.byte at_), bad || s.poison.contains (at_ / 64))
      else s.portDigest k (pa + 1) n (c, bad)
    | _ => s.portDigest k (pa + 1) n (c, bad)

/-- DIGEST_MARK (R329): a mark is counted, and starts a digest when the interval is reached. -/
def execDigestMark (s : State) : Out := if s.live then .next s.digestMark else .next s

/-- The digests of one region, by port. -/
def State.regionDigests (s : State) (r : Region) : List (BitVec 64 × Bool) :=
  (List.range 8).map fun k => s.portDigest k r.base r.length (0, false)

/-- The errors of the words a digest reads are found as by any read (R322). -/
def State.digestErrors (s : State) : State :=
  let inRegion := fun (w : Nat) => w < 2 ^ 37 &&
    let pa := unInterleave s.ilv (w / 2 ^ 34) (w % 2 ^ 34 * 8)
    s.digest.regions.any fun r => pa < r.base + r.length && r.base < pa + 8 * eccUnits (8 * w)
  s.scrubWords (setAddAll [] (((s.eccCorr ++ s.eccBad).map eccWordOf).filter inRegion))

/-- DIGEST_COMPLETE (R329): the digest in progress ends, unless a port retrains; a mark count that has reached the interval
starts the next. -/
def execDigestComplete (s : State) : Out :=
  let s := if s.live && s.digest.busy && !(s.ports.any fun (_, p) => p.st == .retrain) then s.digestErrors else s
  let d := s.digest
  if s.live && d.busy && !(s.ports.any fun (_, p) => p.st == .retrain) then
    let all := d.regions.map s.regionDigests
    let values := all.zipIdx.foldl (fun (t : Tab Word) (l, r) =>
      l.zipIdx.foldl (fun t (x, k) => tabSet 0 t (r * 8 + k) x.1) t) []
    let flags := all.zipIdx.foldl (fun (t : Tab (BitVec 2)) (l, r) =>
      tabSet 0 t r (BitVec.ofNat 2 (b2n (d.dirty.any (· / 8 == r)) + b2n (l.any (·.2)) * 2))) []
    let bad := fun (k : Nat) => all.any fun l => match l[k]? with | some x => x.2 | none => false
    let s := { s with digest := { d with busy := false, number := d.number + 1, values := values, flags := flags, dirty := [] } }
    let s := (List.range 8).foldl (fun s k => s.onPort k fun p => { p with dgBusy := false, dgPoisoned := bad k }) s
    .next s.digestStart
  else .next s

/-! ### Poison writes (R338) -/

/-- EVICTION_POISON_WRITE (R338): the escapement writes the poison code over the i-th line whose write-back failed. A write
that cannot be made starts a drain. -/
def execEvictionPoisonWrite (i : Nat) (s : State) : Out :=
  match s.lost[i]? with
  | none => .next s
  | some line =>
    let pa := line * 64
    if !s.live then .next s
    else
      let s := { s with lost := dropAt s.lost i }
      if pa < 2 ^ 51 then .next (s.send .escapement (s.agentOf 0 pa) (.write pa (natToLe 0 64) true) (.poisonWr line))
      else
        match s.request 10240 pa (putMsg 0 (natToLe 0 64) true) (.poisonWr line) with
        | (s, none) => .next s
        | (s, some st) => .next (s.finish (.poisonWr line) st [])

end Sys2Proof.Machine
end

