-- ==== Sys2Proof/Machine/LinkIn.lean ====
section
/-! DEFINITION. Link modules, receiving side (R303–R317): acceptance and replay, inbound requests and responses, VOIDs,
host messages, timers, reset and retraining. -/

namespace Sys2Proof.Machine

/-! ### Link control (R310, R312) -/

/-- Link-control messages: LACK and NAK with SEQ. -/
def lackMsg (seq : BitVec 24) : Msg := { Msg.blank with type := 9, seq := seq }
def nakMsg (seq : BitVec 24) : Msg := { Msg.blank with type := 10, seq := seq }

/-- `a` is at or before `b` in the 24-bit sequence (serial comparison). -/
def seqLe (a b : BitVec 24) : Bool := (b - a).toNat < 2 ^ 23

/-- Acknowledge everything accepted so far. -/
def Link.lackNow (l : Link) : Link :=
  if l.lacked == l.rxSeq then l else Link.control { l with lacked := l.rxSeq } (lackMsg (l.rxSeq - 1))

/-- R312: the messages held from `seq` on, marked as a replay. -/
def replayOf (l : List Msg) : List Msg :=
  (l.map fun m => { m with rpl := true, rlast := false }).dropLast ++
    match l.getLast? with | some m => [{ m with rpl := true, rlast := true }] | none => []

/-- Insert a request in SEQ order. -/
def insertReq (r : LinkReq) : List LinkReq → List LinkReq
  | [] => [r]
  | x :: t => if seqLe r.msg.seq x.msg.seq then r :: x :: t else x :: insertReq r t

/-- The outbound requests of a module in SEQ order, those not sent last (R316 step 2). -/
def Link.reqOrder (l : Link) : List LinkReq :=
  (l.reqs.filter (·.sent)).foldr insertReq [] ++ l.reqs.filter (!·.sent)

/-- The VOIDs a module has not delivered: those in the replay partition, those that wait, those still owed. DEDUCED (log entry
115): one that no LACK covers is owed again, as it may not have arrived. -/
def Link.undelivered (l : Link) : List Msg :=
  ((l.replay ++ l.waiting).filter fun m => m.type == 7) ++ l.owed

/-- R316 steps 1 to 4: module k resets. Outbound requests end with LINK_RESET in SEQ order and their strict ACCPs owe VOIDs;
inbound requests already on the mesh go on and their answers are discarded; everything else is dropped. -/
def State.resetLink (s : State) (k : Nat) : State :=
  let l := s.link k
  if l.st == .off || l.st == .resetting then s
  else
    let rs := l.reqOrder
    let s := s.onLink k fun l => { l with
      st := .resetting, retry := false, gap := false, waiting := [], replay := [], reqs := [], held := [], hostHeld := [], stalls := 0
      resets := bump l.resets, owed := l.undelivered ++ (rs.map fun r => voidsOf r.msg).flatten
      inbound := l.inbound.map fun r => { r with dead := true } }
    let s := if l.retry then s.noticeEnd else s
    let s := rs.foldl (fun s r => s.comesBack r.ret .linkReset []) s
    s.addLog 6 (unitLink k) 0 0 0

/-- R312: replay from `seq`; after eight consecutive replays that led to no LACK covering the SEQ they began at, the module
resets. -/
def State.replayFrom (s : State) (k : Nat) (seq : BitVec 24) : State :=
  let l := s.link k
  let go := l.replay.filter fun m => seqLe seq m.seq
  if go.isEmpty then s
  else if l.stalls ≥ 8 then s.resetLink k
  else s.onLink k fun l => { l with
    wire := l.wire ++ replayOf go, replays := bump l.replays, stalls := l.stalls + 1
    stallSeq := if l.stalls == 0 then (go.head?.map Msg.seq).getD seq else l.stallSeq }

/-! ### The checks of Table 13-5 (R304) -/

/-- Operand and channel rules of a message type. -/
def msgFieldsOk (m : Msg) (ty : Nat) (host : Bool) : Bool :=
  let n := m.payload.length
  let z := afBytes m.af.toNat
  let req := m.ch < 4
  let low := fun (k : Nat) => fld m.arg k (64 - k) == 0
  !m.badReserved &&
    (match ty with
     | 1 => req && n == m.len.toNat && n ≥ 1 && n ≤ 256 && low 4
     | 2 => req && n == 0 && m.len != 0 && m.len.toNat ≤ 256
     | 3 => req && n == m.len.toNat && n ≥ 1 && n ≤ 256 && m.af ≤ 8 && n % z == 0 && (if m.af == 8 then n == 8 else low 4)
     | 4 => req && n == 0 && m.len == 0 && fld m.arg 45 18 == 0
     | 5 => m.ch == 4 && n == m.len.toNat && n ≤ 256
     | 6 => m.ch == 4 && n == 0 && m.len == 0
     | 7 => req && n == 0 && m.len == 0
     | 0xB => host && m.ch == 6 && (n == 0 || n == 4 || n == 8) && (m.len == 0 || m.len == 4 || m.len == 8) &&
         (n == 0 || n == m.len.toNat)
     | 0xD => host && m.ch == 6 && n == 0 && m.len == 0
     | 0xE => host && m.ch == 7 && n == m.len.toNat && n ≤ 256
     | _ => false)

/-! ### Acceptance (R312, R313) -/

/-- A message that the receiver cannot take yet: discarded; the first one asks for a replay and begins the notice. -/
def State.linkGap (s : State) (k : Nat) : State :=
  let l := s.link k
  if l.gap then s
  else
    let s' := s.onLink k fun l => Link.control { l with gap := true, retry := true, nakAt := s.now } (nakMsg l.rxSeq)
    if l.retry then s' else s'.noticeStart

/-- The next expected message is accepted: SEQ, notice, LACK after 64. -/
def State.linkTake (s : State) (k : Nat) (m : Msg) : State :=
  let l := s.link k
  let s' := s.onLink k fun l =>
    let l := { l with rxSeq := l.rxSeq + 1, gap := false, retry := if m.rpl then !m.rlast else l.retry }
    if (l.rxSeq - l.lacked).toNat ≥ 64 then l.lackNow else l
  if !l.retry && (s'.link k).retry then s'.noticeStart else if l.retry && !(s'.link k).retry then s'.noticeEnd else s'

/-- A sequenced message of type `ty` arrives on module k: accepted in turn and handed to `f`, or discarded. One that is
uncorrectable is recorded against the module (R346). A protocol error, a reserved TYPE among them, resets the module. -/
def State.linkIn (s : State) (k ty : Nat) (m : Msg) (f : State → Msg → State) : State :=
  let l := s.link k
  let reserved := m.type == 0 || m.type == 0xF
  let m := { m with type := BitVec.ofNat 4 ty }
  if !s.live || l.st != .up then s
  else if m.corrupt then (s.record (unitLink k) 3 0).linkGap k
  else if reserved || !msgFieldsOk m ty (l.role == 2) then s.resetLink k
  else if m.seq == l.rxSeq then f (s.linkTake k m) m
  else if seqLe m.seq l.rxSeq then s
  else s.linkGap k

/-- A message that is handed on as it is accepted: its credit goes back (R310). -/
def State.atOnce (f : State → Msg → State) (k : Nat) (s : State) (m : Msg) : State := f (s.onLink k (·.giveBack m)) m

/-! ### Requests and responses (R306–R309) -/

/-- R306: an accepted request is handed to the mesh behind those of its channel. -/
def State.takeRequest (s : State) (k : Nat) (m : Msg) : State := s.handOn k ((s.link k).held ++ [m]) []

/-- R307, R315: a response completes the request whose RTAG it echoes; one that answers no request is late. -/
def State.takeResponse (s : State) (k : Nat) (m : Msg) (getr : Bool) : State :=
  let fits := fun (r : LinkReq) => r.sent && r.msg.rtag == m.rtag &&
    (getr == (r.msg.type == 2 || (r.msg.type == 3 && r.msg.af == 8)))
  match (s.link k).reqs.find? fits with
  | none => s.onLink k fun l => { l with late := bump l.late }
  | some r =>
    (s.onLink k fun l => { l with reqs := l.reqs.filter fun x => x.id != r.id }).comesBack r.ret
      (statusOf (fld m.arg 0 8)) m.payload

/-! ### The commands: messages -/

/-- LINK_PUT (R308). -/
def execLinkPut (m : LinkId) (msg : Msg) (s : State) : Out := .next (s.linkIn m.val 1 msg fun s q => s.takeRequest m.val q)

/-- LINK_GET (R308). -/
def execLinkGet (m : LinkId) (msg : Msg) (s : State) : Out := .next (s.linkIn m.val 2 msg fun s q => s.takeRequest m.val q)

/-- LINK_ACCP (R308). -/
def execLinkAccp (m : LinkId) (msg : Msg) (s : State) : Out := .next (s.linkIn m.val 3 msg fun s q => s.takeRequest m.val q)

/-- LINK_SIGNAL (R309). -/
def execLinkSignal (m : LinkId) (msg : Msg) (s : State) : Out :=
  .next (s.linkIn m.val 4 msg fun s q => s.takeRequest m.val q)

/-- LINK_GETR (R307). -/
def execLinkGetr (m : LinkId) (msg : Msg) (s : State) : Out :=
  .next (s.linkIn m.val 5 msg (State.atOnce (fun s q => s.takeResponse m.val q true) m.val))

/-- LINK_ACK (R307). -/
def execLinkAck (m : LinkId) (msg : Msg) (s : State) : Out :=
  .next (s.linkIn m.val 6 msg (State.atOnce (fun s q => s.takeResponse m.val q false) m.val))

/-- LINK_VOID (R155). -/
def execLinkVoid (m : LinkId) (msg : Msg) (s : State) : Out := .next (s.linkIn m.val 7 msg fun s q => s.takeRequest m.val q)

/-- The size of a host read: LEN, 8 where the header gives none. DESIGN CHOICE (log entry 56). -/
def hreqSize (m : Msg) : Nat := if m.payload.isEmpty then (if m.len == 4 then 4 else 8) else m.payload.length

/-- R314: a host read or write of control space, inside the host window. -/
def State.takeHreq (s : State) (k : Nat) (m : Msg) : State :=
  let o := m.offset.toNat
  let n := hreqSize m
  if o % n != 0 || o < s.start.winBase || o + n > s.start.winBase + s.start.winLen then s.hrsp k m .busErr []
  else if m.payload.isEmpty then
    match s.ctlRead o (n == 8) with
    | (st, w) => s.hrsp k m st (natToLe w.toNat n)
  else
    let (id, s) := s.inboundNew k m 1
    match s.ctlWrite o (n == 8) (BitVec.ofNat 64 (leToNat m.payload)) .host (.link k id) with
    | (s, some st) => s.inboundDone k id 0 st []
    | (s, none) => s

/-- R314, R266: a host write that is not performed before a command of a scheduler block completes. -/
def State.hostBusy (s : State) (k : Nat) : Bool := (s.link k).inbound.any fun r => r.msg.type == 0xB && !r.dead

/-- Perform an accepted message of channel 6: an HREQ, or a doorbell (R314, R380). -/
def State.takeHost (s : State) (k : Nat) (m : Msg) : State :=
  if m.type == 0xB then s.takeHreq k m else s.ring (bitsOf m.offset.toNat 0 5)

/-- R314: perform accepted messages of channel 6 in SEQ order: what comes behind a write that is not performed yet waits. -/
def State.hostOn (s : State) (k : Nat) : List Msg → State
  | [] => s.onLink k fun l => { l with hostHeld := [] }
  | m :: t =>
    if s.hostBusy k then s.onLink k fun l => { l with hostHeld := m :: t }
    else (State.atOnce (fun s q => s.takeHost k q) k s m).hostOn k t

/-- A message of channel 6 is performed behind those accepted before it. -/
def State.takeSixth (s : State) (k : Nat) (m : Msg) : State := s.hostOn k ((s.link k).hostHeld ++ [m])

/-- The store of a command has ended: the host messages that waited for it go on. -/
def State.hostResume (s : State) (ret : Ret) : State :=
  match ret with
  | .link k _ => s.hostOn k (s.link k).hostHeld
  | _ => s

/-- LINK_HREQ (R314). -/
def execLinkHreq (m : LinkId) (msg : Msg) (s : State) : Out := .next (s.linkIn m.val 0xB msg fun s q => s.takeSixth m.val q)

/-- LINK_DBELL (R380). -/
def execLinkDbell (m : LinkId) (msg : Msg) (s : State) : Out := .next (s.linkIn m.val 0xD msg fun s q => s.takeSixth m.val q)

/-- R386: an ESC writes bytes of an IDLE host mailbox; any other is discarded and counted in REJ. -/
def State.takeEsc (s : State) (m : Msg) : State :=
  let o := m.offset.toNat
  let n := bitsOf o 9 5
  let j := bitsOf o 0 9
  let ok := o % 16 == 0 && m.len.toNat % 16 == 0 && j ≥ 8 && j + m.len.toNat ≤ 512 && (s.box n).st == .idle
  if ok then s.onBox n fun b => b.setBytes j m.payload else s.reject

/-- LINK_ESC (R386). -/
def execLinkEsc (m : LinkId) (msg : Msg) (s : State) : Out := .next (s.linkIn m.val 0xE msg (State.atOnce State.takeEsc m.val))

/-! ### The commands: link control, timers -/

/-- LINK_CRD (R310): credit comes back; waiting messages go. Credit for a channel the module does not have is a protocol
error (R304). -/
def execLinkCrd (m : LinkId) (ch : Fin 8) (units : Nat) (s : State) : Out :=
  if s.live && (s.link m.val).st == .up then
    if !chOk ch.val ((s.link m.val).role == 2) then .next (s.resetLink m.val) else
    .next (s.onLink m.val fun l => Link.pump { l with credits := tabSet 0 l.credits ch.val (tabGet 0 l.credits ch.val + units) })
  else .next s

/-- LINK_LACK (R312): frees the replay entries up to SEQ; waiting messages go. -/
def execLinkLack (m : LinkId) (seq : BitVec 24) (s : State) : Out :=
  let l := s.link m.val
  if s.live && l.st == .up then
    let freed := l.replay.filter fun x => seqLe x.seq seq
    let s := if freed.isEmpty then s
      else s.onLink m.val fun l => { l with
        replay := l.replay.filter fun x => !seqLe x.seq seq
        stalls := if seqLe l.stallSeq seq then 0 else l.stalls }
    .next (s.onLink m.val Link.pump)
  else .next s

/-- LINK_NAK (R312): replay from SEQ. -/
def execLinkNak (m : LinkId) (seq : BitVec 24) (s : State) : Out :=
  if s.live && (s.link m.val).st == .up then .next (s.replayFrom m.val seq) else .next s

/-- LACK_TIMER (R312): acknowledge what has been accepted. -/
def execLackTimer (m : LinkId) (s : State) : Out :=
  if s.live && (s.link m.val).st == .up then .next (s.onLink m.val Link.lackNow) else .next s

/-- REPLAY_TIMEOUT (R312): the oldest message of module m that no LACK covers is older than RTO: the messages held are
replayed. The receiver's use of RTO, the repetition of a NAK, is `Link.tick` (log entry 116). -/
def execReplayTimeout (m : LinkId) (s : State) : Out :=
  if s.live && (s.link m.val).st == .up then
    match (s.link m.val).replay with
    | [] => .next s
    | x :: _ => .next (s.replayFrom m.val x.seq)
  else .next s

/-- REQUEST_TIMEOUT (R315): the i-th outbound request times out, the earlier ones of its channel first: it ends with
LINK_RESET, and a strict ACCP is followed by its VOID. -/
def execRequestTimeout (m : LinkId) (i : Nat) (s : State) : Out :=
  let k := m.val
  let l := s.link k
  match l.reqs[i]? with
  | none => .next s
  | some r =>
    if s.live && l.st == .up && r.sent && !((l.reqs.take i).any fun x => x.sent && x.msg.ch == r.msg.ch) then
      let s := s.onLink k fun l =>
        let l := { l with reqs := dropAt l.reqs i, tmo := bump l.tmo }
        (voidsOf r.msg).foldl (fun l v => l.send v) l
      .next (s.comesBack r.ret .linkReset [])
    else .next s

/-! ### The commands: reset and routes -/

/-- MODULE_RESET (R316): the UCIe link is lost, or MP0 resets the module. -/
def execModuleReset (m : LinkId) (s : State) : Out := if s.live then .next (s.resetLink m.val) else .next s

/-- R316 step 3: every inbound request handed to the mesh has been performed, or, for an ACCP, has reached its engine. -/
def State.inboundSettled (s : State) (k : Nat) : Bool :=
  (s.link k).inbound.all fun r => r.msg.type == 3 && !((s.addends ++ s.refused).any fun a => a.ret == .link k r.id)

/-- The credits a module grants when it comes up: its receive partitions (R310, Table 13-7). -/
def Link.grants (l : Link) : List Msg :=
  ([0, 1, 2, 3, 4] ++ if l.role == 2 then [6, 7] else []).map fun c => crdMsg (BitVec.ofNat 3 c) (l.recvSize c / 32)

/-- R316 step 5: the module comes up: buffers clear, credits afresh, SEQ from 0; the VOIDs it owes go before any other
traffic. -/
def Link.comeUp (l : Link) (rate : BitVec 3) (degraded : Bool) : Link :=
  let l := { l with
    st := .up, rate := rate, degr := degraded, txSeq := 0, rxSeq := 0, lacked := 0, gap := false, retry := false, waiting := []
    replay := [], credits := [], stalls := 0 }
  Link.pump { l with wire := l.grants }

/-- MODULE_RETRAIN_COMPLETE (R316): a resetting or training module comes up. -/
def execModuleRetrainComplete (m : LinkId) (rate : BitVec 3) (degraded : Bool) (s : State) : Out :=
  let l := s.link m.val
  if s.live && (l.st == .resetting || l.st == .training) && s.inboundSettled m.val && rate < 6 then
    .next (s.onLink m.val (·.comeUp rate degraded))
  else .next s

/-- R316: another module of the route entry that can carry a VOID. -/
def State.otherModule (s : State) (k : Nat) (v : Msg) : Option Nat :=
  (modList (fld (tabGet 0 s.routes v.dstblk.toNat) 0 16)).find? fun j => j != k && (s.link j).st == .up

/-- MODULE_RETRAIN_TIMEOUT (R316): a module that has not retrained in 100 ms goes OFF; its VOIDs go through another module of
their route entry, or stay owed. -/
def execModuleRetrainTimeout (m : LinkId) (s : State) : Out :=
  let k := m.val
  if s.live && ((s.link k).st == .resetting || (s.link k).st == .off) then
    let owed := (s.link k).owed
    let s := s.onLink k fun l => { l with st := .off, owed := [] }
    .next (owed.foldl (fun s v =>
      match s.otherModule k v with
      | some j => s.onLink j (·.send v)
      | none => s.onLink k fun l => { l with owed := l.owed ++ [v] }) s)
  else .next s

/-- R302: no request to block b waits in a module of `mods`. -/
def State.routeClear (s : State) (b mods : Nat) : Bool :=
  (modList mods).all fun k => (s.link k).reqs.all fun r => r.msg.dstblk.toNat != b

/-- ROUTE_ENTRY_UPDATE (R302): the i-th route entry that waits is written, once its old modules hold no request to its
block. -/
def execRouteEntryUpdate (i : Nat) (s : State) : Out :=
  match s.routeNext[i]? with
  | none => .next s
  | some (b, v) =>
    if s.live && s.routeClear b (fld (tabGet 0 s.routes b) 0 16) then
      .next { s with routes := tabSet 0 s.routes b v, routeNext := dropAt s.routeNext i }
    else .next s

end Sys2Proof.Machine
end

