-- ==== Sys2Proof/Machine/CmdSched.lean ====
section
/-! DEFINITION. The commands of the scheduler block, the keeper, the idle detector, test slots and the job sequencer
(chapters 11 and 15). -/

namespace Sys2Proof.Machine

/-! ### TCMD commands (R266–R268): each takes the head of the core's command queue, if its OP is the row's. -/

/-- Run the head command of core n if its OP is one of `ops`. -/
def State.runTcmd (s : State) (n : Nat) (ops : List Nat) (f : State → Tcmd → Option (State × BitVec 8)) : State :=
  if !s.hasPower n then s
  else
    match (s.core n).tcmdQ with
    | [] => s
    | e :: _ =>
      if ops.contains (tcOp e.word) then
        match f s e with
        | none => s
        | some (s, code) => (s.tcmdDone n e code).hostResume e.ret
      else s

/-- CREATE (R266); a command of a reserved OP ends here too, with CODE 0x0B (R268). -/
def execCreate (core : CoreId) (s : State) : Out :=
  .next (s.runTcmd core.val [0, 5, 6, 7] fun s e =>
    if tcOp e.word == 0 then some (s.tcmdCreate core.val e.word) else some (s, clsILLEGAL))

/-- KILL (R267). -/
def execKill (core : CoreId) (s : State) : Out :=
  .next (s.runTcmd core.val [1] fun s e =>
    if (s.task core.val (tcTask e.word)).isNone then some (s, 0x82) else some (s.killTask core.val (tcTask e.word), 0))

/-- SPILL (R274). -/
def execSpill (core : CoreId) (s : State) : Out := .next (s.runTcmd core.val [2] fun s e => s.tcmdSpill core.val e)

/-- FILL (R274). -/
def execFill (core : CoreId) (s : State) : Out := .next (s.runTcmd core.val [3] fun s e => some (s.tcmdFill core.val e))

/-- KSTART (R274). -/
def execKstart (core : CoreId) (s : State) : Out :=
  .next (s.runTcmd core.val [4] fun s e => some (s.tcmdKstart core.val e.word))

/-- HARDWARE_FILL (R273). -/
def execHardwareFill (core : CoreId) (s : State) : Out :=
  let n := core.val
  if s.coreOn n && (s.core n).lockCause == 0 && s.drain.st == .run then .next (s.hwFill n) else .next s

/-- KEEPER_CYCLE_LIMIT (R275): the keeper has issued more than 4,096 issue cycles in this trap. -/
def execKeeperCycleLimit (core : CoreId) (s : State) : Out :=
  let n := core.val
  if s.coreOn n && (s.core n).keeperRuns && (s.core n).keeperIssues > 4096 then .next (s.lockup n 6) else .next s

/-! ### Idle detection and test slots -/

/-- The idle detector holds the timer of core n, or would have taken it when the core came on (R264). -/
def Core.detecting (c : Core) : Bool := c.isIdle && (c.tmrOwner == .detector || (c.fresh && c.tmrOwner == .none))

/-- IDLE_DETECTOR_EXPIRY (R264, R265): an idle core is reported, unless SCTL.TEXCL excludes it. -/
def execIdleDetectorExpiry (core : CoreId) (s : State) : Out :=
  let n := core.val
  if s.coreOn n && (s.core n).lockCause == 0 && (s.core n).detecting then
    .next (s.onCore n fun c => { c with tmrOwner := .none, tmrCount := 0, fresh := false, eligible := !c.texcl })
  else .next s

/-- TEST_SLOT_GRANT (R339): the first listed core of the cluster that is eligible; its caches are emptied (R252). DEDUCED (log
entry 118): a core with a line fill in progress is not taken before the fill has ended. -/
def execTestSlotGrant (c : ClusterId) (s : State) : Out :=
  let cl := s.cluster c.val
  if !(s.live && cl.dst == .on && cl.slot.isNone && s.drain.st == .run) then .next s
  else
    match cl.testList.find? fun (i, _) => s.grantable c.val i with
    | none => .next s
    | some (i, seg) =>
      let n := c.val * 64 + i
      let s := s.onCluster c.val fun x => { x with slot := some i, slotSeg := seg, testList := x.testList.filter (· != (i, seg)) }
      .next ((s.emptyCaches n).onCore n fun x => { x with underTest := true })

/-- TEST_SLOT_END (R340, R342): the result is recorded; a failed segment is due again, and a failed retest makes the core
permanent (R347); a woken task runs. The test has not begun before every write-back of the emptied cache has been performed
(R252). -/
def execTestSlotEnd (c : ClusterId) (pass : Bool) (s : State) : Out :=
  let cl := s.cluster c.val
  match cl.slot with
  | none => .next s
  | some i =>
    if !s.live || !(s.core (c.val * 64 + i)).evicts.isEmpty then .next s
    else
      let n := c.val * 64 + i
      let seg := cl.slotSeg
      let again := cl.retests.contains (i, seg)
      let s := s.onCluster c.val fun x => { x with
        slot := none
        retests := if pass then x.retests.filter (· != (i, seg)) else if again then x.retests else x.retests ++ [(i, seg)]
        ages := if pass then tabSet 0xFFFF x.ages (i * 4 + seg) 0 else x.ages }
      let s := if pass then s else (s.record n 1 seg again).addLog 2 n (logDetail 0 0 n 0) 0 0
      let s := s.onCore n fun x => { x with underTest := false }
      let was := (s.core n).isIdle
      .next (((s.releaseHeld n).kick n).settle was n)

/-! ### The job sequencer (R336) -/

/-- Detail word of a report's log record. -/
def JobReport.detail (r : JobReport) : Word := logDetail r.cls.toNat r.job.toNat r.core r.task

/-- Enter one report in the log (kind 1) and in LASTJOB. -/
def State.logReport (s : State) (r : JobReport) : State :=
  let s := s.addLog 1 r.core r.detail (r.pc.setWidth 64) r.addr
  { s with drain := { s.drain with lastJob := r.detail } }

/-- JOB_SEQUENCER_END (R336, R337): the earliest report's job ends; every report of that job is entered in the log. -/
def execJobSequencerEnd (s : State) : Out :=
  if !s.live then .next s
  else
    match s.jobs.reports with
    | [] => .next s
    | r :: _ =>
      let all := s.jobs.reports.filter (·.job == r.job)
      let s := { s with jobs := { s.jobs with reports := s.jobs.reports.filter (·.job != r.job) } }
      let s := all.foldl State.logReport s
      let s := { s with drain := { s.drain with jobEnd := bump s.drain.jobEnd } }
      .next (s.endJob r.job)

end Sys2Proof.Machine
end

