-- ==== Sys2Proof/Machine/CmdTile.lean ====
section
/-! DEFINITION. The commands of the TMU (chapter 05). Each is one word of one long move by the task or keeper that holds the core's issue slot
(Sys2Proof.Machine.Issue): v goes to the trigger port, with the field that selects the row's operation forced. -/

namespace Sys2Proof.Machine

/-! ### Tile memory, array operations -/

/-- TMU_LD (R121). -/
def execTmuLd (core : CoreId) (v : Word) (s : State) : Out := .next (s.issueMove core.val 0x290 v)

/-- TMU_LDT (R122). -/
def execTmuLdt (core : CoreId) (v : Word) (s : State) : Out := .next (s.issueMove core.val 0x291 v)

/-- TMU_ST (R123). -/
def execTmuSt (core : CoreId) (v : Word) (s : State) : Out := .next (s.issueMove core.val 0x292 v)

/-- TMU_MMA (R132). -/
def execTmuMma (core : CoreId) (v : Word) (s : State) : Out := .next (s.issueMove core.val 0x293 v)

/-- TMU_MMC (R135). -/
def execTmuMmc (core : CoreId) (v : Word) (s : State) : Out := .next (s.issueMove core.val 0x294 v)

/-- TMU_ZERO (R113). -/
def execTmuZero (core : CoreId) (v : Word) (s : State) : Out := .next (s.issueMove core.val 0x295 v)

/-- TMU_EW_ADD (R138). -/
def execTmuEwAdd (core : CoreId) (v : Word) (s : State) : Out := .next (s.issueMove core.val 0x296 (setFld v 9 4 0x0))

/-- TMU_EW_SUB (R138). -/
def execTmuEwSub (core : CoreId) (v : Word) (s : State) : Out := .next (s.issueMove core.val 0x296 (setFld v 9 4 0x1))

/-- TMU_EW_MUL (R138). -/
def execTmuEwMul (core : CoreId) (v : Word) (s : State) : Out := .next (s.issueMove core.val 0x296 (setFld v 9 4 0x2))

/-- TMU_EW_MAX (R138). -/
def execTmuEwMax (core : CoreId) (v : Word) (s : State) : Out := .next (s.issueMove core.val 0x296 (setFld v 9 4 0x3))

/-- TMU_EW_MIN (R138). -/
def execTmuEwMin (core : CoreId) (v : Word) (s : State) : Out := .next (s.issueMove core.val 0x296 (setFld v 9 4 0x4))

/-- TMU_EW_COPY (R138). -/
def execTmuEwCopy (core : CoreId) (v : Word) (s : State) : Out := .next (s.issueMove core.val 0x296 (setFld v 9 4 0x5))

/-- TMU_EW_ABS (R138). -/
def execTmuEwAbs (core : CoreId) (v : Word) (s : State) : Out := .next (s.issueMove core.val 0x296 (setFld v 9 4 0x6))

/-- TMU_EW_NEG (R138). -/
def execTmuEwNeg (core : CoreId) (v : Word) (s : State) : Out := .next (s.issueMove core.val 0x296 (setFld v 9 4 0x7))

/-- TMU_CVT (R139). -/
def execTmuCvt (core : CoreId) (v : Word) (s : State) : Out := .next (s.issueMove core.val 0x297 v)

/-- TMU_RED_SUM (R140). -/
def execTmuRedSum (core : CoreId) (v : Word) (s : State) : Out := .next (s.issueMove core.val 0x298 (setFld v 8 2 0x0))

/-- TMU_RED_MAX (R140). -/
def execTmuRedMax (core : CoreId) (v : Word) (s : State) : Out := .next (s.issueMove core.val 0x298 (setFld v 8 2 0x1))

/-- TMU_RED_MIN (R140). -/
def execTmuRedMin (core : CoreId) (v : Word) (s : State) : Out := .next (s.issueMove core.val 0x298 (setFld v 8 2 0x2))

end Sys2Proof.Machine
end

