-- ==== Sys2Proof/Machine/CmdVector.lean ====
section
/-! DEFINITION. The commands of the VXU (chapter 07). Each is one word of one long move by the task or keeper that holds the core's issue slot
(Sys2Proof.Machine.Issue): v goes to the trigger port, with the field that selects the row's operation forced. -/

namespace Sys2Proof.Machine

/-! ### vxu.op, vxu.ld, vxu.st, vxu.red and the element ports -/

/-- VXU_ADD (R163). -/
def execVxuAdd (core : CoreId) (v : Word) (s : State) : Out := .next (s.issueMove core.val 0x190 (setFld v 0 6 0x0))

/-- VXU_SUB (R163). -/
def execVxuSub (core : CoreId) (v : Word) (s : State) : Out := .next (s.issueMove core.val 0x190 (setFld v 0 6 0x1))

/-- VXU_MUL (R163). -/
def execVxuMul (core : CoreId) (v : Word) (s : State) : Out := .next (s.issueMove core.val 0x190 (setFld v 0 6 0x2))

/-- VXU_FMA (R163). -/
def execVxuFma (core : CoreId) (v : Word) (s : State) : Out := .next (s.issueMove core.val 0x190 (setFld v 0 6 0x3))

/-- VXU_FMS (R163). -/
def execVxuFms (core : CoreId) (v : Word) (s : State) : Out := .next (s.issueMove core.val 0x190 (setFld v 0 6 0x4))

/-- VXU_FNMA (R163). -/
def execVxuFnma (core : CoreId) (v : Word) (s : State) : Out := .next (s.issueMove core.val 0x190 (setFld v 0 6 0x5))

/-- VXU_DIV (R163). -/
def execVxuDiv (core : CoreId) (v : Word) (s : State) : Out := .next (s.issueMove core.val 0x190 (setFld v 0 6 0x6))

/-- VXU_SQRT (R163). -/
def execVxuSqrt (core : CoreId) (v : Word) (s : State) : Out := .next (s.issueMove core.val 0x190 (setFld v 0 6 0x7))

/-- VXU_MAX (R163). -/
def execVxuMax (core : CoreId) (v : Word) (s : State) : Out := .next (s.issueMove core.val 0x190 (setFld v 0 6 0x8))

/-- VXU_MIN (R163). -/
def execVxuMin (core : CoreId) (v : Word) (s : State) : Out := .next (s.issueMove core.val 0x190 (setFld v 0 6 0x9))

/-- VXU_ABS (R164). -/
def execVxuAbs (core : CoreId) (v : Word) (s : State) : Out := .next (s.issueMove core.val 0x190 (setFld v 0 6 0xA))

/-- VXU_NEG (R164). -/
def execVxuNeg (core : CoreId) (v : Word) (s : State) : Out := .next (s.issueMove core.val 0x190 (setFld v 0 6 0xB))

/-- VXU_COPY (R164). -/
def execVxuCopy (core : CoreId) (v : Word) (s : State) : Out := .next (s.issueMove core.val 0x190 (setFld v 0 6 0xC))

/-- VXU_AND (R163). -/
def execVxuAnd (core : CoreId) (v : Word) (s : State) : Out := .next (s.issueMove core.val 0x190 (setFld v 0 6 0x10))

/-- VXU_OR (R163). -/
def execVxuOr (core : CoreId) (v : Word) (s : State) : Out := .next (s.issueMove core.val 0x190 (setFld v 0 6 0x11))

/-- VXU_XOR (R163). -/
def execVxuXor (core : CoreId) (v : Word) (s : State) : Out := .next (s.issueMove core.val 0x190 (setFld v 0 6 0x12))

/-- VXU_SHL (R163). -/
def execVxuShl (core : CoreId) (v : Word) (s : State) : Out := .next (s.issueMove core.val 0x190 (setFld v 0 6 0x13))

/-- VXU_SHR (R163). -/
def execVxuShr (core : CoreId) (v : Word) (s : State) : Out := .next (s.issueMove core.val 0x190 (setFld v 0 6 0x14))

/-- VXU_SAR (R163). -/
def execVxuSar (core : CoreId) (v : Word) (s : State) : Out := .next (s.issueMove core.val 0x190 (setFld v 0 6 0x15))

/-- VXU_TWOSUM (R150). -/
def execVxuTwosum (core : CoreId) (v : Word) (s : State) : Out := .next (s.issueMove core.val 0x190 (setFld v 0 6 0x18))

/-- VXU_TWOPROD (R150). -/
def execVxuTwoprod (core : CoreId) (v : Word) (s : State) : Out := .next (s.issueMove core.val 0x190 (setFld v 0 6 0x19))

/-- VXU_CEQ (R165). -/
def execVxuCeq (core : CoreId) (v : Word) (s : State) : Out := .next (s.issueMove core.val 0x190 (setFld v 0 6 0x20))

/-- VXU_CNE (R165). -/
def execVxuCne (core : CoreId) (v : Word) (s : State) : Out := .next (s.issueMove core.val 0x190 (setFld v 0 6 0x21))

/-- VXU_CLT (R165). -/
def execVxuClt (core : CoreId) (v : Word) (s : State) : Out := .next (s.issueMove core.val 0x190 (setFld v 0 6 0x22))

/-- VXU_CLE (R165). -/
def execVxuCle (core : CoreId) (v : Word) (s : State) : Out := .next (s.issueMove core.val 0x190 (setFld v 0 6 0x23))

/-- VXU_CUN (R165). -/
def execVxuCun (core : CoreId) (v : Word) (s : State) : Out := .next (s.issueMove core.val 0x190 (setFld v 0 6 0x24))

/-- VXU_MAND (R163). -/
def execVxuMand (core : CoreId) (v : Word) (s : State) : Out := .next (s.issueMove core.val 0x190 (setFld v 0 6 0x28))

/-- VXU_MOR (R163). -/
def execVxuMor (core : CoreId) (v : Word) (s : State) : Out := .next (s.issueMove core.val 0x190 (setFld v 0 6 0x29))

/-- VXU_MXOR (R163). -/
def execVxuMxor (core : CoreId) (v : Word) (s : State) : Out := .next (s.issueMove core.val 0x190 (setFld v 0 6 0x2A))

/-- VXU_MANDN (R163). -/
def execVxuMandn (core : CoreId) (v : Word) (s : State) : Out := .next (s.issueMove core.val 0x190 (setFld v 0 6 0x2B))

/-- VXU_CVT (R166). -/
def execVxuCvt (core : CoreId) (v : Word) (s : State) : Out := .next (s.issueMove core.val 0x190 (setFld v 0 6 0x30))

/-- VXU_BCAST (R163). -/
def execVxuBcast (core : CoreId) (v : Word) (s : State) : Out := .next (s.issueMove core.val 0x190 (setFld v 0 6 0x38))

/-- VXU_SLIDEUP (R163). -/
def execVxuSlideup (core : CoreId) (v : Word) (s : State) : Out := .next (s.issueMove core.val 0x190 (setFld v 0 6 0x39))

/-- VXU_SLIDEDN (R163). -/
def execVxuSlidedn (core : CoreId) (v : Word) (s : State) : Out := .next (s.issueMove core.val 0x190 (setFld v 0 6 0x3A))

/-- VXU_PERM (R163). -/
def execVxuPerm (core : CoreId) (v : Word) (s : State) : Out := .next (s.issueMove core.val 0x190 (setFld v 0 6 0x3B))

/-- VXU_COMPRESS (R163). -/
def execVxuCompress (core : CoreId) (v : Word) (s : State) : Out := .next (s.issueMove core.val 0x190 (setFld v 0 6 0x3C))

/-- VXU_ZIP (R163). -/
def execVxuZip (core : CoreId) (v : Word) (s : State) : Out := .next (s.issueMove core.val 0x190 (setFld v 0 6 0x3D))

/-- VXU_UNZIP (R163). -/
def execVxuUnzip (core : CoreId) (v : Word) (s : State) : Out := .next (s.issueMove core.val 0x190 (setFld v 0 6 0x3E))

/-- VXU_IOTA (R163). -/
def execVxuIota (core : CoreId) (v : Word) (s : State) : Out := .next (s.issueMove core.val 0x190 (setFld v 0 6 0x3F))

/-- VXU_LD (R173). -/
def execVxuLd (core : CoreId) (v : Word) (s : State) : Out := .next (s.issueMove core.val 0x191 v)

/-- VXU_ST (R173). -/
def execVxuSt (core : CoreId) (v : Word) (s : State) : Out := .next (s.issueMove core.val 0x192 v)

/-- VXU_RED_SUM (R178). -/
def execVxuRedSum (core : CoreId) (v : Word) (s : State) : Out := .next (s.issueMove core.val 0x193 (setFld v 4 4 0x0))

/-- VXU_RED_MAX (R177). -/
def execVxuRedMax (core : CoreId) (v : Word) (s : State) : Out := .next (s.issueMove core.val 0x193 (setFld v 4 4 0x1))

/-- VXU_RED_MIN (R177). -/
def execVxuRedMin (core : CoreId) (v : Word) (s : State) : Out := .next (s.issueMove core.val 0x193 (setFld v 4 4 0x2))

/-- VXU_RED_ARGMAX (R177). -/
def execVxuRedArgmax (core : CoreId) (v : Word) (s : State) : Out := .next (s.issueMove core.val 0x193 (setFld v 4 4 0x3))

/-- VXU_RED_ARGMIN (R177). -/
def execVxuRedArgmin (core : CoreId) (v : Word) (s : State) : Out := .next (s.issueMove core.val 0x193 (setFld v 4 4 0x4))

/-- VXU_RED_AND (R177). -/
def execVxuRedAnd (core : CoreId) (v : Word) (s : State) : Out := .next (s.issueMove core.val 0x193 (setFld v 4 4 0x5))

/-- VXU_RED_OR (R177). -/
def execVxuRedOr (core : CoreId) (v : Word) (s : State) : Out := .next (s.issueMove core.val 0x193 (setFld v 4 4 0x6))

/-- VXU_RED_XOR (R177). -/
def execVxuRedXor (core : CoreId) (v : Word) (s : State) : Out := .next (s.issueMove core.val 0x193 (setFld v 4 4 0x7))

/-- VXU_GET (R171). -/
def execVxuGet (core : CoreId) (v : Word) (s : State) : Out := .next (s.issueMove core.val 0x194 v)

/-- VXU_PUT (R171). -/
def execVxuPut (core : CoreId) (v : Word) (s : State) : Out := .next (s.issueMove core.val 0x195 v)

/-- VXU_MRD (R171). -/
def execVxuMrd (core : CoreId) (v : Word) (s : State) : Out := .next (s.issueMove core.val 0x196 v)

/-- VXU_MWR (R171). -/
def execVxuMwr (core : CoreId) (v : Word) (s : State) : Out := .next (s.issueMove core.val 0x197 v)

end Sys2Proof.Machine
end

