-- ==== Sys2Proof/Machine/History.lean ====
section
/-! DEFINITION. The bytes of the flash device (Table 18-1), and the history that MP3 keeps in its history area and reads back at
start-up (R346, R347, R389, R403). -/

namespace Sys2Proof.Machine

/-! ### Bytes (Table 18-1) -/

/-- The byte of the flash at an offset; an unlisted one is erased. -/
def flashByte (f : List Host.Cell) (o : Nat) : Byte := tabGet 0xFF f o

/-- `n` bytes from an offset. -/
def flashBytes (f : List Host.Cell) (o : Nat) : Nat → List Byte
  | 0 => []
  | n + 1 => flashByte f o :: flashBytes f (o + 1) n

/-- The listed bytes of a region, at offsets from its start. -/
def flashRegion (f : List Host.Cell) (o len : Nat) : List Host.Cell :=
  (f.filter fun c => o ≤ c.1 && c.1 < o + len).map fun c => (c.1 - o, c.2)

/-- A flash content in its one form: rising offsets, no erased byte listed. -/
def flashLoad (l : List (Nat × Byte)) : List Host.Cell := l.foldl (fun f c => tabSet 0xFF f c.1 c.2) []

/-- Program bytes: a bit can only become 0. -/
def flashProgram (f : List Host.Cell) (o : Nat) : List Byte → List Host.Cell
  | [] => f
  | b :: t => flashProgram (tabSet 0xFF f o (flashByte f o &&& b)) (o + 1) t

/-- Erase the 64 KiB block at an offset. -/
def flashErase (f : List Host.Cell) (o : Nat) : List Host.Cell := f.filter fun c => !(o ≤ c.1 && c.1 < o + 65536)

/-- No byte of a region has been programmed. -/
def flashBlank (f : List Host.Cell) (o len : Nat) : Bool := !(f.any fun c => o ≤ c.1 && c.1 < o + len)

/-- Offset of a settings copy, and of a firmware slot. -/
def copyBase (c : BitVec 1) : Nat := c.toNat * 0x40000
def slotBase (c : BitVec 1) : Nat := 0x80000 + c.toNat * 0x100000

/-! ### Records (R346, R403) -/

/-- The history area: 120 blocks of 64 KiB. DESIGN CHOICE (log entry 120): a record takes 64 bytes, and carries its number. -/
def historyBase : Nat := 0x280000
def historySlots : Nat := 122880

/-- Read bursts of 4 KiB the area takes (R402). -/
def historyBursts : Nat := 1920

/-- Offset of the record with a number: the area is a ring. -/
def historyOff (m : Nat) : Nat := historyBase + m % historySlots * 64

/-- The bytes of a record, its CRC-64 last (R403). -/
def HistRec.flashed (r : HistRec) (m : Nat) : List Byte :=
  let b := natToLe m 4 ++ natToLe r.unit.toNat 2 ++ [r.kind, r.seg] ++ natToLe r.session.toNat 4 ++ natToLe r.count.toNat 4 ++
    natToLe r.beat.toNat 8 ++ natToLe r.powered.toNat 8 ++ [if r.failedTest then 1 else 0, 1] ++ List.replicate 22 0
  b ++ natToLe (crc64 b).toNat 8

/-- A record read back: its number and what it holds; none where its CRC fails (R403). -/
def parseRecord (b : List Byte) : Option (Nat × HistRec) :=
  let g := fun (o n : Nat) => leToNat ((b.drop o).take n)
  if crc64 (b.take 56) != BitVec.ofNat 64 (g 56 8) || g 33 1 != 1 then none
  else some (g 0 4, {
    unit := BitVec.ofNat 16 (g 4 2), kind := BitVec.ofNat 8 (g 6 1), seg := BitVec.ofNat 8 (g 7 1)
    session := BitVec.ofNat 32 (g 8 4), count := BitVec.ofNat 32 (g 12 4), beat := BitVec.ofNat 64 (g 16 8)
    powered := BitVec.ofNat 64 (g 24 8), failedTest := g 32 1 == 1, flushed := true })

/-- The records of the history area, in order. -/
def historyIn (f : List Host.Cell) : List (Nat × HistRec) :=
  let cells := flashRegion f historyBase (historySlots * 64)
  let slots := setAddAll [] (cells.map (·.1 / 64))
  (slots.filterMap fun i => parseRecord (flashBytes cells (i * 64) 64)).insertionSort fun a b => a.1 ≤ b.1

/-- Where the next record goes, from number m on: past slots that hold a record cut short, up to the next block. -/
def historySlot (f : List Host.Cell) (m : Nat) : Nat → Nat
  | 0 => m
  | fuel + 1 => if m % 1024 == 0 || flashBlank f (historyOff m) 64 then m else historySlot f (m + 1) fuel

/-- R403: what writes a record as number m: when the ring is full, the oldest block is erased before. -/
def recordOps (f : List Host.Cell) (m : Nat) (r : HistRec) : List FlashOp :=
  (if m % 1024 == 0 && !flashBlank f (historyOff m) 65536 then [.erase (historyOff m)] else []) ++
    [.program (historyOff m) (r.flashed m)]

/-- An operation done. -/
def FlashOp.done (f : List Host.Cell) : FlashOp → List Host.Cell
  | .read => f
  | .program o bs => flashProgram f o bs
  | .erase o => flashErase f o

/-! ### The flash port (R402) -/

/-- The first operation of a user among those waiting. -/
def takeUser (u : FlashUser) : List (FlashUser × FlashOp) → Option ((FlashUser × FlashOp) × List (FlashUser × FlashOp))
  | [] => none
  | x :: t => if x.1 == u then some (x, t) else (takeUser u t).map fun (y, r) => (y, x :: r)

/-- R402: serve the waiting user of the highest priority: fault records, updates, pattern fetches; an erase of an update is
suspended for a fault record. -/
def FlashPort.serve (p : FlashPort) : FlashPort :=
  match p.busy with
  | some (.update, .erase a) =>
    match takeUser .fault p.waiting with
    | some (x, rest) => { p with busy := some x, suspended := some (.update, .erase a), waiting := rest }
    | none => p
  | some _ => p
  | none =>
    match takeUser .fault p.waiting with
    | some (x, rest) => { p with busy := some x, waiting := rest }
    | none =>
      match p.suspended with
      | some x => { p with busy := some x, suspended := none }
      | none =>
        match (takeUser .update p.waiting).or (takeUser .pattern p.waiting) with
        | none => p
        | some (x, rest) => { p with busy := some x, waiting := rest }

/-- Queue operations of a user. -/
def State.flashPut (s : State) (u : FlashUser) (ops : List FlashOp) : State :=
  { s with flashPort := FlashPort.serve { s.flashPort with waiting := s.flashPort.waiting ++ ops.map fun o => (u, o) } }

/-! ### MP3 writes the history (R346, R403) -/

/-- Processor i. -/
def State.mp (s : State) (i : Nat) : Mp := tabGet {} s.mps i

/-- Change processor i. -/
def State.onMp (s : State) (i : Nat) (f : Mp → Mp) : State := { s with mps := tabSet {} s.mps i (f (s.mp i)) }

/-- The firmware of the four processors runs (R391), and processor i is in service. -/
def State.serving (s : State) (i : Nat) : Bool :=
  s.live && s.start.phase ≥ 3 && s.start.phase != 9 && (s.mp i).st == 0

/-- R346, R403: MP3 writes the first record of the history that is not in the flash, once it has read the history area. -/
def State.flushHistory (s : State) : State :=
  let waiting := (match s.flashPort.busy with | some (.fault, _) => true | _ => false) || s.flashPort.waiting.any (·.1 == .fault)
  match s.history.find? (!·.flushed) with
  | some r =>
    if waiting || !s.start.classified then s
    else
      let m := historySlot s.flash s.start.histNext 1024
      State.flashPut { s with start := { s.start with histNext := m } } .fault (recordOps s.flash m r)
  | none => s

/-! ### Classification (R347) -/

/-- R347: a record that makes its unit permanent by itself: a lockup, a lost tag, a failed port, a failed retest. -/
def HistRec.grave (r : HistRec) : Bool := r.kind == 5 || r.kind == 6 || r.kind == 7 || r.kind == 10

/-- R347: the units that a history, oldest record first, makes permanent. -/
def permanentIn : List HistRec → List (BitVec 16)
  | [] => []
  | r :: t =>
    let twice := r.failedTest && t.any fun x => x.unit == r.unit && x.failedTest && x.powered.toNat ≤ r.powered.toNat + testWindow
    let l := permanentIn t
    if (r.grave || twice) && !l.contains r.unit then r.unit :: l else l

end Sys2Proof.Machine
end

