-- ==== Sys2Proof/Machine/Drain.lean ====
section
/-! DEFINITION. The drain (R348–R351): triggers, the discard at the engines, completion, the forced end. -/

namespace Sys2Proof.Machine

/-! ### What is still outstanding (R349) -/

/-- Cores that have power. -/
def State.poweredCores (s : State) : List Nat := (s.cores.map (·.1)).filter s.hasPower

/-- The addends held at the engines. -/
def State.heldAddends (s : State) : List Addend := (s.engines_.map fun k => (s.getEng k).held).flatten

/-- A store-buffer entry is an accumulate-write held at its engine. -/
def entryHeld (held : List Addend) (n : Nat) (e : SbEntry) : Bool :=
  e.addend.isSome && held.any fun a => a.ret == .store n e.eid

/-- A descriptor waits only for addends held at engines. -/
def State.itemHeld (held : List Addend) (n : Nat) (i : XItem) : Bool :=
  i.phase == .working && i.todo.isEmpty && i.open_.all fun off =>
    held.any fun a => match a.ret with | .xmu m id o _ _ => m == n && id == i.id && o == off | _ => false

/-- Every descriptor of a core. -/
def State.itemsOf (s : State) (n : Nat) : List XItem :=
  ((s.xowners n).map fun (_, t) => (t.map fun (_, q) => q.items).flatten).flatten

/-- Steps 1 to 4 of R349 at one core; `held`: addends held at engines are allowed. -/
def State.coreDrained (s : State) (held : List Addend) (n : Nat) : Bool :=
  let c := s.core n
  c.sbuf.all (entryHeld held n) && c.evicts.isEmpty && c.dirtyLines.isEmpty &&
    (s.itemsOf n).all (State.itemHeld held n) && (c.tcmdQ.isEmpty || c.lockCause != 0) &&
    c.arrayQ.isEmpty && c.vxuOps.isEmpty && c.tileOps.isEmpty && c.vecOps.isEmpty

/-- An access of the block's own cores, not one that came in over a link. -/
def Ret.own : Ret → Bool
  | .link _ _ => false
  | .linkGet _ _ _ => false
  | _ => true

/-- Steps 1 to 5 of R349, but for held addends in `held`; a slot in progress is let finish (R341). -/
def State.drainedBut (s : State) (held : List Addend) : Bool :=
  s.poweredCores.all (s.coreDrained held) && s.links.all (fun (_, l) => l.reqs.isEmpty) &&
    s.ports.all (fun (_, p) => p.st != .retrain && !(p.queue.any (·.ret.own))) && s.clusters.all fun (_, c) => c.slot.isNone

/-! ### Step 6 -/

/-- R349 step 6 at one engine: held addends and VOIDs are discarded, lines with an open round are poisoned. -/
def State.discard (s : State) (k : EngAt) : State :=
  let e := s.getEng k
  let lines := (e.rounds.filter fun r => r.next != 0).map fun r => s.storeAddr r.pa / 64
  let s := { s.setEng k { e with held := [], rounds := [], applied := [] } with poison := setAddAll s.poison lines }
  e.held.foldl (fun s a => if a.void then s else s.finish a.ret .busErr []) s

/-- Every engine discards. -/
def State.discardAll (s : State) : State := s.engines_.foldl State.discard s

/-- The block is drained (Table 15-5): MP3, if it is in service, flushes the history, through the flash port (R402, R403). -/
def State.endDrain (s : State) (timeout : Bool) : State :=
  let s := { s with drain := { s.drain with st := .drained, timeout := s.drain.timeout || timeout } }
  if s.serving 3 then s.flushHistory else s

/-! ### The commands -/

/-- DRAIN_TRIGGER (R348): a trigger of a unit; an uncorrectable mesh header is recorded against its stop (R346). -/
def execDrainTrigger (cause : DrainCause) (unit : BitVec 16) (s : State) : Out :=
  if !s.live then .next s
  else .next (if cause == .meshHdr then s.badHeader unit.toNat else s.startDrain cause unit.toNat)

/-- DRAIN_ENGINE_DISCARD (R349 step 6): once steps 2 to 5 are complete. -/
def execDrainEngineDiscard (s : State) : Out :=
  if s.live && s.drain.st == .draining && !s.drain.discarded && s.drainedBut s.heldAddends then
    .next { s.discardAll with drain := { s.discardAll.drain with discarded := true } }
  else .next s

/-- DRAIN_COMPLETE (R349): every step is complete. -/
def execDrainComplete (s : State) : Out :=
  if s.live && s.drain.st == .draining && s.drain.discarded && s.drainedBut [] then .next (s.endDrain false) else .next s

/-! ### The forced end (R350) -/

/-- Accesses on the mesh and at the ports end as bus errors. -/
def State.forceMesh (s : State) : State :=
  let mine := (s.packets.filter (·.ret.own)).map (·.ret) ++ (s.responses.filter (·.ret.own)).map (·.ret)
  let s := mine.foldl (fun s r => s.finish r .busErr [])
    { s with packets := s.packets.filter (!·.ret.own), responses := s.responses.filter (!·.ret.own) }
  s.ports.foldl (fun s (k, p) =>
    let q := p.queue.filter fun r => r.ret.own
    q.foldl (fun s r => s.finish r.ret .busErr []) (s.onPort k fun x => { x with queue := x.queue.filter fun r => !r.ret.own })) s

/-- Addends on the way, refused, ready or held end as bus errors. -/
def State.forceAddends (s : State) : State :=
  let l := (s.addends ++ s.refused).filter fun a => !a.void && a.ret.own
  let s := l.foldl (fun s a => s.finish a.ret .busErr [])
    { s with addends := s.addends.filter fun a => a.void || !a.ret.own, refused := s.refused.filter fun a => a.void || !a.ret.own }
  let s := s.engines_.foldl (fun s k =>
    let e := s.getEng k
    e.ready.foldl (fun s a => s.finish a.ret .busErr []) (s.setEng k { e with ready := [] })) s
  s.discardAll

/-- Outbound link requests end as bus errors, in SEQ order. -/
def State.forceLinks (s : State) : State :=
  s.links.foldl (fun s (k, l) =>
    l.reqOrder.foldl (fun s r => s.finish r.ret .busErr []) (s.onLink k fun x => { x with reqs := [] })) s

/-- Loads of core n that are left end poisoned: results that wait for a response or a fill, reads of waiting words, lines being
filled, rows and vector lines. -/
def State.forceLoads (s : State) (n : Nat) : State :=
  let s := s.mapCtx n fun c => { c with
    pend := c.pend.map fun e => match e.await with
      | .access => if e.keyWrite.isSome then e.arriveKey 0 .busErr [] else e.arrive .busErr []
      | .fill => e.fromLine 0 .busErr
      | _ => e
    held := c.held.map fun h => (h.1, some (h.2.getD (.busErr, []))) }
  let s := s.onCore n fun c =>
    let bad := fun (l : Line) => if l.filling then ({ addr := l.addr, data := 0, poison := true } : Line) else l
    { c with dcache := tabMap (fun _ l => bad l) c.dcache, icache := tabMap (fun _ l => bad l) c.icache, arrived := [] }
  let s := (s.core n).tileOps.foldl (fun s o => o.open_.foldl (fun s i => s.finish (.tile n o.op i) .busErr []) s) s
  (s.core n).vecOps.foldl (fun s o => o.open_.foldl (fun s i => s.finish (.vec n o.op i) .busErr []) s) s

/-- Stores, write-backs and descriptors of core n that are left end as failures. -/
def State.forceCore (s : State) (n : Nat) : State :=
  let s := (s.core n).sbuf.foldl (fun s e => s.failBuffered n e) (s.onCore n fun c => { c with sbuf := [] })
  let s := (s.core n).evicts.foldl (fun s v => State.evictDone (s.onCore n fun c => { c with
      evicts := c.evicts.map fun x => if x.addr == v.addr then { x with open_ := 0 } else x }) n v.addr .busErr) s
  (s.itemsOf n).foldl (fun s i =>
    if i.phase == .ended || i.phase == .closed then s else s.xmuEnd n i.id (if i.phase == .queued then 0x80 else clsASYNC) ((i.bad.getD (0, 0)).1) false) s

/-- DRAIN_TIMEOUT (R350): 50 ms have passed, time with SHUTTER_N low not counted. -/
def execDrainTimeout (s : State) : Out :=
  if s.live && s.drain.st == .draining && !s.power.pinLow then
    let s := s.forceMesh.forceAddends.forceLinks
    let s := s.poweredCores.foldl (fun s n => (s.forceLoads n).forceCore n) s
    .next (({ s with drain := { s.drain with discarded := true } }).endDrain true)
  else .next s

end Sys2Proof.Machine
end

