-- ==== Sys2Proof/Machine/Flash.lean ====
section
/-! DEFINITION. The flash device as the block uses it (R388–R390, R395–R397, R402): the settings copies, the queue of its
operations. -/

namespace Sys2Proof.Machine

/-! ### Settings (R395, R396) -/

/-- Bytes of a record with its padding. -/
def recordBytes (key : Nat) (v : List Byte) : List Byte :=
  let b := natToLe key 2 ++ natToLe v.length 2 ++ v
  b ++ List.replicate ((8 - b.length % 8) % 8) 0

/-- The records of a copy; none where one is not well formed. -/
def parseRecords : Nat → List Byte → Option (List (Nat × List Byte))
  | 0, bs => if bs.isEmpty then some [] else none
  | fuel + 1, bs =>
    if bs.isEmpty then some []
    else
      let key := leToNat (bs.take 2)
      let len := leToNat ((bs.drop 2).take 2)
      let total := (4 + len + 7) / 8 * 8
      if bs.length < total || ((bs.drop (4 + len)).take (total - 4 - len)).any (· != 0) then none
      else (parseRecords fuel (bs.drop total)).map fun t => (key, (bs.drop 4).take len) :: t

/-- The magic of a settings copy. -/
def setMagic : Nat := 0x5357575A

/-- Generation and records of the copy at an offset, if it is valid. -/
def parseCopy (f : List Host.Cell) (base : Nat) : Option (BitVec 32 × List (Nat × List Byte)) :=
  let h := flashBytes f base 32
  let len := leToNat ((h.drop 8).take 4)
  if leToNat (h.take 4) != setMagic || len > 262112 then none
  else
    let recs := flashBytes f (base + 32) len
    if crc64 (h.take 24 ++ List.replicate 8 0 ++ recs) != BitVec.ofNat 64 (leToNat (h.drop 24)) then none
    else (parseRecords len recs).map fun l => (BitVec.ofNat 32 (leToNat ((h.drop 4).take 4)), l)

/-- The bytes of a copy. -/
def buildCopy (gen : BitVec 32) (recs : List (Nat × List Byte)) : List Byte :=
  let body := (recs.map fun (k, v) => recordBytes k v).flatten
  let h := natToLe setMagic 4 ++ natToLe gen.toNat 4 ++ natToLe body.length 4 ++ List.replicate 12 0
  h ++ natToLe (crc64 (h ++ List.replicate 8 0 ++ body)).toNat 8 ++ body

/-- Generation a is newer than b, or the same (serial comparison). -/
def genLe (b a : BitVec 32) : Bool := (a - b).toNat < 2 ^ 31

/-- R395: the current copy: its number, generation and records. -/
def chooseCopy (f : List Host.Cell) : Option (BitVec 1 × BitVec 32 × List (Nat × List Byte)) :=
  match parseCopy f (copyBase 0), parseCopy f (copyBase 1) with
  | some (g0, r0), some (g1, r1) => if genLe g1 g0 then some (0, g0, r0) else some (1, g1, r1)
  | some (g0, r0), none => some (0, g0, r0)
  | none, some (g1, r1) => some (1, g1, r1)
  | none, none => none

/-- Table 18-5: the default of a block setting; none for a key the block does not define. -/
def settingDefault (key : Nat) : Option (List Byte) :=
  match key with
  | 0x1 => some [0]
  | 0x2 => some [1]
  | 0x3 => some (natToLe 0 2)
  | 0x4 => some (natToLe 1900 2)
  | 0x5 => some (natToLe 24 2)
  | 0x6 => some [0x2C]
  | 0x7 => some (natToLe (0x4000000 * 2 ^ 64) 16)
  | 0x8 => some [0]
  | 0x9 => some (natToLe (2 ^ 184 - 1) 24)
  | 0xA => some (0x0A :: List.replicate 15 1)
  | 0xB => some (natToLe (64 + 40 * 256) 3)
  | 0xC => some []
  | 0xD => some [1]
  | 0xE => some (natToLe 800 2)
  | _ => none

/-- R315, R317: a replay and a request timeout that LINK_ASSIGN accepts. -/
def timesOk (rto rqto : Nat) : Bool := rto != 0 && rqto * 100 ≥ 8 * rto

/-- Table 18-5: the value of a setting is in its range; the integrator's keys take any. -/
def settingOk (key : Nat) (v : List Byte) : Bool :=
  let x := leToNat v
  let n := v.length
  match key with
  | 0x1 => n == 1 && x ≤ 1
  | 0x2 => n == 1 && x ≤ 2
  | 0x3 => n == 2 && x ≤ 1023
  | 0x4 => n == 2 && 1000 ≤ x && x ≤ 1900
  | 0x5 => n == 2 && 1 ≤ x && x ≤ 168
  | 0x6 => n == 1 && 0x08 ≤ x && x ≤ 0x77
  | 0x7 =>
    let b := x % 2 ^ 64
    let l := x / 2 ^ 64
    n == 16 && b % 4096 == 0 && l % 4096 == 0 && b + l ≤ 0x4000000
  | 0x8 => n == 1 && x ≤ 1
  | 0x9 => n == 24 && x < 2 ^ 184
  | 0xA => n == 16 && v.all (fun b => b.toNat < 16 && b.toNat % 4 != 3) && (v.filter fun b => b.toNat % 4 == 2).length ≤ 2
  | 0xB => n == 3 && timesOk (x % 256) (x / 256)
  | 0xC => n ≤ 480 && n % 8 == 0
  | 0xD => n == 1 && x ≤ 1
  | 0xE => n == 2 && 650 ≤ x && x ≤ 850 && x % 5 == 0
  | _ => 0x8000 ≤ key

/-- The value of a setting: of its record if it has a good one, else the default. -/
def settingIn (recs : List (Nat × List Byte)) (key : Nat) : List Byte :=
  match recs.find? fun r => r.1 == key && settingOk key r.2 with
  | some r => r.2
  | none => (settingDefault key).getD []

/-- Bytes the records of a copy take. -/
def recordsLength (recs : List (Nat × List Byte)) : Nat :=
  recs.foldl (fun n (k, v) => n + (recordBytes k v).length) 0

/-- R397: the records with one replaced; a value of length 0 deletes it. -/
def settingPut (recs : List (Nat × List Byte)) (key : Nat) (v : List Byte) : List (Nat × List Byte) :=
  let l := recs.filter (·.1 != key)
  if v.isEmpty then l else l ++ [(key, v)]

/-! ### The operations (R402) -/

/-- The page programs of bytes from an offset. -/
def pagesOf (o : Nat) : Nat → List Byte → List FlashOp
  | 0, _ => []
  | fuel + 1, bs =>
    let k := 256 - o % 256
    if bs.isEmpty then [] else .program o (bs.take k) :: pagesOf (o + k) fuel (bs.drop k)

/-- Read bursts of up to 4 KiB. -/
def readsOf (len : Nat) : List FlashOp := List.replicate ((len + 4095) / 4096) .read

/-- R397: the operations that write a settings copy: four erases, the programs, the read-back. -/
def copyOps (c : BitVec 1) (bs : List Byte) : List FlashOp :=
  ((List.range 4).map fun i => FlashOp.erase (copyBase c + i * 65536)) ++ pagesOf (copyBase c) bs.length bs ++ readsOf bs.length

/-- R397: queue the new copy with one record replaced. -/
def State.writeSettings (s : State) (key : Nat) (v : List Byte) : State :=
  s.flashPut .update (copyOps (~~~s.start.setCopy)
    (buildCopy (s.start.generation + 1) (settingPut s.start.settings key v)))

/-- R397: the read-back of the new copy: it becomes current, or the write has failed. -/
def State.endSettings (s : State) : State × Bool :=
  let c := ~~~s.start.setCopy
  match parseCopy s.flash (copyBase c) with
  | some (g, recs) =>
    if g == s.start.generation + 1 then
      ({ s with start := { s.start with setCopy := c, setDef := false, generation := g, settings := recs } }, true)
    else (s, false)
  | none => (s, false)

/-- Operations of a user that have not begun are dropped. -/
def FlashPort.dropUser (p : FlashPort) (u : FlashUser) : FlashPort :=
  { p with
    waiting := p.waiting.filter (·.1 != u)
    suspended := p.suspended.filter fun x => x.1 != u }

/-- R401: an update's erase has succeeded: its block counts as erased in the session. -/
def Start.erased (x : Start) (u : FlashUser) (op : FlashOp) : Start :=
  match u, op, x.session_ with
  | .update, .erase a, some (n, t, l) =>
    if slotBase t ≤ a && a < slotBase t + 0x100000 then { x with session_ := some (n, t, setAdd l ((a - slotBase t) / 65536)) } else x
  | _, _, _ => x

/-- R402: the operation of the flash in progress ends, well or not: a failed program or erase leaves the bytes as they
were, and nothing more of the command or record it belongs to is done. -/
def State.flashApply (s : State) (ok : Bool) : State :=
  match s.flashPort.busy with
  | none => s
  | some (u, op) =>
    let p := { s.flashPort with busy := none, failed := s.flashPort.failed || (!ok && u == FlashUser.update) }
    if ok then { s with flash := op.done s.flash, start := s.start.erased u op, flashPort := p.serve }
    else { s with flashPort := (p.dropUser u).serve }

/-- No update operation is in progress, suspended or waiting. -/
def FlashPort.updateIdle (p : FlashPort) : Bool :=
  (match p.busy with | some (.update, _) => false | _ => true) && p.suspended.isNone && !(p.waiting.any (·.1 == .update))

end Sys2Proof.Machine
end

