-- ==== Sys2Proof/Machine/Escapement.lean ====
section
/-! DEFINITION. The escapement (chapter 16): the management processors, the beat and its snapshot, MP1's loops, test lists,
the guards and the shutter, switching of cluster domains. -/

namespace Sys2Proof.Machine

/-! ### Mailboxes that end (R382, R386, R387) -/

/-- The ESC message that reports a host mailbox. -/
def escMsg (b : Mailbox) (n : Nat) : Msg :=
  { Msg.blank with
    type := 0xE, ch := 7, len := 32, payload := b.bytes 0 16 ++ BitVec.ofNat 8 n :: List.replicate 15 0 }

/-- R386, R387: mailbox n has reached DONE, TIMEOUT or ERROR: an ESC on each UP host-role module, or an in-band interrupt. -/
def State.boxEnded (s : State) (n : Nat) : State :=
  if n ≥ 32 then
    if s.i3c.ibi then { s with i3c := { s.i3c with raised := s.i3c.raised ++ [BitVec.ofNat 8 n] } } else s
  else
    (List.range 16).foldl (fun s k =>
      let l := s.link k
      if l.st == .up && l.role == 2 then s.onLink k (·.send { escMsg (s.box n) n with srcblk := s.self }) else s) s

/-- End a TAKEN mailbox in ERROR with a status. -/
def State.boxError (s : State) (n : Nat) (status : BitVec 8) : State :=
  (s.onBox n fun b => { b with st := .error, status := status, len := 0, timer := false }).boxEnded n

/-- R382: MP2 restarts: every TAKEN mailbox goes to ERROR with MP_RESTART, in increasing number. -/
def State.failTaken (s : State) : State :=
  let s := { s with mail := { s.mail with work := [] } }
  (List.range 34).foldl (fun s n => if (s.box n).st == .taken then s.boxError n 0x0A else s) s

/-! ### Management processors (R353–R355) -/

/-- R355: the records of a restart: the eighth by watchdog or SRAM error within 1,000 beats is a failed test too. -/
def State.recordRestart (s : State) (i : Nat) (eighth : Bool) : State :=
  let s := s.record (unitMp i) 0 0
  if eighth then s.record (unitMp i) 1 0 else s

/-- The image of processor i in the image area (R352). -/
def State.imageOf (s : State) (i : Nat) : List Host.Cell := flashRegion s.images (i * 0x30000) 0x30000

/-- R394: a third restart of one processor during start-up holds the block as a permanent unit does. -/
def State.holdStart (s : State) (unit : Nat) : State :=
  let s := s.makePermanent unit
  let s := s.startDrain .history unit
  { s with
    drain := { s.drain with st := .drained, atStart := true }
    start := { s.start with phase := 8 } }

/-- R353–R355, R382, R401: processor i restarts alone: cause 0 watchdog, 1 SRAM error, 2 MP_RESTART; its private SRAM is loaded
from the image area. A restart of MP0 ends the update session, and makes a commit in hand no success. `late`: it has not reported
ready. -/
def State.mpRestart (s : State) (i : Nat) (cause : BitVec 2) (late : Bool := false) : State :=
  let now := s.beat.count.toNat
  let again := cause == 0 || (s.mp i).image != s.start.imageNo
  let recent := (if cause == 2 then [] else [now]) ++ (s.mp i).recent.filter fun b => now < b + 1000
  let eighth := recent.length ≥ 8 && cause != 2
  let s := s.onMp i fun m => { m with
    st := 1, cause := cause, restarts := bump m.restarts, image := s.start.imageNo, sram := s.imageOf i
    libHash := s.start.libHash, libSize := s.start.libSize
    recent := recent
    starts := if late && s.start.phase < 7 then m.starts + 1 else m.starts
    unrecorded := if i == 3 then m.unrecorded ++ [eighth] else [] }
  let s := s.addLog 4 (unitMp i) 0 0 0
  let s := if i == 3 then s else s.recordRestart i eighth
  let s := if i == 0 then { s with
      start := { s.start with session_ := none, commits := s.start.commits.filter fun c => s.flashPort.job != some (c.1, 0xA2) }
      flashPort := { s.flashPort.dropUser .update with job := none } } else s
  let s := if i == 3 then { s with flashPort := { (s.flashPort.dropUser .fault).dropUser .pattern with histLeft := 0, fetchLeft := 0 } } else s
  let s := if i == 2 then s.failTaken
    else { s with mail := { s.mail with work := s.mail.work.map fun (n, w) =>
        (n, if w.owner.val == i then { w with result := some (0x0A, []), hold := false } else w) } }
  let s := { s with start := { s.start with cleanBeats := if again then 0 else s.start.cleanBeats } }
  if s.start.phase < 7 && (s.mp i).starts ≥ 3 then s.holdStart (unitMp i) else s

/-- MP_WATCHDOG_EXPIRY (R353). -/
def execMpWatchdogExpiry (i : MpId) (s : State) : Out :=
  if s.live && s.start.phase ≥ 2 && s.start.phase != 9 then .next (s.mpRestart i.val 0) else .next s

/-- MP_READY_TIMEOUT (R353): a restarting processor that does not report ready restarts again, as by its watchdog. -/
def execMpReadyTimeout (i : MpId) (s : State) : Out :=
  if s.live && (s.mp i.val).st != 0 then .next (s.mpRestart i.val 0 true) else .next s

/-- MP_SRAM_ERROR (R353). -/
def execMpSramError (i : MpId) (s : State) : Out :=
  if s.live && s.start.phase ≥ 2 && s.start.phase != 9 then .next (s.mpRestart i.val 1) else .next s

/-- A command that waits for something is complete: its result is there. -/
def State.workDone (s : State) (p : Work → Bool) : State :=
  { s with mail := { s.mail with work := s.mail.work.map fun (n, w) =>
      (n, if w.hold && w.result.isNone && p w then { w with hold := false, result := some (0, []) } else w) } }

/-- A field of the request of mailbox n. -/
def Mailbox.req (b : Mailbox) (off n : Nat) : Nat := leToNat (b.bytes (16 + off) n)

/-- Complete the held commands of an opcode whose first field of `n` bytes is x. -/
def State.heldDone (s : State) (opcode : BitVec 16) (n x : Nat) : State :=
  s.workDone fun w => w.op == opcode && w.arg.toNat % 2 ^ (8 * n) == x

/-- SP0 is there to hold the pattern library: it is up, or has trained and waits for the library (R327). -/
def State.libraryHome (s : State) : Bool := (s.port 0).st == .up || (s.port 0).trained

/-- R402, R404: MP3 begins to fetch the pattern library in bursts of 4 KiB, if SP0 is there to hold it. -/
def State.startFetch (s : State) : State :=
  if s.libraryHome then State.flashPut { s with flashPort := { s.flashPort with fetchLeft := 16384 } } .pattern [.read]
  else { s with flashPort := { s.flashPort with fetchLeft := 0 } }

/-- R391, R402: MP3 begins to read the history area, if it has not been classified, and to fetch the pattern library, if it has
not been loaded. -/
def State.startReads (s : State) : State :=
  let s := if s.start.classified then s
    else State.flashPut { s with flashPort := { s.flashPort with histLeft := historyBursts } } .fault [.read]
  if s.start.filled && !s.start.libReady && !s.start.libBad then s.startFetch else s

/-! ### The beat (R356–R362) -/

/-- R360: the snapshot of the beat just ended goes to the buffer SNAPSEL does not name. -/
def State.takeSnapshot (s : State) (x : SensorSample) : State :=
  let snap : Snapshot := {
    beat := s.beat.count, vcore := s.power.vread, power := x.power, thermal := x.thermal, current := x.current
    droop := (List.range 160).map fun c => (s.cluster c).droopBeat }
  let b := s.beat
  { s with beat := if b.snapSel then { b with snapA := snap, snapSel := false } else { b with snapB := snap, snapSel := true } }

/-- VMIN of the part (R362). -/
def vmin : Nat := max 650 (Config.fusedVmin 0).toNat

/-- R362: MP1's step on the snapshot; it holds the VCORE target after a failed AVSBus frame (R361). -/
def Power.step (p : Power) (x : SensorSample) (droops : List (BitVec 16)) : Power :=
  let p := { p with plim := p.plimNext.getD p.plim, plimNext := none }
  let v := p.vtgt.toNat
  let p := { p with vtgt :=
    if p.avsHold then p.vtgt
    else if droops.any (· != 0) then BitVec.ofNat 10 (min 850 (v + 10))
    else if p.calm ≥ 64 && v ≥ vmin + 5 then BitVec.ofNat 10 (v - 5)
    else p.vtgt }
  let t := p.tlim.toNat
  let hot := x.thermal.any fun r => r.toInt > 420
  let cool := x.thermal.all fun r => r.toInt < 400
  let p := { p with tlim := if hot then BitVec.ofNat 11 (max 280 (t - 20)) else if cool then BitVec.ofNat 11 (min 1400 (t + 20)) else p.tlim }
  let ple := min p.plim.toNat p.tlim.toNat
  let w := x.power.toNat
  { p with duty :=
      if w > ple then (if p.duty == 15 then 15 else p.duty + 1)
      else if 20 * w < 19 * ple then (if p.duty == 0 then 0 else p.duty - 1)
      else p.duty }

/-- Insert a core by the age of its oldest segment, oldest first. -/
def insertAge (x : Nat × Nat × Nat) : List (Nat × Nat × Nat) → List (Nat × Nat × Nat)
  | [] => [x]
  | y :: t => if x.1 > y.1 then x :: y :: t else y :: insertAge x t

/-- The oldest segment of core i of a cluster and its age; the first of equals (R339). -/
def Cluster.oldest (c : Cluster) (i : Nat) : Nat × Nat :=
  let age := fun (g : Nat) => (tabGet 0xFFFF c.ages (i * 4 + g)).toNat
  [1, 2, 3].foldl (fun (b : Nat × Nat) g => if age g > b.1 then (age g, g) else b) (age 0, 0)

/-- R339: the ordered list of a cluster: retests first, then by age; each core once, excluded cores never. -/
def State.testListOf (s : State) (c : Nat) : List (Nat × Nat) :=
  let cl := s.cluster c
  let ok := fun (i : Nat) => !(s.core (c * 64 + i)).texcl
  let first := cl.retests.foldl (fun (l : List (Nat × Nat)) r =>
    if ok r.1 && !(l.any fun x => x.1 == r.1) then l ++ [r] else l) []
  let rest := ((List.range 64).filter fun i => ok i && !(first.any fun x => x.1 == i)).foldr (fun i l =>
    let (a, g) := cl.oldest i
    insertAge (a, i, g) l) []
  first ++ rest.map fun (_, i, g) => (i, g)

/-- R339, R404: MP3 loads the test lists, if tests are enabled and the library is there. -/
def State.loadTests (s : State) : State :=
  (List.range 160).foldl (fun s c =>
    if (s.cluster c).dst == .on || !(s.cluster c).testList.isEmpty then
      s.onCluster c fun x => { x with
        testList := if s.testEn && s.start.libReady && (s.cluster c).dst == .on then s.testListOf c else [] }
    else s) s

/-- Ages of the segments grow by a beat (R343). -/
def State.ageTests (s : State) : State :=
  { s with clusters := tabMap (fun _ c => if c.ages.isEmpty then c else { c with
      ages := (c.ages.map fun (k, a) => (k, bump a)).filter fun (_, a) => a != 0xFFFF }) s.clusters }

/-- R357: the BEAT bit of every task of every powered cluster. -/
def State.beatBits (s : State) : State :=
  (s.cores.map (·.1)).foldl (fun s n => if s.coreOn n then s.setEventAll n 3068 else s) s

/-- What the hardware does at a boundary (R357, R360). -/
def State.boundary (s : State) (x : SensorSample) : State :=
  let s := s.takeSnapshot x
  let s := { s with
    beat := { s.beat with count := s.beat.count + 1, captured := false, hotStacks := x.hotStacks }
    clusters := tabMap (fun _ c => { c with droopBeat := 0 }) s.clusters
    power := { s.power with
      pmeas := BitVec.ofNat 11 (min 2047 x.power.toNat), iguard := s.power.guardActed || s.power.guardStop, guardActed := false
      calm := if s.clusters.any fun (_, c) => c.droopBeat != 0 then 0 else s.power.calm + 1 }
    powered := s.powered + 1
    start := { s.start with cleanBeats := if (List.range 4).all s.serving then s.start.cleanBeats + 1 else s.start.cleanBeats } }
  s.beatBits

/-- BEAT_BOUNDARY (R357): the boundary, then MP1's loops, MP3's lists and history, each if its processor is in service; every
1,000 beats the correctable errors are recorded (R346). -/
def execBeatBoundary (sample : SensorSample) (s : State) : Out :=
  if !(s.live && s.beat.running) then .next s
  else
    let droops := (List.range 160).map fun c => (s.cluster c).droopBeat
    let s := (s.boundary sample).ageTests
    let s := if s.serving 1 then { s with power := s.power.step sample droops } else s
    let s := if s.beat.count.toNat % 1000 == 0 then s.recordCounts else s
    .next (if s.serving 3 then s.loadTests.flushHistory else s)

/-- BEAT_IN_EDGE (R358): an edge at `err` mgmt_clk cycles from the nearest expected boundary. -/
def execBeatInEdge (err : Int) (s : State) : Out :=
  let b := s.beat
  if !(s.live && b.running && b.en) then .next s
  else if err.natAbs ≤ 62500 && !b.captured then
    let d : Int := if err > 25000 then 25000 else if err < -25000 then -25000 else err
    let near := err.natAbs ≤ 500
    let run := if near then b.run + 1 else 0
    .next { s with beat := { b with
      captured := true, shift := b.shift + d, lastErr := BitVec.ofInt 17 err, capt := bump b.capt, run := run
      lock := near && (b.lock || run ≥ 8) } }
  else .next { s with beat := { b with miss := bump b.miss, lock := false, run := 0 } }

/-! ### Power (R361–R367) -/

/-- CURRENT_GUARD_STOP (R364). -/
def execCurrentGuardStop (s : State) : Out :=
  if s.live then .next { s with power := { s.power with guardStop := true, guardActed := true } } else .next s

/-- CURRENT_GUARD_RESUME (R364). -/
def execCurrentGuardResume (s : State) : Out :=
  if s.live then .next { s with power := { s.power with guardStop := false } } else .next s

/-- DROOP_EVENT (R364, Table 16-4). -/
def execDroopEvent (c : ClusterId) (s : State) : Out :=
  let x := s.cluster c.val
  if s.live && (x.dst == .on || x.dst == .fencing) then
    .next (s.onCluster c.val fun x => { x with droopHold := true, droop := bump x.droop, droopBeat := bump x.droopBeat })
  else .next s

/-- DROOP_HOLD_END (R364). -/
def execDroopHoldEnd (c : ClusterId) (s : State) : Out :=
  if s.live then .next (s.onCluster c.val fun x => { x with droopHold := false }) else .next s

/-- What a valid response to a frame leaves (Table 16-5): a target the regulator has accepted, or a value it reported. -/
def Power.avs (p : Power) (f : AvsFrame) : Power :=
  let r := f.rail.toNat * 4
  match f.cmd with
  | .voltageWrite mv => { p with vcore := mv }
  | .voltageRead => if f.rail == 0 then { p with vread := f.value } else { p with avsRead := tabSet 0 p.avsRead r f.value }
  | .currentRead => { p with avsRead := tabSet 0 p.avsRead (r + 1) f.value }
  | .temperatureRead => { p with avsRead := tabSet 0 p.avsRead (r + 2) f.value }
  | .statusReadClear => { p with avsRead := tabSet 0 p.avsRead (r + 3) f.value }

/-- R361, Table 16-5: a frame that MP1 sends: a read, or VCORE's target of the moment, within 650–850 mV in steps of 5 mV. VSRAM was
written at start-up, once. -/
def Power.sends (p : Power) (f : AvsFrame) : Bool :=
  match f.cmd with
  | .voltageWrite mv =>
    f.rail == 0 && mv.toNat == p.vtgt.toNat && 650 ≤ mv.toNat && mv.toNat ≤ 850 && mv.toNat % 5 == 0
  | _ => true

/-- AVSBUS_FRAME (R361): a frame that MP1 does not send changes nothing. A frame with a valid response takes effect; after the frame and three repeats without one, MP1 holds
its target, and the failure is logged and counted. DESIGN CHOICE (log entry 121): the target is held until the next valid
response. -/
def execAvsbusFrame (frame : AvsFrame) (s : State) : Out :=
  if !(s.live && s.start.phase ≥ 3 && s.power.sends frame) then .next s
  else if frame.valid then
    .next { s with power := Power.avs { s.power with avsRetry := 0, avsHold := false } frame }
  else if s.power.avsRetry ≥ 3 then
    .next (State.addLog { s with power := { s.power with avsRetry := 0, avsHold := true, avsFail := bump s.power.avsFail } } 5 0xFFFF 0 0 0)
  else .next { s with power := { s.power with avsRetry := s.power.avsRetry + 1 } }

/-- SHUTTER_REQUEST (R365): SHUTTER_N is low. -/
def execShutterRequest (s : State) : Out :=
  if s.live then .next { s with power := { s.power with pinLow := true, shut := true, lift := 0 } } else .next s

/-- SHUTTER_RELEASE (R366): SHUTTER_N is high; the path releases if no thermal alarm is active. -/
def execShutterRelease (s : State) : Out :=
  if s.live then .next { s with power := { s.power with pinLow := false, shut := s.power.shut && s.power.talarm } } else .next s

/-- THERMAL_ALARM (R367). -/
def execThermalAlarm (s : State) : Out :=
  if s.live then .next { s with power := { s.power with talarm := true, shut := true, lift := 0 } } else .next s

/-- THERMAL_ALARM_CLEAR (R367, R366): the alarm clears, and the shutter path releases if SHUTTER_N is high. -/
def execThermalAlarmClear (s : State) : Out :=
  if s.live then .next { s with power := { s.power with talarm := false, shut := s.power.shut && s.power.pinLow } } else .next s

/-- THERMTRIP (R367): the sensor is above the alarm's threshold too. -/
def execThermtrip (s : State) : Out :=
  if s.live then .next { s with power := { s.power with ttrip := true, talarm := true, shut := true, lift := 0 } } else .next s

/-- PLL_LOCK_LOSS (R370): every clock stops; FAULT_N is driven through the latch that BLKSTAT shows as CLKLOSS. -/
def execPllLockLoss (s : State) : Out := if s.resetLow then .next s else .next { s with clkLoss := true }

/-! ### Cluster domains (R368, R369) -/

/-- The cores of a cluster that hold anything. -/
def State.coresOf (s : State) (c : Nat) : List Nat := (s.cores.map (·.1)).filter fun n => clusterOf n == c

/-- The engines of a cluster that hold anything. -/
def State.banksOf (s : State) (c : Nat) : List Nat := (s.engines.map (·.1)).filter fun n => clusterOf n == c

/-- Every accepted request of a fencing cluster has been answered, but for held addends in `held`. -/
def State.fenceIdle (s : State) (c : Nat) (held : List Addend) : Bool :=
  (s.coresOf c).all (fun n =>
    let x := s.core n
    x.sbuf.all (entryHeld held n) && x.evicts.isEmpty && x.dirtyLines.isEmpty && (s.itemsOf n).all (State.itemHeld held n) &&
      x.arrayQ.isEmpty && x.vxuOps.isEmpty && x.tileOps.isEmpty && x.vecOps.isEmpty && x.tcmdQ.isEmpty) &&
    (s.banksOf c).all fun n => (s.engine n).ready.isEmpty

/-- Held addends at the banks of a fencing cluster end with BANK_OFF, which goes back to their issuers; open rounds are
forgotten. -/
def State.fenceRelease (s : State) (c : Nat) : State :=
  (s.banksOf c).foldl (fun s n =>
    let e := s.engine n
    e.held.foldl (fun s a => if a.void then s else s.addendEnds a .bankOff [])
      (s.setEng (.bank n) { e with held := [], rounds := [], applied := [] })) s

/-- FENCE_ADDEND_RELEASE (R369): held addends complete with BANK_OFF, the TLBs of the cluster are emptied, and the stop discards
responses from now on. -/
def execFenceAddendRelease (c : ClusterId) (s : State) : Out :=
  if s.live && (s.cluster c.val).dst == .fencing && s.fenceIdle c.val s.heldAddends then
    let s := s.fenceRelease c.val
    let s := (s.coresOf c.val).foldl (fun s n => s.onCore n fun x => { x with tlb := [] }) s
    .next (s.onCluster c.val fun x => { x with tlb := [], released := true })
  else .next s

/-- Whether a storage address lies in a bank of cluster c. -/
def inCluster (c a : Nat) : Bool := 2 ^ 40 ≤ a && (a - 2 ^ 40) / 0x80000 / 64 == c

/-- R16, R369: what the cores and banks of a cluster hold is lost. A core that had locked up stays so, and the stop goes on
showing its cause, until the domain is on again (R294, R423). -/
def State.loseCluster (s : State) (c : Nat) : State :=
  { s with
    cores := s.cores.filterMap fun (n, x) =>
      if clusterOf n != c then some (n, x)
      else if x.lockCause == 0 then none
      else some (n, { Core.reset n with lockCause := x.lockCause })
    engines := s.engines.filter fun (n, _) => clusterOf n != c
    mem := s.mem.filter fun x => !inCluster c x.1
    poison := s.poison.filter fun l => !inCluster c (l * 64)
    tags := s.tags.filter fun g => !inCluster c (g * 16)
    eccCorr := s.eccCorr.filter fun w => !inCluster c (w * 8)
    eccBad := s.eccBad.filter fun w => !inCluster c (w * 8) }

/-- Bit k of DOMSTAT. -/
def State.setDomain (s : State) (k : Nat) (on : Bool) : State :=
  let m := BitVec.ofNat 184 (2 ^ k)
  { s with domstat := if on then s.domstat ||| m else s.domstat &&& ~~~m }

/-- R369: nothing is outstanding in a fencing cluster: its requests have been answered, or what is left of them are the addends
of other engines whose answers the stop discards; no addend waits at its banks. -/
def State.fenceDone (s : State) (c : Nat) : Bool :=
  ((s.cluster c).released || s.fenceIdle c []) &&
    (s.banksOf c).all fun n => (s.engine n).ready.isEmpty && (s.engine n).held.isEmpty

/-- CLUSTER_FENCE_COMPLETE (R369): nothing is outstanding: power is removed. -/
def execClusterFenceComplete (c : ClusterId) (s : State) : Out :=
  if s.live && (s.cluster c.val).dst == .fencing && s.fenceDone c.val then
    let s := (s.loseCluster c.val).onCluster c.val fun x => { x with
      dst := .off, tlb := [], walker := [], testList := [], droopHold := false, released := false }
    .next ((s.setDomain c.val false).heldDone 0x12 2 c.val)
  else .next s

/-- CLUSTER_WAKE_COMPLETE (R369): the fence lifts; the domain is on again, and its cores leave lockup (R294). -/
def execClusterWakeComplete (c : ClusterId) (s : State) : Out :=
  if s.live && (s.cluster c.val).dst == .waking then
    let s := (s.coresOf c.val).foldl (fun s n => s.onCore n fun x => { x with lockCause := 0 }) s
    .next (((s.onCluster c.val fun x => { x with dst := .on }).setDomain c.val true).heldDone 0x12 2 c.val)
  else .next s

end Sys2Proof.Machine
end

