-- ==== Sys2Proof/Machine/Mailbox.lean ====
section
/-! DEFINITION. Mailboxes (chapter 17): the requester's compare-and-sets, MP2's service, deadlines, completion. -/

namespace Sys2Proof.Machine

/-! ### The requester's commands (R372, R380) -/

/-- MAILBOX_POST (R372): compare-and-set to POSTED. -/
def execMailboxPost (n : MailboxId) (expect : BitVec 3) (s : State) : Out :=
  if s.live then .next (s.mailCas n.val expect.toNat 1) else .next s

/-- A compare-and-set to IDLE of a mailbox that is POSTED, where `fromPosted`, or that has ended. -/
def State.casIdle (s : State) (n : Nat) (expect : BitVec 3) : State := s.mailCas n expect.toNat 0

/-- MAILBOX_WITHDRAW (R372): compare-and-set from POSTED to IDLE. -/
def execMailboxWithdraw (n : MailboxId) (expect : BitVec 3) (s : State) : Out :=
  if s.live then .next (s.casIdle n.val expect) else .next s

/-- MAILBOX_CLEAR (R372): compare-and-set from DONE, TIMEOUT or ERROR to IDLE. -/
def execMailboxClear (n : MailboxId) (expect : BitVec 3) (s : State) : Out :=
  if s.live then .next (s.casIdle n.val expect) else .next s

/-- MBDB_RING (R380). -/
def execMbdbRing (ring : BitVec 32) (s : State) : Out := if s.live then .next (s.ringAll ring.toNat) else .next s

/-! ### The commands of Table 17-4 -/

/-- Opcodes. -/
def opDomain : Nat := 0x12

/-- Class (0 U, 1 N, 2 L), owner and least request length of an opcode; none for a reserved one. -/
def opInfo (b : Mailbox) : Option (Nat × MpId × Nat) :=
  match b.opcode.toNat with
  | 0x01 => some (0, 2, 0)
  | 0x02 => some (0, 2, 0)
  | 0x10 => some (0, 1, 2)
  | 0x11 => some (0, 1, 0)
  | 0x12 => some (2, 1, 3)
  | 0x20 => some (1, 1, 1)
  | 0x30 => some (1, 3, 0)
  | 0x31 => some (1, 3, 1)
  | 0x40 => some (2, 0, if b.req 6 2 == 0 then 8 else 16 + 8 * b.req 6 2)
  | 0x41 => some (0, 0, 1)
  | 0x50 => some (0, 2, 4)
  | 0x60 => some (1, 3, 8)
  | 0x61 => some (1, 3, 4)
  | 0x70 => some (1, 3, 1)
  | 0x71 => some (1, 3, 4)
  | 0x80 => some (1, 3, if b.req 2 2 == 0 then 4 else 16 + 16 * b.req 2 2)
  | 0x81 => some (0, 3, 1)
  | 0x90 => some (1, 0, 2)
  | 0x91 => some (2, 0, if b.req 2 2 == 0 then 4 else 8 + b.req 2 2)
  | 0xA0 => some (1, 0, 4)
  | 0xA1 => some (1, 0, 8)
  | 0xA2 => some (2, 0, 0)
  | 0xA3 => some (2, 2, 1)
  | 0xB0 => some (1, 2, 0x51)
  | 0xB1 => some (2, 2, 2)
  | _ => none

/-- R383: the commands a DRAINED block still carries out. -/
def opDrained (op : Nat) : Bool := [0x01, 0x02, 0x30, 0x31, 0x50, 0x60, 0x61].contains op

/-- R379: the record that mailbox n's request repeats. -/
def State.known (s : State) (n : Nat) : Option (Nat × MbRecord) :=
  let b := s.box n
  s.mail.records.find? fun r => r.1 == n && b.seq != 0 && r.2.seq == b.seq && r.2.opcode == b.opcode

/-- R375, R379, R383: the check of a request as it is taken: its result, if it ends at once. DESIGN CHOICE (log entry 112): the
checks are made in this order, a reserved opcode before the class, the class before the length. -/
def State.checkRequest (s : State) (n : Nat) : Option (BitVec 8 × List Byte) :=
  let b := s.box n
  match s.known n with
  | some (_, r) => some (r.status, r.reply)
  | none =>
    match opInfo b with
    | none => some (0x01, [])
    | some (cls, _, len) =>
      if b.cls.toNat != cls then some (0x03, [])
      else if b.len.toNat < len || b.len.toNat > 496 then some (0x02, [])
      else if s.drain.st == .drained && !opDrained b.opcode.toNat then some (0x05, [])
      else none

/-! ### MP2's service (R381) -/

/-- The service class of a mailbox: a reserved CLASS is served as N (R375). -/
def Mailbox.service (b : Mailbox) : Nat := if b.cls == 0 then 0 else if b.cls == 2 then 2 else 1

/-- The next mailbox of a class: round-robin after the last one taken. -/
def State.nextOf (s : State) (cls : Nat) : Option Nat :=
  let c := (List.range 34).filter fun n => let b := s.box n; b.st == .posted && b.bell && b.service == cls
  let last := (tabFind s.mail.lastTaken cls).getD 33
  (c.find? (· > last)).or c.head?

/-- The mailbox MP2 takes next: U, then N, then L; at most eight in hand, two of class L. -/
def State.nextTake (s : State) : Option Nat :=
  let w := s.mail.work
  if w.length ≥ 8 then none
  else
    let longs := (w.filter fun (_, x) => x.cls == 2).length
    (s.nextOf 0).or ((s.nextOf 1).or (if longs ≥ 2 then none else s.nextOf 2))

/-- MP2 takes mailbox n. -/
def State.takeBox (s : State) (n : Nat) : State :=
  let b := s.box n
  let owner := match opInfo b with | some (_, o, _) => o | none => 2
  let s' := s.onBox n fun b => { b with st := .taken, bell := false }
  { s' with mail := { s'.mail with
      work := (s'.mail.work.filter (·.1 != n)) ++ [(n, {
        owner := owner, cls := b.service, snapSel := s.beat.snapSel, op := b.opcode, arg := BitVec.ofNat 64 (b.req 0 8), result := s.checkRequest n })]
      lastTaken := tabPut s'.mail.lastTaken b.service n } }

/-- MAILBOX_TAKE (R381, R380): MP2 takes mailbox n, if it is the next; the doorbell of one that is not POSTED is cleared. -/
def execMailboxTake (n : MailboxId) (s : State) : Out :=
  if !s.serving 2 then .next s
  else if (s.box n.val).st != .posted then .next (s.onBox n.val fun b => { b with bell := false })
  else if s.nextTake == some n.val then .next (s.takeBox n.val)
  else .next s

/-- MAILBOX_PROGRESS (R375): a progress report on a class-L command. -/
def execMailboxProgress (n : MailboxId) (prog : BitVec 16) (s : State) : Out :=
  let b := s.box n.val
  if !(s.serving 2 && b.cls == 2 && s.mail.work.any (·.1 == n.val)) then .next s
  else if b.st == .taken then
    .next (s.onBox n.val fun b => { b with ack := true, prog := if prog > 1000 then 1000 else prog, timer := true, progAt := some (s.now / 4) })
  else .next s.reject

/-- Write the reply and end the request. -/
def Mailbox.finish (b : Mailbox) (status : BitVec 8) (reply : List Byte) : Mailbox :=
  if status == 0 then
    { b.setBytes 16 reply with st := .done, status := 0, len := BitVec.ofNat 16 reply.length, timer := false }
  else { b with st := .error, status := status, len := 0, timer := false }

/-- R379: keep the record of a request that has ended. -/
def State.keepRecord (s : State) (n : Nat) (status : BitVec 8) (reply : List Byte) : State :=
  if status == 0x0A then s
  else
    let b := s.box n
    { s with mail := { s.mail with
        records := tabPut s.mail.records n { seq := b.seq, opcode := b.opcode, status := status, reply := reply } } }

/-- MAILBOX_COMPLETE (R377, R379): a taken request whose result is there ends in DONE or ERROR; where the mailbox has left
TAKEN the completion is discarded. An MP_RESTART of MP2 follows its own DONE. -/
def execMailboxComplete (n : MailboxId) (s : State) : Out :=
  let k := n.val
  if !s.serving 2 then .next s
  else
    match s.mail.work.find? fun w => w.1 == k with
    | none => .next s
    | some (_, w) =>
      match w.result with
      | none => .next s
      | some (status, reply) =>
        let s := { s with mail := { s.mail with work := s.mail.work.filter (·.1 != k) } }
        if (s.box k).st != .taken then .next s.reject
        else
          let self := status == 0 && (s.known k).isNone && (s.box k).opcode.toNat == 0xA3 && (s.box k).req 0 1 == 2
          let s := s.keepRecord k status reply
          let s := (s.onBox k fun b => b.finish status reply).boxEnded k
          .next (if self then s.mpRestart 2 2 else s)

/-- R376: a request that times out in TAKEN before its command has begun is not carried out: DESIGN CHOICE (log entry 123). -/
def State.dropUnstarted (s : State) (n : Nat) : State :=
  { s with mail := { s.mail with work := s.mail.work.filter fun x => !(x.1 == n && x.2.result.isNone && !x.2.hold) } }

/-- MAILBOX_DEADLINE (R375, R377): the deadline of mailbox n expires; one that has just ended, or has just made progress,
discards the expiry. -/
def execMailboxDeadline (n : MailboxId) (s : State) : Out :=
  let k := n.val
  if !s.live then .next s
  else
    let out := fun (s : State) (x : BitVec 8) =>
      Host.Outcome.next ((s.onBox k fun b => { b with st := .timeout, status := x, timer := false }).boxEnded k)
    match (s.box k).st with
    | .posted => out s 0x10
    | .taken => if (s.box k).progAt == some (s.now / 4) then .next s.race else out (s.dropUnstarted k) 0x11
    | .done => .next s.race
    | .error => .next s.race
    | _ => .next s

/-! ### Carrying out a command -/

/-- The request of mailbox n is taken, has opcode `op`, has not been started, its owner is in service, and every earlier
request of that owner has been started (R381). -/
def State.startable (s : State) (n op : Nat) : Bool :=
  let b := s.box n
  let w := s.mail.work
  s.live && b.st == .taken && b.opcode.toNat == op &&
    match findIdx (fun x => x.1 == n) w with
    | none => false
    | some i =>
      match w[i]? with
      | none => false
      | some (_, x) =>
        x.result.isNone && !x.hold && s.serving x.owner.val &&
          !((w.take i).any fun y => (s.box y.1).st == .taken && y.2.owner == x.owner && y.2.result.isNone && !y.2.hold)

/-- Set the result of the request of mailbox n, or let it wait for its completion condition. -/
def State.setResult (s : State) (n : Nat) (r : Option (BitVec 8 × List Byte)) : State :=
  { s with mail := { s.mail with work := s.mail.work.map fun (k, w) =>
      (k, if k == n then { w with result := r, hold := r.isNone } else w) } }

/-- The outcomes of a command. -/
def okReply (bs : List Byte) : Option (BitVec 8 × List Byte) := some (0, bs)
def rBadField : Option (BitVec 8 × List Byte) := some (0x03, [])
def rBusy : Option (BitVec 8 × List Byte) := some (0x04, [])
def rRefused : Option (BitVec 8 × List Byte) := some (0x05, [])
def rNotFound : Option (BitVec 8 × List Byte) := some (0x06, [])

/-- Carry out the command of mailbox n with `f`. -/
def State.command (s : State) (n op : Nat) (f : State → Mailbox → State × Option (BitVec 8 × List Byte)) : Out :=
  if s.startable n op then
    let (s', r) := f s (s.box n)
    .next (s'.setResult n r)
  else .next s

/-- A word of a reply. -/
def w64 (w : Word) : List Byte := natToLe w.toNat 8

end Sys2Proof.Machine
end

