-- ==== Sys2Proof/Machine/MailCmd.lean ====
section
/-! DEFINITION. The mailbox commands of Table 17-4 (R383), but for settings and firmware update. -/

namespace Sys2Proof.Machine

/-! ### Identity, status, power -/

/-- IDENTIFY. -/
def execIdentify (n : MailboxId) (s : State) : Out :=
  s.command n.val 0x01 fun s _ =>
    (s, okReply (w64 s.blkId ++ natToLe s.start.slot.toNat 2 ++ natToLe s.start.rollCnt.toNat 2 ++
      natToLe s.start.version.toNat 4 ++ natToLe s.self.toNat 2 ++ natToLe s.cap.toNat 2 ++ natToLe vmin 4))

/-- STATUS. -/
def execStatus (n : MailboxId) (s : State) : Out :=
  s.command n.val 0x02 fun s _ =>
    (s, okReply (w64 s.blkStat ++ natToLe s.drain.st.code 8 ++ w64 s.mpStat ++ w64 s.pwrStat ++ w64 s.beatStat ++
      natToLe s.power.avsFail.toNat 4))

/-- POWER_LIMIT_SET (R362): applied at MP1's next beat step. -/
def execPowerLimitSet (n : MailboxId) (s : State) : Out :=
  s.command n.val 0x10 fun s b =>
    let p := b.req 0 2
    if p < 280 || p > 1400 then (s, rBadField)
    else ({ s with power := { s.power with plimNext := some (BitVec.ofNat 11 p) } }, okReply (natToLe p 2))

/-- POWER_LIMIT_GET. -/
def execPowerLimitGet (n : MailboxId) (s : State) : Out := s.command n.val 0x11 fun s _ => (s, okReply (w64 s.pwrStat))

/-! ### Domains (R368, R327, R316) -/

/-- Tasks, a drain or a test slot forbid a switch-off of cluster c. -/
def State.switchRefused (s : State) (c : Nat) : Bool :=
  s.drain.st != .run || (s.cluster c).slot.isSome || (s.coresOf c).any fun n => !(s.core n).tasks.isEmpty

/-- R252, R369: the dirty lines of core n leave as write-backs. -/
def State.fenceCore (s : State) (n : Nat) : State :=
  (s.core n).dirtyLines.foldl (fun s (key, l) => (s.onCore n fun x => x.dropLine false key).evictLine n l) s

/-- Switch a cluster domain off (Table 16-8). -/
def State.clusterOff (s : State) (c : Nat) : State × Option (BitVec 8 × List Byte) :=
  match (s.cluster c).dst with
  | .off => (s, okReply [])
  | .fencing => (s, none)
  | .waking => (s, rBusy)
  | .on =>
    if s.switchRefused c then (s, rRefused)
    else
      let s := (s.coresOf c).foldl State.fenceCore s
      (s.onCluster c fun x => { x with dst := .fencing, testList := [] }, none)

/-- Switch a stack-port domain off (R327): its channels are fenced. -/
def State.portOff (s : State) (p : Nat) : State × Option (BitVec 8 × List Byte) :=
  if (s.port p).st == .off then (s, okReply []) else (s.onPort p fun x => { x with fenced := true }, none)

/-- Switch a link-module domain off (R16, R316); one that is off already completes at once (R383). Its state is lost, but for the counters, which clear only at RESET_N (Table
13-9), the VOIDs MP0 owes, and the requests the mesh still carries out. -/
def State.linkOff (s : State) (m : Nat) : State × Option (BitVec 8 × List Byte) :=
  if !s.domstat.getLsbD (168 + m) then (s, okReply [])
  else
    let s := s.resetLink m
    ((s.onLink m fun l => {
        replays := l.replays, tmo := l.tmo, late := l.late, resets := l.resets, owed := l.owed, inbound := l.inbound
        rtag := l.rtag }).setDomain (168 + m) false, okReply [])

/-- DOMAIN_SWITCH with ON = 0 (R368). -/
def execDomainSwitchOff (n : MailboxId) (s : State) : Out :=
  if (s.box n.val).req 2 1 != 0 then .next s
  else s.command n.val 0x12 fun s b =>
    let k := b.req 0 2
    if k < 160 then s.clusterOff k
    else if k < 168 then s.portOff (k - 160)
    else if k < 184 then s.linkOff (k - 168)
    else (s, rBadField)

/-- Switch a cluster domain on (Table 16-8): what it holds starts from zero. -/
def State.clusterOn_ (s : State) (c : Nat) : State × Option (BitVec 8 × List Byte) :=
  match (s.cluster c).dst with
  | .on => (s, okReply [])
  | .waking => (s, none)
  | .fencing => (s, rBusy)
  | .off => ((s.loseCluster c).onCluster c fun x => { x with dst := .waking, tlb := [] }, none)

/-- Switch a stack-port domain on (R327): MP0 trains it. -/
def State.portOn (s : State) (p : Nat) : State × Option (BitVec 8 × List Byte) :=
  let x := s.port p
  if x.fenced then (s, rBusy)
  else
    match x.st with
    | .off => (s.onPort p fun x => { x with st := .training }, none)
    | .training => (s, none)
    | _ => (s, okReply [])

/-- Switch a link-module domain on: it trains if it has a role; one that is on already completes at once (R383). -/
def State.linkOn (s : State) (m : Nat) : State × Option (BitVec 8 × List Byte) :=
  let l := s.link m
  let s := if !s.domstat.getLsbD (168 + m) && l.st == .off && l.role != 0 then s.onLink m fun l => { l with st := .training } else s
  (s.setDomain (168 + m) true, okReply [])

/-- DOMAIN_SWITCH with ON = 1 (R369). -/
def execDomainSwitchOn (n : MailboxId) (s : State) : Out :=
  if (s.box n.val).req 2 1 == 0 then .next s
  else s.command n.val 0x12 fun s b =>
    let k := b.req 0 2
    if b.req 2 1 != 1 then (s, rBadField)
    else if k < 160 then s.clusterOn_ k
    else if k < 168 then s.portOn (k - 160)
    else if k < 184 then s.linkOn (k - 168)
    else (s, rBadField)

/-- STACK_PORT_FENCE_COMPLETE (R16, R327): what the port had accepted is complete: it goes OFF; its contents, tags and registers
are lost, but for RETRAINS, which counts from RESET_N. -/
def execStackPortFenceComplete (port : StackId) (s : State) : Out :=
  let p := port.val
  let x := s.port p
  if s.live && x.fenced && x.queue.isEmpty && x.eng.ready.isEmpty && x.eng.held.isEmpty then
    let lost := fun (a : Nat) => a / 2 ^ 37 == p
    let s := { s with
      mem := s.mem.filter fun c => !lost c.1
      poison := s.poison.filter fun l => !lost (l * 64)
      tags := s.tags.filter fun g => !lost (g * 16)
      eccCorr := s.eccCorr.filter fun w => !lost (w * 8)
      eccBad := s.eccBad.filter fun w => !lost (w * 8)
      start := if p == 0 then { s.start with libReady := false, patterns := [] } else s.start }
    let s := s.onPort p fun x => { retrains := x.retrains }
    .next ((s.noticeEnd.setDomain (160 + p) false).heldDone 0x12 2 (160 + p))
  else .next s

/-! ### Beat, drain -/

/-- BEAT_CONFIG (R358). -/
def execBeatConfig (n : MailboxId) (s : State) : Out :=
  s.command n.val 0x20 fun s b =>
    let e := b.req 0 1
    if e > 1 then (s, rBadField)
    else
      let s := { s with beat := if e == 1 then { s.beat with en := true } else { s.beat with en := false, lock := false, run := 0 } }
      (s, okReply (w64 s.beatStat))

/-- DRAIN (R348). -/
def execDrain (n : MailboxId) (s : State) : Out :=
  s.command n.val 0x30 fun s _ =>
    let s := s.startDrain .drain 0xFFFF
    (s, okReply (w64 s.drStat))

/-- The schedulers start again: held wakes and commands go on (Table 15-5). -/
def State.restartCores (s : State) : State :=
  (s.cores.map (·.1)).foldl (fun s n =>
    let was := (s.core n).isIdle
    ((if (s.core n).running.isNone then s.leaveSlot n else s.releaseHeld n).kick n).settle was n) s

/-- R422: back to RUN: DRSTAT clears. -/
def State.toRun (s : State) : State :=
  { s with drain := { s.drain with
      st := .run, timeout := false, cause := 0, firstUnit := 0, tbeat := 0, discarded := false, atStart := false } }

/-- RELEASE (Table 15-5, R394). -/
def execRelease (n : MailboxId) (s : State) : Out :=
  s.command n.val 0x31 fun s b =>
    let d := s.drain
    if d.st != .drained then (s, rRefused)
    else if d.cause == 1 then
      let s := s.toRun.restartCores
      (s, okReply (w64 s.drStat))
    else if b.req 0 1 % 2 == 1 && d.atStart && d.cause &&& 0x7E == 0 then
      let s := { s with
        drain := { s.drain with faultN := false }
        start := { s.start with phase := 7, ready := true } }
      let s := s.toRun.restartCores
      (s, okReply (w64 s.drStat))
    else (s, rRefused)

/-! ### Links (R302, R316) -/

/-- One route entry of LINK_ASSIGN: block and value of Table 13-3. -/
def routeOf (e : Nat) : Nat × Word := (bitsOf e 0 10, BitVec.ofNat 64 (bitsOf e 10 17))

/-- Load a route entry: at once where its old modules hold no request to the block, else later (R302). -/
def State.putRoute (s : State) (b : Nat) (v : Word) : State :=
  if s.routeClear b (fld (tabGet 0 s.routes b) 0 16) && !(s.routeNext.any (·.1 == b)) then { s with routes := tabSet 0 s.routes b v }
  else { s with routeNext := s.routeNext ++ [(b, v)] }

/-- Host-role modules other than m. -/
def State.hosts (s : State) (m : Nat) : Nat := ((List.range 16).filter fun k => k != m && (s.link k).role == 2).length

/-- Set role, split and timeouts of module m; a change of role or split resets it (R316), and a module that gets a role
trains. -/
def State.assign (s : State) (m role split rto rqto : Nat) : State :=
  let l := s.link m
  let change := l.role.toNat != role || l.hsplit.toNat != split
  let s := if change then s.resetLink m else s
  s.onLink m fun l => { l with
    role := BitVec.ofNat 2 role, hsplit := BitVec.ofNat 2 split, rto := BitVec.ofNat 8 rto, rqto := BitVec.ofNat 16 rqto
    st := if l.st == .off && role != 0 && s.domstat.getLsbD (168 + m) then .training else l.st }

/-- LINK_ASSIGN. -/
def execLinkAssign (n : MailboxId) (s : State) : Out :=
  s.command n.val 0x40 fun s b =>
    let m := b.req 0 1
    let role := b.req 1 1
    let split := b.req 2 1
    let rto := b.req 3 1
    let rqto := b.req 4 2
    let r := b.req 6 2
    let es := (List.range r).map fun i => routeOf (b.req (16 + 8 * i) 8)
    if r > 60 || (m > 15 && m != 0xFF) then (s, rBadField)
    else if m != 0xFF && (role > 2 || split > 3 || !timesOk rto rqto) then (s, rBadField)
    else if (m != 0xFF && role == 2 && s.hosts m ≥ 2) || es.any (fun e => e.1 == s.self.toNat) then (s, rRefused)
    else
      let s := if m == 0xFF then s else s.assign m role split rto rqto
      let s := es.foldl (fun s e => s.putRoute e.1 e.2) s
      (s, okReply (if m == 0xFF then natToLe 0 8 else w64 (s.lmStat m)))

/-- LINK_STATUS. -/
def execLinkStatus (n : MailboxId) (s : State) : Out :=
  s.command n.val 0x41 fun s b =>
    let m := b.req 0 1
    if m > 15 then (s, rBadField)
    else (s, okReply (w64 (s.lmStat m) ++ w64 (s.lmCnt m) ++ natToLe (s.link m).owed.length 4))

/-! ### Sensors, log, history, tests -/

/-- The snapshot buffer that SNAPSEL named when the request of mailbox n was taken. -/
def State.snapshot (s : State) (n : Nat) : Snapshot :=
  if s.mail.work.any fun w => w.1 == n && w.2.snapSel then s.beat.snapB else s.beat.snapA

/-- SENSOR_READ (R360). -/
def execSensorRead (n : MailboxId) (s : State) : Out :=
  s.command n.val 0x50 fun s b =>
    let o := b.req 0 2
    let c := b.req 2 2
    if o % 2 != 0 || c % 2 != 0 || o + c > 0x570 || c > 480 then (s, rBadField)
    else
      let x := s.snapshot n.val
      (s, okReply (w64 x.beat ++ ((List.range (c / 2)).map fun i => natToLe (x.half (o / 2 + i)) 2).flatten))

/-- A log record (Table 17-5). -/
def LogRec.bytes (r : LogRec) : List Byte :=
  natToLe r.index 8 ++ w64 r.beat ++ natToLe r.cycle.toNat 4 ++ natToLe r.kind.toNat 2 ++ natToLe r.unit.toNat 2 ++
    w64 r.detail ++ w64 r.pc ++ w64 r.addr

/-- LOG_READ (R385). -/
def execLogRead (n : MailboxId) (s : State) : Out :=
  s.command n.val 0x60 fun s b =>
    let first := b.req 0 8
    let oldest := match s.log.head? with | some r => r.index | none => s.logNext
    let start := max first oldest
    let l := (s.log.filter fun r => start ≤ r.index).take 10
    (s, okReply (natToLe (if l.isEmpty then s.logNext else start + l.length) 8 ++ natToLe l.length 2 ++
      natToLe (b2n (first < oldest)) 6 ++ (l.map LogRec.bytes).flatten))

/-- R345: a unit of Table 15-4. -/
def knownUnit (u : Nat) : Bool :=
  inR u 0 0x289F || inR u 0x28A0 0x28A7 || inR u 0x28B0 0x28BF || inR u 0x28C0 0x28C3

/-- A history record (Table 17-4). The spec gives the kinds and the structures no codes. -/
def HistRec.bytes (r : HistRec) : List Byte :=
  [Config.historyKind r.kind.toNat, Config.historyStructure r.seg.toNat] ++ natToLe 0 2 ++ natToLe r.session.toNat 4 ++
    w64 r.beat ++ w64 r.powered ++ natToLe r.count.toNat 4 ++ natToLe 0 4

/-- HISTORY_READ (R346). -/
def execHistoryRead (n : MailboxId) (s : State) : Out :=
  s.command n.val 0x61 fun s b =>
    let u := b.req 0 2
    if !knownUnit u then (s, rNotFound)
    else
      let all := s.history.filter fun h => h.unit.toNat == u
      let l := (all.drop (b.req 2 2)).take 15
      let cls := if s.isPermanent u then 2 else if all.isEmpty then 0 else 1
      (s, okReply (natToLe cls 2 ++ natToLe all.length 2 ++ natToLe l.length 12 ++ (l.map HistRec.bytes).flatten))

/-- TEST_POLICY. -/
def execTestPolicy (n : MailboxId) (s : State) : Out :=
  s.command n.val 0x70 fun s b =>
    let e := b.req 0 1
    if e > 1 then (s, rBadField) else ({ s with testEn := e == 1 }, okReply (natToLe e 1))

/-- TEST_RESULTS (R343). -/
def execTestResults (n : MailboxId) (s : State) : Out :=
  s.command n.val 0x71 fun s b =>
    let first := b.req 0 2
    let c := b.req 2 2
    if c > 60 || first + c > 10240 then (s, rBadField)
    else
      let core := fun (k : Nat) => ((List.range 4).map fun g =>
        natToLe (tabGet 0xFFFF (s.cluster (clusterOf k)).ages (k % 64 * 4 + g)).toNat 2).flatten
      (s, okReply (natToLe c 16 ++ ((List.range c).map fun i => core (first + i)).flatten))

/-! ### Digests (R329) -/

/-- One region of DIGEST_SCHEDULE. -/
def Mailbox.region (b : Mailbox) (i : Nat) : Region := { base := b.req (16 + 16 * i) 8, length := b.req (24 + 16 * i) 8 }

/-- A region within the external window, in multiples of 64 KiB. -/
def Region.ok (r : Region) : Bool := r.base % 65536 == 0 && r.length % 65536 == 0 && r.base + r.length ≤ 2 ^ 40

/-- DIGEST_SCHEDULE. -/
def execDigestSchedule (n : MailboxId) (s : State) : Out :=
  s.command n.val 0x80 fun s b =>
    let g := b.req 2 2
    let rs := (List.range g).map b.region
    if s.digest.busy then (s, rBusy)
    else if g > 8 || !rs.all Region.ok then (s, rBadField)
    else
      ({ s with digest := { s.digest with
          interval := BitVec.ofNat 16 (b.req 0 2), regions := rs, since := s.digest.number, values := [], flags := [] } },
        okReply [])

/-- DIGEST_READ. -/
def execDigestRead (n : MailboxId) (s : State) : Out :=
  s.command n.val 0x81 fun s b =>
    let r := b.req 0 1
    let d := s.digest
    if r ≥ d.regions.length || d.number ≤ d.since then (s, rNotFound)
    else
      (s, okReply (natToLe d.number 8 ++ natToLe (tabGet (0 : BitVec 2) d.flags r).toNat 8 ++
        ((List.range 8).map fun p => w64 (tabGet 0 d.values (r * 8 + p))).flatten))

/-! ### Processors and jobs -/

/-- MP_RESTART (R353): of MP2, DONE comes first; of another, once it is back in service. -/
def execMpRestart (n : MailboxId) (s : State) : Out :=
  s.command n.val 0xA3 fun s b =>
    let i := b.req 0 1
    if i > 3 then (s, rBadField)
    else if i == 2 then (s, okReply [])
    else (s.mpRestart i 2, none)

/-- A root key of a new job: NULL where its length is 0 (R384). -/
def rootKey (job base len type perm : Nat) : Key := if len == 0 then 0 else mkKey base job len type perm

/-- The four root keys of JOB_OPEN's record. -/
def Mailbox.rootKeys (b : Mailbox) (job : Nat) : List Key :=
  [rootKey job (b.req 0x10 8) (b.req 0x18 8) 1 (b.req 0x50 1 % 16 + 0x30), rootKey job (b.req 0x20 8) (b.req 0x28 8) 2 0x32,
   rootKey job (b.req 0x30 8) (b.req 0x38 8) 3 0x33, rootKey job (b.req 0x40 8) (b.req 0x48 8) 4 0x32]

/-- Write keys in consecutive granules. -/
def State.writeKeys (s : State) (pa : Nat) : List Key → State × Bool
  | [] => (s, true)
  | k :: t =>
    match s.writeKey pa k false with
    | (s, .ok) => s.writeKeys (pa + 16) t
    | (s, _) => (s, false)

/-- The fields of JOB_OPEN: record address 64-byte aligned in the bank window, bases and lengths of 52 bits. -/
def State.jobFields (s : State) (b : Mailbox) : Bool :=
  let pa := b.req 8 8
  pa % 64 == 0 && (match s.place pa with | .bank _ _ => true | _ => false) && b.req 0x50 1 < 64 &&
    [0x10, 0x18, 0x20, 0x28, 0x30, 0x38, 0x40, 0x48].all fun o => b.req o 8 < 2 ^ 52

/-- JOB_OPEN (R384). -/
def execJobOpen (n : MailboxId) (s : State) : Out :=
  s.command n.val 0xB0 fun s b =>
    let nonce : Word := BitVec.ofNat 64 (b.req 0 8)
    match s.jobs.open_.find? fun j => j.2 == nonce with
    | some (job, _) => (s, okReply (natToLe job.toNat 2))
    | none =>
      if !s.jobFields b then (s, rBadField)
      else if s.jobs.issued ≥ 4095 then (s, some (0x0B, []))
      else
        let job := s.jobs.issued + 1
        match s.writeKeys (b.req 8 8) (b.rootKeys job) with
        | (s', true) =>
          ({ s' with jobs := { s'.jobs with issued := job, open_ := s'.jobs.open_ ++ [(BitVec.ofNat 12 job, nonce)] } },
            okReply (natToLe job 2))
        | (_, false) => (s, rBadField)

/-- JOB_CLOSE (R283). -/
def execJobClose (n : MailboxId) (s : State) : Out :=
  s.command n.val 0xB1 fun s b =>
    let job := b.req 0 2
    if !(s.jobs.open_.any fun j => j.1.toNat == job) then (s, rNotFound)
    else (s.endJob (BitVec.ofNat 12 job), okReply [])

end Sys2Proof.Machine
end

