-- ==== Sys2Proof/Machine/Crypto.lean ====
section
/-! DEFINITION. The two published functions that R399 and R404 name and the spec does not describe: SHA-384 (FIPS 180-4) and the
verification of an ECDSA signature over P-384 (FIPS 186-4). PRESUMED (log entry 13): they are taken from the standards. -/

namespace Sys2Proof.Machine

/-! ### SHA-384 -/

/-- The largest r < 2^bits that does not exceed `most` as r^e ≤ most, built from the top bit down. -/
def rootFloor (e most : Nat) : Nat → Nat → Nat
  | 0, r => r
  | b + 1, r => rootFloor e most b (if (r + 2 ^ b) ^ e ≤ most then r + 2 ^ b else r)

/-- The first 64 bits of the fraction of the e-th root of p. -/
def rootFraction (e p : Nat) : BitVec 64 := BitVec.ofNat 64 (rootFloor e (p * 2 ^ (64 * e)) 69 0)

/-- The first 80 primes. -/
def firstPrimes : List Nat :=
  [2, 3, 5, 7, 11, 13, 17, 19, 23, 29, 31, 37, 41, 43, 47, 53, 59, 61, 67, 71] ++
  [73, 79, 83, 89, 97, 101, 103, 107, 109, 113, 127, 131, 137, 139, 149, 151, 157, 163, 167, 173] ++
  [179, 181, 191, 193, 197, 199, 211, 223, 227, 229, 233, 239, 241, 251, 257, 263, 269, 271, 277, 281] ++
  [283, 293, 307, 311, 313, 317, 331, 337, 347, 349, 353, 359, 367, 373, 379, 383, 389, 397, 401, 409]

/-- The constants of the rounds, and the initial hash value of SHA-384: from the ninth to the sixteenth prime. -/
def shaRounds : List (BitVec 64) := firstPrimes.map (rootFraction 3)
def shaStart : List (BitVec 64) := ((firstPrimes.drop 8).take 8).map (rootFraction 2)

/-- The next word of the message schedule, from the last sixteen, newest first. -/
def shaNext (w : List (BitVec 64)) : BitVec 64 :=
  let a := w.getD 14 0
  let b := w.getD 1 0
  (b.rotateRight 19 ^^^ b.rotateRight 61 ^^^ (b >>> 6)) + w.getD 6 0 +
    (a.rotateRight 1 ^^^ a.rotateRight 8 ^^^ (a >>> 7)) + w.getD 15 0

/-- Extend the schedule, newest first, by a number of words. -/
def shaSchedule : Nat → List (BitVec 64) → List (BitVec 64)
  | 0, w => w
  | n + 1, w => shaSchedule n (shaNext w :: w)

/-- One round on the eight working variables. -/
def shaRound (h : List (BitVec 64)) (kw : BitVec 64 × BitVec 64) : List (BitVec 64) :=
  match h with
  | [a, b, c, d, e, f, g, h] =>
    let t1 := h + (e.rotateRight 14 ^^^ e.rotateRight 18 ^^^ e.rotateRight 41) + ((e &&& f) ^^^ (~~~e &&& g)) + kw.1 + kw.2
    let t2 := (a.rotateRight 28 ^^^ a.rotateRight 34 ^^^ a.rotateRight 39) + ((a &&& b) ^^^ (a &&& c) ^^^ (b &&& c))
    [t1 + t2, a, b, c, d + t1, e, f, g]
  | l => l

/-- A number from bytes, the first the most significant. -/
def beToNat (bs : List Byte) : Nat := bs.foldl (fun a b => a * 256 + b.toNat) 0

/-- Bytes of a number, the most significant first. -/
def natToBe (v n : Nat) : List Byte := (natToLe v n).reverse

/-- One block of 128 bytes. -/
def shaBlock (h : List (BitVec 64)) (block : List Byte) : List (BitVec 64) :=
  let w := (List.range 16).map fun i => BitVec.ofNat 64 (beToNat ((block.drop (8 * i)).take 8))
  let ws := (shaSchedule 64 w.reverse).reverse
  List.zipWith (· + ·) h ((shaRounds.zip ws).foldl shaRound h)

/-- The blocks of a padded message. -/
def shaBlocks : Nat → List (BitVec 64) → List Byte → List (BitVec 64)
  | 0, h, _ => h
  | n + 1, h, bs => shaBlocks n (shaBlock h (bs.take 128)) (bs.drop 128)

/-- The SHA-384 of bytes, as 48 bytes. -/
def shaBytes (bs : List Byte) : List Byte :=
  let pad := (239 - bs.length % 128) % 128
  let m := bs ++ 0x80 :: List.replicate pad 0 ++ natToBe (8 * bs.length) 16
  (((shaBlocks (m.length / 128) shaStart m).take 6).map fun w => natToBe w.toNat 8).flatten

/-- The SHA-384 of a number of bytes, given as those other than 0xFF by offset; the first byte of the hash is the least
significant (R5). -/
def sha384 (size : Nat) (cells : List Host.Cell) : BitVec 384 :=
  BitVec.ofNat 384 (leToNat (shaBytes ((List.range size).map fun i => tabGet 0xFF cells i)))

/-! ### ECDSA over P-384 -/

/-- The prime of the field, the coefficient b of the curve y² = x³ − 3x + b, the order of the base point. -/
def p384 : Nat := 2 ^ 384 - 2 ^ 128 - 2 ^ 96 + 2 ^ 32 - 1
def curveB : Nat := 0xb3312fa7e23ee7e4988e056be3f82d19181d9c6efe8141120314088f5013875ac656398d8a2ed19d2a85c8edd3ec2aef
def curveN : Nat := 0xffffffffffffffffffffffffffffffffffffffffffffffffc7634d81f4372ddf581a0db248b0a77aecec196accc52973

/-- A point of the curve; none: the point at infinity. -/
abbrev CurvePt := Option (Nat × Nat)

/-- The base point. -/
def curveG : CurvePt := some
  (0xaa87ca22be8b05378eb1c71ef320ad746e1d3b628ba79b9859f741e082542a385502f25dbf55296c3a545e3872760ab7,
   0x3617de4a96262c6f5d9e98bf9292dc29f8f41dbd289a147ce9da3113b5f0b8c00a60b1ce1d7e819d7a431d7c90ea0e5f)

/-- b to the power e modulo m, over a number of bits of e. -/
def powMod (m : Nat) : Nat → Nat → Nat → Nat
  | 0, _, _ => 1
  | bits + 1, b, e =>
    let r := powMod m bits (b * b % m) (e / 2)
    if e % 2 == 1 then b * r % m else r

/-- The inverse modulo a prime. -/
def invMod (m x : Nat) : Nat := powMod m 384 (x % m) (m - 2)

/-- The point on the line of slope t through (x, y) and a point of abscissa x'. -/
def chord (t x y x' : Nat) : CurvePt :=
  let u := (t * t + 2 * p384 - x - x') % p384
  some (u, (t * (x + p384 - u) + p384 - y) % p384)

/-- The sum of two points. -/
def curveAdd : CurvePt → CurvePt → CurvePt
  | none, q => q
  | p, none => p
  | some (x, y), some (x', y') =>
    if x == x' then
      if (y + y') % p384 == 0 then none
      else chord ((3 * x * x + p384 - 3) * invMod p384 (2 * y) % p384) x y x'
    else chord ((y + p384 - y') * invMod p384 (x + p384 - x') % p384) x y x'

/-- A multiple of a point, over a number of bits of the factor. -/
def curveMul : Nat → Nat → CurvePt → CurvePt
  | 0, _, _ => none
  | bits + 1, k, p =>
    let r := curveMul bits (k / 2) (curveAdd p p)
    if k % 2 == 1 then curveAdd p r else r

/-- The public key of 97 bytes: the mark of an uncompressed point, x and y, each with its most significant byte first (SEC 1). -/
def keyPoint (key : List Byte) : CurvePt :=
  let x := beToNat ((key.drop 1).take 48)
  let y := beToNat ((key.drop 49).take 48)
  if key.take 1 == [0x04] && x < p384 && y < p384 && y * y % p384 == (x * x * x + (p384 - 3) * x + curveB) % p384 then some (x, y)
  else none

/-- The signature r, s over a hash verifies under a public key. -/
def ecdsaP384 (key hash : List Byte) (r s : Nat) : Bool :=
  match keyPoint key with
  | none => false
  | some q =>
    if r == 0 || r ≥ curveN || s == 0 || s ≥ curveN then false
    else
      let w := invMod curveN s
      match curveAdd (curveMul 384 (beToNat hash * w % curveN) curveG) (curveMul 384 (r * w % curveN) (some q)) with
      | none => false
      | some (x, _) => x % curveN == r

end Sys2Proof.Machine
end

