-- ==== Sys2Proof/Machine/Update.lean ====
section
/-! DEFINITION. The mailbox commands that use the flash (R397, R398–R401, Table 17-4), and the end of a flash operation
(R402). -/

namespace Sys2Proof.Machine

/-! ### Firmware images (R398, R399) -/

/-- Bytes of an image. -/
def imageSize : Nat := 790528

/-- ROLLVER and firmware version of the image at an offset (Table 18-6, fields one after the other). -/
def imageRollVer (f : List Host.Cell) (o : Nat) : Nat := (flashByte f (o + 5)).toNat
def imageVersion (f : List Host.Cell) (o : Nat) : BitVec 32 := BitVec.ofNat 32 (leToNat (flashBytes f (o + 6) 4))

/-- The SHA-384 of the pattern library the image goes with, and the library's size. -/
def imageLibHash (f : List Host.Cell) (o : Nat) : BitVec 384 := BitVec.ofNat 384 (leToNat (flashBytes f (o + 10) 48))
def imageLibSize (f : List Host.Cell) (o : Nat) : Nat := leToNat (flashBytes f (o + 58) 4)

/-- The public key, and r and s of the signature, numbers in the block's byte order (R5). -/
def imageKey (f : List Host.Cell) (o : Nat) : List Byte := flashBytes f (o + 62) 97
def imageR (f : List Host.Cell) (o : Nat) : Nat := leToNat (flashBytes f (o + 159) 48)
def imageS (f : List Host.Cell) (o : Nat) : Nat := leToNat (flashBytes f (o + 207) 48)

/-- R398: the signed bytes: the image with its signature field as zero. -/
def signedBytes (f : List Host.Cell) (o : Nat) : List Host.Cell :=
  let img := flashRegion f o imageSize
  (img.filter (·.1 < 159)) ++ (List.range 96).map (fun i => (159 + i, 0)) ++ img.filter (255 ≤ ·.1)

/-- R399: the public key is the one whose hash is fused, and the signature over the signed bytes verifies. -/
def imageSigned (f : List Host.Cell) (o : Nat) (keyHash : BitVec 384) : Bool :=
  sha384 97 (flashRegion f (o + 62) 97) == keyHash &&
    ecdsaP384 (imageKey f o) (natToLe (sha384 imageSize (signedBytes f o)).toNat 48) (imageR f o) (imageS f o)

/-- R399: how the image at an offset verifies: 0, or the STATUS AUTH or ROLLBACK. -/
def imageStatus (f : List Host.Cell) (o rollCnt : Nat) (keyHash : BitVec 384) : BitVec 8 :=
  if leToNat (flashBytes f o 4) != 0x4D57465A || flashByte f (o + 4) != 1 || imageRollVer f o > 64 || !imageSigned f o keyHash then 0x07
  else if imageRollVer f o < rollCnt then 0x08
  else 0

/-- R352, R391: the four images of a slot, as the image area holds them. -/
def imagesOf (f : List Host.Cell) (o : Nat) : List Host.Cell := flashRegion f (o + 0x1000) 0xC0000

/-- R352, R391, R401: the four images of slot c are copied into the image area, under a new number; a processor runs its own from
its next start. -/
def State.loadImages (s : State) (c : BitVec 1) : State :=
  let o := slotBase c
  { s with
    images := imagesOf s.flash o
    start := { s.start with
      imageNo := s.start.imageNo + 1, version := imageVersion s.flash o, rollVer := BitVec.ofNat 7 (imageRollVer s.flash o)
      libHash := imageLibHash s.flash o, libSize := imageLibSize s.flash o } }

/-! ### Settings (R396, R397) -/

/-- SETTINGS_READ. -/
def execSettingsRead (n : MailboxId) (s : State) : Out :=
  s.command n.val 0x90 fun s b =>
    let key := b.req 0 2
    match (s.start.settings.find? (·.1 == key)).map (·.2) |>.or (settingDefault key) with
    | some v => (s, okReply (natToLe key 2 ++ natToLe v.length 6 ++ v))
    | none => (s, rNotFound)

/-- A command that programs the flash: MP0 carries out one at a time. -/
def State.flashCommand (s : State) (n op : Nat) (f : State → Mailbox → State × Option (BitVec 8 × List Byte)) : Out :=
  if s.flashPort.job.isNone && s.flashPort.updateIdle then
    s.command n op fun s b =>
      let (s', r) := f { s with flashPort := { s.flashPort with failed := false } } b
      ({ s' with flashPort := { s'.flashPort with job := if r.isNone then some (n, op) else none } }, r)
  else .next s

/-- A key SETTINGS_WRITE may name: one of Table 18-5 or of the integrator. -/
def settingKey (key : Nat) : Bool := (settingDefault key).isSome || 0x8000 ≤ key

/-- SETTINGS_WRITE: the new copy is written; a copy too long for its region fails. -/
def execSettingsWrite (n : MailboxId) (s : State) : Out :=
  s.flashCommand n.val 0x91 fun s b =>
    let key := b.req 0 2
    let len := b.req 2 2
    let v := b.bytes 24 len
    if !settingKey key || len > 480 || (len != 0 && !settingOk key v) then (s, rBadField)
    else if (recordsLength (settingPut s.start.settings key v)) > 262112 then (s, some (0x09, []))
    else (s.writeSettings key v, none)

/-! ### Update sessions (R401) -/

/-- UPDATE_BEGIN: the target is the slot STARTSTAT.SLOT does not name; its first block is erased. -/
def execUpdateBegin (n : MailboxId) (s : State) : Out :=
  s.flashCommand n.val 0xA0 fun s b =>
    if b.req 0 4 != imageSize then (s, rBadField)
    else if s.start.session_.any fun x => x.1 != n.val then (s, rBusy)
    else
      let t := ~~~s.start.slot
      (State.flashPut { s with start := { s.start with session_ := some (n.val, t, [0]) } } .update [.erase (slotBase t)], none)

/-- UPDATE_DATA: blocks not yet erased in the session are erased, then the data is programmed; a block counts as erased once its
erase has succeeded. -/
def execUpdateData (n : MailboxId) (s : State) : Out :=
  s.flashCommand n.val 0xA1 fun s b =>
    match s.start.session_ with
    | none => (s, rRefused)
    | some (k, t, done_) =>
      let o := b.req 0 4
      let len := b.len.toNat - 8
      if k != n.val then (s, rRefused)
      else if o % 16 != 0 || len > 480 || o + len > imageSize then (s, rBadField)
      else
        let blocks := ((List.range ((o + len - 1) / 65536 + 1)).filter fun i => o / 65536 ≤ i && !done_.contains i)
        let blocks := if len == 0 then [] else blocks
        let ops := (blocks.map fun i => FlashOp.erase (slotBase t + i * 65536)) ++ pagesOf (slotBase t + o) len (b.bytes 24 len)
        if ops.isEmpty then (s, okReply []) else (s.flashPut .update ops, none)

/-- The reply of UPDATE_COMMIT: slot, version. -/
def commitReply (slot : BitVec 1) (version : BitVec 32) : List Byte := natToLe slot.toNat 4 ++ natToLe version.toNat 4

/-- UPDATE_COMMIT: the whole target is read back; without a session, a repeat of a commit that succeeded. -/
def execUpdateCommit (n : MailboxId) (s : State) : Out :=
  s.flashCommand n.val 0xA2 fun s _ =>
    if s.start.session_.any fun x => x.1 == n.val then (s.flashPut .update (readsOf imageSize), none)
    else
      match s.start.commits.find? fun c => c.1 == n.val with
      | some (_, slot, version) => (s, if slot == s.start.slot then okReply (commitReply slot version) else rRefused)
      | none => (s, rRefused)

/-! ### The end of a flash operation (R402) -/

/-- The end of the read-back of UPDATE_COMMIT: the target verifies and BOOT_SLOT is written, or the session ends and the mailbox's
last commit is no success. -/
def State.commitVerify (s : State) (n : Nat) (t : BitVec 1) : State × Option (BitVec 8 × List Byte) :=
  let st := if s.flashPort.failed then 0x09 else imageStatus s.flash (slotBase t) s.start.rollCnt.toNat s.keyHash
  let s := { s with start := { s.start with session_ := none, commits := s.start.commits.filter (·.1 != n) } }
  if st == 0 && recordsLength (settingPut s.start.settings 0x8 [t.setWidth 8]) > 262112 then (s, some (0x09, []))
  else if st == 0 then (s.writeSettings 0x8 [t.setWidth 8], none) else (s, some (st, []))

/-- The end of a settings write: the new copy is current, unless an operation failed or the read-back does not verify. -/
def State.settingsEnd (s : State) : State × Bool := if s.flashPort.failed then (s, false) else s.endSettings

/-- The end of UPDATE_COMMIT's settings write: the images are copied into the image area. -/
def State.commitEnd (s : State) (n : Nat) : State × Option (BitVec 8 × List Byte) :=
  match s.settingsEnd with
  | (s, true) =>
    let t := ~~~s.start.slot
    let s := s.loadImages t
    ({ s with start := { s.start with slot := t, cleanBeats := 0, commits := s.start.commits ++ [(n, t, s.start.version)] } },
      okReply (commitReply t s.start.version))
  | (s, false) => (s, some (0x09, []))

/-- How the flash command of mailbox n goes on once its operations have ended. -/
def State.flashNext (s : State) (n op : Nat) : State × Option (BitVec 8 × List Byte) :=
  match op with
  | 0x91 =>
    let (s, ok) := s.settingsEnd
    (s, if ok then okReply [] else some (0x09, []))
  | 0xA0 =>
    if s.flashPort.failed then ({ s with start := { s.start with session_ := none } }, some (0x09, []))
    else (s, okReply (natToLe (~~~s.start.slot).toNat 1))
  | 0xA1 => (s, if s.flashPort.failed then some (0x09, []) else okReply [])
  | _ =>
    match s.start.session_ with
    | some (k, t, _) => if k == n then s.commitVerify n t else s.commitEnd n
    | none => s.commitEnd n

/-- The flash command in hand, if its operations have ended, goes on; its request gets the result if it is still at work. -/
def State.flashEnd (s : State) : State :=
  match s.flashPort.job with
  | none => s
  | some (n, op) =>
    if !s.flashPort.updateIdle then s
    else
      match s.flashNext n op with
      | (s, none) => s
      | (s, some r) =>
        let s := { s with flashPort := { s.flashPort with job := none } }
        if s.mail.work.any fun (k, w) => k == n && w.hold && w.op.toNat == op then s.setResult n (some r) else s

/-- The first record of the history that was not in the flash is there now. -/
def flushFirst : List HistRec → List HistRec
  | [] => []
  | h :: t => if h.flushed then h :: flushFirst t else { h with flushed := true } :: t

/-- R391, R347: MP3 has read the history area: the session number rises and is written, records made before are of this
session and of the powered time of the flash, and the units are classified; permanent units hold the block, the lowest as the first (R394, R422). -/
def State.classify (s : State) : State :=
  let h := historyIn s.flash
  let recs := h.map (·.2)
  let session := recs.foldl (fun m (r : HistRec) => if m < r.session then r.session else m) (0 : BitVec 32) + 1
  let base := recs.foldl (fun m (r : HistRec) => max m r.powered.toNat) 0
  let mine := (s.history.filter (!·.flushed)).map fun r =>
    { r with session := session, powered := r.powered + BitVec.ofNat 64 base }
  let units := (permanentIn (recs ++ mine)).foldl (fun l u => if l.contains u then l else l ++ [u]) s.permanent
  let s := { s with
    history := (recs ++ mine).drop (recs.length + mine.length - 4096), permanent := units
    powered := s.powered + base, sessions := session
    start := { s.start with
      classified := true, session := session, histNext := h.foldl (fun m (r : Nat × HistRec) => max m (r.1 + 1)) 0 }
    drain := { s.drain with perm := BitVec.ofNat 16 (min 0xFFFF units.length) } }
  let s := s.addHistory 0xFFFF 11 0 false
  match units with
  | [] => s
  | u :: t => s.holdStart (t.foldl (fun a b => min a b.toNat) u.toNat)

/-- The end of a fault user's operation: a burst of the history area read, a block erased, or a record in the flash; one that
fails is logged with kind 7 and made again: a read at once, a record at the next beat (R403). -/
def State.faultEnd (s : State) (op : FlashOp) (ok : Bool) : State :=
  let s := s.flashApply ok
  let s := if ok then s else s.addLog 7 0xFFFF 0 0 0
  match op with
  | .read =>
    if s.flashPort.histLeft == 0 then s
    else
      let left := if ok then s.flashPort.histLeft - 1 else s.flashPort.histLeft
      let s := { s with flashPort := { s.flashPort with histLeft := left } }
      if left == 0 then s.classify else s.flashPut .fault [.read]
  | .program _ _ =>
    if ok then
      let s := { s with history := flushFirst s.history, start := { s.start with histNext := s.start.histNext + 1 } }
      if s.serving 3 then s.flushHistory else s
    else s
  | .erase _ => s

/-- The end of a burst of the pattern library (R402, R404); one that fails is fetched again. -/
def State.patternEnd (s : State) (ok : Bool) : State :=
  let s := s.flashApply ok
  let left := if ok then s.flashPort.fetchLeft - 1 else s.flashPort.fetchLeft
  let s := { s with flashPort := { s.flashPort with fetchLeft := left } }
  if left == 0 then s else s.flashPut .pattern [.read]

/-- FLASH_OPERATION_COMPLETE (R402, R403): the operation in progress ends, well or not, and the highest-priority waiting user
is served. -/
def execFlashOperationComplete (ok : Bool) (s : State) : Out :=
  if !s.live then .next s
  else
    match s.flashPort.busy with
    | none => .next s
    | some (.update, _) => .next (s.flashApply ok).flashEnd
    | some (.fault, op) => .next (s.faultEnd op ok)
    | some (.pattern, _) => .next (s.patternEnd ok)

end Sys2Proof.Machine
end

