-- ==== Sys2Proof/Machine/Startup.lean ====
section
/-! DEFINITION. Start-up (R391–R394), rollback fuses (R400), the pattern library (R404), training after start-up (R327). -/

namespace Sys2Proof.Machine

/-! ### Settings into the machine (Table 18-5) -/

/-- The value of a setting as a number. -/
def State.setting (s : State) (key : Nat) : Nat := leToNat (settingIn s.start.settings key)

/-- Byte i of a setting. -/
def State.settingByte (s : State) (key i : Nat) : Nat := fld (BitVec.ofNat 64 (s.setting key / 2 ^ (8 * i))) 0 8

/-- R395: the current settings copy, or every default. -/
def State.readSettings (s : State) : State :=
  match chooseCopy s.flash with
  | some (c, g, recs) => { s with start := { s.start with setCopy := c, generation := g, settings := recs } }
  | none => State.addLog { s with start := { s.start with setDef := true } } 8 0xFFFF 0 0 0

/-- R391: MP1 and MP0 load what the settings give: VTGT and VSRAM, which go out over AVSBus, ICEIL, TCTL, ILV, SELF, and the other
settings with a home. ILV = 3 leaves 1 and is logged (Table 14-2). -/
def State.loadSettings (s : State) : State :=
  let host := s.setting 0x7
  let bad := fun (k v : Nat) => s.start.settings.any fun r => r.1 == k && leToNat r.2 == v
  let s := { s with
    power := { s.power with
      vtgt := BitVec.ofNat 10 (s.setting 0xE), vcore := BitVec.ofNat 16 (s.setting 0xE), vsram := 800, iceil := BitVec.ofNat 11 (s.setting 0x4) }
    walkErrMode := s.setting 0x1 == 1 && !s.rel10
    ilv := BitVec.ofNat 2 (s.setting 0x2)
    self := BitVec.ofNat 10 (s.setting 0x3)
    i3c := { s.i3c with static := BitVec.ofNat 7 (s.setting 0x6) }
    testEn := s.setting 0xD == 1
    start := { s.start with
      winBase := host % 2 ^ 64, winLen := host / 2 ^ 64, scrubH := BitVec.ofNat 8 (s.setting 0x5)
      domains := BitVec.ofNat 184 (s.setting 0x9) } }
  let s := if s.rel10 && bad 1 1 then s.addLog 8 0xFFFF 0 0 0 else s
  if bad 2 3 then s.addLog 8 0xFFFF 0 0 0 else s

/-! ### The firmware slot (R399) -/

/-- R399: the slot that boots, and whether it is the fallback. -/
def State.bootSlot (s : State) : Option (BitVec 1 × Bool) :=
  let c : BitVec 1 := BitVec.ofNat 1 (s.setting 0x8)
  if imageStatus s.flash (slotBase c) s.fuses s.keyHash == 0 then some (c, false)
  else if imageStatus s.flash (slotBase (~~~c)) s.fuses s.keyHash == 0 then some (~~~c, true)
  else none

/-- The four images of a slot are in the image area, and the processors start: one that has reported ready has done so, another
is starting (R391, R394). -/
def State.bootFrom (s : State) (c : BitVec 1) (fallback : Bool) (ready : List Bool) : State :=
  let s := s.loadImages c
  { s with
    mps := (List.range 4).foldl (fun t i =>
      tabSet {} t i { ({} : Mp) with
        image := s.start.imageNo, libHash := s.start.libHash, libSize := s.start.libSize
        sram := s.imageOf i, st := if ready.getD i true then 0 else 2 }) []
    start := { s.start with slot := c, fallback := fallback, fallbackDue := fallback, phase := 2 } }

/-- R399: a fallback is logged once MP3 is in service. -/
def State.noteFallback (s : State) : State :=
  if s.start.fallbackDue && (s.mp 3).st == 0 then State.addLog { s with start := { s.start with fallbackDue := false } } 8 0xFFFF 0 0 0
  else s

/-! ### Domains (R391, R393) -/

/-- Bit k of DOMAINS. -/
def State.domainSet (s : State) (k : Nat) : Bool := s.start.domains.getLsbD k

/-- The cluster domains of DOMAINS are on. -/
def State.startClusters (s : State) : State :=
  (List.range 160).foldl (fun s c =>
    if s.domainSet c then (s.onCluster c fun x => { x with dst := .on }).setDomain c true else s) s

/-- A training ends with a rate of Table 14-5 and a capacity of Table 14-1. -/
def Training.good (t : Training) : Bool := t.ok && t.rate != 0 && 1 ≤ t.scap.toNat && t.scap.toNat ≤ 8

/-- R319: C, in units of 16 GiB: the smallest capacity among the trained ports; 0 where there is none. -/
def State.capacity (s : State) : BitVec 4 :=
  ((List.range 8).map s.port |>.filter fun p => p.st == .up || p.st == .retrain).foldl
    (fun c p => if c == 0 || p.scap < c then p.scap else c) 0

/-- R319, R347: a port that fails training at start-up: FAILED and permanent. -/
def State.startFailed (s : State) (p : Nat) : State :=
  let s := s.onPort p fun x => { x with st := .failed }
  ((s.addLog 6 (unitPort p) 0 0 0).addHistory (unitPort p) 7 0 false).makePermanent (unitPort p)

/-- The stack ports of DOMAINS train; C and EMCTL.CAP are set. -/
def State.startPorts (s : State) (ts : List Training) : State :=
  let s := (List.range 8).foldl (fun s p =>
    if s.domainSet (160 + p) then
      let t := ts.getD p { ok := false, rate := 0, scap := 0 }
      let s := s.setDomain (160 + p) true
      if Training.good t then s.onPort p fun x => { x with st := .up, rate := t.rate, scap := t.scap } else s.startFailed p
    else s) s
  { s with cap := s.capacity }

/-- The link modules of DOMAINS take their role of LINKS; one with a role trains and comes up where its peer does. -/
def State.startLinks (s : State) (rates : List (Option (BitVec 3))) : State :=
  let rto := s.settingByte 0xB 0
  let rqto := s.setting 0xB / 256
  (List.range 16).foldl (fun s m =>
    let b := s.settingByte 0xA m
    let s := s.onLink m fun l => { l with
      role := BitVec.ofNat 2 (b % 4), hsplit := BitVec.ofNat 2 (b / 4), rto := BitVec.ofNat 8 rto, rqto := BitVec.ofNat 16 rqto }
    if s.domainSet (168 + m) then
      let s := s.setDomain (168 + m) true
      if b % 4 == 0 then s
      else
        let s := s.onLink m fun l => { l with st := .training }
        match rates.getD m none with
        | some r => if r < 6 then s.onLink m (·.comeUp r false) else s
        | none => s
    else s) s

/-- ROUTES: the entries of the setting; one for the block itself is not written. -/
def State.startRoutes (s : State) : State :=
  let bs := settingIn s.start.settings 0xC
  (List.range (bs.length / 8)).foldl (fun s i =>
    let (b, v) := routeOf (leToNat ((bs.drop (8 * i)).take 8))
    if b == s.self.toNat then s else { s with routes := tabSet 0 s.routes b v }) s

/-! ### The sequence -/

/-- R394: neither slot verifies, or the flash gives no valid SFDP. -/
def State.bootFail (s : State) : State :=
  { s with start := { s.start with phase := 9 }, drain := { s.drain with faultN := true } }

/-- R391: what follows the reports of all four processors, up to the zero fill; at once. MP3's reads of the history area and the
fetches of the pattern library are queued at the flash (R402). Where the block is held by then (R394), it stays so. -/
def State.startRest (s : State) : State :=
  match s.start.left with
  | none => s
  | some (ports, links) =>
    if !((List.range 4).all fun i => (s.mp i).st == 0) then s
    else
      let s := s.loadSettings
      let s := { s with start := { s.start with
        left := none, filled := true, phase := if s.start.phase == 2 then 6 else s.start.phase } }
      (((s.startClusters.startPorts ports).startRoutes).startLinks links).startReads

/-- R391: from RESET_N release to the start of the processors, and on from there once all four report ready. The block drives the
XSPI pins (R390). -/
def State.startup (s : State) (env : StartupEnv) : State :=
  let s := { s with resetLow := false, resetPin := false, beat := { s.beat with running := true }, start := { s.start with xspiHiZ := false } }
  let s := match env.flash with | some f => { s with flash := flashLoad f } | none => s
  let s := { s with start := { s.start with rollCnt := BitVec.ofNat 7 s.fuses } }
  if !env.sfdpOk then s.bootFail
  else
    let s := s.readSettings
    match s.bootSlot with
    | none => s.bootFail
    | some (c, fallback) =>
      let s := (s.bootFrom c fallback env.ready).noteFallback
      State.startRest { s with start := { s.start with left := some (env.stackPorts, env.linkRates) } }

/-- STARTUP_SEQUENCE (R391): RESET_N has risen, or the supply is back; while the supply monitor holds the reset, a rise of RESET_N
starts nothing yet (R410). -/
def execStartupSequence (env : StartupEnv) (s : State) : Out :=
  if s.supplyHold then .next { s with resetPin := false }
  else if s.start.phase == 0 && !s.clkLoss then .next (s.startup env) else .next s

/-- MP_SERVICE_RESUME (R353, R355): a starting or restarting processor is in service; start-up goes on with the last of the four
(R391). MP3 then makes the records of its own restarts and takes up its reads again. -/
def execMpServiceResume (i : MpId) (s : State) : Out :=
  if s.live && (s.mp i.val).st != 0 then
    let owed := (s.mp i.val).unrecorded
    let s := s.onMp i.val fun m => { m with st := 0, unrecorded := [] }
    let s := owed.foldl (fun s e => s.recordRestart i.val e) s
    let s := s.noteFallback
    let s := if s.start.left.isSome then s.startRest else if i.val == 3 then s.startReads else s
    .next (s.heldDone 0xA3 1 i.val)
  else .next s

/-- R393: what BLK_READY waits for. -/
def State.readyToServe (s : State) : Bool :=
  (List.range 4).all s.serving && s.start.filled && s.start.classified && s.permanent.isEmpty &&
    (List.range 184).all fun k => !s.domainSet k || s.domstat.getLsbD k

/-- BLK_READY_ASSERT (R393). -/
def execBlkReadyAssert (s : State) : Out :=
  if s.live && s.start.phase == 6 && s.readyToServe then
    .next { s with start := { s.start with ready := true, phase := 7 } }
  else .next s

/-! ### The pattern library (R404) -/

/-- Offset and bytes of the pattern library. -/
def libraryBase : Nat := 0x1000000
def librarySize : Nat := 0x4000000

/-- R404: the hash of the library is the one in the header of the image MP3 runs. -/
def State.libraryOk (s : State) : Bool :=
  let size := min librarySize (s.mp 3).libSize
  sha384 size (flashRegion s.flash libraryBase size) == (s.mp 3).libHash

/-- R327: a stack port that has trained, and SP0's library if it waits for that, is UP; its switch-on is complete. -/
def State.portUp (s : State) (p : Nat) : State :=
  let s := (s.onPort p fun x => { x with st := .up, trained := false }).setDomain (160 + p) true
  State.heldDone { s with cap := s.capacity } 0x12 2 (160 + p)

/-- R404: MP3 copies the library into SP0's pattern carve-out, and sets LIBREADY, or LIBBAD with a log record; SP0 is UP then, if
it has waited (R327). -/
def State.loadLibrary (s : State) : State :=
  let lib := (s.flash.filter fun c => libraryBase ≤ c.1 && c.1 < libraryBase + librarySize).map fun c => (c.1 - libraryBase, c.2)
  let s := if s.libraryHome then { s with start := { s.start with patterns := lib } } else s
  let s := if s.libraryHome && s.libraryOk then { s with start := { s.start with libReady := true, libBad := false } }
    else State.addLog { s with start := { s.start with libReady := false, libBad := true } } 8 0xFFFF 0 0 0
  if (s.port 0).trained then s.portUp 0 else s

/-- PATTERN_LIBRARY_LOAD (R404): once SP0's zero fill is complete and every burst of the library has been fetched (R402). -/
def execPatternLibraryLoad (s : State) : Out :=
  if s.serving 3 && s.start.filled && !s.start.libReady && !s.start.libBad && s.flashPort.fetchLeft == 0 then .next s.loadLibrary
  else .next s

/-! ### After start-up -/

/-- Blow a fuse: ROLLCNT rises by one; logged. -/
def State.blowFuse (s : State) : State :=
  State.addLog { s with fuses := s.fuses + 1, start := { s.start with rollCnt := BitVec.ofNat 7 (s.fuses + 1) } } 8 0xFFFF 0 0 0

/-- Blow `n` fuses, one at a time. -/
def State.blowFuses (s : State) : Nat → State
  | 0 => s
  | n + 1 => s.blowFuse.blowFuses n

/-- ROLLBACK_FUSE_RAISE (R400): the image has run on all four processors for 1,000 beats without a watchdog restart. -/
def execRollbackFuseRaise (s : State) : Out :=
  if s.serving 0 && s.start.cleanBeats ≥ 1000 && (List.range 4).all (fun i => (s.mp i).image == s.start.imageNo) then
    .next (s.blowFuses (s.start.rollVer.toNat - s.fuses))
  else .next s

/-- R327: a port switched on after start-up has trained: its tags clear, and it is UP; SP0 only once the pattern library has been
fetched again. -/
def State.portTrained (s : State) (p : Nat) (t : Training) : State :=
  let s := { s with tags := s.tags.filter fun g => g * 16 / 2 ^ 37 != p }
  let s := s.onPort p fun x => { x with rate := t.rate, scap := t.scap, trained := p == 0 }
  if p != 0 then s.portUp p
  else
    let s := { s with start := { s.start with libReady := false, libBad := false } }
    if s.serving 3 then s.startFetch else s

/-- STACK_PORT_TRAINING_COMPLETE (R327, R326): the port has trained, or is FAILED. -/
def execStackPortTrainingComplete (port : StackId) (train : Training) (s : State) : Out :=
  let p := port.val
  if s.live && (s.port p).st == .training && !(s.port p).trained then
    .next (if Training.good train then s.portTrained p train
      else State.heldDone ((s.setDomain (160 + p) true).failPort p) 0x12 2 (160 + p))
  else .next s

end Sys2Proof.Machine
end

