-- ==== Sys2Proof/Machine/Pins.lean ====
section
/-! DEFINITION. What comes in over pins and ports: RESET_N, the supply monitor (R410, R413), the I3C target (R387), the test
access port (R415, R416), and writes to control space (R420). -/

namespace Sys2Proof.Machine

/-! ### Reset -/

/-- R413: every state of the block is discarded. The flash, the fuses and the test access port are outside it; the history
that has reached the flash is read back from there at start-up (R347, R391). A hold of the supply monitor stays in force until the
supply is back (R410). -/
def State.wipe (s : State) : State :=
  { State.reset with
    pending := s.pending, resetLow := true, resetPin := s.resetPin, supplyHold := s.supplyHold, unpowered := s.unpowered, free := s.free, nextId := s.nextId
    sessions := s.sessions
    flash := s.flash, fuses := s.fuses, keyHash := s.keyHash, tap := s.tap, rel10 := s.rel10 }

/-- RESET_N_ASSERT (R413). -/
def execResetNAssert (s : State) : Out := .next { s.wipe with resetPin := true }

/-- SUPPLY_MONITOR_TRIP (R410, R411): while RESET_N is high, a reset that holds. The row does not say which supply fell: whether
VCORE is absent, and the test access port with it, is a free value (log entry 144). -/
def execSupplyMonitorTrip (s : State) : Out :=
  let gone := (Config.freeWord s.free).getLsbD 0
  if s.resetLow then .next s
  else .next { s.wipe with supplyHold := true, unpowered := gone, free := s.free + 1, tap := if gone then {} else s.tap }

/-- SUPPLY_RECOVERY_RESTART (R410): the monitor's reset is no longer in force; unless RESET_N is low, start-up may begin. -/
def execSupplyRecoveryRestart (s : State) : Out :=
  if s.supplyHold then .next { s with supplyHold := false, unpowered := false, resetLow := s.resetPin } else .next s

/-! ### Pin states (R407, R415) -/

/-- The cells of the boundary-scan register: the 1.8 V signals of Table 19-1 but those of the test access port (R415). DESIGN
CHOICE (log entry 144): in the table's order, from bit 0. -/
def scanCells : List Signal :=
  [.resetN, .shutterN, .beatIn, .lockupN, .faultN, .thermtripN, .blkReady, .i3cScl, .i3cSda, .xspiSck, .xspiCsN, .xspiResetN,
   .xspiDq 0, .xspiDq 1, .xspiDq 2, .xspiDq 3, .xspiDq 4, .xspiDq 5, .xspiDq 6, .xspiDq 7, .xspiDqs, .avsClk, .avsMdata, .avsSdata]

/-- Inputs, which the block never drives (Table 19-1). -/
def Signal.isInput : Signal → Bool
  | .resetN | .shutterN | .beatIn | .i3cScl | .xspiDqs | .avsSdata => true
  | _ => false

/-- Open-drain outputs. -/
def Signal.openDrain : Signal → Bool
  | .lockupN | .faultN | .thermtripN => true
  | _ => false

/-- Column "Unpowered" of Table 19-2. -/
def Signal.unpowered : Signal → PinState
  | .lockupN | .faultN | .thermtripN => .released
  | .sp _ | .lm _ => .phyOff
  | _ => .highZ

/-- Column "Reset". The test access port is in no shift state between its commands, so TDO is not driven. -/
def Signal.inReset : Signal → PinState
  | .resetN => .input
  | .shutterN | .beatIn | .i3cScl | .avsSdata => .ignored
  | .lockupN | .faultN | .thermtripN => .released
  | .blkReady | .avsClk | .avsMdata => .low
  | .sp _ | .lm _ => .phyHeld
  | _ => .highZ

/-- An open-drain output that is pulled low where `on`. -/
def pull (on : Bool) : PinState := if on then .low else .released

/-- Column "In service". -/
def State.serviceState (s : State) : Signal → PinState
  | .resetN | .shutterN | .beatIn | .i3cScl | .xspiDqs | .avsSdata => .input
  | .lockupN => pull s.lockupN
  | .faultN => pull (s.drain.faultN || s.clkLoss)
  | .thermtripN => pull s.power.ttrip
  | .blkReady => if s.start.ready then .high else .low
  | .i3cSda | .avsClk | .avsMdata => .active
  | .xspiSck | .xspiCsN | .xspiResetN | .xspiDq _ => if s.start.xspiHiZ then .highZ else .active
  | .tdo => .highZ
  | .sp p => if (s.port p.val).st == .off || (s.port p.val).st == .failed then .phyHeld else .phyUp
  | .lm m => if (s.link m.val).st == .off then .phyHeld else .phyUp

/-- The cell of a signal. -/
def cellOf (x : Signal) : Option Nat := findIdx (· == x) scanCells

/-- R407, R415: the state of a signal: that of Table 19-2, unless the test access port drives its output from boundary scan
(EXTEST) or floats it (HIGHZ). -/
def State.pinState (s : State) (x : Signal) : PinState :=
  let own := if s.unpowered then x.unpowered else if s.resetLow then x.inReset else s.serviceState x
  match cellOf x with
  | none => own
  | some i =>
    if s.unpowered || x.isInput then own
    else if s.tap.floating then (if x.openDrain then .released else .highZ)
    else if s.tap.driving then (if s.tap.preload.getLsbD i then (if x.openDrain then .released else .high) else .low)
    else own

/-- What a cell captures: the level the block drives, or the level at the pin where it drives none or its interface runs. -/
def State.sampled (s : State) (pins : BitVec 64) (i : Nat) : Bool :=
  match scanCells[i]?.map s.pinState with
  | none => false
  | some .low => false
  | some .high => true
  | some .released => true
  | some _ => pins.getLsbD i

/-- The boundary-scan register after Capture-DR. -/
def State.scan (s : State) (pins : BitVec 64) : BitVec 64 :=
  BitVec.ofNat 64 (packElems 1 ((List.range 24).map fun i => b2n (s.sampled pins i)))

/-! ### Control space -/

/-- CONTROL_REGISTER_WRITE (R420). -/
def execControlRegisterWrite (by_ : Requester) (offset : BitVec 26) (wide : Bool) (v : Word) (s : State) : Out :=
  if s.live then .next (s.ctlWrite offset.toNat wide v by_ .none).1 else .next s

/-! ### The I3C target (R387) -/

/-- The target responds: the firmware of the four processors runs (R391). -/
def State.i3cServes (s : State) : Bool := s.live && s.start.phase ≥ 3 && s.start.phase != 9

/-- R387, R372, R373: data written from byte j of mailbox n: a compare-and-set, an ignored write of the status half, bytes from
0x08 on, or a rejected write, one of fewer than four bytes among them; what runs past the mailbox's end is discarded. -/
def State.i3cWrite (s : State) (n j : Nat) (data : List Byte) : State :=
  if data.isEmpty then s
  else if j == 0 && (data.length == 4 || data.length == 8) then s.mailCasWord n (BitVec.ofNat 64 (leToNat data))
  else if j == 4 && data.length == 4 then s
  else if j < 8 || data.length < 4 then s.reject
  else s.mailWrite n j (data.take (0x200 - j))

/-- I3C_PRIVATE_WRITE. -/
def execI3cPrivateWrite (offset : BitVec 16) (data : List Byte) (s : State) : Out :=
  if s.i3cServes then
    let s := { s with i3c := { s.i3c with offset := offset } }
    let o := offset.toNat
    .next (if o < 0x400 then s.i3cWrite (32 + o / 0x200) (o % 0x200) data else s)
  else .next s

/-- I3C_PRIVATE_READ. -/
def execI3cPrivateRead (count : Nat) (s : State) : Out :=
  if s.i3cServes then
    let o := s.i3c.offset.toNat
    let bs := (List.range count).map fun i =>
      if o < 0x400 then (s.box (32 + o / 0x200)).byte ((o + i) % 0x200) else 0
    .next { s with i3c := { s.i3c with readData := bs } }
  else .next s

/-- DYNAMIC_ADDRESS_ASSIGNMENT. -/
def execDynamicAddressAssignment (addr : BitVec 7) (s : State) : Out :=
  if s.i3cServes then .next { s with i3c := { s.i3c with dynamic := some addr } } else .next s

/-- ENEC, or its opposite. -/
def execEnec (enable : Bool) (s : State) : Out :=
  if s.i3cServes then .next { s with i3c := { s.i3c with ibi := enable } } else .next s

/-! ### The test access port (R415, R416) -/

/-- An instruction is loaded: Capture-IR reads 0b0001. -/
def Tap.load (t : Tap) (i : TapInstr) : Tap := { t with ir := i, capture := 0b0001, driving := false, floating := false }

/-- R416: an instruction refused in service: BYPASS in its place, Capture-IR 0b0101. -/
def Tap.deny (t : Tap) : Tap := { t.load .bypass with capture := 0b0101 }

/-- IDCODE (Table 19-6); VER is 0 on release 1.0 (Table 20-6). -/
def State.idcode (s : State) : Word := if s.rel10 then 0x05701C3F else 0x15701C3F

/-- A command of the test access port leaves `t`; without VCORE the port does nothing (R411, R415). -/
def State.tapTo (s : State) (t : Tap) : Out := if s.unpowered then .next s else .next { s with tap := t }

/-- BYPASS. -/
def execBypass (s : State) : Out := s.tapTo (s.tap.load .bypass)

/-- SAMPLE_PRELOAD (R415): the cells capture their signals, `pins` the levels at the pins that the block does not drive; the values
for EXTEST are shifted in. -/
def execSamplePreload (pins preload : BitVec 64) (s : State) : Out :=
  let t := s.tap.load .samplePreload
  s.tapTo { t with bsr := State.scan { s with tap := t } pins, preload := preload }

/-- EXTEST (R415, R416): only while RESET_N is low; the outputs take the preloaded values (`State.pinState`). -/
def execExtest (s : State) : Out :=
  s.tapTo (if s.resetPin then { s.tap.load .extest with driving := true } else s.tap.deny)

/-- IDCODE. -/
def execIdcode (s : State) : Out := s.tapTo { s.tap.load .idcode with dr := s.idcode }

/-- HIGHZ (R415, R416): only while RESET_N is low; the outputs float (`State.pinState`). -/
def execHighz (s : State) : Out :=
  s.tapTo (if s.resetPin then { s.tap.load .highz with floating := true } else s.tap.deny)

/-- INSTRUMENT_ACCESS (R416): an instrument that reads, at any time; one that writes, only while RESET_N is low. The spec
gives neither a sensor's reading between samples nor what a writing instrument writes. -/
def execInstrumentAccess (inst : Instrument) (s : State) : Out :=
  let get := fun (w : Word) => s.tapTo { s.tap with capture := 0b0001, dr := w }
  match inst with
  | .pllLock => get (BitVec.ofNat 64 (b2n (s.beat.running && !s.clkLoss)))
  | .supplyMonitor => get (BitVec.ofNat 64 (b2n s.supplyHold))
  | .startStat => get s.startStat
  | .thermalSensor _ =>
    State.tapTo { s with free := s.free + 1 } { s.tap with capture := 0b0001, dr := Config.freeWord s.free }
  | .writing => s.tapTo (if s.resetPin then { s.tap with capture := 0b0001 } else s.tap.deny)

end Sys2Proof.Machine
end

