-- ==== Sys2Proof/Machine/Dispatch.lean ====
section
/-! DEFINITION. The dispatch of commands: one arm for each constructor of Instr, each one call of its meaning. -/

namespace Sys2Proof.Machine

/-- The effect of a command on everything but the queue of waiting commands. -/
def exec (i : Instr) (s : State) : Host.Outcome State Fault Refusal :=
  match i with
  | .instructionWord core => Sys2Proof.Machine.execInstructionWord core s
  | .registerSocketWrite core sock v => Sys2Proof.Machine.execRegisterSocketWrite core sock v s
  | .readWaitResume core => Sys2Proof.Machine.execReadWaitResume core s
  | .triggerWaitResume core => Sys2Proof.Machine.execTriggerWaitResume core s
  | .resultDelivery core => Sys2Proof.Machine.execResultDelivery core s
  | .aluAdd core v => Sys2Proof.Machine.execAluAdd core v s
  | .aluSub core v => Sys2Proof.Machine.execAluSub core v s
  | .aluAdc core v => Sys2Proof.Machine.execAluAdc core v s
  | .aluSbc core v => Sys2Proof.Machine.execAluSbc core v s
  | .aluAnd core v => Sys2Proof.Machine.execAluAnd core v s
  | .aluOr core v => Sys2Proof.Machine.execAluOr core v s
  | .aluXor core v => Sys2Proof.Machine.execAluXor core v s
  | .aluAndn core v => Sys2Proof.Machine.execAluAndn core v s
  | .aluShl core v => Sys2Proof.Machine.execAluShl core v s
  | .aluShr core v => Sys2Proof.Machine.execAluShr core v s
  | .aluSar core v => Sys2Proof.Machine.execAluSar core v s
  | .aluRol core v => Sys2Proof.Machine.execAluRol core v s
  | .aluCmp core v => Sys2Proof.Machine.execAluCmp core v s
  | .aluMin core v => Sys2Proof.Machine.execAluMin core v s
  | .aluMax core v => Sys2Proof.Machine.execAluMax core v s
  | .aluMinu core v => Sys2Proof.Machine.execAluMinu core v s
  | .aluMaxu core v => Sys2Proof.Machine.execAluMaxu core v s
  | .aluSext core v => Sys2Proof.Machine.execAluSext core v s
  | .aluMul core v => Sys2Proof.Machine.execAluMul core v s
  | .aluMulh core v => Sys2Proof.Machine.execAluMulh core v s
  | .aluMulhu core v => Sys2Proof.Machine.execAluMulhu core v s
  | .aluDiv core v => Sys2Proof.Machine.execAluDiv core v s
  | .aluDivu core v => Sys2Proof.Machine.execAluDivu core v s
  | .aluRem core v => Sys2Proof.Machine.execAluRem core v s
  | .aluRemu core v => Sys2Proof.Machine.execAluRemu core v s
  | .lsuLd8u core v => Sys2Proof.Machine.execLsuLd8u core v s
  | .lsuLd8s core v => Sys2Proof.Machine.execLsuLd8s core v s
  | .lsuLd16u core v => Sys2Proof.Machine.execLsuLd16u core v s
  | .lsuLd16s core v => Sys2Proof.Machine.execLsuLd16s core v s
  | .lsuLd32u core v => Sys2Proof.Machine.execLsuLd32u core v s
  | .lsuLd32s core v => Sys2Proof.Machine.execLsuLd32s core v s
  | .lsuLd64 core v => Sys2Proof.Machine.execLsuLd64 core v s
  | .lsuSt8 core v => Sys2Proof.Machine.execLsuSt8 core v s
  | .lsuSt16 core v => Sys2Proof.Machine.execLsuSt16 core v s
  | .lsuSt32 core v => Sys2Proof.Machine.execLsuSt32 core v s
  | .lsuSt64 core v => Sys2Proof.Machine.execLsuSt64 core v s
  | .lsuAf64 core v => Sys2Proof.Machine.execLsuAf64 core v s
  | .lsuAf32 core v => Sys2Proof.Machine.execLsuAf32 core v s
  | .lsuAw16 core v => Sys2Proof.Machine.execLsuAw16 core v s
  | .lsuAi32 core v => Sys2Proof.Machine.execLsuAi32 core v s
  | .lsuAmax core v => Sys2Proof.Machine.execLsuAmax core v s
  | .lsuCas core v => Sys2Proof.Machine.execLsuCas core v s
  | .lsuAcq core v => Sys2Proof.Machine.execLsuAcq core v s
  | .lsuRel core v => Sys2Proof.Machine.execLsuRel core v s
  | .lsuPf core v => Sys2Proof.Machine.execLsuPf core v s
  | .storePerformed core idx => Sys2Proof.Machine.execStorePerformed core idx s
  | .storeAsyncTimeout core task => Sys2Proof.Machine.execStoreAsyncTimeout core task s
  | .bitSet core v => Sys2Proof.Machine.execBitSet core v s
  | .bitClr core v => Sys2Proof.Machine.execBitClr core v s
  | .bitTgl core v => Sys2Proof.Machine.execBitTgl core v s
  | .bitPut core v => Sys2Proof.Machine.execBitPut core v s
  | .bitGet core v => Sys2Proof.Machine.execBitGet core v s
  | .bitLd64 core v => Sys2Proof.Machine.execBitLd64 core v s
  | .bitSt64 core v => Sys2Proof.Machine.execBitSt64 core v s
  | .bitWatch core v => Sys2Proof.Machine.execBitWatch core v s
  | .bitPopc core v => Sys2Proof.Machine.execBitPopc core v s
  | .bitClz core v => Sys2Proof.Machine.execBitClz core v s
  | .bitCtz core v => Sys2Proof.Machine.execBitCtz core v s
  | .bitBswap core v => Sys2Proof.Machine.execBitBswap core v s
  | .bitRev core v => Sys2Proof.Machine.execBitRev core v s
  | .bitPar core v => Sys2Proof.Machine.execBitPar core v s
  | .bitExt core v => Sys2Proof.Machine.execBitExt core v s
  | .bitIns core v => Sys2Proof.Machine.execBitIns core v s
  | .remoteBitWrite core task bit val => Sys2Proof.Machine.execRemoteBitWrite core task bit val s
  | .bruJmp core v => Sys2Proof.Machine.execBruJmp core v s
  | .bruBr core v => Sys2Proof.Machine.execBruBr core v s
  | .bruCall core v => Sys2Proof.Machine.execBruCall core v s
  | .bruCallr core v => Sys2Proof.Machine.execBruCallr core v s
  | .bruRet core v => Sys2Proof.Machine.execBruRet core v s
  | .transferTargetIssue core => Sys2Proof.Machine.execTransferTargetIssue core s
  | .bruRpt core v => Sys2Proof.Machine.execBruRpt core v s
  | .bruRptu core v => Sys2Proof.Machine.execBruRptu core v s
  | .repeatBodyExecution core => Sys2Proof.Machine.execRepeatBodyExecution core s
  | .bruPush core v => Sys2Proof.Machine.execBruPush core v s
  | .bruPop core v => Sys2Proof.Machine.execBruPop core v s
  | .sysSer core v => Sys2Proof.Machine.execSysSer core v s
  | .sysTlbiAddr core v => Sys2Proof.Machine.execSysTlbiAddr core v s
  | .sysTlbiTag core v => Sys2Proof.Machine.execSysTlbiTag core v s
  | .sysTlbiAll core v => Sys2Proof.Machine.execSysTlbiAll core v s
  | .tlbiCommandComplete core => Sys2Proof.Machine.execTlbiCommandComplete core s
  | .sysTlbsync core v => Sys2Proof.Machine.execSysTlbsync core v s
  | .cmoClean core v => Sys2Proof.Machine.execCmoClean core v s
  | .cmoInvalidate core v => Sys2Proof.Machine.execCmoInvalidate core v s
  | .cmoCleanInvalidate core v => Sys2Proof.Machine.execCmoCleanInvalidate core v s
  | .sysWkt core v => Sys2Proof.Machine.execSysWkt core v s
  | .wicketReturn core v => Sys2Proof.Machine.execWicketReturn core v s
  | .frameReturn core v => Sys2Proof.Machine.execFrameReturn core v s
  | .sysWait core v => Sys2Proof.Machine.execSysWait core v s
  | .sysYield core v => Sys2Proof.Machine.execSysYield core v s
  | .sysXwr core v => Sys2Proof.Machine.execSysXwr core v s
  | .sysXrd core v => Sys2Proof.Machine.execSysXrd core v s
  | .timerWrite core v => Sys2Proof.Machine.execTimerWrite core v s
  | .timerExpiry core => Sys2Proof.Machine.execTimerExpiry core s
  | .dfmMac core v => Sys2Proof.Machine.execDfmMac core v s
  | .dfmMsb core v => Sys2Proof.Machine.execDfmMsb core v s
  | .dfmMul core v => Sys2Proof.Machine.execDfmMul core v s
  | .dfmSet core v => Sys2Proof.Machine.execDfmSet core v s
  | .vxuAdd core v => Sys2Proof.Machine.execVxuAdd core v s
  | .vxuSub core v => Sys2Proof.Machine.execVxuSub core v s
  | .vxuMul core v => Sys2Proof.Machine.execVxuMul core v s
  | .vxuFma core v => Sys2Proof.Machine.execVxuFma core v s
  | .vxuFms core v => Sys2Proof.Machine.execVxuFms core v s
  | .vxuFnma core v => Sys2Proof.Machine.execVxuFnma core v s
  | .vxuDiv core v => Sys2Proof.Machine.execVxuDiv core v s
  | .vxuSqrt core v => Sys2Proof.Machine.execVxuSqrt core v s
  | .vxuMax core v => Sys2Proof.Machine.execVxuMax core v s
  | .vxuMin core v => Sys2Proof.Machine.execVxuMin core v s
  | .vxuAbs core v => Sys2Proof.Machine.execVxuAbs core v s
  | .vxuNeg core v => Sys2Proof.Machine.execVxuNeg core v s
  | .vxuCopy core v => Sys2Proof.Machine.execVxuCopy core v s
  | .vxuAnd core v => Sys2Proof.Machine.execVxuAnd core v s
  | .vxuOr core v => Sys2Proof.Machine.execVxuOr core v s
  | .vxuXor core v => Sys2Proof.Machine.execVxuXor core v s
  | .vxuShl core v => Sys2Proof.Machine.execVxuShl core v s
  | .vxuShr core v => Sys2Proof.Machine.execVxuShr core v s
  | .vxuSar core v => Sys2Proof.Machine.execVxuSar core v s
  | .vxuTwosum core v => Sys2Proof.Machine.execVxuTwosum core v s
  | .vxuTwoprod core v => Sys2Proof.Machine.execVxuTwoprod core v s
  | .vxuCeq core v => Sys2Proof.Machine.execVxuCeq core v s
  | .vxuCne core v => Sys2Proof.Machine.execVxuCne core v s
  | .vxuClt core v => Sys2Proof.Machine.execVxuClt core v s
  | .vxuCle core v => Sys2Proof.Machine.execVxuCle core v s
  | .vxuCun core v => Sys2Proof.Machine.execVxuCun core v s
  | .vxuMand core v => Sys2Proof.Machine.execVxuMand core v s
  | .vxuMor core v => Sys2Proof.Machine.execVxuMor core v s
  | .vxuMxor core v => Sys2Proof.Machine.execVxuMxor core v s
  | .vxuMandn core v => Sys2Proof.Machine.execVxuMandn core v s
  | .vxuCvt core v => Sys2Proof.Machine.execVxuCvt core v s
  | .vxuBcast core v => Sys2Proof.Machine.execVxuBcast core v s
  | .vxuSlideup core v => Sys2Proof.Machine.execVxuSlideup core v s
  | .vxuSlidedn core v => Sys2Proof.Machine.execVxuSlidedn core v s
  | .vxuPerm core v => Sys2Proof.Machine.execVxuPerm core v s
  | .vxuCompress core v => Sys2Proof.Machine.execVxuCompress core v s
  | .vxuZip core v => Sys2Proof.Machine.execVxuZip core v s
  | .vxuUnzip core v => Sys2Proof.Machine.execVxuUnzip core v s
  | .vxuIota core v => Sys2Proof.Machine.execVxuIota core v s
  | .vxuOpComplete core => Sys2Proof.Machine.execVxuOpComplete core s
  | .vxuLd core v => Sys2Proof.Machine.execVxuLd core v s
  | .vxuSt core v => Sys2Proof.Machine.execVxuSt core v s
  | .vxuMemComplete core idx => Sys2Proof.Machine.execVxuMemComplete core idx s
  | .vxuRedSum core v => Sys2Proof.Machine.execVxuRedSum core v s
  | .vxuRedMax core v => Sys2Proof.Machine.execVxuRedMax core v s
  | .vxuRedMin core v => Sys2Proof.Machine.execVxuRedMin core v s
  | .vxuRedArgmax core v => Sys2Proof.Machine.execVxuRedArgmax core v s
  | .vxuRedArgmin core v => Sys2Proof.Machine.execVxuRedArgmin core v s
  | .vxuRedAnd core v => Sys2Proof.Machine.execVxuRedAnd core v s
  | .vxuRedOr core v => Sys2Proof.Machine.execVxuRedOr core v s
  | .vxuRedXor core v => Sys2Proof.Machine.execVxuRedXor core v s
  | .vxuGet core v => Sys2Proof.Machine.execVxuGet core v s
  | .vxuPut core v => Sys2Proof.Machine.execVxuPut core v s
  | .vxuMrd core v => Sys2Proof.Machine.execVxuMrd core v s
  | .vxuMwr core v => Sys2Proof.Machine.execVxuMwr core v s
  | .tmuLd core v => Sys2Proof.Machine.execTmuLd core v s
  | .tmuLdt core v => Sys2Proof.Machine.execTmuLdt core v s
  | .tmuSt core v => Sys2Proof.Machine.execTmuSt core v s
  | .tmuMemComplete core idx => Sys2Proof.Machine.execTmuMemComplete core idx s
  | .tmuMma core v => Sys2Proof.Machine.execTmuMma core v s
  | .tmuMmc core v => Sys2Proof.Machine.execTmuMmc core v s
  | .tmuZero core v => Sys2Proof.Machine.execTmuZero core v s
  | .tmuEwAdd core v => Sys2Proof.Machine.execTmuEwAdd core v s
  | .tmuEwSub core v => Sys2Proof.Machine.execTmuEwSub core v s
  | .tmuEwMul core v => Sys2Proof.Machine.execTmuEwMul core v s
  | .tmuEwMax core v => Sys2Proof.Machine.execTmuEwMax core v s
  | .tmuEwMin core v => Sys2Proof.Machine.execTmuEwMin core v s
  | .tmuEwCopy core v => Sys2Proof.Machine.execTmuEwCopy core v s
  | .tmuEwAbs core v => Sys2Proof.Machine.execTmuEwAbs core v s
  | .tmuEwNeg core v => Sys2Proof.Machine.execTmuEwNeg core v s
  | .tmuCvt core v => Sys2Proof.Machine.execTmuCvt core v s
  | .tmuRedSum core v => Sys2Proof.Machine.execTmuRedSum core v s
  | .tmuRedMax core v => Sys2Proof.Machine.execTmuRedMax core v s
  | .tmuRedMin core v => Sys2Proof.Machine.execTmuRedMin core v s
  | .arrayFill core => Sys2Proof.Machine.execArrayFill core s
  | .arrayComputeStart core => Sys2Proof.Machine.execArrayComputeStart core s
  | .arrayOpComplete core => Sys2Proof.Machine.execArrayOpComplete core s
  | .xmuEnqueue core q v => Sys2Proof.Machine.execXmuEnqueue core q v s
  | .xmuQueueStatus core v => Sys2Proof.Machine.execXmuQueueStatus core v s
  | .xmuQueueResume core v => Sys2Proof.Machine.execXmuQueueResume core v s
  | .xmuQueueFlush core v => Sys2Proof.Machine.execXmuQueueFlush core v s
  | .xmuCopy core => Sys2Proof.Machine.execXmuCopy core s
  | .xmuFill core => Sys2Proof.Machine.execXmuFill core s
  | .xmuAcc core => Sys2Proof.Machine.execXmuAcc core s
  | .xmuSignal core => Sys2Proof.Machine.execXmuSignal core s
  | .xmuDescriptorComplete core task q => Sys2Proof.Machine.execXmuDescriptorComplete core task q s
  | .kyuLd core v => Sys2Proof.Machine.execKyuLd core v s
  | .kyuSt core v => Sys2Proof.Machine.execKyuSt core v s
  | .kyuRstr core v => Sys2Proof.Machine.execKyuRstr core v s
  | .kyuMv core v => Sys2Proof.Machine.execKyuMv core v s
  | .wicketInstall core v => Sys2Proof.Machine.execWicketInstall core v s
  | .kyuClr core v => Sys2Proof.Machine.execKyuClr core v s
  | .kyuRd core v => Sys2Proof.Machine.execKyuRd core v s
  | .kyuChk core v => Sys2Proof.Machine.execKyuChk core v s
  | .frameEntry core => Sys2Proof.Machine.execFrameEntry core s
  | .walkComplete core idx => Sys2Proof.Machine.execWalkComplete core idx s
  | .lineFillComplete core idx => Sys2Proof.Machine.execLineFillComplete core idx s
  | .fetchAhead core => Sys2Proof.Machine.execFetchAhead core s
  | .evictionWriteback core idx => Sys2Proof.Machine.execEvictionWriteback core idx s
  | .evictionPoisonWrite idx => Sys2Proof.Machine.execEvictionPoisonWrite idx s
  | .meshRequest idx => Sys2Proof.Machine.execMeshRequest idx s
  | .meshResponse idx => Sys2Proof.Machine.execMeshResponse idx s
  | .addendArrival idx => Sys2Proof.Machine.execAddendArrival idx s
  | .addendResend idx => Sys2Proof.Machine.execAddendResend idx s
  | .engineRmw eng line => Sys2Proof.Machine.execEngineRmw eng line s
  | .stackRequest port idx => Sys2Proof.Machine.execStackRequest port idx s
  | .stackRefresh port => Sys2Proof.Machine.execStackRefresh port s
  | .patrolScrub port => Sys2Proof.Machine.execPatrolScrub port s
  | .bankScrub core => Sys2Proof.Machine.execBankScrub core s
  | .portRetrain port => Sys2Proof.Machine.execPortRetrain port s
  | .portRetrainComplete port rate => Sys2Proof.Machine.execPortRetrainComplete port rate s
  | .portFailed port => Sys2Proof.Machine.execPortFailed port s
  | .digestMark => Sys2Proof.Machine.execDigestMark s
  | .digestComplete => Sys2Proof.Machine.execDigestComplete s
  | .linkPut m msg => Sys2Proof.Machine.execLinkPut m msg s
  | .linkGet m msg => Sys2Proof.Machine.execLinkGet m msg s
  | .linkAccp m msg => Sys2Proof.Machine.execLinkAccp m msg s
  | .linkSignal m msg => Sys2Proof.Machine.execLinkSignal m msg s
  | .linkGetr m msg => Sys2Proof.Machine.execLinkGetr m msg s
  | .linkAck m msg => Sys2Proof.Machine.execLinkAck m msg s
  | .linkVoid m msg => Sys2Proof.Machine.execLinkVoid m msg s
  | .linkCrd m ch units => Sys2Proof.Machine.execLinkCrd m ch units s
  | .linkLack m seq => Sys2Proof.Machine.execLinkLack m seq s
  | .linkNak m seq => Sys2Proof.Machine.execLinkNak m seq s
  | .linkHreq m msg => Sys2Proof.Machine.execLinkHreq m msg s
  | .linkDbell m msg => Sys2Proof.Machine.execLinkDbell m msg s
  | .linkEsc m msg => Sys2Proof.Machine.execLinkEsc m msg s
  | .lackTimer m => Sys2Proof.Machine.execLackTimer m s
  | .replayTimeout m => Sys2Proof.Machine.execReplayTimeout m s
  | .requestTimeout m idx => Sys2Proof.Machine.execRequestTimeout m idx s
  | .moduleReset m => Sys2Proof.Machine.execModuleReset m s
  | .moduleRetrainComplete m rate degraded => Sys2Proof.Machine.execModuleRetrainComplete m rate degraded s
  | .moduleRetrainTimeout m => Sys2Proof.Machine.execModuleRetrainTimeout m s
  | .routeEntryUpdate idx => Sys2Proof.Machine.execRouteEntryUpdate idx s
  | .create core => Sys2Proof.Machine.execCreate core s
  | .kill core => Sys2Proof.Machine.execKill core s
  | .spill core => Sys2Proof.Machine.execSpill core s
  | .fill core => Sys2Proof.Machine.execFill core s
  | .kstart core => Sys2Proof.Machine.execKstart core s
  | .hardwareFill core => Sys2Proof.Machine.execHardwareFill core s
  | .keeperCycleLimit core => Sys2Proof.Machine.execKeeperCycleLimit core s
  | .idleDetectorExpiry core => Sys2Proof.Machine.execIdleDetectorExpiry core s
  | .testSlotGrant c => Sys2Proof.Machine.execTestSlotGrant c s
  | .testSlotEnd c pass => Sys2Proof.Machine.execTestSlotEnd c pass s
  | .jobSequencerEnd => Sys2Proof.Machine.execJobSequencerEnd s
  | .drainTrigger cause unit => Sys2Proof.Machine.execDrainTrigger cause unit s
  | .drainEngineDiscard => Sys2Proof.Machine.execDrainEngineDiscard s
  | .drainComplete => Sys2Proof.Machine.execDrainComplete s
  | .drainTimeout => Sys2Proof.Machine.execDrainTimeout s
  | .mpWatchdogExpiry idx => Sys2Proof.Machine.execMpWatchdogExpiry idx s
  | .mpServiceResume idx => Sys2Proof.Machine.execMpServiceResume idx s
  | .mpReadyTimeout idx => Sys2Proof.Machine.execMpReadyTimeout idx s
  | .beatBoundary sample => Sys2Proof.Machine.execBeatBoundary sample s
  | .beatInEdge err => Sys2Proof.Machine.execBeatInEdge err s
  | .currentGuardStop => Sys2Proof.Machine.execCurrentGuardStop s
  | .currentGuardResume => Sys2Proof.Machine.execCurrentGuardResume s
  | .droopEvent c => Sys2Proof.Machine.execDroopEvent c s
  | .droopHoldEnd c => Sys2Proof.Machine.execDroopHoldEnd c s
  | .avsbusFrame frame => Sys2Proof.Machine.execAvsbusFrame frame s
  | .shutterRequest => Sys2Proof.Machine.execShutterRequest s
  | .shutterRelease => Sys2Proof.Machine.execShutterRelease s
  | .thermalAlarm => Sys2Proof.Machine.execThermalAlarm s
  | .thermalAlarmClear => Sys2Proof.Machine.execThermalAlarmClear s
  | .thermtrip => Sys2Proof.Machine.execThermtrip s
  | .fenceAddendRelease c => Sys2Proof.Machine.execFenceAddendRelease c s
  | .clusterFenceComplete c => Sys2Proof.Machine.execClusterFenceComplete c s
  | .clusterWakeComplete c => Sys2Proof.Machine.execClusterWakeComplete c s
  | .pllLockLoss => Sys2Proof.Machine.execPllLockLoss s
  | .mailboxPost n expect => Sys2Proof.Machine.execMailboxPost n expect s
  | .mailboxWithdraw n expect => Sys2Proof.Machine.execMailboxWithdraw n expect s
  | .mailboxClear n expect => Sys2Proof.Machine.execMailboxClear n expect s
  | .mbdbRing ring => Sys2Proof.Machine.execMbdbRing ring s
  | .mailboxTake n => Sys2Proof.Machine.execMailboxTake n s
  | .mailboxProgress n prog => Sys2Proof.Machine.execMailboxProgress n prog s
  | .mailboxComplete n => Sys2Proof.Machine.execMailboxComplete n s
  | .mailboxDeadline n => Sys2Proof.Machine.execMailboxDeadline n s
  | .identify n => Sys2Proof.Machine.execIdentify n s
  | .status n => Sys2Proof.Machine.execStatus n s
  | .powerLimitSet n => Sys2Proof.Machine.execPowerLimitSet n s
  | .powerLimitGet n => Sys2Proof.Machine.execPowerLimitGet n s
  | .domainSwitchOff n => Sys2Proof.Machine.execDomainSwitchOff n s
  | .domainSwitchOn n => Sys2Proof.Machine.execDomainSwitchOn n s
  | .beatConfig n => Sys2Proof.Machine.execBeatConfig n s
  | .drain n => Sys2Proof.Machine.execDrain n s
  | .release n => Sys2Proof.Machine.execRelease n s
  | .linkAssign n => Sys2Proof.Machine.execLinkAssign n s
  | .linkStatus n => Sys2Proof.Machine.execLinkStatus n s
  | .sensorRead n => Sys2Proof.Machine.execSensorRead n s
  | .logRead n => Sys2Proof.Machine.execLogRead n s
  | .historyRead n => Sys2Proof.Machine.execHistoryRead n s
  | .testPolicy n => Sys2Proof.Machine.execTestPolicy n s
  | .testResults n => Sys2Proof.Machine.execTestResults n s
  | .digestSchedule n => Sys2Proof.Machine.execDigestSchedule n s
  | .digestRead n => Sys2Proof.Machine.execDigestRead n s
  | .settingsRead n => Sys2Proof.Machine.execSettingsRead n s
  | .settingsWrite n => Sys2Proof.Machine.execSettingsWrite n s
  | .updateBegin n => Sys2Proof.Machine.execUpdateBegin n s
  | .updateData n => Sys2Proof.Machine.execUpdateData n s
  | .updateCommit n => Sys2Proof.Machine.execUpdateCommit n s
  | .mpRestart n => Sys2Proof.Machine.execMpRestart n s
  | .jobOpen n => Sys2Proof.Machine.execJobOpen n s
  | .jobClose n => Sys2Proof.Machine.execJobClose n s
  | .i3cPrivateWrite offset data => Sys2Proof.Machine.execI3cPrivateWrite offset data s
  | .i3cPrivateRead count => Sys2Proof.Machine.execI3cPrivateRead count s
  | .controlRegisterWrite by_ offset wide v => Sys2Proof.Machine.execControlRegisterWrite by_ offset wide v s
  | .resetNAssert => Sys2Proof.Machine.execResetNAssert s
  | .startupSequence env => Sys2Proof.Machine.execStartupSequence env s
  | .blkReadyAssert => Sys2Proof.Machine.execBlkReadyAssert s
  | .patternLibraryLoad => Sys2Proof.Machine.execPatternLibraryLoad s
  | .rollbackFuseRaise => Sys2Proof.Machine.execRollbackFuseRaise s
  | .flashOperationComplete ok => Sys2Proof.Machine.execFlashOperationComplete ok s
  | .supplyMonitorTrip => Sys2Proof.Machine.execSupplyMonitorTrip s
  | .supplyRecoveryRestart => Sys2Proof.Machine.execSupplyRecoveryRestart s
  | .bypass => Sys2Proof.Machine.execBypass s
  | .samplePreload pins preload => Sys2Proof.Machine.execSamplePreload pins preload s
  | .extest => Sys2Proof.Machine.execExtest s
  | .idcode => Sys2Proof.Machine.execIdcode s
  | .highz => Sys2Proof.Machine.execHighz s
  | .instrumentAccess inst => Sys2Proof.Machine.execInstrumentAccess inst s
  | .mpSramError idx => Sys2Proof.Machine.execMpSramError idx s
  | .stackPortFenceComplete port => Sys2Proof.Machine.execStackPortFenceComplete port s
  | .stackPortTrainingComplete port train => Sys2Proof.Machine.execStackPortTrainingComplete port train s
  | .dynamicAddressAssignment addr => Sys2Proof.Machine.execDynamicAddressAssignment addr s
  | .enec enable => Sys2Proof.Machine.execEnec enable s

end Sys2Proof.Machine
end

