-- ==== Sys2Proof/Machine/Tick.lean ====
section
/-! DEFINITION. One core_clk cycle in which no command comes: what counts down by itself (R58, R168, R263, R264). -/

namespace Sys2Proof.Machine

/-- The divider, the VXU datapath and the countdown timer of a core count down; the timer of a locked-up core has stopped
(R294). -/
def Core.tick (c : Core) : Core :=
  { c with divLeft := c.divLeft - 1, vxuLeft := c.vxuLeft - 1, 
           tmrCount := if c.tmrCount == 0 || c.lockCause != 0 then c.tmrCount else c.tmrCount - 1 }

/-- R312: a NAK whose gap has lasted for RTO is repeated; RTO counts microseconds (Table 13-8), 1,000 core cycles each. DESIGN
CHOICE (log entry 116): the receiver's timer runs with the clock, as no command stands for it. -/
def Link.tick (l : Link) (now : Nat) : Link :=
  if l.st == .up && l.gap && l.nakAt + 1000 * l.rto.toNat ≤ now then Link.control { l with nakAt := now } (nakMsg l.rxSeq) else l

/-- A core_clk cycle: no clock runs while RESET_N is low or the root PLL has lost lock (R370, R413). The expiry of a timer,
like every other event, is a command of its own. The time since the shutter path released is counted (R366). -/
def State.tick (s : State) : State :=
  if s.live then
    { s with
      now := s.now + 1, cores := tabMap (fun _ c => c.tick) s.cores, links := tabMap (fun _ l => l.tick (s.now + 1)) s.links
      power := { s.power with lift := if s.power.shut then 0 else min 375000 (s.power.lift + 1) } }
  else s

end Sys2Proof.Machine
end

