-- ==== Sys2Proof/Machine/Step.lean ====
section
/-! DEFINITION. The step of the block: the first waiting command, or, where none waits, a tick of core_clk. -/

namespace Sys2Proof.Machine

/-- One step: the command at the front of the queue acts with the rest of the queue waiting; where no command waits, the
block's clocks run one core_clk cycle (the model's choice, notes/assumptions). -/
def step (s : State) : Host.Outcome State Fault Refusal :=
  match s.pending with
  | [] => .next s.tick
  | c :: rest => exec c { s with pending := rest }

/-- `s` with the command a word spells put at the front of its queue; no word spells one, so `s` as it is. -/
def State.withFetchWord (s : State) (nbits w : Nat) : State :=
  match Sys2Proof.decodeTableWord nbits w with
  | none => s
  | some c => { s with pending := c :: s.pending }

end Sys2Proof.Machine
end

