-- ==== Sys2Proof/Safety.lean ====
section
/-! DEFINITION. The terms the claims are stated in: when a word may issue, what its issue answers, and what every state
must keep. -/

namespace Sys2Proof.Machine

/-! ### Issuing a word -/

/-- The casement as the word it issues next finds it: what is due has arrived (R43). -/
def State.reg (s : State) (n k : Nat) : Casement := (s.arrivals n k).case n k

/-- Casement k of core n may issue a word now: it holds the issue slot, no word waits, no body is passed over (R50), no failed
store is due to be reported in the word's place (R249), no parity error stands in its special registers (Table 15-1). -/
def State.ready (s : State) (n k : Nat) : Bool :=
  s.issuer n == some k && (s.case n k).waiting.isNone && !(s.case n k).skip && !(s.reg n k).asyncNow && !(s.reg n k).otherBad

/-- The word is no delay slot of a taken transfer and no repeat body: it may trigger a control transfer (R48, R51). -/
def State.free_ (s : State) (n k : Nat) : Bool := !(s.reg n k).inSlot && !(s.reg n k).inBody

/-- The word is an ordinary one: no delay slot of a taken transfer, no repeat body, not the first word of a fault handler, no
frame return that has waited (R292), not the first word after a switch that holds wakes (R262). -/
def State.calm (s : State) (n k : Nat) : Bool :=
  s.free_ n k && !(s.reg n k).first && !(s.reg n k).frameRet && !(s.reg n k).switched

/-- FLG of a result with its carry and overflow (Table 02-10): Z, N, C, V in bits 0 to 3. -/
def flgWord (r : Word) (c v : Bool) : Word :=
  BitVec.setWidth 64 (BitVec.ofBool v ++ BitVec.ofBool c ++ BitVec.ofBool r.msb ++ BitVec.ofBool (r == 0))

/-- What a word of one long move, v to socket `sock`, answers where its effect leaves `s1`: `s1`, the word counted as issued
(`State.commit`). -/
def State.issues (s : State) (n k sock : Nat) (v : Word) (s1 : State) : Out :=
  .next (s1.commit (s.arrivals n k) n k (.move (BitVec.ofNat 12 sock) v))

/-- What it answers where its whole effect is a change of the casement. -/
def State.changes (s : State) (n k sock : Nat) (v : Word) (f : Casement → Casement) : Out :=
  s.issues n k sock v ((s.arrivals n k).onCase n k f)

/-! ### Memory accesses of a word -/

/-- An access of `bytes` bytes at `va` by a word that finds the state `b` meets no fault of Table 09-11: it is aligned, no key
write is due, and extent, key and stage 2 pass with the translation x; an access to control space has its DEVICE key. -/
def State.passes (b : State) (n k va bytes : Nat) (acc : Acc) (device : Bool) (x : Xl) : Prop :=
  va % bytes = 0 ∧ (b.case n k).keyDue = false ∧ b.xlate n (b.case n k) va acc device = .ok x ∧
    ctlCheck (b.case n k) x (if acc = .read then .read else .write) va bytes = none

/-- A physical address lies in the bank of core n. -/
def State.inOwnBank (b : State) (n pa : Nat) : Bool := match b.place pa with | .bank m _ => m == n | _ => false

/-- A read of the core's own bank that bypasses the cache and has no earlier access of the task to wait for (R64, R246). -/
def State.direct (b : State) (n k : Nat) (x : Xl) : Bool :=
  x.type != .cached && b.inOwnBank n x.pa && !b.storesTo n (b.whoIs n k) (x.pa / 64) &&
    !b.bypassBusy n (b.whoIs n k) (x.pa / 64)

/-- The store buffer can take one more entry, and holds none of the word's task. -/
def State.freshEntry (b : State) (n k : Nat) : Bool :=
  decide ((b.core n).sbuf.length < 16) && (b.core n).sbuf.all fun e => e.task != b.whoIs n k

/-- The command answers a state with one more pending result: of `port`, due after 4 issue cycles, the bytes that a read of
physical address `pa` gives, zero- or sign-extended, with what the read's outcome leaves on them (R63). Memory is as before,
and the word is past. -/
def State.loads (s : State) (n k pa bytes : Nat) (signed : Bool) (port : Port) (out : Out) : Prop :=
  let b := s.arrivals n k
  let r := b.readPa pa bytes (some n)
  let x := BitVec.ofNat (8 * bytes) (leToNat r.2.2)
  ∃ (t : State) (p : Pending), out = .next t ∧ (t.case n k).pend = (s.reg n k).pend ++ [p] ∧ p.port = port ∧ p.due = (s.reg n k).icount + 4 ∧
    p.await = .ready ∧ p.data = { val := if signed then x.signExtend 64 else x.setWidth 64, taint := r.2.1.taint } ∧
    p.contrib = Contrib.mk 0 none 0 0 0 ∧ p.keyWrite = none ∧ t.mem = s.mem ∧ (t.core n).sbuf = (b.core n).sbuf ∧
    (t.case n k).d = (s.reg n k).d ∧ (t.case n k).flg = (s.reg n k).flg ∧ (t.case n k).shown = (s.reg n k).shown ∧
    (t.case n k).pc = (s.reg n k).pc + 4 ∧ (t.case n k).icount = (s.reg n k).icount + 1

/-- R64: what the store buffer holds of byte j of a line: the youngest of the stores to it. -/
def bufByte (l : List SbEntry) (line j : Nat) : Option Byte :=
  (l.reverse.find? fun e => e.line == line && e.addend.isNone && !e.clean && e.mask.getLsbD j).map fun e =>
    e.data.extractLsb' (8 * j) 8

/-- The command answers a state with one more pending result: of lsu.res, due after 4 issue cycles, its data here: the bytes that
`f` gives, zero- or sign-extended (R230, R233). Memory is as before, and the word is past. -/
def State.loadsHere (s : State) (n k bytes : Nat) (signed : Bool) (f : Nat → Byte) (out : Out) : Prop :=
  ∃ (t : State) (p : Pending) (d : Word), out = .next t ∧ (t.case n k).pend = (s.reg n k).pend ++ [p] ∧ p.port = .lsuRes ∧
    p.due = (s.reg n k).icount + 4 ∧ p.await = .ready ∧ p.data = { val := d } ∧
    (∀ i, i < 8 → d.extractLsb' (8 * i) 8 = if i < bytes then f i else if signed && (f (bytes - 1)).msb then 0xFF else 0) ∧
    t.mem = s.mem ∧ (t.core n).sbuf = ((s.arrivals n k).core n).sbuf ∧ (t.case n k).d = (s.reg n k).d ∧
    (t.case n k).flg = (s.reg n k).flg ∧ (t.case n k).pc = (s.reg n k).pc + 4 ∧ (t.case n k).icount = (s.reg n k).icount + 1

/-- The command answers a state with one more store-buffer entry of the word's task: it writes the `bytes` low bytes of `w`
at physical address `pa` and nothing else. Memory is as before until the entry is performed, and the word is past. -/
def State.buffers (s : State) (n k pa bytes : Nat) (w : Word) (out : Out) : Prop :=
  let b := s.arrivals n k
  ∃ (t : State) (e : SbEntry), out = .next t ∧ (t.core n).sbuf = (b.core n).sbuf ++ [e] ∧ e.task = b.whoIs n k ∧ e.line = pa / 64 ∧
    e.addend = none ∧ e.clean = false ∧ e.leaving = false ∧ e.order = (s.reg n k).stores ∧
    (t.case n k).stores = (s.reg n k).stores + 1 ∧
    (∀ i, i < 64 → e.mask.getLsbD i = (decide (pa % 64 ≤ i) && decide (i < pa % 64 + bytes))) ∧
    (∀ i, i < bytes → e.data.extractLsb' (8 * (pa % 64 + i)) 8 = w.extractLsb' (8 * i) 8) ∧
    t.mem = s.mem ∧ (t.case n k).d = (s.reg n k).d ∧ (t.case n k).flg = (s.reg n k).flg ∧
    (t.case n k).pend = (s.reg n k).pend ∧ (t.case n k).pc = (s.reg n k).pc + 4 ∧
    (t.case n k).icount = (s.reg n k).icount + 1

/-! ### The dual-fetch MAC and the long-vector unit -/

/-- A DFM access at `va` that passes: aligned, translated by x into [lo, hi) of the core's own bank, outside the spill area,
with nothing of the task's to wait for and no error in the bank. -/
def State.dfmFinds (b : State) (n k va lo hi : Nat) (acc : Acc) (x : Xl) : Prop :=
  va % 8 = 0 ∧ b.xlate n (b.case n k) va acc false = .ok x ∧ x.pa % 8 = 0 ∧
    (∃ off, off < hi ∧ lo ≤ off ∧ b.place x.pa = .bank n off ∧ b.inSpill n off 8 = false) ∧
    b.bypassBusy n (b.whoIs n k) (x.pa / 64) = false ∧ b.eccBad = [] ∧ b.eccCorr = [] ∧ x.pa / 64 ∉ b.poison

/-- R82: the 8 bytes a generator, X or Y, fetches at a physical address of the core's own bank: from the line buffer that holds the
row, else from the bank. -/
def State.dfmFetched (b : State) (n : Nat) (y : Bool) (pa : Nat) : Nat :=
  match (if y then (b.core n).dfmY else (b.core n).dfmX).find? (·.row == pa / 64) with
  | some r => leToNat (lineBytes r.data (pa % 64) 8)
  | none => leToNat (b.bytes pa 8)

/-- The next address of a generator (R79): the step, then one turn round the modulo window. -/
def genStep (a step base len : Nat) : Nat :=
  let a := (a + step) % 2 ^ 32
  if len = 0 then a
  else
    let a := if base + len ≤ a then a - len else a
    if a < base then a + len else a

/-- A VXU trigger of the word's task is looked at: the task has vector registers, the shutter path is not active, the datapath
is free. -/
def State.vxuFree (b : State) (n k : Nat) : Bool := !b.noVector n k && !b.braked && (b.core n).vxuLeft == 0

/-- A vxu.op command word is accepted: legal at the task's LEN with width w (R160–R163), no register of it awaited from a load,
no operand slot poisoned, the datapath sound. -/
def State.vxuTakes (b : State) (n k : Nat) (m : VCmd) (w : Nat) : Prop :=
  b.vxuFree n k = true ∧ vLegal m (b.case n k).vlen.toNat = some w ∧ b.vecBusy n k (vRegs m) = false ∧
    b.slotFault n k (vOperands m m.fmt.width (b.case n k).vlen.toNat (b.vxuAct n k m)) = none ∧ (b.core n).badVxu = false

/-- A core's VXU operations in flight are those of another core state and one more after them; of an earlier one only the note
that a later trigger chains on it may have changed (R95). -/
def Core.queues (c b : Core) (q : VxuOp) : Prop :=
  ∃ pre : List VxuOp, c.vxuOps = pre ++ [q] ∧
    pre.map (fun o => { o with chained := false }) = b.vxuOps.map (fun o => { o with chained := false })

/-- The command puts one operation into flight that writes vector register vd: element j becomes f j, modulo 2^w, or keeps its
value where f j is none. The registers themselves change when it completes. -/
def State.vxuWrites (s : State) (n k : Nat) (out : Out) (vd w : Nat) (f : Nat → Option Nat) : Prop :=
  let b := s.arrivals n k
  ∃ t q val bad res, out = .next t ∧ (t.core n).queues (b.core n) q ∧ q.case = k ∧ q.mreg = none ∧
    q.vregs = [(vd, val, bad, res)] ∧
    (∀ j, j < 2048 / w → elemOf val.toNat w j =
      match f j with | some x => x % 2 ^ w | none => elemOf (b.vread n k vd).1.val.toNat w j) ∧
    t.mem = s.mem ∧ (t.case n k).v = (s.reg n k).v ∧ (t.case n k).m = (s.reg n k).m ∧ (t.case n k).d = (s.reg n k).d

/-- The command puts one operation into flight that writes mask register md: bit j becomes f j, or keeps its value. -/
def State.vxuMarks (s : State) (n k : Nat) (out : Out) (md : Nat) (f : Nat → Option Bool) : Prop :=
  let b := s.arrivals n k
  ∃ t q val, out = .next t ∧ (t.core n).queues (b.core n) q ∧ q.case = k ∧ q.vregs = [] ∧
    q.mreg = some (md, val) ∧
    (∀ j, j < 256 → val.getLsbD j = match f j with | some x => x | none => (b.mread n k md).getLsbD j) ∧
    t.mem = s.mem ∧ (t.case n k).v = (s.reg n k).v ∧ (t.case n k).m = (s.reg n k).m ∧ (t.case n k).d = (s.reg n k).d

/-! ### Tiles, descriptors, keys -/

/-- The command counts one accepted TMU trigger: the ticket rises by one, and tmu.stat is due to show it after one issue cycle
with the operations ahead and the compute cycles (Table 05-5). -/
def State.tickets (s : State) (n k ahead cyc : Nat) (t : State) : Prop :=
  (t.case n k).ticket = (s.reg n k).ticket + 1 ∧
    ∃ p, (t.case n k).pend = (s.reg n k).pend ++ [p] ∧ p.port = .tmuStat ∧ p.due = (s.reg n k).icount + 1 ∧ p.await = .ready ∧
      p.data.val.toNat = ((s.reg n k).ticket + 1).toNat + ahead % 4 * 2 ^ 8 + cyc % 2 ^ 16 * 2 ^ 16

/-- The checks of an array-path trigger pass with `cyc` compute cycles: full profile, TSTART.ROW = 0, a legal shape (R120, R130),
room in the queue, no hold, no tile in use, no poisoned operand row. -/
def State.arrayTakes (b : State) (n k : Nat) (kind : ArrKind) (cyc : Nat) : Prop :=
  let h := shapeOf ((b.case n k).opnd_ 0x280)
  b.noTile n k = false ∧ (b.case n k).tstart.toNat % 256 = 0 ∧ arrLegal h kind = some cyc ∧
    (b.core n).arrayQ.length < 3 ∧ b.arrayHeld n = false ∧ b.tileBusy n k false kind.reads kind.writes = false ∧
    b.rowFault n k h kind = none

/-- A storage place of core n's own bank can be read and written without error: the bytes [pa, pa + len) lie in it, outside
its spill area, in one 64-byte line that is not poisoned, no error is hidden anywhere, and the core's bond carries none. -/
def State.sound (b : State) (n pa len : Nat) : Prop :=
  (∃ off, b.place pa = .bank n off ∧ off + len ≤ 0x40000 ∧ b.inSpill n off len = false) ∧ b.clusterOn n = true ∧
    0 < len ∧ pa % 64 + len ≤ 64 ∧ b.eccBad = [] ∧ b.eccCorr = [] ∧ pa / 64 ∉ b.poison ∧ (b.core n).badBond = false

/-- The key unit's access of 16 bytes at kyu.addr passes, with the translation x, into the core's own bank. -/
def State.kyuFinds (b : State) (n k : Nat) (acc : Acc) (x : Xl) : Prop :=
  let c := b.case n k
  let va := c.bnk.toNat % 2 ^ 16 * 2 ^ 32 + (c.opnd_ 0x401).toNat % 2 ^ 32
  va % 16 = 0 ∧ c.keyDue = false ∧ b.xlate n c va acc true true = .ok x ∧ x.pa % 16 = 0 ∧
    b.storesTo n (b.whoIs n k) (x.pa / 64) = false ∧ b.bypassBusy n (b.whoIs n k) (x.pa / 64) = false ∧ b.sound n x.pa 16

/-! ### What every step keeps -/

/-- Memory is in its canonical form. -/
def State.MemOk (s : State) : Prop := memWf s.mem = true

end Sys2Proof.Machine
end

