-- ==== Sys2Proof/Certificates/Slice0/Obligations.lean ====
section
/-! DEFINITION. The statements about the block, one definition each. A statement about a command that issues a word names the
casement k that holds the issue slot; `b` is the state the word finds, after what is due has arrived (R43). -/

open Sys2Proof Sys2Proof.Machine

/-! ### The machine -/

/-- The step of a state with a command at the front of its queue is that command's effect on the state with the rest of the
queue. -/
def Obligations.StepTakesFront : Prop :=
  ∀ (c : Instr) (s : State), step { s with pending := c :: s.pending } = exec c s

/-- With no command waiting, a step is one core_clk cycle: the model's own choice (log entry on the empty queue). While
RESET_N is low or the clocks are stopped nothing changes (R370, R413). -/
def Obligations.StepTicksWhenIdle : Prop :=
  ∀ s : State, s.pending = [] →
    (s.live = false → step s = .next s) ∧
    (s.live = true → ∃ t : State, step s = .next t ∧ t.now = s.now + 1 ∧ t.mem = s.mem ∧ t.pending = [] ∧
      (∀ n k, t.case n k = s.case n k) ∧
      (∀ n, (t.core n).divLeft = (s.core n).divLeft - 1 ∧ (t.core n).vxuLeft = (s.core n).vxuLeft - 1 ∧
        (t.core n).tmrCount =
          if (s.core n).tmrCount = 0 ∨ (s.core n).lockCause ≠ 0 then (s.core n).tmrCount else (s.core n).tmrCount - 1) ∧
      t.power = { s.power with lift := if s.power.shut then 0 else min 375000 (s.power.lift + 1) })

/-- No command of the table stops the block: each answers a next state in every state. That a command which names something
absent, or finds nothing to do, changes nothing and goes on is the model's choice (log entry 5; the notes' '## Stops' list
none). -/
def Obligations.EveryCommandAnswers : Prop := ∀ (i : Instr) (s : State), ∃ t : State, exec i s = .next t

/-- The reset values the spec gives, kind by kind: GSEL (Table 02-8), the LFSRs (R234), PLIM and TLIM (Table 16-6), the digest
interval, MPSTAT.CAUSE (Table 16-2), and zero for every other register looked at. -/
def Obligations.ResetValues : Prop :=
  ∀ n k : Nat,
    (State.reset.case n k).gsel = 0x0040404040404040 ∧ (State.reset.case n k).flg = 0 ∧ (State.reset.case n k).fpc = 0 ∧
    (State.reset.case n k).rptc = 0 ∧ (State.reset.case n k).dsp = 0 ∧ (State.reset.case n k).bnk = 0 ∧
    (∀ j, (State.reset.case n k).dreg j = 0) ∧ (∀ j, (State.reset.case n k).key j = 0) ∧
    (∀ p, ((State.reset.case n k).port p).val = 0) ∧
    (∀ b, (State.reset.case n k).bit b = (b == 0)) ∧
    (State.reset.core n).dlfsr = BitVec.ofNat 16 (n + 1) ∧ (State.reset.core n).ilfsr = BitVec.ofNat 16 (0xFFFF - n) ∧
    (State.reset.core n).running = none ∧ (State.reset.core n).lockCause = 0 ∧ (State.reset.cluster n).dst = .off ∧
    (State.reset.port n).st = .off ∧ (State.reset.link n).st = .off ∧ State.reset.drain.st = .run ∧
    State.reset.power.plim = 1400 ∧ State.reset.digest.interval = 16 ∧ State.reset.beat.en = false ∧
    State.reset.domstat = 0 ∧ State.reset.pending = [] ∧ (∀ a, State.reset.byte a = 0)

/-! ### Memory -/

/-- Memory keeps its canonical form over every step, of a command or of the clock. -/
def Obligations.StepKeepsMemoryForm : Prop := ∀ s t : State, s.MemOk → step s = .next t → t.MemOk

/-- Reset memory is in canonical form. -/
def Obligations.ResetMemoryForm : Prop := State.reset.MemOk

/-- A write to storage changes the bytes it stores to and no other byte; a read gives what was written.

A write clears the tag of every granule it touches and of no other (R279), and a write of clean data that covers a whole
64-byte line clears its poison while a smaller one leaves it (R322, R334). -/
def Obligations.StorageWrite : Prop :=
   (∀ (s : State) (a : Nat) (bs : List Byte) (bad : Bool),
      (∀ i, i < bs.length → (s.writeStore a bs bad).byte (a + i) = bs.getD i 0) ∧
      (∀ x, (x < a ∨ a + bs.length ≤ x) → (s.writeStore a bs bad).byte x = s.byte x)) ∧
   (∀ (s : State) (a : Nat) (bs : List Byte), s.eccBad = [] → s.eccCorr = [] → bs ≠ [] →
      (∀ g, g ∈ (s.writeStore a bs false).tags ↔ g ∈ s.tags ∧ (g * 16 + 16 ≤ a ∨ a + bs.length ≤ g * 16)) ∧
      (∀ l, l ∈ (s.writeStore a bs false).poison ↔ l ∈ s.poison ∧ ¬(a ≤ l * 64 ∧ l * 64 + 64 ≤ a + bs.length)) ∧
      (∀ l, l ∈ (s.writeStore a bs true).poison ↔
        l ∈ s.poison ∨ (a < l * 64 + 64 ∧ l * 64 < a + bs.length)))

/-! ### Code words and issue -/

/-- The words of Table 02-16, written out as the spec encodes them, decode to the moves the table gives them; the
first long word carries its 32-bit immediate in the word after it; an encoding with E = 2 is a decode fault (R36). -/
def Obligations.CodeWordsDecode : Prop :=
  decodeWord 0x80E020DC 0 =
    some [{ long := false, guard := 0, src := .sock 1, dst := 0x60 }, { long := false, guard := 0, src := .imm 0, dst := 0x6E }] ∧
  decodeWord 0x040201B8 0 = some [{ src := .imm 8, dst := 0x6E }] ∧
  decodeWord 0x00000000 0 = some [{ src := .sock 0, dst := 0 }] ∧
  decodeWord 0x001F8080 0 = some [{ src := .sock 0x7E, dst := 0x20 }] ∧
  decodeWord 0x001F8100 0 = some [{ src := .sock 0x7E, dst := 0x40 }] ∧
  decodeWord 0x98A02550 0 =
    some [{ long := false, guard := 0, src := .sock 0x51, dst := 0x20 }, { long := false, guard := 0, src := .imm 5, dst := 0x28 }] ∧
  decodeWord 0x0014001C 0 = some [{ src := .sock 0x50, dst := 7 }] ∧
  decodeWord 0x0000001D 0x80000000 = some [{ src := .imm 0xFFFFFFFF80000000, dst := 7 }] ∧
  decodeWord 0x0000001E 0 = none

/-- What every issued word does beside its own effect, for an ordinary word that enters and leaves no wicket and no frame and is
no sys.wait of the keeper: the program counter of its casement moves past the word, one issue cycle is counted, nothing waits
any more, and the contributions that landed in its cycle are in the registers (R94); the other registers of the casement looked
at, every other casement, every other core's units and memory stay as the effect left them.

The second delay slot of a taken transfer is followed by the target, and by nothing else; a call pushes the address of the
word after that slot (R48, R74).

A repeat body keeps the program counter while executions remain and moves past the body after the last; COUNT falls by
one each time, and the repeat ends with COUNT = 0 and ACT = 0 (R49, Table 02-14).

Two points are the model's choice: the return address enters the hardware stack with the second delay slot (log entry 109), and a
body with ACT = 1 and COUNT = 0, which only a written or restored RPTC gives, runs once and ends (log entry 108). -/
def Obligations.IssueAdvances : Prop :=
  (
    ∀ (s s1 : State) (n k sock : Nat) (v : Word), sock < 4096 → sock ≠ 0x494 → sock ≠ 0x495 → (k = 8 → sock ≠ 0x496) →
      s.calm n k = true →
      let t := s1.commit (s.arrivals n k) n k (.move (BitVec.ofNat 12 sock) v)
      s.issues n k sock v s1 = .next t ∧
      (t.case n k).pc = (s.reg n k).pc + 4 ∧ (t.case n k).icount = (s1.case n k).icount + 1 ∧
      (t.case n k).waiting = none ∧ (t.case n k).first = false ∧
      (t.case n k).d = (s1.case n k).d ∧ (t.case n k).flg = (s1.case n k).flg ∧ (t.case n k).pend = (s1.case n k).pend ∧
      (t.case n k).shown = (s1.case n k).shown ∧ (t.case n k).opnd = (s1.case n k).opnd ∧
      (t.case n k).bits = (s1.case n k).bits ∧ (t.case n k).k = (s1.case n k).k ∧ (t.case n k).x = (s1.case n k).x ∧
      (t.case n k).fpc = (s1.case n k).settleRegs.fpc ∧ (t.case n k).acc = (s1.case n k).acc ∧ (t.case n k).v = (s1.case n k).v ∧
      (t.case n k).t = (s1.case n k).t ∧ (t.case n k).rptc = (s1.case n k).rptc ∧ (t.case n k).dsp = (s1.case n k).dsp ∧
      (∀ m j, (m, j) ≠ (n, k) → t.case m j = s1.case m j) ∧
      (∀ m, (t.core m).sbuf = (s1.core m).sbuf ∧ (t.core m).dcache = (s1.core m).dcache ∧
        (t.core m).tlb = (s1.core m).tlb ∧ (t.core m).running = (s1.core m).running ∧
        (t.core m).readyQ = (s1.core m).readyQ) ∧
      t.mem = s1.mem ∧ t.packets = s1.packets ∧ t.links = s1.links ∧ t.mail = s1.mail ∧ t.log = s1.log) ∧
  (
     (∀ (c old : Casement) (len : Nat) (x : Transfer), old.inBody = false → old.xfer = some x →
        (x.slots = 2 → (c.advance old len false).pc = old.pc + BitVec.ofNat 48 len ∧
          (c.advance old len false).xfer = some { x with slots := 1 }) ∧
        (x.slots = 1 → (c.advance old len false).pc = x.target ∧
          (c.advance old len false).rstack =
            if x.call then (old.pc + BitVec.ofNat 48 len) :: c.rstack else c.rstack)) ∧
     (∀ (c old : Casement) (len : Nat), old.inBody = true → old.xfer = none →
        let r := (c.advance old len false).rptc
        (1 < old.rptc.toNat % 2 ^ 32 → (c.advance old len false).pc = old.pc ∧
          r.toNat % 2 ^ 32 = old.rptc.toNat % 2 ^ 32 - 1 ∧ r.getLsbD 33 = true ∧ r.getLsbD 32 = old.rptc.getLsbD 32) ∧
        (old.rptc.toNat % 2 ^ 32 ≤ 1 → (c.advance old len false).pc = old.pc + BitVec.ofNat 48 len ∧ r = 0)))

/-- A result triggered with delay d is not shown before d issue cycles have passed and is shown from then on, where no other
result of the port is pending (R43).

Of two results of one port whose delays end at the same issue cycle, the later trigger's is shown, and both land their
contributions, which are in the registers once the cycle has ended (R43, R94). -/
def Obligations.ResultsArrive : Prop :=
   (∀ (c : Casement) (p : Port) (d e : Nat) (v : Word), (∀ x ∈ c.pend, c.icount + e < x.due) →
      let after := Casement.deliver { c.addPend p d v with icount := c.icount + e }
      (e < d → after.port p = c.port p) ∧
      (d ≤ e → after.port p = { val := v } ∧ ∀ q, q ≠ p → after.port q = c.port q)) ∧
   (∀ (c : Casement) (p : Port) (d : Nat) (v w : PortVal) (x y : Contrib), c.pend = [] → c.landed = {} →
      let c2 := (c.addPending { port := p, due := d, id := 0, data := v, contrib := x }).addPending
        { port := p, due := d, id := 0, data := w, contrib := y }
      let after := Casement.deliver { c2 with icount := c.icount + d }
      after.port p = w ∧ after.pend = [] ∧
      after.fpc = c.fpc ∧ after.nsat = c.nsat ∧
      after.settleRegs.fpc = c.fpc ||| BitVec.ofNat 64 (x.flags.toNat * 256) ||| BitVec.ofNat 64 (y.flags.toNat * 256) ∧
      after.settleRegs.nsat = bumpBy (bumpBy c.nsat x.nsat) y.nsat)

/-! ### ALU -/

/-- The flag-setting triggers (Table 03-1): the result on alu.res after one issue cycle, and FLG; alu.cmp writes only FLG, as
alu.sub would.

The triggers of Table 03-2 that write no flags and do not divide: the result after one issue cycle on alu.res, or after
three on alu.mres. -/
def Obligations.AluFlagRows : Prop :=
   (∀ (core : CoreId) (v : Word) (s : State) (k : Nat), s.ready core.val k = true →
      let n := core.val
      let a := (s.reg n k).opnd_ 0x20
      let cin := flgC (s.reg n k).flg
      let sh := v.toNat % 64
      let out := fun (sock : Nat) (r : Word) (c o : Bool) =>
        s.changes n k sock v fun x => Casement.addPend { x with flg := flgWord r c o } .aluRes 1 r
      exec (.aluAdd core v) s = out 0x28 (a + v) (decide (2 ^ 64 ≤ a.toNat + v.toNat)) (BitVec.saddOverflow a v) ∧
      exec (.aluSub core v) s = out 0x29 (a - v) (a.ult v) (BitVec.ssubOverflow a v) ∧
      exec (.aluAdc core v) s = out 0x2A (a + v + BitVec.setWidth 64 (BitVec.ofBool cin))
        (decide (2 ^ 64 ≤ a.toNat + v.toNat + cin.toNat))
        (decide (a.toInt + v.toInt + cin.toNat < -2 ^ 63 ∨ 2 ^ 63 ≤ a.toInt + v.toInt + cin.toNat)) ∧
      exec (.aluSbc core v) s = out 0x2B (a - v - BitVec.setWidth 64 (BitVec.ofBool cin))
        (decide (a.toNat < v.toNat + cin.toNat))
        (decide (a.toInt - v.toInt - cin.toNat < -2 ^ 63 ∨ 2 ^ 63 ≤ a.toInt - v.toInt - cin.toNat)) ∧
      exec (.aluAnd core v) s = out 0x2C (a &&& v) false false ∧
      exec (.aluOr core v) s = out 0x2D (a ||| v) false false ∧
      exec (.aluXor core v) s = out 0x2E (a ^^^ v) false false ∧
      exec (.aluAndn core v) s = out 0x2F (a &&& ~~~v) false false ∧
      exec (.aluShl core v) s = out 0x30 (a <<< sh) (decide (1 ≤ sh) && a.getLsbD (64 - sh)) false ∧
      exec (.aluShr core v) s = out 0x31 (a >>> sh) (decide (1 ≤ sh) && a.getLsbD (sh - 1)) false ∧
      exec (.aluSar core v) s = out 0x32 (a.sshiftRight sh) (decide (1 ≤ sh) && a.getLsbD (sh - 1)) false ∧
      exec (.aluRol core v) s = out 0x33 ((a <<< sh) ||| (a >>> (64 - sh))) (decide (1 ≤ sh) && a.getLsbD (64 - sh)) false ∧
      exec (.aluCmp core v) s =
        s.changes n k 0x34 v fun x => Casement.touch { x with flg := flgWord (a - v) (a.ult v) (BitVec.ssubOverflow a v) } 0) ∧
   (∀ (core : CoreId) (v : Word) (s : State) (k : Nat), s.ready core.val k = true →
      let n := core.val
      let a := (s.reg n k).opnd_ 0x20
      let j := v.toNat % 64
      let out := fun (sock : Nat) (p : Port) (d : Nat) (r : Word) => s.changes n k sock v fun x => x.addPend p d r
      exec (.aluMin core v) s = out 0x35 .aluRes 1 (if a.sle v then a else v) ∧
      exec (.aluMax core v) s = out 0x36 .aluRes 1 (if a.sle v then v else a) ∧
      exec (.aluMinu core v) s = out 0x37 .aluRes 1 (if a.ule v then a else v) ∧
      exec (.aluMaxu core v) s = out 0x38 .aluRes 1 (if a.ule v then v else a) ∧
      exec (.aluSext core v) s = out 0x39 .aluRes 1 ((a <<< (63 - j)).sshiftRight (63 - j)) ∧
      exec (.aluMul core v) s = out 0x40 .aluMres 3 (a * v) ∧
      exec (.aluMulh core v) s = out 0x41 .aluMres 3 ((a.signExtend 128 * v.signExtend 128).extractLsb' 64 64) ∧
      exec (.aluMulhu core v) s = out 0x42 .aluMres 3 ((a.setWidth 128 * v.setWidth 128).extractLsb' 64 64))

/-- Division never faults: a division that is accepted answers a result whatever the operands are. By zero the quotients are
all ones and the remainders o1; −2⁶³ ÷ −1 gives −2⁶³ and remainder 0.

The division triggers: where the core's divider is free they take it for 20 cycles and their result, of the sign rules of
Table 03-2, is due on alu.dres after 20 issue cycles; where it is occupied the word waits. -/
def Obligations.DivisionEdges : Prop :=
  (
    ∀ (core : CoreId) (v : Word) (s : State) (k : Nat), s.ready core.val k = true →
      let n := core.val
      let b := s.arrivals n k
      let a := (s.reg n k).opnd_ 0x20
      let put := fun (sock : Nat) (r : Word) => s.issues n k sock v
        ((b.onCore n fun c => { c with divLeft := 20 }).onCase n k fun c => c.addPend .aluDres 20 r)
      (b.core n).divLeft = 0 →
      ((∃ r, exec (.aluDiv core v) s = put 0x48 r) ∧ (∃ r, exec (.aluDivu core v) s = put 0x49 r) ∧
        (∃ r, exec (.aluRem core v) s = put 0x4A r) ∧ (∃ r, exec (.aluRemu core v) s = put 0x4B r)) ∧
      (v = 0 →
        exec (.aluDiv core v) s = put 0x48 0xFFFFFFFFFFFFFFFF ∧ exec (.aluDivu core v) s = put 0x49 0xFFFFFFFFFFFFFFFF ∧
        exec (.aluRem core v) s = put 0x4A a ∧ exec (.aluRemu core v) s = put 0x4B a) ∧
      (a = 0x8000000000000000 → v = 0xFFFFFFFFFFFFFFFF →
        exec (.aluDiv core v) s = put 0x48 0x8000000000000000 ∧ exec (.aluRem core v) s = put 0x4A 0)) ∧
  (
    ∀ (core : CoreId) (v : Word) (s : State) (k : Nat), s.ready core.val k = true →
      let n := core.val
      let b := s.arrivals n k
      let a := (s.reg n k).opnd_ 0x20
      let put := fun (sock : Nat) (r : Word) => s.issues n k sock v
        ((b.onCore n fun c => { c with divLeft := 20 }).onCase n k fun c => c.addPend .aluDres 20 r)
      let waits := fun (sock : Nat) => (.next (b.hold n k .busy (.move (BitVec.ofNat 12 sock) v) []) : Out)
      ((b.core n).divLeft = 0 → v ≠ 0 →
        exec (.aluDiv core v) s = put 0x48 (a.sdiv v) ∧ exec (.aluDivu core v) s = put 0x49 (a / v) ∧
        exec (.aluRem core v) s = put 0x4A (a.srem v) ∧ exec (.aluRemu core v) s = put 0x4B (a % v)) ∧
      (0 < (b.core n).divLeft →
        exec (.aluDiv core v) s = waits 0x48 ∧ exec (.aluDivu core v) s = waits 0x49 ∧
        exec (.aluRem core v) s = waits 0x4A ∧ exec (.aluRemu core v) s = waits 0x4B))

/-! ### BIT -/

/-- The triggers that write a bit variable or a group (R67): n = v[11:0], g = v[5:0], b0 keeps its 1; a watch is armed or
disarmed on a signal bit, and with n below 3072 the word raises ILLEGAL_MOVE (R71).

What a write of a bit variable or of a group does: the bits named take the value, every other bit variable keeps its own,
and b0 reads 1 whatever is written (R39, R66, R67).

A short guard names b0 to b3 and has no inversion; b0 reads 1 and every write to it is discarded, so that short guard
0b00 always holds. -/
def Obligations.BitWriteRows : Prop :=
  (
     (∀ (core : CoreId) (v : Word) (s : State) (k : Nat), s.ready core.val k = true → (s.reg core.val k).gBad = 0 →
        let n := core.val
        let a := (s.reg n k).opnd_ 0x80
        let i := v.toNat % 4096
        let g := v.toNat % 64
        exec (.bitSet core v) s = s.changes n k 0x88 v (·.setBit i true) ∧
        exec (.bitClr core v) s = s.changes n k 0x89 v (·.setBit i false) ∧
        exec (.bitTgl core v) s = s.changes n k 0x8A v (·.setBit i (!(s.reg n k).bit i)) ∧
        exec (.bitPut core v) s = s.changes n k 0x8B v (·.setBit i (a.getLsbD 0)) ∧
        exec (.bitSt64 core v) s = s.changes n k 0x8E v (·.setGroup g a) ∧
        (3072 ≤ i → exec (.bitWatch core v) s = s.changes n k 0x8F v fun x => Casement.touch
          { x with watches := if a.getLsbD 0 then setAdd x.watches i else setDel x.watches i } 0) ∧
        (i < 3072 → exec (.bitWatch core v) s = .next ((s.arrivals n k).raise n k { cls := clsILLEGAL } false))) ∧
     (∀ (c : Casement) (i j g : Nat) (x : Bool) (w : Word), i < 4096 → j < 4096 → g < 64 →
        (c.setBit i x).bit j = (if j = 0 then true else if j = i then x else c.bit j) ∧
        (c.setGroup g w).bit j = (if j = 0 then true else if j / 64 = g then w.getLsbD (j % 64) else c.bit j) ∧
        (c.setGroup g w).group g = (if g = 0 then w ||| 1 else w))) ∧
  (
    ∀ (c : Casement) (m : Move), m.long = false →
      c.guardTrue m = some (c.bit m.guard) ∧ (m.guard = 0 → c.guardTrue m = some true) ∧
      c.bit 0 = true ∧ (∀ w : Word, (c.setGroup 0 w).bit 0 = true) ∧ (∀ x : Bool, ∀ j, (c.setBit 0 x).bit j = c.bit j) ∧
      (∀ w e ms, decodeWord w e = some ms → m ∈ ms → m.guard < 4))

/-- The triggers whose result goes on bit.res (Table 03-6), after one issue cycle: the bit or group as it stands, counts of
bits, reversals; LEN 0 or above 64 raises ILLEGAL_MOVE and a field that would pass bit 63 ends there (R68). -/
def Obligations.BitResultRows : Prop :=
  ∀ (core : CoreId) (v : Word) (s : State) (k : Nat), s.ready core.val k = true → (s.reg core.val k).gBad = 0 →
    let n := core.val
    let a := (s.reg n k).opnd_ 0x80
    let old := ((s.reg n k).port .bitRes).val
    let lsb := v.toNat % 64
    let len := v.toNat / 64 % 128
    let m := min len (64 - lsb)
    let out := fun (sock : Nat) (r : Word) => s.changes n k sock v fun x => x.addPend .bitRes 1 r
    let faults := (.next ((s.arrivals n k).raise n k { cls := clsILLEGAL } false) : Out)
    exec (.bitGet core v) s = out 0x8C (BitVec.setWidth 64 (BitVec.ofBool ((s.reg n k).bit (v.toNat % 4096)))) ∧
    exec (.bitLd64 core v) s = out 0x8D ((s.reg n k).group (v.toNat % 64)) ∧
    (∃ r, exec (.bitPopc core v) s = out 0x90 (BitVec.ofNat 64 r) ∧ r = ((List.range 64).filter v.getLsbD).length) ∧
    (∃ r, exec (.bitClz core v) s = out 0x91 (BitVec.ofNat 64 r) ∧ r ≤ 64 ∧ (∀ i, i < r → v.getMsbD i = false) ∧
      (r < 64 → v.getMsbD r = true)) ∧
    (∃ r, exec (.bitCtz core v) s = out 0x92 (BitVec.ofNat 64 r) ∧ r ≤ 64 ∧ (∀ i, i < r → v.getLsbD i = false) ∧
      (r < 64 → v.getLsbD r = true)) ∧
    (∃ r : Word, exec (.bitBswap core v) s = out 0x93 r ∧ ∀ i, i < 64 → r.getLsbD i = v.getLsbD (8 * (7 - i / 8) + i % 8)) ∧
    (∃ r : Word, exec (.bitRev core v) s = out 0x94 r ∧ ∀ i, i < 64 → r.getLsbD i = v.getLsbD (63 - i)) ∧
    (∃ r : Word, exec (.bitPar core v) s = out 0x95 r ∧
      r = if ((List.range 64).filter v.getLsbD).length % 2 = 1 then 1 else 0) ∧
    (1 ≤ len → len ≤ 64 →
      (∃ r : Word, exec (.bitExt core v) s = out 0x96 r ∧ ∀ i, i < 64 → r.getLsbD i =
        if i < m then a.getLsbD (lsb + i) else v.getLsbD 13 && a.getLsbD (lsb + m - 1)) ∧
      (∃ r : Word, exec (.bitIns core v) s = out 0x97 r ∧ ∀ i, i < 64 → r.getLsbD i =
        if lsb ≤ i ∧ i < lsb + m then a.getLsbD (i - lsb) else old.getLsbD i)) ∧
    ((len = 0 ∨ 64 < len) → exec (.bitExt core v) s = faults ∧ exec (.bitIns core v) s = faults)

/-! ### BRU -/

/-- Control transfers (Table 03-7) of an ordinary word: a target that is a multiple of 4 is taken after two delay slots, of an
absolute form v[47:0] and of a relative one the address of the word plus v; a call notes that its return address is to be
pushed, a ret pops the return stack.

A target whose low two bits are not 0 raises ALIGN at the transfer; a ret with nothing to return to, and a call that must
spill while DEPTH = 0xFFFF, raise ILLEGAL_MOVE.

In a delay slot of a taken transfer and in a repeat body a control transfer, a repeat prefix, sys.wkt and sys.wret raise
ILLEGAL_MOVE.

The return stack in memory (R74, R75): a call that finds all 32 entries full first stores the oldest one at PTR and raises PTR by 8
and DEPTH by 1; a ret that finds the hardware stack empty and DEPTH > 0 lowers them and goes to the entry at the new PTR, here
in an uncached extent of the core's own bank.

That a call only notes the push at the trigger, and pushes with the second delay slot, is the model's choice (log entry 109). -/
def Obligations.TransferRows : Prop :=
   (∀ (core : CoreId) (v : Word) (s : State) (k : Nat), s.ready core.val k = true → s.free_ core.val k = true →
      let n := core.val
      let c := s.reg n k
      let abs : BitVec 48 := v.setWidth 48
      let rel : BitVec 48 := c.pc + v.setWidth 48
      let takes := fun (sock : Nat) (t : BitVec 48) (call : Bool) (f : Casement → Casement) =>
        s.changes n k sock v fun x => Casement.touch { f x with xfer := some { target := t, slots := 2, call := call } } 0
      (abs.toNat % 4 = 0 →
        exec (.bruJmp core v) s = takes 0xC8 abs false id ∧
        (c.rstack.length < 32 → exec (.bruCall core v) s = takes 0xCA abs true id)) ∧
      (rel.toNat % 4 = 0 →
        exec (.bruBr core v) s = takes 0xC9 rel false id ∧
        (c.rstack.length < 32 → exec (.bruCallr core v) s = takes 0xCB rel true id)) ∧
      (∀ t rest, c.rstack = t :: rest → t.toNat % 4 = 0 →
        exec (.bruRet core v) s = takes 0xCC t false fun x => { x with rstack := rest })) ∧
   (∀ (core : CoreId) (v : Word) (s : State) (k : Nat), s.ready core.val k = true → s.free_ core.val k = true →
      let n := core.val
      let c := s.reg n k
      let faults := fun (cls : BitVec 8) => (.next ((s.arrivals n k).raise n k { cls := cls } false) : Out)
      (v.toNat % 4 ≠ 0 → exec (.bruJmp core v) s = faults clsALIGN ∧ exec (.bruCall core v) s = faults clsALIGN) ∧
      ((c.pc.toNat + v.toNat) % 4 ≠ 0 → exec (.bruBr core v) s = faults clsALIGN ∧ exec (.bruCallr core v) s = faults clsALIGN) ∧
      (c.rstack = [] → c.rsa.toNat / 2 ^ 48 = 0 → exec (.bruRet core v) s = faults clsILLEGAL) ∧
      (v.toNat % 4 = 0 → c.rstack.length = 32 → c.rsa.toNat / 2 ^ 48 = 0xFFFF → exec (.bruCall core v) s = faults clsILLEGAL)) ∧
   (∀ (core : CoreId) (v : Word) (s : State) (k : Nat), s.ready core.val k = true → s.free_ core.val k = false →
      let faults := (.next ((s.arrivals core.val k).raise core.val k { cls := clsILLEGAL } false) : Out)
      exec (.bruJmp core v) s = faults ∧ exec (.bruBr core v) s = faults ∧ exec (.bruCall core v) s = faults ∧
      exec (.bruCallr core v) s = faults ∧ exec (.bruRet core v) s = faults ∧ exec (.bruRpt core v) s = faults ∧
      exec (.bruRptu core v) s = faults ∧ exec (.sysWkt core v) s = faults ∧ exec (.wicketReturn core v) s = faults ∧
      exec (.frameReturn core v) s = faults) ∧
   (∀ (core : CoreId) (v : Word) (s : State) (k : Nat) (x : Xl), s.ready core.val k = true → s.calm core.val k = true →
      let n := core.val
      let b := s.arrivals n k
      let c := s.reg n k
      let ptr := c.rsa.toNat % 2 ^ 48
      let depth := c.rsa.toNat / 2 ^ 48
      let last := (ptr + 2 ^ 48 - 8) % 2 ^ 48
      let entry := BitVec.ofNat 64 (leToNat (b.bytes x.pa 8))
      (∀ old rest, c.rstack = rest ++ [old] → c.rstack.length = 32 → depth ≠ 0xFFFF → b.freshEntry n k = true → x.type ≠ .device →
        x.pa % 64 = ptr % 64 → b.passes n k ptr 8 .rsWrite false x →
        ∀ (i : Instr) (target : BitVec 48), (i, target) ∈ [(Instr.bruCall core v, v.setWidth 48), (.bruCallr core v, c.pc + v.setWidth 48)] →
          target.toNat % 4 = 0 → s.buffers n k x.pa 8 (old.setWidth 64) (exec i s) ∧
          ∃ t : State, exec i s = .next t ∧ (t.case n k).rstack = rest ∧
            (t.case n k).rsa.toNat = (ptr + 8) % 2 ^ 48 + (depth + 1) * 2 ^ 48 ∧
            (t.case n k).xfer = some { target := target, slots := 2, call := true }) ∧
      (c.rstack = [] → depth ≠ 0 → b.passes n k last 8 .rsRead false x → b.direct n k x = true → b.sound n x.pa 8 →
        entry.toNat % 4 = 0 → ∃ t : State, exec (.bruRet core v) s = .next t ∧ (t.case n k).rstack = [] ∧
          (t.case n k).rsa.toNat = last + (depth - 1) * 2 ^ 48 ∧
          (t.case n k).xfer = some { target := entry.setWidth 48, slots := 2, call := false } ∧
          (t.case n k).pc = c.pc + 4 ∧ (t.case n k).d = c.d ∧ (t.case n k).pend = c.pend ∧ t.mem = s.mem))

/-- The repeat prefixes: COUNT is bits [31:0] of the trigger value of bru.rpt and 0 to 64 of bru.rptu, where a value above 64
raises ILLEGAL_MOVE; with COUNT = 0 the body is passed over. -/
def Obligations.RepeatRows : Prop :=
  ∀ (core : CoreId) (v : Word) (s : State) (k : Nat), s.ready core.val k = true → s.free_ core.val k = true →
    let n := core.val
    let sets := fun (sock : Nat) (r : Word) => s.changes n k sock v fun x => Casement.touch { x with rptc := r } 0
    let passes := fun (sock : Nat) => s.changes n k sock v fun x => Casement.touch { x with skip := true } 0
    (v.toNat % 2 ^ 32 ≠ 0 → exec (.bruRpt core v) s = sets 0xCD (BitVec.ofNat 64 (2 ^ 33 + v.toNat % 2 ^ 32))) ∧
    (v.toNat % 2 ^ 32 = 0 → exec (.bruRpt core v) s = passes 0xCD) ∧
    (0 < v.toNat → v.toNat ≤ 64 → exec (.bruRptu core v) s = sets 0xCE (BitVec.ofNat 64 (2 ^ 33 + 2 ^ 32 + v.toNat))) ∧
    (v = 0 → exec (.bruRptu core v) s = passes 0xCE) ∧
    (64 < v.toNat → exec (.bruRptu core v) s = .next ((s.arrivals n k).raise n k { cls := clsILLEGAL } false)) ∧
    (∀ (u : State) (sock : Nat) (w : Word), u.issuer n = some k → (u.case n k).waiting = none → (u.case n k).skip = true →
      ((u.issueMove n sock w).case n k).pc = (u.case n k).pc + 4 ∧ ((u.issueMove n sock w).case n k).skip = false ∧
      ((u.issueMove n sock w).case n k).icount = (u.case n k).icount ∧
      ((u.issueMove n sock w).case n k).pend = (u.case n k).pend)

/-! ### LSU -/

/-- Loads (Table 03-4) that bypass the cache and read the core's own bank: the bytes at the address R59 forms, zero- or
sign-extended, are due on lsu.res after 4 issue cycles.

The LSU triggers raise the first fault of Table 09-11 they meet, at the word and without effect:
ALIGN, then what translation finds; a fault found in a leaf leaves that leaf in the core's TLB (R213).

A cacheable load (R64, R230, R233) takes each byte from the youngest buffered store to it, else from the line in the data cache,
whatever memory holds; all its bytes may come from the buffer. On a miss the line's fill begins and the result waits for it; a
line that follows the last missed one is left out here (the prefetch of R233). -/
def Obligations.LoadRows : Prop :=
   (∀ (core : CoreId) (v : Word) (s : State) (k : Nat) (x : Xl), s.ready core.val k = true → s.calm core.val k = true →
      let n := core.val
      let b := s.arrivals n k
      let va := (s.reg n k).bnk.toNat % 2 ^ 16 * 2 ^ 32 + (((s.reg n k).opnd_ 0x60).toNat + v.toNat) % 2 ^ 32
      b.direct n k x = true →
      (b.passes n k va 1 .read true x →
        s.loads n k x.pa 1 false .lsuRes (exec (.lsuLd8u core v) s) ∧ s.loads n k x.pa 1 true .lsuRes (exec (.lsuLd8s core v) s)) ∧
      (b.passes n k va 2 .read true x →
        s.loads n k x.pa 2 false .lsuRes (exec (.lsuLd16u core v) s) ∧
        s.loads n k x.pa 2 true .lsuRes (exec (.lsuLd16s core v) s)) ∧
      (b.passes n k va 4 .read true x →
        s.loads n k x.pa 4 false .lsuRes (exec (.lsuLd32u core v) s) ∧
        s.loads n k x.pa 4 true .lsuRes (exec (.lsuLd32s core v) s)) ∧
      (b.passes n k va 8 .read true x → s.loads n k x.pa 8 false .lsuRes (exec (.lsuLd64 core v) s))) ∧
   (∀ (core : CoreId) (v : Word) (s : State) (k : Nat), s.ready core.val k = true →
      let n := core.val
      let b := s.arrivals n k
      let c := s.reg n k
      let va := c.bnk.toNat % 2 ^ 16 * 2 ^ 32 + ((c.opnd_ 0x60).toNat + v.toNat) % 2 ^ 32
      ∀ (i : Instr) (bytes : Nat) (acc : Acc) (dev : Bool), (i, bytes, acc, dev) ∈
        [(Instr.lsuLd16u core v, 2, Acc.read, true), (.lsuLd16s core v, 2, .read, true), (.lsuLd32u core v, 4, .read, true),
         (.lsuLd32s core v, 4, .read, true), (.lsuLd64 core v, 8, .read, true), (.lsuLd8u core v, 1, .read, true),
         (.lsuLd8s core v, 1, .read, true), (.lsuSt8 core v, 1, .write, true), (.lsuSt16 core v, 2, .write, true),
         (.lsuSt32 core v, 4, .write, true), (.lsuSt64 core v, 8, .write, true), (.lsuAf64 core v, 8, .accum, false),
         (.lsuAf32 core v, 4, .accum, false), (.lsuAw16 core v, 2, .accum, false), (.lsuAi32 core v, 4, .accum, false),
         (.lsuCas core v, 8, .cas, false)] →
        (va % bytes ≠ 0 → exec i s = .next (b.raise n k { cls := clsALIGN } false)) ∧
        (∀ f, va % bytes = 0 → c.keyDue = false → b.xlate n c va acc dev = .fault f →
          exec i s = .next ((if f.stage = 2 then b.touchTlb n (c.s2ctl.toNat % 2 ^ 16) f.ia else b).raise n k f (f.cls == clsASYNC)))) ∧
   (∀ (core : CoreId) (v : Word) (s : State) (k : Nat) (x : Xl), s.ready core.val k = true → s.calm core.val k = true →
      let n := core.val
      let b := s.arrivals n k
      let va := (s.reg n k).bnk.toNat % 2 ^ 16 * 2 ^ 32 + (((s.reg n k).opnd_ 0x60).toNat + v.toNat) % 2 ^ 32
      let line := x.pa / 64
      let off := x.pa % 64
      let held := fun (i : Nat) => bufByte (b.core n).sbuf line (off + i)
      x.type = .cached → ((b.core n).dcache.all fun p => !p.2.tagBad) = true → (∀ e ∈ (b.core n).sbuf, e.line = line → e.poison = false) →
      ∀ (i : Instr) (bytes : Nat) (signed : Bool), (i, bytes, signed) ∈
        [(Instr.lsuLd8u core v, 1, false), (.lsuLd8s core v, 1, true), (.lsuLd16u core v, 2, false), (.lsuLd16s core v, 2, true),
         (.lsuLd32u core v, 4, false), (.lsuLd32s core v, 4, true), (.lsuLd64 core v, 8, false)] →
        b.passes n k va bytes .read true x → off + bytes ≤ 64 →
        (∀ key l, (b.core n).hit false line = some (key, l) → l.parBad = 0 → l.poison = false →
          s.loadsHere n k bytes signed (fun j => (held j).getD (l.data.extractLsb' (8 * (off + j)) 8)) (exec i s)) ∧
        ((∀ j, j < bytes → (held j).isSome = true) → s.loadsHere n k bytes signed (fun j => (held j).getD 0) (exec i s)) ∧
        ((b.core n).hit false line = none → (b.core n).filling false line = false → (∀ j, j < bytes → held j = none) →
          ((b.core n).allocWay false line).2 ≠ none → (b.core n).lastMiss ≠ some (line - 1) →
          ∃ (t : State) (p : Pending), exec i s = .next t ∧ (t.case n k).pend = (s.reg n k).pend ++ [p] ∧ p.port = .lsuRes ∧
            p.due = (s.reg n k).icount + 4 ∧ p.await = .fill ∧ p.pa = x.pa ∧ p.bytes = bytes ∧ p.signed = signed ∧
            (t.core n).filling false line = true ∧ t.mem = s.mem ∧ (t.case n k).pc = (s.reg n k).pc + 4))

/-- Stores (Table 03-4) go into the store buffer: the low bytes of lsu.sdata, at the address R59 forms.

The data stack (R73): a push stores v at DSP − 8 and lowers DSP by 8, a pop loads 8 bytes at DSP onto bru.res and raises
DSP by 8; a DSP that is no multiple of 8 raises ALIGN at the word. -/
def Obligations.StoreRows : Prop :=
   (∀ (core : CoreId) (v : Word) (s : State) (k : Nat) (x : Xl), s.ready core.val k = true → s.calm core.val k = true →
      let n := core.val
      let b := s.arrivals n k
      let va := (s.reg n k).bnk.toNat % 2 ^ 16 * 2 ^ 32 + (((s.reg n k).opnd_ 0x60).toNat + v.toNat) % 2 ^ 32
      let d := (s.reg n k).opnd_ 0x61
      b.freshEntry n k = true → x.type ≠ .device → x.pa % 64 = va % 64 →
      (b.passes n k va 1 .write true x → s.buffers n k x.pa 1 d (exec (.lsuSt8 core v) s)) ∧
      (b.passes n k va 2 .write true x → s.buffers n k x.pa 2 d (exec (.lsuSt16 core v) s)) ∧
      (b.passes n k va 4 .write true x → s.buffers n k x.pa 4 d (exec (.lsuSt32 core v) s)) ∧
      (b.passes n k va 8 .write true x → s.buffers n k x.pa 8 d (exec (.lsuSt64 core v) s))) ∧
   (∀ (core : CoreId) (v : Word) (s : State) (k : Nat) (x : Xl), s.ready core.val k = true → s.calm core.val k = true →
      let n := core.val
      let b := s.arrivals n k
      let sp := (s.reg n k).dsp
      (b.freshEntry n k = true → x.type ≠ .device → x.pa % 64 = (sp - 8).toNat % 64 → b.passes n k (sp - 8).toNat 8 .write false x →
        s.buffers n k x.pa 8 v (exec (.bruPush core v) s) ∧
        ∃ t : State, exec (.bruPush core v) s = .next t ∧ (t.case n k).dsp = sp - 8) ∧
      (b.direct n k x = true → b.passes n k sp.toNat 8 .read false x →
        s.loads n k x.pa 8 false .bruRes (exec (.bruPop core v) s) ∧
        ∃ t : State, exec (.bruPop core v) s = .next t ∧ (t.case n k).dsp = sp + 8) ∧
      (sp.toNat % 8 ≠ 0 →
        exec (.bruPush core v) s = .next (b.raise n k { cls := clsALIGN } false) ∧
        exec (.bruPop core v) s = .next (b.raise n k { cls := clsALIGN } false)))

/-- Accumulate-writes (Table 03-4) enter the store buffer as addends: the operation, the low bytes of lsu.sdata, and the RANK,
SIZE and STRICT the task holds (R153, R186); lsu.amax takes its format from lsu.cmpv[1:0] (Table 03-5). lsu.cas on an engine
of this block sends the compare value and the new value to it, and its old value is due on lsu.res after 4 issue cycles. -/
def Obligations.AccumulateRows : Prop :=
  ∀ (core : CoreId) (v : Word) (s : State) (k : Nat) (x : Xl), s.ready core.val k = true → s.calm core.val k = true →
    let n := core.val
    let b := s.arrivals n k
    let c := s.reg n k
    let va := c.bnk.toNat % 2 ^ 16 * 2 ^ 32 + ((c.opnd_ 0x60).toNat + v.toNat) % 2 ^ 32
    let d := (c.opnd_ 0x61).toNat
    let adds := fun (af bytes : Nat) (out : Out) => ∃ (t : State) (e : SbEntry) (a : Addend), out = .next t ∧ (t.core n).sbuf = (b.core n).sbuf ++ [e] ∧
      e.addend = some a ∧ e.task = b.whoIs n k ∧ a.pa = x.pa ∧ a.af = af ∧ a.val = BitVec.ofNat 64 (d % 2 ^ (8 * bytes)) ∧
      a.rank = c.asl.toNat % 2 ^ 16 ∧ a.size = c.asl.toNat / 2 ^ 16 % 2 ^ 16 ∧ a.strict = c.rdc.getLsbD 0 ∧
      t.mem = s.mem ∧ (t.case n k).pend = c.pend ∧ (t.case n k).pc = c.pc + 4
    let ok := fun (bytes : Nat) => va % bytes = 0 ∧ c.keyDue = false ∧ b.xlate n c va .accum false = .ok x ∧
      (b.core n).sbuf.length < 16
    (ok 8 → adds 0 8 (exec (.lsuAf64 core v) s)) ∧ (ok 4 → adds 1 4 (exec (.lsuAf32 core v) s)) ∧
    (ok 2 → adds 2 2 (exec (.lsuAw16 core v) s)) ∧ (ok 4 → adds 3 4 (exec (.lsuAi32 core v) s)) ∧
    (ok 8 → (c.opnd_ 0x62).toNat % 4 ≠ 3 → adds (4 + (c.opnd_ 0x62).toNat % 4) 8 (exec (.lsuAmax core v) s)) ∧
    (ok 4 → (c.opnd_ 0x62).toNat % 4 = 3 → adds 7 4 (exec (.lsuAmax core v) s)) ∧
    (va % 8 = 0 → c.keyDue = false → b.xlate n c va .cas false = .ok x → x.pa < 2 ^ 51 →
      b.storesTo n (b.whoIs n k) (x.pa / 64) = false → b.bypassBusy n (b.whoIs n k) (x.pa / 64) = false →
      ∃ (t : State) (p : Pending) (a : Addend), exec (.lsuCas core v) s = .next t ∧ (t.case n k).pend = c.pend ++ [p] ∧ p.port = .lsuRes ∧
        p.due = c.icount + 4 ∧ p.await = .access ∧ t.addends = b.addends ++ [a] ∧ a.pa = x.pa ∧ a.af = 8 ∧
        a.val = c.opnd_ 0x61 ∧ a.cmp = c.opnd_ 0x62 ∧ t.mem = s.mem ∧ (t.case n k).pc = c.pc + 4)

/-- Fences (R247, R248) and prefetch (R65 of Loads, stores and BNK): an acquire passes once every earlier load of the task has been
performed and waits until then; a release waits for loads, stores and descriptors, and reports failed stores; a prefetch
never faults and never waits, and changes no register and no memory. -/
def Obligations.FenceRows : Prop :=
  ∀ (core : CoreId) (v : Word) (s : State) (k : Nat), s.ready core.val k = true →
    let n := core.val
    let b := s.arrivals n k
    let waits := fun (sock : Nat) => (.next (b.hold n k .trigger (.move (BitVec.ofNat 12 sock) v) []) : Out)
    (b.loadsDone n k = true → exec (.lsuAcq core v) s = s.issues n k 0x7A v b) ∧
    (b.loadsDone n k = false → exec (.lsuAcq core v) s = waits 0x7A) ∧
    (b.loadsDone n k = true → b.storesDone n k = true → b.descDone n k = true →
      ((s.reg n k).fails = [] → exec (.lsuRel core v) s = s.issues n k 0x7B v b) ∧
      ((s.reg n k).fails ≠ [] → exec (.lsuRel core v) s =
        .next ((b.onCase n k fun c => { c.stopRows with fails := [], asyncDue := false }).raise n k (asyncFault (s.reg n k).fails) true))) ∧
    ((b.loadsDone n k && b.storesDone n k && b.descDone n k) = false → exec (.lsuRel core v) s = waits 0x7B) ∧
    (∃ u, exec (.lsuPf core v) s = s.issues n k 0x7C v u ∧ u.mem = s.mem ∧ ∀ m j, u.case m j = b.case m j) ∧
    (s.calm n k = true → ∃ t : State, exec (.lsuPf core v) s = .next t ∧ (t.case n k).pc = (s.reg n k).pc + 4 ∧
      (t.case n k).icount = (s.reg n k).icount + 1 ∧ (t.case n k).pend = (s.reg n k).pend ∧ t.mem = s.mem)

/-- Cache maintenance (R240–R243) by set and way on a data-cache way that is valid, not being filled, whose tags agree, with the task's stores
entered or on their way and room in the store buffer: a clean writes back exactly the dirty granules and leaves the line valid and clean; an invalidate, which
here acts as clean and invalidate, and a clean and invalidate write them back and make the way invalid. Of a way that is
not valid nothing happens (R242).

By address, of an uncached or cacheable page: on a line that is present and not being filled, a clean writes back exactly the dirty
granules and leaves it valid and clean, an invalidate discards it, dirty granules and all, and a clean and invalidate writes
them back and discards it; where the line is not in the cache, nothing is written back and nothing changes. On the instruction cache a clean does nothing and the two others make the way invalid; a set above 63
raises ILLEGAL_MOVE. -/
def Obligations.CacheMaintenance : Prop :=
   (∀ (core : CoreId) (v : Word) (s : State) (k : Nat), s.ready core.val k = true → s.calm core.val k = true →
      let n := core.val
      let b := s.arrivals n k
      let key := v.toNat % 128 * 4 + v.toNat / 256 % 4
      let sock := fun (op : Nat) => setFld v 32 2 op
      let writesBack := fun (t : State) (l : Line) => ∃ e : SbEntry, (t.core n).sbuf = (b.core n).sbuf ++ [e] ∧ e.clean = true ∧
        e.line = l.addr ∧ e.mask = granMask l.dirty ∧ e.data = l.data ∧ e.task = b.whoIs n k ∧ e.poison = l.poison
      v.getLsbD 35 = true → v.getLsbD 34 = false → (b.core n).sbuf.any (·.cmoWaits (b.whoIs n k)) = false →
      ((b.core n).dcache.all fun p => !p.2.tagBad) = true →
      (tabFind (b.core n).dcache key = none →
        exec (.cmoClean core v) s = s.issues n k 0x493 (sock 0) b ∧ exec (.cmoInvalidate core v) s = s.issues n k 0x493 (sock 1) b ∧
        exec (.cmoCleanInvalidate core v) s = s.issues n k 0x493 (sock 2) b) ∧
      (∀ l, tabFind (b.core n).dcache key = some l → (b.core n).hit false l.addr = some (key, l) → l.filling = false →
        l.parBad = 0 → (b.core n).sbuf.length < 16 →
        (l.dirty = 0 → exec (.cmoClean core v) s = s.issues n k 0x493 (sock 0) b) ∧
        (l.dirty ≠ 0 → ∃ t : State, exec (.cmoClean core v) s = .next t ∧ writesBack t l ∧
          tabFind (t.core n).dcache key = some { l with dirty := 0 } ∧ t.mem = s.mem) ∧
        ∀ i, i ∈ [Instr.cmoInvalidate core v, .cmoCleanInvalidate core v] → ∃ t : State, exec i s = .next t ∧
          tabFind (t.core n).dcache key = none ∧ (∀ j, j ≠ key → tabFind (t.core n).dcache j = tabFind (b.core n).dcache j) ∧
          t.mem = s.mem ∧ (l.dirty = 0 → (t.core n).sbuf = (b.core n).sbuf) ∧ (l.dirty ≠ 0 → writesBack t l))) ∧
   (∀ (core : CoreId) (v : Word) (s : State) (k : Nat) (x : Xl), s.ready core.val k = true → s.calm core.val k = true →
      let n := core.val
      let b := s.arrivals n k
      let va := (s.reg n k).bnk.toNat % 2 ^ 16 * 2 ^ 32 + v.toNat % 2 ^ 32
      let line := x.pa / 64
      let rows := [(Instr.cmoClean core v, Acc.read), (.cmoInvalidate core v, .write), (.cmoCleanInvalidate core v, .write)]
      v.getLsbD 35 = false → v.getLsbD 34 = false → (s.reg n k).keyDue = false →
      (b.core n).sbuf.any (·.cmoWaits (b.whoIs n k)) = false → ((b.core n).dcache.all fun p => !p.2.tagBad) = true →
      (b.core n).filling false line = false →
      ((b.core n).hit false line = none → (∀ w ∈ (b.core n).evicts, w.addr ≠ line) →
        ∀ i acc, (i, acc) ∈ rows → b.xlate n (s.reg n k) va acc true = .ok x →
          ∃ t : State, exec i s = .next t ∧ (t.core n).dcache = (b.core n).dcache ∧ (t.core n).sbuf = (b.core n).sbuf ∧ t.mem = s.mem ∧
            (t.case n k).pc = (s.reg n k).pc + 4 ∧ (t.case n k).pend = (s.reg n k).pend) ∧
      (∀ key l, (b.core n).hit false line = some (key, l) → tabFind (b.core n).dcache key = some l → l.parBad = 0 → x.type ≠ .device →
        let past := fun (t : State) => t.mem = s.mem ∧ (t.case n k).pc = (s.reg n k).pc + 4 ∧ (t.case n k).pend = (s.reg n k).pend ∧
          ∀ j, j ≠ key → tabFind (t.core n).dcache j = tabFind (b.core n).dcache j
        let writesBack := fun (t : State) => ∃ e : SbEntry, (t.core n).sbuf = (b.core n).sbuf ++ [e] ∧ e.clean = true ∧ e.line = line ∧
          e.mask = granMask l.dirty ∧ e.data = l.data ∧ e.task = b.whoIs n k ∧ e.poison = l.poison
        let cleaned := fun (t : State) => (l.dirty = 0 → (t.core n).sbuf = (b.core n).sbuf) ∧ (l.dirty ≠ 0 → writesBack t)
        (b.xlate n (s.reg n k) va .read true = .ok x → (b.core n).sbuf.length < 16 → ∃ t : State, exec (.cmoClean core v) s = .next t ∧
          past t ∧ cleaned t ∧ tabFind (t.core n).dcache key = some { l with dirty := 0 }) ∧
        (b.xlate n (s.reg n k) va .write true = .ok x → ∃ t : State, exec (.cmoInvalidate core v) s = .next t ∧ past t ∧
          (t.core n).sbuf = (b.core n).sbuf ∧ tabFind (t.core n).dcache key = none) ∧
        (b.xlate n (s.reg n k) va .write true = .ok x → (b.core n).sbuf.length < 16 → ∃ t : State,
          exec (.cmoCleanInvalidate core v) s = .next t ∧ past t ∧ cleaned t ∧ tabFind (t.core n).dcache key = none))) ∧
   (∀ (core : CoreId) (v : Word) (s : State) (k : Nat), s.ready core.val k = true → s.calm core.val k = true →
      let n := core.val
      let b := s.arrivals n k
      let set := v.toNat % 128
      let key := set * 4 + v.toNat / 256 % 4
      let faults := (.next (b.raise n k { cls := clsILLEGAL } false) : Out)
      v.getLsbD 35 = true → v.getLsbD 34 = true →
      (63 < set → exec (.cmoClean core v) s = faults ∧ exec (.cmoInvalidate core v) s = faults ∧
        exec (.cmoCleanInvalidate core v) s = faults) ∧
      (∀ l, set ≤ 63 → (b.core n).sbuf.any (·.cmoWaits (b.whoIs n k)) = false → ((b.core n).icache.all fun p => !p.2.tagBad) = true →
        tabFind (b.core n).icache key = some l → l.filling = false →
        exec (.cmoClean core v) s = s.issues n k 0x493 (setFld v 32 2 0) b ∧
        ∀ i, i ∈ [Instr.cmoInvalidate core v, .cmoCleanInvalidate core v] → ∃ t : State, exec i s = .next t ∧
          tabFind (t.core n).icache key = none ∧ (∀ j, j ≠ key → tabFind (t.core n).icache j = tabFind (b.core n).icache j) ∧
          (t.core n).dcache = (b.core n).dcache ∧ t.mem = s.mem))

/-! ### SYS -/

/-- A serialising move applies every pending extent and S2CTL write of the task together: each field takes the last value
written to it, and keeps its own where none was (R77, R207).

sys.xwr and sys.xrd (R202, R207): an extent or S2CTL write is pending until a serialising move, and a read shows the
pending value where there is one, a read of FPC waiting while a VXU result that a later trigger has read is in flight (R95,
log entry 100); RDC, ASL, TFS, TFVA, TFIA are written at once, RM of FPC above 4, RANK not below SIZE, S2CTL
with EN and no translation key (R208) or one with a parity error (Table 15-1), x15 during a call, RDC on release 1.0 and a reserved selection raise their faults. -/
def Obligations.ExtentRegisters : Prop :=
   ((∀ (core : CoreId) (v : Word) (s : State) (k : Nat), s.ready core.val k = true →
      exec (.sysSer core v) s = s.changes core.val k 0x490 v Casement.serialise) ∧
    (∀ (c : Casement) (e f : Nat), e < 16 → f < 4 →
      c.serialise.xpend = [] ∧
      (c.serialise.ext e).field f = ((c.xpend.filter (·.1 == 4 * e + f)).getLast?.map (·.2)).getD ((c.ext e).field f) ∧
      c.serialise.s2ctl = ((c.xpend.filter (·.1 == 0x103)).getLast?.map (·.2)).getD c.s2ctl ∧
      c.serialise.pc = c.pc ∧ c.serialise.d = c.d ∧ c.serialise.k = c.k ∧ c.serialise.pend = c.pend ∧
      c.serialise.fpc = c.fpc)) ∧
   (∀ (core : CoreId) (v : Word) (s : State) (k : Nat), s.ready core.val k = true →
      let n := core.val
      let b := s.arrivals n k
      let c := s.reg n k
      let sel := (c.opnd_ 0x483).toNat % 2 ^ 16
      let puts := fun (f : Casement → Casement) => s.changes n k 0x498 v fun x => (f x).touch 0
      let gives := fun (w : Word) => s.changes n k 0x499 v fun x => x.addPend .sysRes 2 w
      let faults := fun (f : Flt) => (.next (b.raise n k f false) : Out)
      let held := fun (j : Nat) (old : Word) => ((c.xpend.filter (·.1 == j)).getLast?.map (·.2)).getD old
      (sel < 64 → sel % 4 < 3 → (sel < 60 ∨ c.call = none) →
        exec (.sysXwr core v) s = puts fun x => { x with xpend := x.xpend ++ [(sel, v &&& 0x0000FFFFFFFF0000)] }) ∧
      (sel < 64 → sel % 4 = 3 → (sel < 60 ∨ c.call = none) →
        exec (.sysXwr core v) s = puts fun x => { x with xpend := x.xpend ++ [(sel, v &&& 0xF3F)] }) ∧
      (60 ≤ sel → sel < 64 → c.call ≠ none → exec (.sysXwr core v) s = faults fltIllegal) ∧
      (sel = 0x100 → 5 ≤ v.toNat % 8 → exec (.sysXwr core v) s = faults fltIllegal) ∧
      (sel = 0x100 → v.toNat % 8 < 5 → exec (.sysXwr core v) s = puts fun x => { x with fpc := v &&& 0x1F07 }) ∧
      (sel = 0x101 → s.rel10 = false → exec (.sysXwr core v) s = puts fun x => { x with rdc := v &&& 1 }) ∧
      (sel = 0x101 → s.rel10 = true → exec (.sysXwr core v) s = faults fltIllegal ∧ exec (.sysXrd core v) s = faults fltIllegal) ∧
      (sel = 0x102 → v.toNat / 2 ^ 16 % 2 ^ 16 ≠ 0 → v.toNat / 2 ^ 16 % 2 ^ 16 ≤ v.toNat % 2 ^ 16 →
        exec (.sysXwr core v) s = faults fltIllegal) ∧
      (sel = 0x102 → (v.toNat / 2 ^ 16 % 2 ^ 16 = 0 ∨ v.toNat % 2 ^ 16 < v.toNat / 2 ^ 16 % 2 ^ 16) →
        exec (.sysXwr core v) s = puts fun x => { x with asl := v &&& 0xFFFFFFFF }) ∧
      (sel = 0x103 → v.getLsbD 52 = false →
        exec (.sysXwr core v) s = puts fun x => { x with xpend := x.xpend ++ [(0x103, v &&& 0x0F1FFFFFFFFFFFFF)] }) ∧
      (sel = 0x103 → v.getLsbD 52 = true → c.kBad.getLsbD (v.toNat / 2 ^ 56 % 16) = true → exec (.sysXwr core v) s = faults fltParity) ∧
      (sel = 0x103 → v.getLsbD 52 = true → c.kBad.getLsbD (v.toNat / 2 ^ 56 % 16) = false →
        let key := c.key (v.toNat / 2 ^ 56 % 16)
        let root := v.toNat / 2 ^ 16 % 2 ^ 36 * 65536
        (keyType key ≠ 2 → exec (.sysXwr core v) s = faults { cls := clsKEY, syn := true }) ∧
        (keyType key = 2 → keyJob key = (b.jobOf n (b.whoIs n k)).toNat → keyBase key ≤ root → root + 65536 ≤ keyBase key + keyLen key →
          exec (.sysXwr core v) s = puts fun x => { x with xpend := x.xpend ++ [(0x103, v &&& 0x0F1FFFFFFFFFFFFF)] })) ∧
      (sel = 0x104 → exec (.sysXwr core v) s = puts fun x => { x with tfs := v &&& 0x1FFFFF }) ∧
      (sel = 0x105 → exec (.sysXwr core v) s = puts fun x => { x with tfva := v &&& 0xFFFFFFFFFFFF }) ∧
      (sel = 0x106 → exec (.sysXwr core v) s = puts fun x => { x with tfia := v &&& 0xFFFFFFFFFFFF }) ∧
      ((64 ≤ sel ∧ sel < 0x100) ∨ 0x106 < sel →
        exec (.sysXwr core v) s = faults fltIllegal ∧ exec (.sysXrd core v) s = faults fltIllegal) ∧
      (sel < 64 → exec (.sysXrd core v) s = gives (held sel ((c.ext (sel / 4)).field (sel % 4)))) ∧
      (sel = 0x100 → b.reportsOwed n k = false → exec (.sysXrd core v) s = gives c.fpc) ∧
      (sel = 0x100 → b.reportsOwed n k = true → exec (.sysXrd core v) s = .next (b.hold n k .read (.move 0x499 v) [])) ∧
      (sel = 0x101 → s.rel10 = false → exec (.sysXrd core v) s = gives c.rdc) ∧
      (sel = 0x102 → exec (.sysXrd core v) s = gives c.asl) ∧ (sel = 0x103 → exec (.sysXrd core v) s = gives (held 0x103 c.s2ctl)) ∧
      (sel = 0x104 → exec (.sysXrd core v) s = gives c.tfs) ∧ (sel = 0x105 → exec (.sysXrd core v) s = gives c.tfva) ∧
      (sel = 0x106 → exec (.sysXrd core v) s = gives c.tfia))

/-- TLB invalidation: a command joins the core's queue of 8 with its kind, scope, tag and address; a ninth replaces the whole
queue by one ALL of the widest scope; a reserved scope raises ILLEGAL_MOVE; the barrier's result, 1, is due on sys.res after 4
issue cycles and waits for the task's commands that are outstanding (R215–R217). -/
def Obligations.TlbiRows : Prop :=
  ∀ (core : CoreId) (v : Word) (s : State) (k : Nat), s.ready core.val k = true → s.calm core.val k = true →
    let n := core.val
    let b := s.arrivals n k
    let who := b.whoIs n k
    let scope := v.toNat / 4 % 4
    (∀ (i : Instr) (kind : Nat), (i, kind) ∈ [(Instr.sysTlbiAddr core v, 0), (.sysTlbiTag core v, 1), (.sysTlbiAll core v, 2)] →
      (scope < 3 → (b.core n).tlbiQ.length < 8 → ∃ (t : State) (e : Tlbi), exec i s = .next t ∧ (t.core n).tlbiQ = (b.core n).tlbiQ ++ [e] ∧
        e.kind = kind ∧ e.scope = scope ∧ e.tag = v.toNat / 2 ^ 48 ∧ e.ia = v.toNat / 2 ^ 16 % 2 ^ 32 * 65536 ∧
        e.owners = [who] ∧ t.mem = s.mem ∧ (t.case n k).pend = (s.reg n k).pend ∧ (t.case n k).pc = (s.reg n k).pc + 4) ∧
      (scope < 3 → (b.core n).tlbiQ.length = 8 → ∃ (t : State) (e : Tlbi), exec i s = .next t ∧ (t.core n).tlbiQ = [e] ∧ e.kind = 2 ∧
        scope ≤ e.scope ∧ (∀ q ∈ (b.core n).tlbiQ, q.scope ≤ e.scope ∧ q.num ∈ e.absorbed) ∧
        (e.scope = scope ∨ ∃ q ∈ (b.core n).tlbiQ, q.scope = e.scope)) ∧
      (scope = 3 → exec i s = .next (b.raise n k { cls := clsILLEGAL } false))) ∧
    (∃ (t : State) (p : Pending), exec (.sysTlbsync core v) s = .next t ∧ (t.case n k).pend = (s.reg n k).pend ++ [p] ∧ p.port = .sysRes ∧
      p.due = (s.reg n k).icount + 4 ∧ p.data = { val := 1 } ∧
      (p.await = .ready ↔ (b.core n).outstanding who = []) ∧ (t.case n k).pc = (s.reg n k).pc + 4 ∧ t.mem = s.mem)

/-- Wicket entry and return (R286–R288): entry saves the return address, k15 and x15, gives the task the wicket's key and
extent, and goes to ENTRY; inside a call, or for an empty wicket, it raises its fault. The return restores k15 and x15,
clears every lent key and goes to the return address; outside a call it raises ILLEGAL_MOVE. Both apply pending extent and S2CTL
writes (R286, R288): the other extents and S2CTL are those of the serialised task. Where the write of a key is due and its
data still out, both wait (R281), and a k15 with a parity error raises POISON at the entry (Table 15-1): not stated here. -/
def Obligations.WicketCalls : Prop :=
  ∀ (core : CoreId) (v : Word) (s : State) (k : Nat), s.ready core.val k = true → s.calm core.val k = true →
    let n := core.val
    let b := s.arrivals n k
    let c := (s.reg n k).serialise
    (∀ w, tabFind (b.core n).wickets (v.toNat % 16) = some w → c.call = none → c.keyDue = false → c.kBad.getLsbD 15 = false →
      ∃ t : State, exec (.sysWkt core v) s = .next t ∧ (t.case n k).pc = w.entry ∧ (t.case n k).key 15 = w.key ∧
        (t.case n k).ext 15 = w.ext ∧ (t.case n k).xpend = [] ∧
        (t.case n k).call = some { wicket := v.toNat % 16, at_ := c.pc, ret := c.pc + 4, k15 := c.key 15, x15 := c.ext 15 } ∧
        (∀ j, j ≠ 15 → (t.case n k).key j = c.key j ∧ (t.case n k).ext j = c.ext j) ∧ (t.case n k).s2ctl = c.s2ctl ∧
        (t.case n k).d = c.d ∧ t.mem = s.mem) ∧
    (c.call ≠ none → exec (.sysWkt core v) s = .next ((b.onCase n k Casement.serialise).raise n k { cls := clsILLEGAL } false)) ∧
    (c.call = none → tabFind (b.core n).wickets (v.toNat % 16) = none →
      exec (.sysWkt core v) s = .next ((b.onCase n k Casement.serialise).raise n k { cls := clsKEY, syn := true } false)) ∧
    (∀ w, c.call = some w → c.keyDue = false → ∃ t : State, exec (.wicketReturn core v) s = .next t ∧ (t.case n k).pc = w.ret ∧
      (t.case n k).key 15 = w.k15 ∧ (t.case n k).ext 15 = w.x15 ∧ (t.case n k).call = none ∧ (t.case n k).xpend = [] ∧
      (∀ j, j < 15 → (t.case n k).key j = if c.lent.getLsbD j then 0 else c.key j) ∧ (∀ j, j ≠ 15 → (t.case n k).ext j = c.ext j) ∧
      (t.case n k).s2ctl = c.s2ctl ∧ (t.case n k).d = c.d ∧ t.mem = s.mem) ∧
    (c.call = none → exec (.wicketReturn core v) s = .next (b.raise n k { cls := clsILLEGAL } false))

/-- The frame return (R292), of a frame that lies in the core's own bank: FLG, RPTC, GSEL, BNK, tmu.tstart, DSP, bru.rsa, d0 to
d7 and the port image (what the ports show, the pending results with their remaining delays, a pending transfer, a body to be
passed over) come back from it, PTR and DEPTH fall by 1, and the task goes on at PC. With DEPTH = 0, and during a wicket call, it
raises ILLEGAL_MOVE; while a store of the task has not been performed it waits. A frame whose read faults, or whose line is
poisoned, locks the core up with cause 3 (R292, Table 12-9).

The port image's layout is not architectural: the model finds the image by the number in the frame's word 0x0C0 and takes it where
the frame holds the words it was written with (log entry 16). The values come back masked to the bits their registers hold. -/
def Obligations.FrameReturnRow : Prop :=
    ∀ (core : CoreId) (v : Word) (s : State) (k : Nat), s.ready core.val k = true → s.calm core.val k = true →
      let n := core.val
      let b := s.arrivals n k
      let c := s.reg n k
      let s1 := b.onCase n k Casement.serialise
      let depth := c.tsbp.toNat / 2 ^ 48 % 256
      let ptr := c.tsbp.toNat / 2 ^ 9 % 2 ^ 39
      let frame := (ptr + 2 ^ 39 - 1) % 2 ^ 39 * 512
      (depth = 0 ∨ c.call ≠ none → exec (.frameReturn core v) s = .next (b.raise n k { cls := clsILLEGAL } false)) ∧
      (depth ≠ 0 → c.call = none → b.storesDone n k = false → ∃ t : State, exec (.frameReturn core v) s = .next t ∧
        (t.case n k).waiting = some { kind := .trigger, word := .move 0x495 (setFld v 0 1 1) } ∧ (t.case n k).tsbp = c.tsbp ∧
        (t.case n k).pc = c.pc ∧ t.mem = s.mem) ∧
      (∀ f, depth ≠ 0 → c.call = none → b.storesDone n k = true → s1.xlate n (s1.case n k) frame .read false = .fault f →
        ∃ t : State, exec (.frameReturn core v) s = .next t ∧ (t.core n).lockCause = 3 ∧ t.mem = s.mem ∧ (t.case n k).tsbp = c.tsbp) ∧
      (∀ x off, depth ≠ 0 → c.call = none → b.storesDone n k = true →
        s1.xlate n (s1.case n k) frame .read false = .ok x → b.place x.pa = .bank n off → off % 512 = 0 →
        b.inSpill n off 512 = false → b.eccBad = [] → b.eccCorr = [] → (b.core n).badBond = false →
        (∃ j, j < 8 ∧ x.pa / 64 + j ∈ b.poison) →
        ∃ t : State, exec (.frameReturn core v) s = .next t ∧ (t.core n).lockCause = 3 ∧ t.mem = s.mem ∧ (t.case n k).tsbp = c.tsbp) ∧
      (∀ x img off, depth ≠ 0 → c.call = none → b.storesDone n k = true →
        s1.xlate n (s1.case n k) frame .read false = .ok x → b.place x.pa = .bank n off → off % 512 = 0 →
        b.inSpill n off 512 = false → b.eccBad = [] → b.eccCorr = [] → (b.core n).badBond = false →
        (∀ j, j < 8 → x.pa / 64 + j ∉ b.poison) →
        let word := fun (off : Nat) => BitVec.ofNat 64 (leToNat (s1.bytes (x.pa + off) 8))
        tabFind s1.frames (word 0x0C0).toNat = some img → img.check = (List.range 40).map (fun i => word (0x0C0 + 8 * i)) →
        (word 8).toNat % 4 = 0 →
        ∃ t : State, exec (.frameReturn core v) s = .next t ∧ (t.case n k).pc = (word 8).setWidth 48 ∧
          (t.case n k).flg = word 0x30 &&& 0xF ∧ (t.case n k).rptc = word 0x38 &&& 0x3FFFFFFFF ∧
          (t.case n k).gsel = word 0x40 &&& 0xFFFFFFFFFFFFFF ∧ (t.case n k).bnk = word 0x48 &&& 0xFFFF ∧
          (t.case n k).tstart = word 0x50 &&& 0xFF00FF ∧ (t.case n k).dsp = (word 0x58).setWidth 48 ∧
          (t.case n k).rsa = word 0x60 ∧ (∀ j, j < 8 → (t.case n k).dreg j = word (0x80 + 8 * j)) ∧
          (∀ j, 8 ≤ j → (t.case n k).dreg j = c.dreg j) ∧
          (t.case n k).shown = img.shown ∧ (t.case n k).opnd = img.opnd ∧ (t.case n k).skip = img.skip ∧
          (t.case n k).xfer = img.xfer ∧ (t.case n k).icount = c.icount + 1 ∧
          (t.case n k).pend = (img.pend.map fun e => { e with due := c.icount + 1 + e.due }) ∧
          (t.case n k).tsbp.toNat / 2 ^ 48 % 256 = depth - 1 ∧ (t.case n k).tsbp.toNat / 2 ^ 9 % 2 ^ 39 = (ptr + 2 ^ 39 - 1) % 2 ^ 39 ∧
          t.mem = s.mem)

/-- Frame entry (R290, R291) of a fault that awaits it, into a frame of the core's own bank: the frame takes PC, the cause word
(Table 12-8), the syndrome registers, FLG, RPTC, GSEL, BNK, tmu.tstart, DSP, bru.rsa and d0 to d7 (Table 12-7), PTR and DEPTH
rise by 1, RPTC and tmu.tstart become 0, the ports show nothing and nothing is pending, d0 holds the frame's address, d1 the
cause word, and the task goes on at the address in the frame's first word. At the limit the core locks up with cause 1, and where
the frame cannot be translated, or the handler's address is no multiple of 4, with cause 2.

The translations are those of the row itself; a miss would first ask for a walk (log entry 24). -/
def Obligations.FrameEntryRow : Prop :=
   (∀ (core : CoreId) (s : State) (k : Nat) (r : Raised) (x y : Xl) (u u2 : State), s.coreOn core.val = true →
      (s.core core.val).lockCause = 0 → (s.core core.val).underTest = false → s.drain.st = .run →
      (s.core core.val).running = some k → (s.case core.val k).raised = some r → (s.case core.val k).frame = none →
      let n := core.val
      let c := s.case n k
      let ptr := c.tsbp.toNat / 2 ^ 9 % 2 ^ 39
      let depth := c.tsbp.toNat / 2 ^ 48 % 256
      let limit := c.tsbp.toNat / 2 ^ 56
      let word := fun (t : State) (off : Nat) => BitVec.ofNat 64 (leToNat (t.bytes (x.pa + off) 8))
      let cause : Word := BitVec.ofNat 64 (r.cls.toNat + (if r.async then 2 ^ 8 else 0) + if r.inCall then 2 ^ 9 + r.wicket % 16 * 2 ^ 10 else 0)
      (depth = limit → ∃ t : State, exec (.frameEntry core) s = .next t ∧ (t.core n).lockCause = 1 ∧ t.mem = s.mem) ∧
      (∀ f, depth ≠ limit → (∀ e ∈ c.pend, e.await = .ready) → s.xlateNow n (.word k) c (ptr * 512) .read = (u, .fault f) →
        ∃ t : State, exec (.frameEntry core) s = .next t ∧ (t.core n).lockCause = 2 ∧ t.mem = s.mem ∧ (t.case n k).tsbp = c.tsbp) ∧
      (depth ≠ limit → (∀ e ∈ c.pend, e.await = .ready) → s.xlateNow n (.word k) c (ptr * 512) .read = (u, .ok x) →
        u.xlateNow n (.word k) c (ptr * 512) .write = (u2, .ok y) → x.pa % 512 = 0 → (∀ j, j < 8 → s.sound n (x.pa + 64 * j) 64) →
        u2.frameBusy n k x.pa = false → c.frameBad = false →
        ((word s 0).toNat % 4 ≠ 0 → ∃ t : State, exec (.frameEntry core) s = .next t ∧ (t.core n).lockCause = 2 ∧ t.mem = s.mem) ∧
        ((word s 0).toNat % 4 = 0 →
        ∃ t : State, exec (.frameEntry core) s = .next t ∧ (t.case n k).pc = (word s 0).setWidth 48 ∧ (t.case n k).raised = none ∧
          (t.case n k).dreg 0 = BitVec.ofNat 64 (ptr * 512) ∧ (t.case n k).dreg 1 = cause ∧ word t 8 = c.pc.setWidth 64 ∧
          word t 0x10 = cause ∧ word t 0x18 = c.tfs ∧ word t 0x20 = c.tfva ∧ word t 0x28 = c.tfia ∧ word t 0x30 = c.flg ∧
          word t 0x38 = c.rptc ∧ word t 0x40 = c.gsel ∧ word t 0x48 = c.bnk ∧ word t 0x50 = c.tstart ∧
          word t 0x58 = c.dsp.setWidth 64 ∧ word t 0x60 = c.rsa ∧ (∀ j, j < 8 → word t (0x80 + 8 * j) = c.dreg j) ∧
          (∀ a, (a < x.pa + 8 ∨ x.pa + 512 ≤ a) → t.byte a = s.byte a) ∧
          (t.case n k).rptc = 0 ∧ (t.case n k).tstart = 0 ∧ (t.case n k).pend = [] ∧ (t.case n k).shown = [] ∧
          (t.case n k).opnd = [] ∧ (t.case n k).xfer = none ∧ (∀ j, 2 ≤ j → (t.case n k).dreg j = c.dreg j) ∧
          (t.case n k).flg = c.flg ∧ (t.case n k).k = c.k ∧ (t.case n k).x = c.x ∧
          (t.case n k).tsbp.toNat = (ptr + 1) % 2 ^ 39 * 512 + (depth + 1) % 256 * 2 ^ 48 + limit * 2 ^ 56)))

/-- sys.wait: with a selected event bit set the task goes on with its next word; else it becomes WAITING with its selection and
leaves the issue slot. ERROR (b3069) is always selected. A parity error of the event bits' group stops the task (Table 15-1).
The keeper's issues and then ends its handler (R274): VALID of SCAUSE clears; the incoming task, resident and READY, runs; with
ITASK gone and no task ready nobody runs.

A write of sys.tmr by a task (R263): an unarmed timer, or the detector's, is taken with COUNT > 0 and DISARM = 0; the
owner replaces COUNT or, with DISARM = 1 or COUNT = 0, gives the timer up; any other write, and the keeper's, changes nothing
of the timer. -/
def Obligations.WaitForEvents : Prop :=
  (
    (∀ (core : CoreId) (v : Word) (s : State), s.ready core.val 8 = true → s.calm core.val 8 = true →
      let n := core.val
      let b := s.arrivals n 8
      exec (.sysWait core v) s =
        .next (((b.onCase n 8 fun c => c.advance (s.reg n 8) 4 false).afterIssue n 8 (b.whoIs n 8)).keeperEnd n)) ∧
    (∀ (s : State) (n : Nat), (s.core n).readyQ = [] → (s.core n).woken = [] →
      s.task n ((s.core n).scause.toNat / 2 ^ 16 % 64) = none →
      ((s.keeperEnd n).core n).running = none ∧ ((s.keeperEnd n).core n).scause.getLsbD 22 = false ∧ (s.keeperEnd n).mem = s.mem) ∧
    (∀ (s : State) (n j : Nat) (x : Task), s.task n ((s.core n).scause.toNat / 2 ^ 16 % 64) = some x → x.st = .ready → x.loc = some j →
      let t := s.keeperEnd n
      let i := (s.core n).scause.toNat / 2 ^ 16 % 64
      (t.core n).running = some j ∧ t.task n i = some { x with st := .running, mask := 0 } ∧ (t.core n).scause.getLsbD 22 = false ∧
        (t.core n).readyQ = (s.core n).readyQ.filter (· != i) ∧ (t.core n).woken = (s.core n).woken ∧
        (t.case n j).pc = (s.case n j).pc ∧ (t.case n j).d = (s.case n j).d ∧ t.mem = s.mem) ∧
    ∀ (core : CoreId) (v : Word) (s : State) (k t : Nat), s.ready core.val k = true → k ≠ 8 →
      let n := core.val
      let b := s.arrivals n k
      let c := s.reg n k
      b.whoIs n k = some t →
      (c.gBad.getLsbD 47 = true → exec (.sysWait core v) s = .next (b.raise n k fltParity false)) ∧
      (c.gBad.getLsbD 47 = false →
      let sel := fun (j : Nat) => v.getLsbD j || j == 5
      ((∃ j, j < 8 ∧ sel j = true ∧ c.bit (3064 + j) = true) → exec (.sysWait core v) s = s.issues n k 0x496 v b) ∧
      ((∀ j, j < 8 → sel j = true → c.bit (3064 + j) = false) → ∃ mask : BitVec 8, (∀ j, j < 8 → mask.getLsbD j = sel j) ∧
        exec (.sysWait core v) s = s.issues n k 0x496 v
          ((((b.issuesNow n t).onTask n t fun x => { x with st := .waiting, mask := mask }).leaveSlot n).settle (b.core n).isIdle n)))) ∧
  (
    ∀ (core : CoreId) (v : Word) (s : State) (k : Nat), s.ready core.val k = true → s.calm core.val k = true →
      let n := core.val
      let b := s.arrivals n k
      let off := v.getLsbD 32 || v.toNat % 2 ^ 32 == 0
      ∃ t : State, exec (.timerWrite core v) s = .next t ∧ (t.case n k).pc = (s.reg n k).pc + 4 ∧ t.mem = s.mem ∧
        (∀ o, (b.core n).tmrOwner = o →
          (∀ i, b.whoIs n k = some i →
            ((o = .none ∨ o = .detector) → off = false →
              (t.core n).tmrOwner = .task i ∧ (t.core n).tmrCount = v.setWidth 32) ∧
            (o = .task i → off = false → (t.core n).tmrOwner = .task i ∧ (t.core n).tmrCount = v.setWidth 32) ∧
            (o = .task i → off = true → (t.core n).tmrOwner = .none) ∧
            (∀ j, o = .task j → j ≠ i → (t.core n).tmrOwner = o ∧ (t.core n).tmrCount = (b.core n).tmrCount) ∧
            ((o = .none ∨ o = .detector) → off = true →
              (t.core n).tmrOwner = o ∧ (t.core n).tmrCount = (b.core n).tmrCount)) ∧
          (b.whoIs n k = none → (t.core n).tmrOwner = o ∧ (t.core n).tmrCount = (b.core n).tmrCount)))

/-- sys.yield: with another task READY the task becomes READY at the tail of the queue and leaves the slot, else nothing but
the word's issue happens; v plays no part. A task that has been woken and is held for its fill is READY too (R262): the slot
goes to it. -/
def Obligations.Yield : Prop :=
  ∀ (core : CoreId) (v : Word) (s : State) (k t : Nat), s.ready core.val k = true → k ≠ 8 →
    let n := core.val
    let b := s.arrivals n k
    b.whoIs n k = some t →
    let s1 := ((b.issuesNow n t).onTask n t fun x => { x with st := .ready }).onCore n fun c => { c with readyQ := c.readyQ ++ [t] }
    ((b.core n).readyQ = [] → (b.core n).woken = [] → (b.core n).taskFill = none → exec (.sysYield core v) s = s.issues n k 0x497 v b) ∧
    ((b.core n).readyQ ≠ [] → exec (.sysYield core v) s = s.issues n k 0x497 v (s1.leaveSlot n)) ∧
    ((b.core n).readyQ = [] → ((b.core n).woken ≠ [] ∨ (b.core n).taskFill ≠ none) →
      let u := (s1.onCore n fun c => { c with running := none }).releaseHeld n
      exec (.sysYield core v) s = s.issues n k 0x497 v
        (if (u.core n).running = none ∧ (u.core n).woken = [] ∧ (u.core n).taskFill = none then u.selectNext n else u))

/-! ### DFM -/

/-- The DFM triggers (R78–R81): dfm.set gives the accumulator v; a fetching trigger reads X in the lower and Y in the upper half of
the core's own bank, each from its line buffers where they hold the row (R82), works on the accumulator (on +0 at WC = 0 of a window), advances both generators and WC, and with WB
writes the window's last sum to OA; the accumulator is due on dfm.acc after 4 issue cycles. Reserved FMT, and WC not below
TAPS, raise ILLEGAL_MOVE.

The write-back is performed with the trigger (log entry 134), and the modulo window compares base + length as a number that does not
wrap (log entry 110): the model's choices.

The arithmetic of the DFM formats (Table 03-14): one fused FP64 multiply-add; two of FP32; and for W16 two FP32 lanes, each
taking its two products, rounded to FP32, one after the other. -/
def Obligations.DfmRows : Prop :=
   (∀ (core : CoreId) (v : Word) (s : State) (k : Nat) (x y o : Xl), s.ready core.val k = true → (s.arrivals core.val k).braked = false →
      let n := core.val
      let b := s.arrivals n k
      let c := s.reg n k
      let fmt := c.dfmFmt.toNat % 4
      let taps := c.dfmFmt.toNat / 2 ^ 8 % 256
      let wc := c.dfmFmt.toNat / 2 ^ 16 % 256
      let oa := c.dfmFmt.toNat / 2 ^ 32
      let bank := c.bnk.toNat % 2 ^ 16 * 2 ^ 32
      let wb := decide (0 < taps) && decide (wc + 1 = taps) && c.dfmFmt.getLsbD 2
      let acc := if 0 < taps ∧ wc = 0 then 0 else c.acc.val.toNat
      let xs := if 0 < taps ∧ wc + 1 = taps then ((c.genReg 1).toInt * (2 - (taps : Int)) % 2 ^ 32).toNat else (c.genReg 1).toNat
      let faults := (.next (b.raise n k { cls := clsILLEGAL } false) : Out)
      (fmt ≠ 3 → exec (.dfmSet core v) s = s.changes n k 0x113 v fun z => Casement.addPend { z with acc := { val := v } } .dfmAcc 4 v) ∧
      (fmt = 3 → exec (.dfmSet core v) s = faults) ∧
      (∀ (i : Instr) (op : Nat), (i, op) ∈ [(Instr.dfmMac core v, 0), (.dfmMsb core v, 1), (.dfmMul core v, 2)] →
        (fmt = 3 ∨ (0 < taps ∧ taps ≤ wc) → exec i s = faults) ∧
        (fmt ≠ 3 → (taps = 0 ∨ wc < taps) → c.keyDue = false → (b.core n).badDfm = false →
          b.dfmFinds n k (bank + (c.genReg 0).toNat) 0 0x20000 .read x →
          b.dfmFinds n k (bank + (c.genReg 4).toNat) 0x20000 0x40000 .read y →
          (wb = true → b.dfmFinds n k (bank + oa) 0 0x40000 .write o) →
          let r := dfmOp fmt c.rm op acc (b.dfmFetched n false x.pa) (b.dfmFetched n true y.pa)
          ∃ (t : State) (p : Pending), exec i s = .next t ∧ (t.case n k).acc.val = BitVec.ofNat 64 r.1 ∧
            (t.case n k).pend = c.pend ++ [p] ∧ p.port = .dfmAcc ∧ p.due = c.icount + 4 ∧ p.data.val = BitVec.ofNat 64 r.1 ∧
            p.contrib = r.2 ∧
            ((t.case n k).genReg 0).toNat = genStep (c.genReg 0).toNat xs (c.genReg 2).toNat (c.genReg 3).toNat % 2 ^ 32 ∧
            ((t.case n k).genReg 4).toNat =
              genStep (c.genReg 4).toNat (c.genReg 5).toNat (c.genReg 6).toNat (c.genReg 7).toNat % 2 ^ 32 ∧
            (∀ j, j ≠ 0 → j ≠ 4 → (t.case n k).genReg j = c.genReg j) ∧
            (0 < taps → (t.case n k).dfmFmt.toNat / 2 ^ 16 % 256 = (wc + 1) % taps) ∧
            (wb = false → t.mem = s.mem ∧ (t.case n k).dfmFmt.toNat / 2 ^ 32 = oa) ∧
            (wb = true → (t.case n k).dfmFmt.toNat / 2 ^ 32 = (oa + 8) % 2 ^ 32 ∧
              leToNat (t.bytes o.pa 8) = r.1 % 2 ^ 64 ∧ ∀ a, (a < o.pa ∨ o.pa + 8 ≤ a) → t.byte a = s.byte a)))) ∧
   (∀ (rm acc x y : Nat),
      (dfmOp 0 rm 0 acc x y).1 = (ffma .fp64 rm false false x y acc).code ∧
      (dfmOp 0 rm 1 acc x y).1 = (ffma .fp64 rm true false x y acc).code ∧
      (dfmOp 0 rm 2 acc x y).1 = (fmul .fp64 rm x y).code ∧
      (∀ j, j < 2 →
        elemOf (dfmOp 1 rm 0 acc x y).1 32 j = (ffma .fp32 rm false false (elemOf x 32 j) (elemOf y 32 j) (elemOf acc 32 j)).code % 2 ^ 32 ∧
        elemOf (dfmOp 1 rm 1 acc x y).1 32 j = (ffma .fp32 rm true false (elemOf x 32 j) (elemOf y 32 j) (elemOf acc 32 j)).code % 2 ^ 32 ∧
        elemOf (dfmOp 1 rm 2 acc x y).1 32 j = (fmul .fp32 rm (elemOf x 32 j) (elemOf y 32 j)).code % 2 ^ 32 ∧
        let p := (fmul .fp32 rm (w16to32 (elemOf x 16 (2 * j))) (w16to32 (elemOf y 16 (2 * j)))).code
        let q := (fmul .fp32 rm (w16to32 (elemOf x 16 (2 * j + 1))) (w16to32 (elemOf y 16 (2 * j + 1)))).code
        elemOf (dfmOp 2 rm 0 acc x y).1 32 j = (fadd .fp32 rm (fadd .fp32 rm (elemOf acc 32 j) p).code q).code % 2 ^ 32 ∧
        elemOf (dfmOp 2 rm 1 acc x y).1 32 j = (fsub .fp32 rm (fsub .fp32 rm (elemOf acc 32 j) p).code q).code % 2 ^ 32 ∧
        elemOf (dfmOp 2 rm 2 acc x y).1 32 j = (fadd .fp32 rm p q).code % 2 ^ 32))

/-! ### VXU -/

/-- The element-wise operations of Table 07-3: each active element below LEN becomes the operation's result on the elements of
VA, VB (or vxu.s1) and VC; an inactive one becomes 0 with MZ and is kept without; elements at LEN and above are kept. Integer
results wrap at the element's width. -/
def Obligations.VxuElementRows : Prop :=
  (∀ (core : CoreId) (v : Word) (s : State) (k w : Nat), s.ready core.val k = true →
    let n := core.val
    let b := s.arrivals n k
    let len := (s.reg n k).vlen.toNat
    ∀ (i : Instr) (o : Nat), (i, o) ∈
      [(Instr.vxuAdd core v, 0x00), (.vxuSub core v, 0x01), (.vxuMul core v, 0x02), (.vxuFma core v, 0x03), (.vxuFms core v, 0x04),
       (.vxuFnma core v, 0x05), (.vxuDiv core v, 0x06), (.vxuSqrt core v, 0x07), (.vxuMax core v, 0x08), (.vxuMin core v, 0x09),
       (.vxuAbs core v, 0x0A), (.vxuNeg core v, 0x0B), (.vxuCopy core v, 0x0C), (.vxuAnd core v, 0x10), (.vxuOr core v, 0x11),
       (.vxuXor core v, 0x12), (.vxuShl core v, 0x13), (.vxuShr core v, 0x14), (.vxuSar core v, 0x15)] →
      let m := vcmdOf (setFld v 0 6 o)
      b.vxuTakes n k m w →
      m.opc = o ∧ s.vxuWrites n k (exec i s) m.vd m.fmt.width fun j =>
        if j < len then
          if b.vxuOn n k m j then
            some (vElem o m.fmt m.u (s.reg n k).rm (b.vxuEl n k m m.va j) (b.vxuB n k m j) (b.vxuEl n k m m.vc j)).code
          else if m.mz then some 0 else none
        else none) ∧
  (∀ (w : Nat) (g u : Bool) (rm a b c : Nat), 0 < w → a < 2 ^ w → b < 2 ^ w →
    let r := fun (o : Nat) => (vElem o (.int w g) u rm a b c).code
    let sg := g && !(u && decide (16 ≤ w))
    r 0x00 = (a + b) % 2 ^ w ∧ (r 0x01 + b) % 2 ^ w = a ∧ r 0x02 = a * b % 2 ^ w ∧
    r 0x08 = (if intVal w sg a < intVal w sg b then b else a) ∧ r 0x09 = (if intVal w sg b < intVal w sg a then b else a) ∧
    (r 0x0B + a) % 2 ^ w = 0 ∧ r 0x0C = a ∧ r 0x10 = a &&& b ∧ r 0x11 = a ||| b ∧ r 0x12 = a ^^^ b ∧
    r 0x13 = a <<< (b % w) % 2 ^ w ∧ r 0x14 = a >>> (b % w))

/-- The other operations of Table 07-3 on a vector destination: the pairs of R150, conversion, broadcast, index, slides,
permutation, compression, zip and unzip.

The element and mask ports (Table 07-5): an element or a 64-bit chunk of a mask on vxu.sres after 3 issue cycles, or
written from vxu.s1; an index at or above 2,048 / w raises ILLEGAL_MOVE. -/
def Obligations.VxuMoveRows : Prop :=
   (∀ (core : CoreId) (v : Word) (s : State) (k w : Nat), s.ready core.val k = true →
      let n := core.val
      let b := s.arrivals n k
      let len := (s.reg n k).vlen.toNat
      let s1 := ((s.reg n k).opnd_ 0x183).toNat
      let cmd := fun (o : Nat) => vcmdOf (setFld v 0 6 o)
      let sel := fun (o : Nat) (f : Nat → Nat) (j : Nat) =>
        if j < len then (if b.vxuOn n k (cmd o) j then some (f j) else if (cmd o).mz then some 0 else none) else none
      let va := fun (o j : Nat) => b.vxuEl n k (cmd o) (cmd o).va j
      let vb := fun (o j : Nat) => b.vxuEl n k (cmd o) (cmd o).vb j
      let row := fun (i : Instr) (o : Nat) (f : Nat → Option Nat) =>
        b.vxuTakes n k (cmd o) w → s.vxuWrites n k (exec i s) (cmd o).vd (cmd o).fmt.width f
      row (.vxuBcast core v) 0x38 (sel 0x38 fun _ => s1) ∧
      row (.vxuIota core v) 0x3F (sel 0x3F fun j => j) ∧
      row (.vxuSlideup core v) 0x39 (sel 0x39 fun j => if s1 % 512 ≤ j then va 0x39 (j - s1 % 512) else 0) ∧
      row (.vxuSlidedn core v) 0x3A (sel 0x3A fun j => if j + s1 % 512 < len then va 0x3A (j + s1 % 512) else 0) ∧
      row (.vxuPerm core v) 0x3B (sel 0x3B fun j => if vb 0x3B j < len then va 0x3B (vb 0x3B j) else 0) ∧
      row (.vxuCompress core v) 0x3C (fun j => if j < len then
        some (match (b.vxuAct n k (cmd 0x3C))[j]? with | some i => va 0x3C i | none => 0) else none) ∧
      row (.vxuZip core v) 0x3D (sel 0x3D fun j => if j % 2 = 0 then va 0x3D (j / 2) else vb 0x3D (j / 2)) ∧
      row (.vxuUnzip core v) 0x3E (sel 0x3E fun j =>
        if j < len / 2 then va 0x3E (2 * j) else va 0x3E (2 * (j - len / 2) + 1)) ∧
      (∀ g, vfmt (cmd 0x30).df = some g → b.vxuTakes n k (cmd 0x30) w →
        s.vxuWrites n k (exec (.vxuCvt core v) s) (cmd 0x30).vd g.width (sel 0x30 fun j =>
          (convert (withU (cmd 0x30).u (cmd 0x30).fmt) (withU (cmd 0x30).u g) (s.reg n k).rm (va 0x30 j)).code)) ∧
      (∀ (i : Instr) (o : Nat), (i, o) ∈ [(Instr.vxuTwosum core v, 0x18), (.vxuTwoprod core v, 0x19)] → b.vxuTakes n k (cmd o) w →
        let g : FFmt := if (cmd o).ef = 1 then .fp32 else .fp64
        let pair := fun (j : Nat) => if o = 0x18 then twoSum g (va o j) (b.vxuB n k (cmd o) j) else twoProd g (va o j) (b.vxuB n k (cmd o) j)
        ∃ t q h hb hr l lb lr, exec i s = .next t ∧ (t.core n).queues (b.core n) q ∧ q.case = k ∧
          q.vregs = [((cmd o).vd, h, hb, hr), ((cmd o).vc, l, lb, lr)] ∧
          (∀ j, j < len → b.vxuOn n k (cmd o) j = true →
            elemOf h.toNat g.width j = (pair j).1.code % 2 ^ g.width ∧ elemOf l.toNat g.width j = (pair j).2 % 2 ^ g.width))) ∧
   (∀ (core : CoreId) (v : Word) (s : State) (k : Nat), s.ready core.val k = true →
      let n := core.val
      let b := s.arrivals n k
      let w := 8 * 2 ^ (v.toNat / 2 ^ 12 % 4)
      let i := v.toNat / 16 % 256
      let r := v.toNat % 16
      let s1 := ((s.reg n k).opnd_ 0x183).toNat
      let x := (b.vread n k r).1
      let mj := v.toNat % 4
      let ch := v.toNat / 4 % 4
      let gives := fun (out : Out) (d : Word) => ∃ (t : State) (p : Pending), out = .next t ∧ (t.case n k).pend = (s.reg n k).pend ++ [p] ∧
        p.port = .vxuSres ∧ p.due = (s.reg n k).icount + 3 ∧ p.await = .ready ∧ p.data.val = d ∧ (t.core n).vxuLeft = 1 ∧ t.mem = s.mem
      b.vxuFree n k = true →
      (i * w < 2048 → b.vecBusy n k [r] = false → b.slotFault n k [(r, i * w / 64)] = none →
        gives (exec (.vxuGet core v) s) (if v.getLsbD 14 then (BitVec.ofNat w (elemOf x.val.toNat w i)).signExtend 64
          else BitVec.ofNat 64 (elemOf x.val.toNat w i))) ∧
      (2048 ≤ i * w → exec (.vxuGet core v) s = .next (b.raise n k { cls := clsILLEGAL } false) ∧
        exec (.vxuPut core v) s = .next (b.raise n k { cls := clsILLEGAL } false)) ∧
      (i * w < 2048 → b.vecBusy n k [r] = false →
        s.vxuWrites n k (exec (.vxuPut core v) s) r w fun j => if j = i then some s1 else none) ∧
      gives (exec (.vxuMrd core v) s) ((b.mread n k mj).extractLsb' (64 * ch) 64) ∧
      s.vxuMarks n k (exec (.vxuMwr core v) s) mj fun j =>
        if 64 * ch ≤ j ∧ j < 64 * ch + 64 then some (s1.testBit (j - 64 * ch)) else none)

/-- Comparisons and mask operations (Table 07-3, R165): mask bit j of each active element below LEN becomes the comparison's
outcome; an inactive one clears with MZ and is kept without; mask operations write bits 0 to LEN − 1 whatever MEN and MZ are;
bits from LEN on are kept. -/
def Obligations.VxuMaskRows : Prop :=
  ∀ (core : CoreId) (v : Word) (s : State) (k w : Nat), s.ready core.val k = true →
    let n := core.val
    let b := s.arrivals n k
    let len := (s.reg n k).vlen.toNat
    let cmd := fun (o : Nat) => vcmdOf (setFld v 0 6 o)
    (∀ (i : Instr) (o : Nat), (i, o) ∈ [(Instr.vxuCeq core v, 0x20), (.vxuCne core v, 0x21), (.vxuClt core v, 0x22),
        (.vxuCle core v, 0x23), (.vxuCun core v, 0x24)] → b.vxuTakes n k (cmd o) w →
      s.vxuMarks n k (exec i s) (cmd o).vd fun j =>
        if j < len then
          if b.vxuOn n k (cmd o) j then
            some (vCompare o (cmd o).fmt (cmd o).u (b.vxuEl n k (cmd o) (cmd o).va j) (b.vxuB n k (cmd o) j)).1
          else if (cmd o).mz then some false else none
        else none) ∧
    (∀ (i : Instr) (o : Nat) (f : Bool → Bool → Bool), (i, o, f) ∈ [(Instr.vxuMand core v, 0x28, fun x y => x && y),
        (.vxuMor core v, 0x29, fun x y => x || y), (.vxuMxor core v, 0x2A, fun x y => x != y),
        (.vxuMandn core v, 0x2B, fun x y => x && !y)] →
      b.vxuFree n k = true → (cmd o).vd < 4 → (cmd o).va < 4 → (cmd o).vb < 4 →
      s.vxuMarks n k (exec i s) (cmd o).vd fun j =>
        if j < len then some (f ((b.mread n k (cmd o).va).getLsbD j) ((b.mread n k (cmd o).vb).getLsbD j)) else none)

/-- Reductions (R177): the active elements below LEN reduce into vxu.sres, due n + 8 issue cycles later with n = ⌈LEN × w /
512⌉.

What the reductions give (Table 07-6, R105, R178): the worked example of the sum in lanes; the result without an active element;
the sum of integers modulo 2⁶⁴; the extreme, of integers extended by their signedness, and the first index of an element
equal to it, or, of floating elements that are all NaN, the first index; bitwise folds. -/
def Obligations.VxuReductionRows : Prop :=
   (∀ (core : CoreId) (v : Word) (s : State) (k : Nat) (f : EFmt), s.ready core.val k = true →
      let n := core.val
      let b := s.arrivals n k
      let len := (s.reg n k).vlen.toNat
      let r := v.toNat % 16
      let on := fun (j : Nat) => !v.getLsbD 14 || (b.mread n k (v.toNat / 2 ^ 12 % 4)).getLsbD j
      let act := (List.range len).filter on
      let nn := (len * f.width + 511) / 512
      let xs := act.map fun j => (j, elemOf (b.vread n k r).1.val.toNat f.width j)
      b.vxuFree n k = true → vfmt (v.toNat / 2 ^ 8 % 16) = some f → len * f.width ≤ 2048 → b.vecBusy n k [r] = false →
      b.slotFault n k (act.map fun j => (r, j * f.width / 64)) = none → (b.core n).badVxu = false →
      ∀ (i : Instr) (o : Nat), (i, o) ∈ [(Instr.vxuRedSum core v, 0), (.vxuRedMax core v, 1), (.vxuRedMin core v, 2),
          (.vxuRedArgmax core v, 3), (.vxuRedArgmin core v, 4), (.vxuRedAnd core v, 5), (.vxuRedOr core v, 6), (.vxuRedXor core v, 7)] →
        (5 ≤ o → f.isFlt = true → exec i s = .next (b.raise n k { cls := clsILLEGAL } false)) ∧
        ((o < 5 ∨ f.isFlt = false) → ∃ (t : State) (p : Pending), exec i s = .next t ∧ (t.case n k).pend = (s.reg n k).pend ++ [p] ∧ p.port = .vxuSres ∧
          p.due = (s.reg n k).icount + (nn + 8) ∧ p.await = .ready ∧
          p.data.val = BitVec.ofNat 64 (vReduce o f (v.getLsbD 15) (s.reg n k).rm xs).code ∧
          p.contrib = (vReduce o f (v.getLsbD 15) (s.reg n k).rm xs).c ∧ t.mem = s.mem ∧ (t.case n k).v = (s.reg n k).v)) ∧
   ((vReduce 0 (.flt .fp64) false 0 [(0, 0x4340000000000000), (1, 0x3FF0000000000000), (8, 0x3FF0000000000000),
      (9, 0xC340000000000000)]).code = 0x3FF0000000000000 ∧
    (∀ (f : EFmt) (u : Bool) (rm : Nat), (vReduce 0 f u rm []).code = 0 ∧ (vReduce 3 f u rm []).code = 2 ^ 64 - 1 ∧
      (vReduce 4 f u rm []).code = 2 ^ 64 - 1 ∧ (vReduce 5 f u rm []).code = 0 ∧ (vReduce 6 f u rm []).code = 0 ∧
      (vReduce 7 f u rm []).code = 0) ∧
    (∀ (w : Nat) (g : Bool) (rm : Nat) (xs : List (Nat × Nat)), (w = 8 ∨ w = 16 ∨ w = 32 ∨ w = 64) → xs ≠ [] →
      (∀ x ∈ xs, x.2 < 2 ^ w) →
      let r := fun (o : Nat) => (vReduce o (.int w g) false rm xs).code
      ((r 0 : Int) - (xs.map fun x => intVal w g x.2).sum) % 2 ^ 64 = 0 ∧ r 0 < 2 ^ 64 ∧
      (∃ pre y post, xs = pre ++ y :: post ∧ r 3 = y.1 ∧ r 1 < 2 ^ 64 ∧ intVal 64 g (r 1) = intVal w g y.2 ∧
        (∀ x ∈ xs, intVal w g x.2 ≤ intVal w g y.2) ∧ ∀ x ∈ pre, intVal w g x.2 ≠ intVal w g y.2) ∧
      (∃ pre y post, xs = pre ++ y :: post ∧ r 4 = y.1 ∧ r 2 < 2 ^ 64 ∧ intVal 64 g (r 2) = intVal w g y.2 ∧
        (∀ x ∈ xs, intVal w g y.2 ≤ intVal w g x.2) ∧ ∀ x ∈ pre, intVal w g x.2 ≠ intVal w g y.2) ∧
      (∀ j, (r 5).testBit j = true ↔ ∀ x ∈ xs, x.2.testBit j = true) ∧
      (∀ j, (r 6).testBit j = true ↔ ∃ x ∈ xs, x.2.testBit j = true) ∧
      (∀ j, (r 7).testBit j = decide ((xs.filter fun x => x.2.testBit j).length % 2 = 1))) ∧
    (∀ (f : FFmt) (u : Bool) (rm : Nat) (xs : List (Nat × Nat)), xs ≠ [] → (∀ x ∈ xs, x.2 < 2 ^ f.width) →
      let r := fun (o : Nat) => (vReduce o (.flt f) u rm xs).code
      let less := fun (x y : Nat) => (fcompare f 2 x y).1
      ((∀ x ∈ xs, f.isNan x.2 = false) →
        (∃ pre y post, xs = pre ++ y :: post ∧ r 3 = y.1 ∧ r 1 = y.2 ∧ (∀ x ∈ xs, less y.2 x.2 = false) ∧ ∀ x ∈ pre, x.2 ≠ y.2) ∧
        (∃ pre y post, xs = pre ++ y :: post ∧ r 4 = y.1 ∧ r 2 = y.2 ∧ (∀ x ∈ xs, less x.2 y.2 = false) ∧ ∀ x ∈ pre, x.2 ≠ y.2)) ∧
      ((∀ x ∈ xs, f.isNan x.2 = true) → ∃ y post, xs = y :: post ∧ r 3 = y.1 ∧ r 4 = y.1)) ∧
    (∀ (u : Bool) (rm : Nat),
      (∀ f top bottom, (f, top, bottom) ∈ [(FFmt.fp64, 0x7FF0000000000000, 0xFFF0000000000000), (.fp32, 0x7F800000, 0xFF800000),
          (.w16, 0x7F80, 0xFF80), (.w8, 0x7F, 0xFF), (.w8x, 0x7F, 0xFF)] →
        (vReduce 1 (.flt f) u rm []).code = bottom ∧ (vReduce 2 (.flt f) u rm []).code = top) ∧
      ∀ (w : Nat) (g : Bool), (w = 8 ∨ w = 16 ∨ w = 32 ∨ w = 64) →
        intVal 64 g (vReduce 1 (.int w g) false rm []).code = intMin w g ∧
        intVal 64 g (vReduce 2 (.int w g) false rm []).code = intMax w g))

/-- Vector loads and stores (R172, R173) whose active elements all translate, with nothing of the task to wait for: a load
enters its data phase with its register and the lines it reads, a store with what it has written; no register and, for a
load, no byte of memory changes at the trigger. A store whose elements lie in the core's own bank has written each active
element's bytes, the higher-indexed element's where two cover a byte, and no other byte (R172).

Tile loads and stores whose rows all pass their checks, row by row and byte by byte, with nothing of the task to wait for, enter their data phase with
their tile, direction and rows; TSTART.ROW becomes 0; no tile changes at the trigger, and a load changes no byte of memory. A
store whose rows lie in the core's own bank has written every byte of the rows that tmu.rmask and tmu.cmask leave, the later
row's where two cover a byte, and no other byte (R123).

That a row's bytes run on from its address past 4 GiB is the model's choice (log entry 101). -/
def Obligations.VectorMemoryRows : Prop :=
   (∀ (core : CoreId) (v : Word) (s : State) (k : Nat) (x : Nat → Xl), s.ready core.val k = true →
      let n := core.val
      let b := s.arrivals n k
      let c := s.reg n k
      let len := c.vlen.toNat
      let r := v.toNat % 16
      let w := 8 * 2 ^ (v.toNat / 16 % 4)
      let on := fun (j : Nat) => !v.getLsbD 8 || (b.mread n k (v.toNat / 2 ^ 6 % 4)).getLsbD j
      let act := (List.range len).filter on
      let va := fun (j : Nat) => c.bnk.toNat % 2 ^ 16 * 2 ^ 32 +
        ((((c.opnd_ 0x181).toNat : Int) + j * ((c.opnd_ 0x182).setWidth 32).toInt) % 2 ^ 32).toNat
      let passes := fun (acc : Acc) => ∀ j ∈ act, va j % (w / 8) = 0 ∧ b.xlate n c (va j) acc false = .ok (x j) ∧
        b.storesTo n (b.whoIs n k) ((x j).pa / 64) = false ∧ b.bypassBusy n (b.whoIs n k) ((x j).pa / 64) = false
      b.vxuFree n k = true → len * w ≤ 2048 → (b.core n).vecOps.length < 4 → b.vecBusy n k [r] = false → c.keyDue = false →
      (passes .read → ((b.core n).vxuOps.any fun o => o.case == k && o.vregs.any (·.1 == r)) = false →
        ∃ (t : State) (o : VecOp), exec (.vxuLd core v) s = .next t ∧ (t.core n).vecOps = (b.core n).vecOps ++ [o] ∧ o.case = k ∧ o.reg = r ∧
          o.load = true ∧ o.width = w ∧ t.mem = s.mem ∧ (t.case n k).v = c.v ∧
          (∀ j ∈ act, ∃ d ∈ o.dest, (j, (x j).pa % 64) ∈ d.2)) ∧
      (passes .write →
        ∃ (t : State) (o : VecOp), exec (.vxuSt core v) s = .next t ∧ (t.core n).vecOps = (b.core n).vecOps ++ [o] ∧ o.case = k ∧ o.reg = r ∧
          o.load = false ∧ o.width = w ∧ (t.case n k).v = c.v) ∧
      (passes .write → (∀ j ∈ act, (x j).pa % 64 = va j % 64 ∧ b.sound n ((x j).pa / 64 * 64) 64) →
        let val := (b.vread n k r).1.val.toNat
        ∃ t : State, exec (.vxuSt core v) s = .next t ∧
          (∀ j ∈ act, ∀ i, i < w / 8 → (∀ m ∈ act, j < m → (x j).pa + i < (x m).pa ∨ (x m).pa + w / 8 ≤ (x j).pa + i) →
            t.byte ((x j).pa + i) = BitVec.ofNat 8 (elemOf val w j / 2 ^ (8 * i))) ∧
          ∀ a, (∀ j ∈ act, a < (x j).pa ∨ (x j).pa + w / 8 ≤ a) → t.byte a = s.byte a)) ∧
   (∀ (core : CoreId) (v : Word) (s : State) (k : Nat), s.ready core.val k = true →
      let n := core.val
      let b := s.arrivals n k
      let c := s.reg n k
      let h := shapeOf (c.opnd_ 0x280)
      let w := h.fmt.width
      let tile := v.toNat % 8
      let lo := c.tstart.toNat % 256
      let rowVa := fun (r : Nat) => c.bnk.toNat % 2 ^ 16 * 2 ^ 32 +
        ((((c.opnd_ 0x281).toNat : Int) + r * ((c.opnd_ 0x282).setWidth 32).toInt) % 2 ^ 32).toNat
      let passes := fun (hi len : Nat) (acc : Acc) (p : Nat → Bool) => ∀ r, lo ≤ r → r < hi → p r = true →
        rowVa r % max 1 (w / 8) = 0 ∧ ∀ o, o < len → ∃ x : Xl, b.xlate n c (rowVa r + o) acc false = .ok x ∧
          b.storesTo n (b.whoIs n k) (x.pa / 64) = false ∧ b.bypassBusy n (b.whoIs n k) (x.pa / 64) = false
      let starts := fun (out : Out) (load tr : Bool) (hi : Nat) => ∃ (t : State) (o : TileOp), out = .next t ∧
        (t.core n).tileOps = (b.core n).tileOps ++ [o] ∧ o.case = k ∧ o.tile = tile ∧ o.load = load ∧ o.transposed = tr ∧
        o.lo = lo ∧ o.hi = hi ∧ o.final = true ∧ o.shape = c.opnd_ 0x280 ∧ (t.case n k).tstart.toNat % 256 = 0 ∧
        s.tickets n k 0 0 t ∧ (t.case n k).t = c.t ∧ (load = true → t.mem = s.mem)
      b.noTile n k = false → h.ok = true → (b.core n).tileOps.length < 4 → c.rowNext = none → c.keyDue = false →
      (lo < h.rows → b.tileBusy n k true [] [tile] = false → passes h.rows h.bytes .read (fun _ => true) →
        starts (exec (.tmuLd core v) s) true false h.rows) ∧
      (lo < h.elems → ¬(w = 4 ∧ h.rows % 2 = 1) → b.tileBusy n k true [] [tile] = false →
        passes h.elems (h.rows * w / 8) .read (fun _ => true) →
        starts (exec (.tmuLdt core v) s) true true h.elems) ∧
      (lo < h.rows → b.tileBusy n k true [tile] [] = false →
        passes h.rows h.bytes .write (fun r => !((c.opnd_ 0x283).getLsbD r)) →
        starts (exec (.tmuSt core v) s) false false h.rows) ∧
      (lo < h.rows → b.tileBusy n k true [tile] [] = false → ∀ x : Nat → Nat → Xl,
        let row := fun (r o : Nat) => lo ≤ r ∧ r < h.rows ∧ (c.opnd_ 0x283).getLsbD r = false ∧ o < h.bytes
        let puts := fun (r o : Nat) => row r o ∧ (c.opnd_ 0x284).getLsbD (o / max 1 (w / 8)) = false
        (∀ r o, row r o → rowVa r % max 1 (w / 8) = 0 ∧ b.xlate n c (rowVa r + o) .write false = .ok (x r o) ∧
          b.storesTo n (b.whoIs n k) ((x r o).pa / 64) = false ∧ b.bypassBusy n (b.whoIs n k) ((x r o).pa / 64) = false ∧
          (x r o).pa % 64 = (rowVa r + o) % 64 ∧ b.sound n ((x r o).pa / 64 * 64) 64) →
        (∀ r o, row r o → row r (o + 1) → (rowVa r + o + 1) % 64 ≠ 0 → (x r (o + 1)).pa = (x r o).pa + 1) →
        ∃ t : State, exec (.tmuSt core v) s = .next t ∧
          (∀ r o, puts r o → (∀ r' o', puts r' o' → (r < r' ∨ r = r' ∧ o < o') → (x r' o').pa ≠ (x r o).pa) →
            t.byte (x r o).pa = BitVec.ofNat 8 (elemOf (rowOf (c.tile tile).toNat r) 8 o)) ∧
          ∀ a, (∀ r o, puts r o → a ≠ (x r o).pa) → t.byte a = s.byte a))

/-- When a VXU trigger executes normally (R158–R163, R168, R174, R176): a task with vector registers, the brake path quiet, the
datapath free, no vector operation of the core in flight, no poisoned slot, and a command that Table 07-3 allows for its format
and length. It is then accepted: a datapath operation goes into flight and occupies the datapath for the cycles of Table
07-4, a port read and a reduction are due on vxu.sres after 3 and n + 8 issue cycles. No register changes at the trigger, and
the word is past. The formats are named by their codes, with their widths (Tables 04-1, 05-2). -/
def Obligations.VectorCompletes : Prop :=
  ∀ (core : CoreId) (v : Word) (s : State) (k i : Nat) (y : Task), s.ready core.val k = true → s.calm core.val k = true →
    let n := core.val
    let b := s.arrivals n k
    let c := s.reg n k
    let len := c.vlen.toNat
    let vd := v.toNat / 2 ^ 6 % 16
    let va := v.toNat / 2 ^ 10 % 16
    let vb := v.toNat / 2 ^ 14 % 16
    let vc := v.toNat / 2 ^ 18 % 16
    let floats : List (Nat × Nat) := [(0, 64), (1, 32), (2, 16), (3, 8), (4, 8)]
    let ints : List (Nat × Nat) := [(7, 8), (8, 8), (9, 16), (10, 32), (11, 64)]
    let slices := fun (w : Nat) => max 1 ((len * w + 511) / 512)
    let past := fun (t : State) => (t.case n k).pc = c.pc + 4 ∧ (t.case n k).icount = c.icount + 1 ∧ (t.case n k).v = c.v ∧
      (t.case n k).m = c.m ∧ (t.case n k).d = c.d ∧ t.mem = s.mem
    let flies := fun (x : Instr) (occupies : Nat) => ∃ (t : State) (q : VxuOp), exec x s = .next t ∧ (t.core n).vxuOps = [q] ∧
      q.case = k ∧ (t.core n).vxuLeft = occupies ∧ (t.case n k).pend = c.pend ∧ past t
    let shows := fun (x : Instr) (occupies delay : Nat) => ∃ (t : State) (p : Pending), exec x s = .next t ∧ (t.core n).vxuOps = [] ∧
      (t.core n).vxuLeft = occupies ∧ (t.case n k).pend = c.pend ++ [p] ∧ p.port = .vxuSres ∧ p.due = c.icount + delay ∧
      p.await = .ready ∧ past t
    b.whoIs n k = some i → b.task n i = some y → y.prof ≠ 0 → b.power.shut = false → 200000 ≤ b.power.lift →
    (b.core n).vxuLeft = 0 → (b.core n).vecOps = [] → (b.core n).vxuOps = [] → (∀ r, c.vregBad r = 0) →
    (∀ e w, (e, w) ∈ floats ++ ints → v.toNat / 2 ^ 26 % 16 = e → len * w ≤ 2048 →
      (∀ x : CoreId → Word → Instr, x ∈ [Instr.vxuAdd, Instr.vxuSub, Instr.vxuMul, Instr.vxuMax, Instr.vxuMin, Instr.vxuAbs,
          Instr.vxuNeg, Instr.vxuCopy, Instr.vxuBcast, Instr.vxuSlideup, Instr.vxuSlidedn, Instr.vxuPerm, Instr.vxuCompress] →
        flies (x core v) (slices w)) ∧
      (len % 2 = 0 → flies (.vxuZip core v) (slices w) ∧ flies (.vxuUnzip core v) (slices w)) ∧
      (vd < 4 → ∀ x : CoreId → Word → Instr, x ∈ [Instr.vxuCeq, Instr.vxuCne, Instr.vxuClt, Instr.vxuCle] →
        flies (x core v) (slices w)) ∧
      (∀ e2 w2, (e2, w2) ∈ floats ++ ints → v.toNat / 2 ^ 32 % 16 = e2 → e2 ≠ e → len * w2 ≤ 2048 →
        flies (.vxuCvt core v) (slices (max w w2)))) ∧
    (∀ e w, (e, w) ∈ floats → v.toNat / 2 ^ 26 % 16 = e → len * w ≤ 2048 →
      (∀ x : CoreId → Word → Instr, x ∈ [Instr.vxuFma, Instr.vxuFms, Instr.vxuFnma] → flies (x core v) (slices w)) ∧
      (vd < 4 → flies (.vxuCun core v) (slices w)) ∧
      (e < 2 → flies (.vxuDiv core v) (16 * slices w) ∧ flies (.vxuSqrt core v) (16 * slices w)) ∧
      (e < 2 → vd ≠ vc → flies (.vxuTwosum core v) (2 * slices w) ∧ flies (.vxuTwoprod core v) (2 * slices w))) ∧
    (∀ e w, (e, w) ∈ ints → v.toNat / 2 ^ 26 % 16 = e → len * w ≤ 2048 →
      ∀ x : CoreId → Word → Instr, x ∈ [Instr.vxuAnd, Instr.vxuOr, Instr.vxuXor, Instr.vxuShl, Instr.vxuShr, Instr.vxuSar,
        Instr.vxuIota] → flies (x core v) (slices w)) ∧
    (vd < 4 → va < 4 → vb < 4 →
      ∀ x : CoreId → Word → Instr, x ∈ [Instr.vxuMand, Instr.vxuMor, Instr.vxuMxor, Instr.vxuMandn] → flies (x core v) 1) ∧
    (v.toNat / 16 % 256 * (8 * 2 ^ (v.toNat / 2 ^ 12 % 4)) < 2048 →
      shows (.vxuGet core v) 1 3 ∧ flies (.vxuPut core v) 1) ∧
    shows (.vxuMrd core v) 1 3 ∧ flies (.vxuMwr core v) 1 ∧
    (∀ e w, (e, w) ∈ floats ++ ints → v.toNat / 2 ^ 8 % 16 = e → len * w ≤ 2048 →
      (∀ x : CoreId → Word → Instr, x ∈ [Instr.vxuRedSum, Instr.vxuRedMax, Instr.vxuRedMin, Instr.vxuRedArgmax, Instr.vxuRedArgmin] →
        shows (x core v) (slices w) ((len * w + 511) / 512 + 8)) ∧
      (7 ≤ e → ∀ x : CoreId → Word → Instr, x ∈ [Instr.vxuRedAnd, Instr.vxuRedOr, Instr.vxuRedXor] →
        shows (x core v) (slices w) ((len * w + 511) / 512 + 8))) ∧
    (∀ x : Nat → Xl,
      let w := 8 * 2 ^ (v.toNat / 16 % 4)
      let at_ := fun (j : Nat) => c.bnk.toNat % 2 ^ 16 * 2 ^ 32 +
        ((((c.opnd_ 0x181).toNat : Int) + j * ((c.opnd_ 0x182).setWidth 32).toInt) % 2 ^ 32).toNat
      let passes := fun (acc : Acc) => ∀ j, j < len → at_ j % (w / 8) = 0 ∧ b.xlate n c (at_ j) acc false = .ok (x j) ∧
        b.storesTo n (b.whoIs n k) ((x j).pa / 64) = false ∧ b.bypassBusy n (b.whoIs n k) ((x j).pa / 64) = false
      let moves := fun (z : Instr) (load : Bool) => ∃ (t : State) (o : VecOp), exec z s = .next t ∧ (t.core n).vecOps = [o] ∧
        o.case = k ∧ o.reg = v.toNat % 16 ∧ o.load = load ∧ (t.case n k).v = c.v ∧ (t.case n k).pc = c.pc + 4
      len * w ≤ 2048 → c.keyDue = false → (passes .read → moves (.vxuLd core v) true) ∧ (passes .write → moves (.vxuSt core v) false))

/-! ### TMU -/

/-- An array-path trigger that passes its checks joins the core's array queue, named by its fields of v (R118), with the shape
and the rounding attribute latched, and is counted; no tile changes at the trigger.

What array operations compute: tmu.zero gives an all-zero tile without poison; an element-wise, conversion or matrix operation
gives each element of the result from the latched operands, and 0 outside the result; tmu.mma accumulates the products of row m
of A and row j of B in the order of k on C, or on 0 (R132), with its epilogue on T (R137), tmu.mmc also its compensation in E
(R135); tmu.red puts the result of row m into row m, those of the columns one after another, or the one of the region into
element 0 (R140); integer sums, differences and products saturate at the format's limits (R138); an integer product
accumulates in the order of k, saturating at each step (R133). NEG of an unsigned format saturates to 0: the model's choice (log
entry 104). -/
def Obligations.TmuArrayRows : Prop :=
   (∀ (core : CoreId) (v : Word) (s : State) (k cyc : Nat), s.ready core.val k = true →
      let n := core.val
      let b := s.arrivals n k
      let d := v.toNat % 8
      let a := v.toNat / 8 % 8
      let e := v.toNat / 64 % 8
      let t4 := v.toNat / 2 ^ 12 % 8
      ∀ (i : Instr) (kind : ArrKind), (i, kind) ∈
        [(Instr.tmuMma core v, .mma d a e (v.getLsbD 9) (v.getLsbD 10) (v.getLsbD 11) t4),
         (.tmuMmc core v, .mmc d a e (v.getLsbD 9) t4), (.tmuZero core v, .zero d),
         (.tmuEwAdd core v, .ew d a e 0), (.tmuEwSub core v, .ew d a e 1), (.tmuEwMul core v, .ew d a e 2),
         (.tmuEwMax core v, .ew d a e 3), (.tmuEwMin core v, .ew d a e 4), (.tmuEwCopy core v, .ew d a e 5),
         (.tmuEwAbs core v, .ew d a e 6), (.tmuEwNeg core v, .ew d a e 7), (.tmuCvt core v, .cvt d a),
         (.tmuRedSum core v, .red d a (v.toNat / 64 % 4) 0), (.tmuRedMax core v, .red d a (v.toNat / 64 % 4) 1),
         (.tmuRedMin core v, .red d a (v.toNat / 64 % 4) 2)] →
        b.arrayTakes n k kind cyc →
        ∃ (t : State) (q : ArrOp), exec i s = .next t ∧ (t.core n).arrayQ = (b.core n).arrayQ ++ [q] ∧ q.case = k ∧ q.kind = kind ∧
          q.shape = (s.reg n k).opnd_ 0x280 ∧ q.rm.toNat = (s.reg n k).fpc.toNat % 8 ∧ q.computing = false ∧
          (q.filled = true ↔ kind = .zero d) ∧
          s.tickets n k (b.core n).arrayQ.length (if kind = .zero d then 0 else cyc) t ∧
          (t.case n k).t = (s.reg n k).t ∧ t.mem = s.mem) ∧
   ((∀ (s : State) (n : Nat) (o : ArrOp) (rest : List ArrOp) (d : Nat), (s.core n).arrayQ = o :: rest → o.computing = true →
      o.kind = .zero d →
      ((s.arrayComplete n).case n o.case).tile d = 0 ∧ ((s.arrayComplete n).case n o.case).tileBad d = 0 ∧
      ((s.arrayComplete n).core n).arrayQ = rest ∧ ∀ j, j ≠ d → ((s.arrayComplete n).case n o.case).tile j = (s.case n o.case).tile j) ∧
    (∀ (o : ArrOp) (c : Casement) (d a b op : Nat), o.kind = .ew d a b op → (shapeOf o.shape).ok = true →
      ∃ rows, (o.compute c).tiles = [(d, rows, (shapeOf o.shape).rows)] ∧
        ∀ m j, m < 16 → j < 512 / (shapeOf o.shape).fmt.width → cell (tileOf rows).toNat (shapeOf o.shape).fmt.width m j =
          if m < (shapeOf o.shape).rows ∧ j < (shapeOf o.shape).elems then
            (ewElem (shapeOf o.shape).fmt op o.rm.toNat (cell o.opA.toNat (shapeOf o.shape).fmt.width m j)
              (cell o.opB.toNat (shapeOf o.shape).fmt.width m j)).code % 2 ^ (shapeOf o.shape).fmt.width
          else 0) ∧
    (∀ (o : ArrOp) (c : Casement), (shapeOf o.shape).ok = true →
      let h := shapeOf o.shape
      let w := h.fmt.width
      let wa := h.acc.width
      let rm := o.rm.toNat
      let A := fun (m k : Nat) => cell o.opA.toNat w m k
      let B := fun (j k : Nat) => cell o.opB.toNat w j k
      let line := fun (m j : Nat) => (List.range h.elems).map fun k => (A m k, B j k)
      let fills := fun (rows : List Nat) (z cols : Nat) (f : Nat → Nat → Nat) => ∀ m j, m < 16 → j < 512 / z →
        cell (tileOf rows).toNat z m j = if m < h.rows ∧ j < cols then f m j % 2 ^ z else 0
      (∀ d a, o.kind = .cvt d a → h.elems * wa ≤ 512 → ∃ rows, (o.compute c).tiles = [(d, rows, h.rows)] ∧
        fills rows wa h.elems fun m j => (convert h.fmt h.acc rm (A m j)).code) ∧
      (∀ d a b z ep epm e, o.kind = .mma d a b z ep epm e → h.n * wa ≤ 512 → ∃ rows, (o.compute c).tiles = [(d, rows, h.rows)] ∧
        fills rows wa h.n fun m j =>
          let r := mmaElem h rm (if z then 0 else cell (c.tile d).toNat wa m j) (line m j)
          if ep then (epilogue h rm epm r (cell o.opT.toNat wa m j)).code else r.code) ∧
      (∀ d a b z e g, o.kind = .mmc d a b z e → h.fmt = .flt g → ∃ rows errs,
        (o.compute c).tiles = [(d, rows, h.rows), (e, errs, h.rows)] ∧
        let step := fun (m j : Nat) => (line m j).foldl (fun ce (x, y) => mmcStep g ce x y)
          (({ code := if z then 0 else cell (c.tile d).toNat 32 m j } : ARes),
            ({ code := if z then 0 else cell (c.tile e).toNat 32 m j } : ARes))
        fills rows 32 h.n (fun m j => (step m j).1.code) ∧ fills errs 32 h.n (fun m j => (step m j).2.code)) ∧
      (∀ d a axis op, o.kind = .red d a axis op → op < 3 → axis < 3 →
        let z := if op = 0 then wa else w
        ∃ rows used, (o.compute c).tiles = [(d, rows, used)] ∧
          (axis = 0 → used = h.rows ∧ ∀ m, m < 16 → rowOf (tileOf rows).toNat m =
            if m < h.rows then (redAll h.fmt h.acc op rm ((List.range h.elems).map (A m))).code % 2 ^ 512 else 0) ∧
          (axis = 1 → used = (h.elems * z + 511) / 512 ∧ (h.elems * z ≤ 8192 → ∀ j, j < 8192 / z → elemOf (tileOf rows).toNat z j =
            if j < h.elems then (redAll h.fmt h.acc op rm ((List.range h.rows).map fun m => A m j)).code % 2 ^ z else 0)) ∧
          (axis = 2 → used = 1 ∧ (tileOf rows).toNat < 2 ^ 512 ∧
            (op ≠ 0 → rowOf (tileOf rows).toNat 0 = (redAll h.fmt h.acc op rm ((List.range h.rows).map fun m =>
              (List.range h.elems).map (A m)).flatten).code % 2 ^ 512) ∧
            (op = 0 → rowOf (tileOf rows).toNat 0 = (sumAll h.acc rm ((List.range h.rows).map fun m =>
              sumAll h.acc rm ((List.range h.elems).map fun j => convert h.fmt h.acc rm (A m j)))).code % 2 ^ 512)))) ∧
    (∀ (w : Nat) (g : Bool) (rm a b : Nat), 1 < w → a < 2 ^ w → b < 2 ^ w →
      let val := fun (op : Nat) => intVal w g (ewElem (.int w g) op rm a b).code
      let sat := fun (i : Int) => max (intMin w g) (min (intMax w g) i)
      val 0 = sat (intVal w g a + intVal w g b) ∧ val 1 = sat (intVal w g a - intVal w g b) ∧
      val 2 = sat (intVal w g a * intVal w g b) ∧ val 3 = max (intVal w g a) (intVal w g b) ∧
      val 4 = min (intVal w g a) (intVal w g b) ∧ val 5 = intVal w g a ∧ val 6 = sat (intVal w g a).natAbs ∧
      val 7 = sat (-intVal w g a)) ∧
    (∀ (h : Shape) (rm c0 : Nat) (w wc : Nat) (g gc : Bool) (ab : List (Nat × Nat)) (x y : Nat), h.fmt = .int w g → h.acc = .int wc gc →
      (mmaElem h rm c0 []).code = c0 ∧
      (1 < wc → intVal wc gc (mmaElem h rm c0 (ab ++ [(x, y)])).code =
        max (intMin wc gc) (min (intMax wc gc) (intVal wc gc (mmaElem h rm c0 ab).code + intVal w g x * intVal w g y)))))

/-- When a TMU trigger of the array path executes normally (R111, R117, R118, R120, R130, R131, R137–R145, Tables 05-7 and 05-10): a
task of the full profile, TSTART.ROW = 0, a shape that the operation allows, the array queue and the tile memory path empty, no
hold of the array, no poisoned tile. It then joins the queue and is counted with its compute cycles. Formats are named by
their codes of Table 05-2, with their widths. -/
def Obligations.TileCompletes : Prop :=
  ∀ (core : CoreId) (v : Word) (s : State) (k i : Nat) (y : Task), s.ready core.val k = true → s.calm core.val k = true →
    let n := core.val
    let b := s.arrivals n k
    let c := s.reg n k
    let h := (c.opnd_ 0x280).toNat
    let rows := h % 16 + 1
    let bits := (h / 2 ^ 4 % 16 + 1) * 32
    let efmt := h / 2 ^ 8 % 16
    let afmt := h / 2 ^ 12 % 16
    let pass := h / 2 ^ 16 % 4
    let cols := h / 2 ^ 20 % 16 + 1
    let formats : List (Nat × Nat) := [(0, 64), (1, 32), (2, 16), (3, 8), (4, 8), (5, 4), (6, 4), (7, 8), (8, 8), (9, 16), (10, 32), (11, 64)]
    let d := v.toNat % 8
    let a := v.toNat / 8 % 8
    let e := v.toNat / 64 % 8
    let t4 := v.toNat / 2 ^ 12 % 8
    let joins := fun (x : Instr) (cyc : Nat) => ∃ (t : State) (q : ArrOp), exec x s = .next t ∧ (t.core n).arrayQ = [q] ∧ q.case = k ∧
      q.shape = c.opnd_ 0x280 ∧ q.computing = false ∧ s.tickets n k 0 cyc t ∧ (t.case n k).t = c.t ∧
      (t.case n k).pc = c.pc + 4 ∧ t.mem = s.mem
    b.whoIs n k = some i → b.task n i = some y → y.prof = 2 → c.tstart.toNat % 256 = 0 → (b.core n).arrayQ = [] →
    (b.core n).tileOps = [] → b.arrayHeld n = false → (∀ j, c.tileBad j = 0) →
    ∀ w, (efmt, w) ∈ formats → bits % w = 0 →
      joins (.tmuZero core v) 0 ∧
      (∀ x : CoreId → Word → Instr, x ∈ [Instr.tmuEwAdd, Instr.tmuEwSub, Instr.tmuEwMul, Instr.tmuEwMax, Instr.tmuEwMin,
          Instr.tmuEwCopy, Instr.tmuEwAbs, Instr.tmuEwNeg] → joins (x core v) rows) ∧
      (∀ wa, (afmt, wa) ∈ formats → (bits / w * wa + 31) / 32 * 4 ≤ 64 → (wa = 4 → bits / w % 2 = 0) →
        joins (.tmuCvt core v) rows) ∧
      (v.toNat / 64 % 4 ≠ 3 →
        let cyc := rows + if v.toNat / 64 % 4 = 2 then 12 else 8
        joins (.tmuRedMax core v) cyc ∧ joins (.tmuRedMin core v) cyc ∧
        ((efmt, afmt) ∈ [(0, 0), (1, 0), (1, 1), (2, 0), (2, 1), (2, 2), (3, 0), (3, 1), (3, 2), (4, 0), (4, 1), (4, 2), (5, 0), (6, 0),
            (7, 0), (8, 0), (9, 0), (10, 0), (5, 1), (6, 1), (7, 1), (8, 1), (9, 1), (5, 2), (6, 2), (7, 2), (8, 2), (5, 10), (6, 10),
            (7, 10), (8, 10), (9, 10), (10, 10), (5, 11), (6, 11), (7, 11), (8, 11), (9, 11), (10, 11), (11, 11)] →
          joins (.tmuRedSum core v) cyc)) ∧
      (∀ wa halves, (efmt, afmt, wa, halves) ∈ [(2, 1, 32, 2), (3, 1, 32, 2), (4, 1, 32, 2), (2, 2, 16, 1), (3, 2, 16, 1), (4, 2, 16, 1),
          (7, 10, 32, 2), (8, 10, 32, 2), (5, 10, 32, 2), (6, 10, 32, 2), (7, 9, 16, 1), (8, 9, 16, 1), (5, 9, 16, 1), (6, 9, 16, 1),
          (1, 1, 32, 8), (0, 0, 64, 16)] → pass = 0 → cols * wa ≤ 512 → d ≠ a → d ≠ e → (v.getLsbD 10 = true → t4 ≠ d) →
        joins (.tmuMma core v) (bits / w * halves / 2)) ∧
      (efmt = 1 → afmt = 1 → pass ≠ 0 → d ≠ a → d ≠ e → (v.getLsbD 10 = true → t4 ≠ d) →
        joins (.tmuMma core v) (bits / w * pass)) ∧
      ((efmt = 2 ∨ efmt = 3 ∨ efmt = 4) → afmt = 1 → pass = 0 → d ≠ a → d ≠ e → t4 ≠ d → t4 ≠ a → t4 ≠ e →
        joins (.tmuMmc core v) (2 * (bits / w)))

/-! ### XMU -/

/-- Enqueueing (R193, R197): a misaligned descriptor address, a halted queue and a full queue are answered by their codes on
xmu.res; else the descriptor joins the tail of its queue with the next sequence number, 0 left out, and the RANK, SIZE and
STRICT the task holds, and xmu.res shows the number.

Queue status, FLUSH and RESUME (R197, Table 08-10): the status of queue v[1:0] after the change is due on xmu.res after 2
issue cycles; FLUSH ends every descriptor that has not started with CANCELLED, RESUME clears HALT. -/
def Obligations.XmuRows : Prop :=
   (∀ (core : CoreId) (q : Fin 4) (v : Word) (s : State) (k i : Nat) (y : Task), s.ready core.val k = true →
      let n := core.val
      let b := s.arrivals n k
      let c := s.reg n k
      b.whoIs n k = some i → b.task n i = some y →
      let x := tabGet ({} : XQueue) y.xq q.val
      let gives := fun (r : Word) => exec (.xmuEnqueue core q v) s = s.changes n k (0x380 + q.val) v fun z => z.addPend .xmuRes 2 r
      (v.toNat % 32 ≠ 0 → gives 8) ∧
      (v.toNat % 32 = 0 → x.halt = true → gives 4) ∧
      (v.toNat % 32 = 0 → x.halt = false → 8 ≤ x.items.length → gives 2) ∧
      (v.toNat % 32 = 0 → x.halt = false → x.items.length < 8 → ∃ (t : State) (z : Task) (e : XItem) (p : Pending), exec (.xmuEnqueue core q v) s = .next t ∧
        t.task n i = some z ∧ (tabGet ({} : XQueue) z.xq q.val).items = x.items ++ [e] ∧ e.seq = x.nextSeq ∧
        e.addr.toNat = v.toNat % 2 ^ 48 ∧ e.phase = .queued ∧ e.strict = c.rdc.getLsbD 0 ∧ e.rank.toNat = c.asl.toNat % 2 ^ 16 ∧
        e.size.toNat = c.asl.toNat / 2 ^ 16 % 2 ^ 16 ∧
        (tabGet ({} : XQueue) z.xq q.val).nextSeq = (if x.nextSeq = 255 then 1 else x.nextSeq + 1) ∧
        (∀ j, j ≠ q.val → tabGet ({} : XQueue) z.xq j = tabGet ({} : XQueue) y.xq j) ∧
        (t.case n k).pend = c.pend ++ [p] ∧ p.port = .xmuRes ∧ p.due = c.icount + 2 ∧
        p.data.val.toNat = 1 + x.nextSeq.toNat * 256 ∧ t.mem = s.mem)) ∧
   (∀ (core : CoreId) (v : Word) (s : State) (k i : Nat) (y : Task), s.ready core.val k = true →
      let n := core.val
      let b := s.arrivals n k
      let c := s.reg n k
      b.whoIs n k = some i → b.task n i = some y →
      let j := v.toNat % 4
      let x := tabGet ({} : XQueue) y.xq j
      let status := fun (q : XQueue) => q.items.length % 16 + (if q.halt then 16 + q.code.toNat * 256 else 0) + q.doneSeq.toNat * 2 ^ 16
      let leaves := fun (out : Out) (q : XQueue) => ∃ (t : State) (z : Task) (p : Pending), out = .next t ∧ t.task n i = some z ∧
        tabGet ({} : XQueue) z.xq j = q ∧ (t.case n k).pend = c.pend ++ [p] ∧ p.port = .xmuRes ∧ p.due = c.icount + 2 ∧
        p.data.val.toNat = status q ∧ t.mem = s.mem
      let cancel := fun (q : XQueue) => { q with items := q.items.map fun e : XItem =>
        if e.phase = .queued then { e with phase := .ended, outcome := some { code := 0x80 } } else e }
      let resume := fun (q : XQueue) => { q with halt := false, code := 0 }
      leaves (exec (.xmuQueueStatus core v) s) x ∧
      (v.getLsbD 9 = false → leaves (exec (.xmuQueueResume core v) s) (resume x)) ∧
      (v.getLsbD 9 = true → leaves (exec (.xmuQueueResume core v) s) (resume (cancel x))) ∧
      (v.getLsbD 8 = false → leaves (exec (.xmuQueueFlush core v) s) (cancel x)) ∧
      (v.getLsbD 8 = true → leaves (exec (.xmuQueueFlush core v) s) (resume (cancel x))))

/-! ### KYU -/

/-- The key triggers that work on registers (Table 12-4): narrowing, moving, clearing, reading and testing keys, and the
installing of a wicket under a WICKET key (R285). kyu.rstr refuses with 0 a range that k[S] does not cover, and makes no key
then. k15 is no destination during a wicket call: kyu.mv, kyu.rstr, kyu.clr and kyu.ld of it are illegal (R287).

Loading and storing keys in the core's own bank (R279, R280): an untagged granule loads as NULL, a key of another job is
refused with 2, any other is loaded with 1, due after 4 issue cycles; a store of a key that may be stored writes its 16 bytes
and tags the granule, a store of NULL clears the tag, and a key without ST, or lent, raises KEY; that it does so whatever the address is log entry 143. -/
def Obligations.KyuRows : Prop :=
   (∀ (core : CoreId) (v : Word) (s : State) (k : Nat), s.ready core.val k = true → (s.reg core.val k).kBad = 0 →
      (s.reg core.val k).keyDue = false →
      let n := core.val
      let b := s.arrivals n k
      let c := s.reg n k
      let i := v.toNat % 16
      let d := v.toNat / 16 % 16
      let base := (c.opnd_ 0x400).toNat
      let len := (c.opnd_ 0x401).toNat
      let lent := c.lent.getLsbD i || (decide (i = 15) && c.call.isSome)
      let illegal := (.next (b.raise n k { cls := clsILLEGAL } false) : Out)
      let shrunk := mkKey base (keyJob (c.key i)) len (keyType (c.key i)) (keyPerm (c.key i) &&& (v.toNat / 2 ^ 8 % 256))
      (d ≠ 15 ∨ c.call = none → exec (.kyuMv core v) s = s.changes n k 0x413 (setFld v 8 1 0) fun x => x.setKey d (c.key i) lent) ∧
      (d = 15 → c.call ≠ none → exec (.kyuMv core v) s = illegal ∧ exec (.kyuRstr core v) s = illegal) ∧
      (i ≠ 15 ∨ c.call = none → exec (.kyuClr core v) s = s.changes n k 0x414 v fun x => x.setKey i 0 false) ∧
      (i = 15 → c.call ≠ none → exec (.kyuClr core v) s = illegal ∧ exec (.kyuLd core v) s = illegal) ∧
      exec (.kyuRd core v) s = (s.changes n k 0x415 v fun x =>
        x.addPend .kyuRes 2 ((c.key i).extractLsb' (if v.getLsbD 4 then 64 else 0) 64)) ∧
      exec (.kyuChk core v) s = (s.changes n k 0x416 v fun x => x.addPend .kyuRes 2
        (if keyType (c.key i) ≠ 0 ∧ 1 ≤ len ∧ keyBase (c.key i) ≤ base ∧ base + len ≤ keyBase (c.key i) + keyLen (c.key i) ∧
          keyPerm (c.key i) &&& (v.toNat / 16 % 256) = v.toNat / 16 % 256 then 1 else 0)) ∧
      (d ≠ 15 ∨ c.call = none → ∃ (t : State) (p : Pending), exec (.kyuRstr core v) s = .next t ∧ (t.case n k).pend = c.pend ++ [p] ∧ p.port = .kyuRes ∧
        p.due = c.icount + 2 ∧ t.mem = s.mem ∧ (t.case n k).k = c.k ∧
        (keyType (c.key i) ≠ 0 → keyHas (c.key i) 32 = true → 1 ≤ len → keyBase (c.key i) ≤ base →
          base + len ≤ keyBase (c.key i) + keyLen (c.key i) → base + len ≤ 2 ^ 52 →
          p.data.val = 1 ∧ p.keyWrite = some { dst := d, lent := lent, key := shrunk }) ∧
        (keyType (c.key i) = 0 → len = 0 → base ≤ 2 ^ 52 →
          p.data.val = 1 ∧ p.keyWrite = some { dst := d, lent := lent, key := 0 }) ∧
        (2 ^ 52 < base + len ∨ (1 ≤ len ∧ (keyHas (c.key i) 32 = false ∨ keyType (c.key i) = 0 ∨ base < keyBase (c.key i) ∨
          keyBase (c.key i) + keyLen (c.key i) < base + len)) → p.data.val = 0 ∧ p.keyWrite = none)) ∧
      (let auth := c.key (v.toNat / 2 ^ 9 % 16)
       let x := c.ext (v.toNat / 2 ^ 13 % 16)
       (keyType auth = 4 → keyHas auth 2 = true → keyCovers auth n 1 = true → lent = false → base % 4 = 0 →
         ∃ t : State, exec (.wicketInstall core v) s = .next t ∧ (t.case n k).k = c.k ∧ t.mem = s.mem ∧
           (c.key i = 0 → tabFind (t.core n).wickets d = none) ∧
           (c.key i ≠ 0 → tabFind (t.core n).wickets d =
             some ⟨BitVec.ofNat 48 base, c.key i, { x with ctl := setFld x.ctl 8 4 15 }⟩) ∧
           ∀ j, j ≠ d → tabFind (t.core n).wickets j = tabFind (b.core n).wickets j) ∧
       (keyType auth ≠ 4 ∨ keyHas auth 2 = false ∨ keyCovers auth n 1 = false ∨ lent = true →
         exec (.wicketInstall core v) s = .next (b.raise n k { cls := clsKEY, syn := true } false)))) ∧
   (∀ (core : CoreId) (v : Word) (s : State) (k : Nat) (x : Xl), s.ready core.val k = true → (s.reg core.val k).kBad = 0 →
      let n := core.val
      let b := s.arrivals n k
      let c := s.reg n k
      let i := v.toNat % 16
      let job := (b.jobOf n (b.whoIs n k)).toNat
      (b.kyuFinds n k .read x → (i ≠ 15 ∨ c.call = none) →
        let key := BitVec.ofNat 128 (leToNat (b.bytes x.pa 16))
        ∃ (t : State) (p : Pending), exec (.kyuLd core v) s = .next t ∧ (t.case n k).pend = c.pend ++ [p] ∧ p.port = .kyuRes ∧ p.due = c.icount + 4 ∧
          t.mem = s.mem ∧ t.tags = s.tags ∧
          (x.pa / 16 ∉ b.tags → p.data = { val := 0 } ∧ p.keyWrite = some { dst := i, key := 0 }) ∧
          (x.pa / 16 ∈ b.tags → 1 ≤ keyType key → keyType key ≤ 4 → keyJob key ≠ job →
            p.data = { val := 2 } ∧ p.keyWrite = some { dst := i, key := 0 }) ∧
          (x.pa / 16 ∈ b.tags → 1 ≤ keyType key → keyType key ≤ 4 → keyJob key = job →
            p.data = { val := 1 } ∧ p.keyWrite = some { dst := i, key := key })) ∧
      (b.kyuFinds n k .write x → (c.key i = 0 ∨ (keyHas (c.key i) 16 = true ∧ c.lentKey i = false)) →
        ∃ t : State, exec (.kyuSt core v) s = .next t ∧ BitVec.ofNat 128 (leToNat (t.bytes x.pa 16)) = c.key i ∧
          (∀ a, (a < x.pa ∨ x.pa + 16 ≤ a) → t.byte a = s.byte a) ∧
          (∀ g, g ∈ t.tags ↔ (g = x.pa / 16 ∧ c.key i ≠ 0) ∨ (g ≠ x.pa / 16 ∧ g ∈ s.tags)) ∧ (t.case n k).k = c.k) ∧
      (c.keyDue = false → c.key i ≠ 0 → (keyHas (c.key i) 16 = false ∨ c.lentKey i = true) →
        exec (.kyuSt core v) s = .next (b.raise n k { cls := clsKEY, syn := true } false)))

/-! ### Words and what they began -/

/-- INSTRUCTION_WORD fetches the word at the program counter, here uncached code in the core's own bank without an immediate
word, and issues it; TRANSFER_TARGET_ISSUE and REPEAT_BODY_EXECUTION do so for the word after the second delay slot and for a
repeat body, and nothing where there is none. The word 0 copies d0 onto itself. REGISTER_SOCKET_WRITE writes a data register.

Waits: a word that waits is carried out again by the row of its kind of wait, with what is due by then, and is not
touched by the others; the row that ends a fixed busy time frees the divider and the datapath first. RESULT_DELIVERY shows what
is due; FETCH_AHEAD, which only fills instruction lines (log entry 23), changes no register and no memory. A row that finds nothing to do
changes nothing (log entry 5). -/
def Obligations.IssueRows : Prop :=
   ((∀ (core : CoreId) (s : State) (k : Nat) (x : Xl), s.issuer core.val = some k → (s.case core.val k).waiting = none →
      (s.case core.val k).skip = false →
      let n := core.val
      let pc := (s.case n k).pc.toNat
      let w := BitVec.ofNat 32 (leToNat (s.bytes x.pa 4))
      pc % 4 = 0 → s.xlateWord n k pc .fetch = .inl x → x.type ≠ .cached → s.sound n x.pa 4 → wordBytes w = 4 →
      ∃ u : State, exec (.instructionWord core) s = .next (u.issueWord n k (.code w 0)) ∧ u.mem = s.mem ∧
        (∀ m j, u.case m j = s.case m j) ∧
        (w = 0 → s.calm n k = true → (s.reg n k).asyncNow = false → (s.reg n k).otherBad = false → (s.reg n k).dBad = 0 →
          let t := u.issueWord n k (.code w 0)
          (t.case n k).pc = (s.case n k).pc + 4 ∧ (t.case n k).icount = (s.case n k).icount + 1 ∧ t.mem = s.mem ∧
          ∀ j, (t.case n k).dreg j = (s.case n k).dreg j)) ∧
    (∀ (core : CoreId) (s : State) (k : Nat), s.issuer core.val = some k →
      (∀ y, (s.case core.val k).xfer = some y → y.slots = 0 → exec (.transferTargetIssue core) s = exec (.instructionWord core) s) ∧
      ((s.case core.val k).xfer = none → exec (.transferTargetIssue core) s = .next s) ∧
      ((s.case core.val k).inBody = true → exec (.repeatBodyExecution core) s = exec (.instructionWord core) s) ∧
      ((s.case core.val k).inBody = false → exec (.repeatBodyExecution core) s = .next s)) ∧
    (∀ (core : CoreId) (sock : BitVec 12) (v : Word) (s : State) (k : Nat), s.ready core.val k = true → sock.toNat < 32 →
      exec (.registerSocketWrite core sock v) s = s.changes core.val k sock.toNat v (·.setD sock.toNat v))) ∧
   (∀ (core : CoreId) (s : State) (k : Nat), s.issuer core.val = some k →
      let n := core.val
      (∀ (w : CodeWord), (s.case n k).waiting = some { kind := .read, word := w } →
        exec (.readWaitResume core) s = .next (s.issueWord n k w) ∧ exec (.triggerWaitResume core) s = .next s) ∧
      (∀ (w : CodeWord), (s.case n k).waiting = some { kind := .trigger, word := w } →
        exec (.triggerWaitResume core) s = .next (s.issueWord n k w) ∧ exec (.readWaitResume core) s = .next s) ∧
      (∀ (w : CodeWord), (s.case n k).waiting = some { kind := .busy, word := w } →
        ∃ u : State, exec (.triggerWaitResume core) s = .next (u.issueWord n k w) ∧ (u.core n).divLeft = 0 ∧
          (u.core n).vxuLeft = 0 ∧ u.mem = s.mem ∧ (∀ m j, u.case m j = s.case m j) ∧
          ∀ m, m ≠ n → u.core m = s.core m) ∧
      ((s.case n k).waiting = none → exec (.readWaitResume core) s = .next s ∧ exec (.triggerWaitResume core) s = .next s) ∧
      (∀ (sock : Nat) (v w : Word), (s.case n k).waiting ≠ none → exec (.registerSocketWrite core (BitVec.ofNat 12 sock) v) s = .next s ∧
        exec (.aluAdd core w) s = .next s) ∧
      (∃ t : State, exec (.resultDelivery core) s = .next t ∧ t.mem = s.mem ∧
        ((s.core n).tlbiOpen = [] → t = s.onCase n k Casement.deliver)) ∧
      (∃ t : State, exec (.fetchAhead core) s = .next t ∧ t.mem = s.mem ∧ ∀ m j, t.case m j = s.case m j))

/-- STORE_PERFORMED (R64, R231, R244): the entry of the store buffer that is named leaves it. Uncached, in the core's own bank, its
masked bytes are written and no other byte; cacheable, in a line that is present, they go into the line, whose granules become
dirty; an accumulate-write goes on its way to its engine.

The ends of walks, fills, write-backs and invalidations. A TLB invalidation removes exactly the entries of its scope that it
names (R215, R216). A walk reads its entries through the mesh, as packets of its core (log entry 24): a table entry leads to
the read of the next level, an entry with the contiguous hint to that of its group, an invalid one and a failed read to a fault,
any other to its leaf (R209, R210, R212, R226, R227). A walk that ends in a leaf fills the TLB of every core of its cluster whose words
or transfer unit miss in its page, and the cluster TLB; one that ends in a fault keeps it for the access (R210, R213); here no
transfer unit of the cluster has a descriptor at work. A fill makes its line valid with the bytes of memory (R233). An eviction write-back writes the dirty granules of its
line and no other byte (R251); a line whose write-back failed is sent the poison code by the escapement, as a write of its 64 bytes (R338). -/
def Obligations.AccessEnds : Prop :=
   (∀ (core : CoreId) (i : Nat) (s : State) (e : SbEntry), s.hasPower core.val = true →
      let n := core.val
      let c := s.core n
      c.sbuf[i]? = some e → e.leaving = false → (∀ x ∈ c.sbuf.take i, x.line ≠ e.line) → (∀ x ∈ c.sbuf, x.eid = e.eid → x = e) →
      let gone := fun (t : State) => (t.core n).sbuf = c.sbuf.filter (·.eid != e.eid)
      (e.addend = none → e.key = none → e.device = false → e.cacheable = false → e.poison = false → e.bad = none →
        s.casBusy n e.task e.line = false → s.sound n (e.line * 64) 64 →
        ∃ t : State, exec (.storePerformed core i) s = .next t ∧ gone t ∧
          (∀ j, j < 64 → t.byte (e.line * 64 + j) =
            if e.mask.getLsbD j then e.data.extractLsb' (8 * j) 8 else s.byte (e.line * 64 + j)) ∧
          (∀ a, a / 64 ≠ e.line → t.byte a = s.byte a) ∧ ∀ m k, t.case m k = s.case m k) ∧
      (∀ key l, e.addend = none → e.key = none → e.device = false → e.cacheable = true → e.clean = false → e.poison = false →
        e.bad = none → e.open_ = 0 → (c.dcache.all fun p => !p.2.tagBad) = true →
        c.hit false e.line = some (key, l) → tabFind c.dcache key = some l → l.parBad = 0 → l.poison = false →
        ∃ (t : State) (r : Line), exec (.storePerformed core i) s = .next t ∧ gone t ∧ tabFind (t.core n).dcache key = some r ∧
          (∀ j, j < 64 → r.data.extractLsb' (8 * j) 8 =
            if e.mask.getLsbD j then e.data.extractLsb' (8 * j) 8 else l.data.extractLsb' (8 * j) 8) ∧
          (∀ g, g < 8 → r.dirty.getLsbD g = (l.dirty.getLsbD g || (List.range 8).any fun j => e.mask.getLsbD (8 * g + j))) ∧
          r.addr = l.addr ∧ r.poison = false ∧ t.mem = s.mem ∧ ∀ m k, t.case m k = s.case m k) ∧
      (∀ a, e.addend = some a → e.device = false → a.pa < 2 ^ 51 →
        ∃ (t : State) (x : Addend), exec (.storePerformed core i) s = .next t ∧ t.addends = s.addends ++ [x] ∧ x.pa = a.pa ∧
          x.af = a.af ∧ x.val = a.val ∧ x.rank = a.rank ∧ x.size = a.size ∧ x.strict = a.strict ∧ x.src = n ∧ x.ret = a.ret ∧
          (∃ y ∈ (t.core n).sbuf, y.eid = e.eid ∧ y.leaving = true) ∧ t.mem = s.mem ∧ ∀ m k, t.case m k = s.case m k)) ∧
   (∀ (core : CoreId) (i : Nat) (s : State), s.hasPower core.val = true →
      let n := core.val
      let c := s.core n
      (∀ e rest, c.tlbiQ = e :: rest → c.tlbiOpen = [] → ∃ t : State, exec (.tlbiCommandComplete core) s = .next t ∧ (t.core n).tlbiQ = rest ∧ t.mem = s.mem ∧
        ∀ m x, x ∈ (t.core m).tlb ↔ x ∈ (s.core m).tlb ∧
          ¬((e.scope = 0 ∧ m = n ∨ e.scope = 1 ∧ m / 64 = n / 64 ∨ 2 ≤ e.scope) ∧
            (e.kind = 0 ∧ x.tag = e.tag ∧ x.ia ≤ e.ia ∧ e.ia < x.ia + x.size ∨ e.kind = 1 ∧ x.tag = e.tag ∨ 2 ≤ e.kind))) ∧
      (∀ w j, c.walks[i]? = some w → w.fault = none → (s.cluster (n / 64)).walker.find? (·.page == w.page) = some j →
        (∀ m, m / 64 = n / 64 → s.xmuWorking m = []) →
        let waits := fun (m : Nat) (y : Walk) => m / 64 = n / 64 ∧ y ∈ (s.core m).walks ∧ y.page = w.page ∧ y.fault = none
        let word := fun (y : Walk) => y.use = .xmu ∨ ∃ k, y.use = .word k
        let met := fun (t : State) => exec (.walkComplete core i) s = .next t ∧ t.mem = s.mem ∧ (∀ m k, t.case m k = s.case m k) ∧
          ∀ m y, m / 64 = n / 64 → y ∈ (t.core m).walks → y.page = w.page → y.fault ≠ none
        (∀ e, j.res = some (.leaf e) → ∃ t : State, met t ∧
          ∀ m y, waits m y → word y → e ∈ (t.core m).tlb ∧ e ∈ (t.cluster (n / 64)).tlb) ∧
        (∀ cls lv wbe, j.res = some (.fault cls lv wbe) → ∃ t : State, met t ∧ (∀ m, (t.core m).tlb = (s.core m).tlb) ∧
          (t.cluster (n / 64)).tlb = (s.cluster (n / 64)).tlb ∧
          ∀ m y, waits m y → word y → { y with fault := some (cls, lv, wbe) } ∈ (t.core m).walks)) ∧
      (∀ key line, c.fills[i]? = some (false, key, line) → (∀ v ∈ c.evicts, v.addr ≠ line) → (∀ e ∈ c.sbuf, e.line ≠ line) →
        (∀ v ∈ c.evicts, (tabFind c.dcache key).bind (·.victim) ≠ some v.addr) →
        s.sound n (line * 64) 64 → ∃ (t : State) (l : Line), exec (.lineFillComplete core i) s = .next t ∧
          tabFind (t.core n).dcache key = some l ∧ l.addr = line ∧ l.filling = false ∧ l.dirty = 0 ∧ l.poison = false ∧
          (∀ j, j < 64 → l.data.extractLsb' (8 * j) 8 = s.byte (line * 64 + j)) ∧ t.mem = s.mem) ∧
      (∀ v, c.evicts[i]? = some v → v.left = false → v.adopted = [] → v.poison = false → v.bad = none → s.sound n (v.addr * 64) 64 →
        (∀ x ∈ c.evicts, x.addr = v.addr → x = v) → ∃ t : State, exec (.evictionWriteback core i) s = .next t ∧
          (t.core n).evicts = c.evicts.filter (·.addr != v.addr) ∧
          (∀ j, j < 64 → t.byte (v.addr * 64 + j) =
            if v.dirty.getLsbD (j / 8) then v.data.extractLsb' (8 * j) 8 else s.byte (v.addr * 64 + j)) ∧
          (∀ a, a / 64 ≠ v.addr → t.byte a = s.byte a)) ∧
      (∀ line, s.live = true → s.lost[i]? = some line → line * 64 < 2 ^ 51 → ∃ (t : State) (p : Packet),
        exec (.evictionPoisonWrite i) s = .next t ∧ t.lost = dropAt s.lost i ∧ t.packets = s.packets ++ [p] ∧ p.src = .escapement ∧
        p.dst = s.agentOf 0 (line * 64) ∧ p.op = .write (line * 64) (natToLe 0 64) true ∧ p.ret = .poisonWr line ∧
        t.mem = s.mem ∧ t.poison = s.poison ∧ t.drain = s.drain)) ∧
   (∀ (i cl id : Nat) (s : State) (r : Response) (j : WalkJob), s.live = true → s.responses[i]? = some r →
      (∀ x ∈ s.responses.take i, ¬(x.src = r.src ∧ x.dst = r.dst)) → r.flit = .none → r.dst ≠ .escapement → r.ret = .walk cl id →
      s.dropsBack r.ret = false → (s.cluster cl).walker.find? (·.id == id) = some j → (∀ x ∈ (s.cluster cl).walker, x.id = id → x = j) →
      let e := leToNat r.data
      let oa := e / 2 ^ 16 % 2 ^ 36 * 65536
      let becomes := fun (t : State) (x : WalkJob) => exec (.meshResponse i) s = .next t ∧ t.responses = dropAt s.responses i ∧
        t.mem = s.mem ∧ (t.cluster cl).walker = (s.cluster cl).walker.map fun y => if y.id = id then x else y
      let ends := fun (x : WalkRes) => ∃ t : State, becomes t { j with res := some x } ∧ t.packets = s.packets
      let reads := fun (x : WalkJob) (pa len : Nat) => ∃ (t : State) (p : Packet), becomes t x ∧ t.packets = s.packets ++ [p] ∧
        p.src = .core j.core ∧ p.op = .read pa len ∧ p.ret = .walk cl id
      let leads := fun (level index : Nat) => if 2 ^ 51 ≤ oa ∨ ctlRange oa = true
        then ∃ t : State, becomes t { j with level := level, table := oa, res := some (.fault clsWALKATTR level false) } ∧
          t.packets = s.packets
        else reads { j with level := level, table := oa } (oa + 8 * index) 8
      (j.entry = none →
        (r.stat ≠ .ok → ends (.fault (if j.mode then clsS2T else clsWALKBUS) j.level true)) ∧
        (r.stat = .ok → entInvalid e j.level = true → ends (.fault clsS2T j.level false)) ∧
        (r.stat = .ok → entInvalid e j.level = false →
          (j.level = 1 → leads 2 (j.ia / 2 ^ 29 % 2 ^ 13)) ∧
          (j.level = 2 → e.testBit 1 = true → leads 3 (j.ia / 2 ^ 16 % 2 ^ 13)) ∧
          (j.level = 2 → e.testBit 1 = false → ends (.leaf (blockSlot j.tag j.ia e))) ∧
          (j.level = 3 → e.testBit 7 = false → ends (.leaf (pageSlot j.tag j.ia e))) ∧
          (j.level = 3 → e.testBit 7 = true → j.table < 2 ^ 51 → ctlRange j.table = false →
            reads { j with entry := some e } (j.table + j.ia / 2 ^ 16 % 2 ^ 13 / 32 * 256) 256))) ∧
      (∀ e3, j.entry = some e3 → (r.stat ≠ .ok → ends (.leaf (pageSlot j.tag j.ia e3))) ∧
        (r.stat = .ok → ends (.leaf (s.leaf3 j.tag j.ia e3 (groupEntries 32 r.data)).2))))

/-- The ends of vector operations: the oldest VXU operation writes its registers, its mask register and its flags (R167,
R177); a vector load whose data has come writes the elements it covers and keeps the others (R173); a vector store whose writes
have been performed leaves nothing behind.

The ends of tile operations: a tile load whose rows have all issued and come writes them and clears the rest of the tile (R113,
R121), and a tile store leaves nothing behind (R124); the array queue copies the operands of its first unfilled operation, starts
the operation at its head, and completes it: each tile it writes takes the result computed from the copied operands and
from the accumulator tiles as they then are, that of tmu.red the reduced rows, and no other tile changes (R143). That the
operands are those the tiles hold when ARRAY_FILL runs is log entry 42. -/
def Obligations.VectorAndTileEnds : Prop :=
   (∀ (core : CoreId) (s : State), s.hasPower core.val = true →
      let n := core.val
      (∀ o rest, (s.core n).vxuOps = o :: rest → ∃ t : State, exec (.vxuOpComplete core) s = .next t ∧ (t.core n).vxuOps = rest ∧
        (∀ r val bad res, o.vregs = [(r, val, bad, res)] → (t.case n o.case).vreg r = val ∧ (t.case n o.case).vregBad r = bad) ∧
        (∀ r, (∀ x ∈ o.vregs, x.1 ≠ r) → (t.case n o.case).vreg r = (s.case n o.case).vreg r) ∧
        (∀ j val, o.mreg = some (j, val) → (t.case n o.case).mreg j = val) ∧
        (∀ j, (∀ x, o.mreg = some x → x.1 ≠ j) → (t.case n o.case).mreg j = (s.case n o.case).mreg j) ∧
        (t.case n o.case).fpc = (s.case n o.case).fpc ||| BitVec.ofNat 64 (o.contrib.flags.toNat * 256) ∧
        (t.case n o.case).d = (s.case n o.case).d ∧ t.mem = s.mem ∧ ∀ m k, (m, k) ≠ (n, o.case) → t.case m k = s.case m k) ∧
      (∀ (i : Nat) (o : VecOp) (j : Nat) (bs : List Byte) (l : List (Nat × Nat)), (s.core n).vecOps[i]? = some o → o.open_ = [] →
        o.load = true → o.got = [(j, .ok, bs)] → tabFind o.dest j = some l → (l.map (·.1)).Nodup →
        (o.width = 8 ∨ o.width = 16 ∨ o.width = 32 ∨ o.width = 64) → (∀ x ∈ l, x.1 < 2048 / o.width ∧ x.2 + o.width / 8 ≤ bs.length) →
        ∃ t : State, exec (.vxuMemComplete core i) s = .next t ∧ (t.core n).vecOps = dropAt (s.core n).vecOps i ∧ t.mem = s.mem ∧
          (∀ e off, (e, off) ∈ l → elemOf ((t.case n o.case).vreg o.reg).toNat o.width e = leToNat ((bs.drop off).take (o.width / 8))) ∧
          (∀ e, e < 2048 / o.width → (∀ x ∈ l, x.1 ≠ e) → elemOf ((t.case n o.case).vreg o.reg).toNat o.width e =
            elemOf ((s.case n o.case).vreg o.reg).toNat o.width e) ∧
          (∀ r, r ≠ o.reg → (t.case n o.case).vreg r = (s.case n o.case).vreg r)) ∧
      (∀ (i : Nat) (o : VecOp), (s.core n).vecOps[i]? = some o → o.open_ = [] → o.load = false →
        (∀ x ∈ o.got, x.2.1 = .ok ∨ x.2.1 = .poisoned) →
        ∃ t : State, exec (.vxuMemComplete core i) s = .next t ∧ (t.core n).vecOps = dropAt (s.core n).vecOps i ∧ t.mem = s.mem ∧
          ∀ m k, t.case m k = s.case m k)) ∧
   (∀ (core : CoreId) (s : State), s.hasPower core.val = true →
      let n := core.val
      (∀ (i : Nat) (o : TileOp), (s.core n).tileOps[i]? = some o → o.open_ = [] → o.load = false → (s.case n o.case).rowNext = none →
        (∀ x ∈ o.got, x.2.1 = .ok ∨ x.2.1 = .poisoned) →
        ∃ t : State, exec (.tmuMemComplete core i) s = .next t ∧ (t.core n).tileOps = dropAt (s.core n).tileOps i ∧ t.mem = s.mem ∧
          ∀ m k, t.case m k = s.case m k) ∧
      (∀ (i : Nat) (o : TileOp) (bs : Nat → List Byte), (s.core n).tileOps[i]? = some o → o.open_ = [] → o.load = true →
        (s.case n o.case).rowNext = none →
        o.transposed = false → o.final = true → o.lo = 0 → (shapeOf o.shape).ok = true → o.hi = (shapeOf o.shape).rows →
        o.got = (List.range o.hi).map (fun r => (r, RStat.ok, bs r)) → o.dest = (List.range o.hi).map (fun r => (r, [(r, 0)])) →
        (∀ r, r < o.hi → (bs r).length = (shapeOf o.shape).bytes) →
        ∃ t : State, exec (.tmuMemComplete core i) s = .next t ∧ (t.core n).tileOps = dropAt (s.core n).tileOps i ∧ t.mem = s.mem ∧
          (∀ r, r < 16 → rowOf ((t.case n o.case).tile o.tile).toNat r = if r < o.hi then leToNat (bs r) else 0) ∧
          (t.case n o.case).tileBad o.tile = 0 ∧
          ∀ j, j ≠ o.tile → (t.case n o.case).tile j = (s.case n o.case).tile j) ∧
      (∀ o rest, (s.core n).arrayQ = o :: rest → o.filled = false → (s.case n o.case).tErr = [] →
        (s.case n o.case).tCorr = [] → ∃ (t : State) (q : ArrOp), exec (.arrayFill core) s = .next t ∧
        (t.core n).arrayQ = q :: rest ∧ q.filled = true ∧ q.kind = o.kind ∧ q.shape = o.shape ∧
        (∀ a rs, o.kind.copies = a :: rs → q.opA = (s.case n o.case).tile a) ∧
        (∀ a b rs, o.kind.copies = a :: b :: rs → q.opB = (s.case n o.case).tile b) ∧ t.mem = s.mem ∧
        ∀ m k, t.case m k = s.case m k) ∧
      (∀ o rest, (s.core n).arrayQ = o :: rest → o.filled = true → o.computing = false →
        ∃ t : State, exec (.arrayComputeStart core) s = .next t ∧ (t.core n).arrayQ = { o with computing := true } :: rest ∧
          t.mem = s.mem ∧ ∀ m k, t.case m k = s.case m k) ∧
      (∀ o rest, (s.core n).arrayQ = o :: rest → o.computing = true → (s.core n).badArray = false → ∃ t : State, exec (.arrayOpComplete core) s = .next t ∧
        (t.core n).arrayQ = rest ∧ t.mem = s.mem ∧ (∀ j, j ∉ o.kind.writes → (t.case n o.case).tile j = (s.case n o.case).tile j) ∧
        (o.kind.writes.Nodup → ∀ d rows used, (d, rows, used) ∈ (o.compute (s.case n o.case)).tiles →
          (t.case n o.case).tile d = tileOf rows) ∧
        (∀ d, o.kind = .zero d → (t.case n o.case).tile d = 0 ∧ (t.case n o.case).tileBad d = 0) ∧
        (t.case n o.case).d = (s.case n o.case).d ∧ ∀ m k, (m, k) ≠ (n, o.case) → t.case m k = s.case m k))

/-- Descriptors (R193–R196, R186, R70): one that has been read and is well formed does its work in its row and nothing in the
others (log entry 5). Here within one line of the core's own bank, the only descriptor at work, its addresses in the TLBs, so that
no walk is waited for (log entry 24): FILL writes its pattern, COPY the source's bytes, ACC sends the source's element to the
engine with the captured RANK, SIZE and STRICT unless an earlier ACC has addends to send (R106), SIGNAL sends the write of a bit to
the task of the block it names. That a malformed descriptor is found before a misaligned one is log entry 43; here it is neither.
Transfers over several lines, copies whose ranges overlap and signals to another block are not stated.

XMU_DESCRIPTOR_COMPLETE (R194, R196): the ended descriptor at the head of its queue writes its STATUS, leaves the
queue, gives DONESEQ its number and, with CEV set or after a failure, sets the task's completion event. -/
def Obligations.DescriptorRows : Prop :=
   (∀ (core : CoreId) (s : State) (o : XOwner) (i : XItem) (w0 w1 w2 : Word), s.coreOn core.val = true →
      (s.core core.val).lockCause = 0 → s.drain.st = .run →
      let n := core.val
      s.xmuNext n = some (o, i) → s.item n i.id = some (o, i) → i.phase = .read → i.words = some (w0, w1, w2) → i.malformed = false →
      i.misaligned = false → i.bad = none → i.poisoned = false → i.open_ = [] → i.todo = [] → i.next = 0 → s.xmuWorking n = [] →
      let len := w0.toNat / 2 ^ 32
      let src := w1.toNat % 2 ^ 48
      let dst := w2.toNat % 2 ^ 48
      let ended := fun (t : State) (bytes : Nat) => ∃ (p : XOwner) (j : XItem), t.item n i.id = some (p, j) ∧ j.phase = .ended ∧
        j.outcome = some { code := 0, bytes := bytes }
      let row := fun (op : Nat) => if op = 1 then exec (.xmuCopy core) s else if op = 2 then exec (.xmuFill core) s
        else if op = 3 then exec (.xmuAcc core) s else exec (.xmuSignal core) s
      (∀ op, 1 ≤ op → op ≤ 4 → w0.toNat % 64 ≠ op → row op = .next s) ∧
      (∀ x u, w0.toNat % 64 = 2 → 0 < len → dst % 64 + len ≤ 64 → s.xlateNow n .xmu o.ctx dst .write = (u, .ok x) → s.sound n x.pa len →
        ∃ t : State, row 2 = .next t ∧ ended t len ∧
          (∀ j, j < len → t.byte (x.pa + j) = w1.extractLsb' (8 * (j % 8)) 8) ∧
          (∀ a, (a < x.pa ∨ x.pa + len ≤ a) → t.byte a = s.byte a)) ∧
      (∀ x y u u2, w0.toNat % 64 = 1 → 0 < len → src % 64 + len ≤ 64 → dst % 64 + len ≤ 64 → (src + len ≤ dst ∨ dst + len ≤ src) →
        s.xlateNow n .xmu o.ctx src .read = (u, .ok x) → u.xlateNow n .xmu o.ctx dst .write = (u2, .ok y) → s.sound n x.pa len →
        s.sound n y.pa len → ∃ t : State, row 1 = .next t ∧ ended t len ∧
          (∀ j, j < len → t.byte (y.pa + j) = s.byte (x.pa + j)) ∧
          (∀ a, (a < y.pa ∨ y.pa + len ≤ a) → t.byte a = s.byte a)) ∧
      (∀ x y u u2, w0.toNat % 64 = 3 → len = afBytes (w0.toNat / 64 % 16) → s.accWaits n i = false →
        s.xlateNow n .xmu o.ctx src .read = (u, .ok x) → u.xlateNow n .xmu o.ctx dst .accum = (u2, .ok y) → s.sound n x.pa len → y.pa < 2 ^ 51 →
        ∃ (t : State) (a : Addend), row 3 = .next t ∧ t.addends = u2.addends ++ [a] ∧ a.pa = y.pa ∧ a.af = w0.toNat / 64 % 16 ∧
          a.val = BitVec.ofNat 64 (leToNat (s.bytes x.pa len)) ∧ a.rank = i.rank.toNat ∧ a.size = i.size.toNat ∧
          a.strict = i.strict ∧ t.mem = s.mem) ∧
      (w0.toNat % 64 = 4 → w2.getLsbD 44 = false → ∃ (t : State) (p : Packet), row 4 = .next t ∧ t.packets = s.packets ++ [p] ∧
        p.dst = .bank (w2.toNat % 2 ^ 14) ∧
        p.op = .signal (w2.toNat % 2 ^ 14) (w2.toNat / 2 ^ 16 % 64) (w2.toNat / 2 ^ 22 % 2 ^ 12) (w1.getLsbD 0) false ∧ t.mem = s.mem)) ∧
   (∀ (core : CoreId) (task : TaskId) (q : Fin 4) (s : State) (o : XOwner) (i : XItem) (r : XResult) (x : Xl) (u : State) (y : Task),
      s.hasPower core.val = true → s.drain.st = .run →
      let n := core.val
      (s.xmuHeads n task.val q.val).head? = some (o, i) → s.item n i.id = some (o, i) → o.who = some task.val → o.dead = false →
      s.task n task.val = some y → (tabGet ({} : XQueue) y.xq q.val).items.head? = some i → i.phase = .ended → i.unread = false → i.words.isSome = true → i.outcome = some r →
      s.xlateNow n .xmu o.ctx (i.addr.toNat + 24) .write = (u, .ok x) → s.sound n x.pa 8 →
      ∃ (t : State) (z : Task), exec (.xmuDescriptorComplete core task q) s = .next t ∧ t.task n task.val = some z ∧
        (tabGet ({} : XQueue) z.xq q.val).items = (tabGet ({} : XQueue) y.xq q.val).items.tail ∧
        (tabGet ({} : XQueue) z.xq q.val).doneSeq = i.seq ∧
        leToNat (t.bytes x.pa 8) = r.code.toNat + 256 + (if r.poisoned then 512 else 0) + r.bytes % 2 ^ 32 * 2 ^ 32 ∧
        (∀ a, (a < x.pa ∨ x.pa + 8 ≤ a) → t.byte a = s.byte a) ∧
        (i.w.1.getLsbD 10 = true ∨ (r.code ≠ 0 ∧ r.code ≠ 0x80) →
          (t.ctx n (some task.val)).bit 3064 = true))

/-- Bits that come from outside the task: a signal from another agent writes the bit and fires a watch on it (R70, R71); a timer that
its task holds sets the timer event and is free again (R263); a failed store that is not reported in time is due, and sets ERROR
in a task that is not running (R249). An event wakes the task that waits for it (R261). That the two rows stand for the time's end,
without a look at COUNT or at the 4 µs, is log entries 33 and 34. -/
def Obligations.EventRows : Prop :=
  ∀ (core : CoreId) (task : TaskId) (s : State) (y : Task), s.task core.val task.val = some y → y.loc ≠ some 8 →
    let n := core.val
    let tk := task.val
    let c := s.ctx n (some tk)
    let woken := fun (t : State) (b : Nat) => y.st = .waiting → y.stopped = false → (s.core n).lockCause = 0 →
      (b = 3069 ∨ y.mask.getLsbD (b - 3064) = true) → ∃ z, t.task n tk = some z ∧ z.st ≠ .waiting
    (∀ (b : BitVec 12) (v : Bool), s.coreOn n = true →
      (b.toNat < 3072 → exec (.remoteBitWrite core task b v) s = .next s) ∧
      (3072 ≤ b.toNat → ∃ t : State, exec (.remoteBitWrite core task b v) s = .next t ∧
        (b.toNat ∉ c.watches ∨ b.toNat ≠ 3066 → (t.ctx n (some tk)).bit b.toNat = v) ∧
        (t.ctx n (some tk)).watches = c.watches.filter (· != b.toNat) ∧ t.mem = s.mem ∧ (t.ctx n (some tk)).d = c.d ∧
        (b.toNat ∈ c.watches → (t.ctx n (some tk)).bit 3066 = true ∧ woken t 3066))) ∧
    (s.hasPower n = true → (s.core n).lockCause = 0 → (s.core n).tmrOwner = .task tk →
      ∃ t : State, exec (.timerExpiry core) s = .next t ∧ (t.core n).tmrOwner ≠ .task tk ∧
        (t.ctx n (some tk)).bit 3067 = true ∧ woken t 3067 ∧ t.mem = s.mem ∧ (t.ctx n (some tk)).d = c.d) ∧
    (s.hasPower n = true → c.fails ≠ [] → ∃ t : State, exec (.storeAsyncTimeout core task) s = .next t ∧
      (t.ctx n (some tk)).asyncDue = true ∧ (y.st ≠ .running → (t.ctx n (some tk)).bit 3069 = true ∧ woken t 3069) ∧
      t.mem = s.mem ∧ (t.ctx n (some tk)).d = c.d)

/-- The scheduler block's commands (R266–R268, R273, R274), each at the head of the command queue: CREATE makes a READY task of its
start record, KILL ends a task, SPILL writes the changed groups of a casement to its task's slot, FILL takes the registers from
it, KSTART readies the keeper; each leaves its CODE and TASK in TSTAT, and writes no byte outside the slot. That the remainder
group, whose bytes are free, stands in z.image after SPILL and is taken from y.image by FILL is log entry 17. -/
def Obligations.TaskCommands : Prop :=
  ∀ (core : CoreId) (s : State) (e : Tcmd) (rest : List Tcmd), s.hasPower core.val = true → (s.core core.val).tcmdQ = e :: rest →
    e.ret = .none →
    let n := core.val
    let tk := e.word.toNat / 2 ^ 8 % 64
    let k := e.word.toNat / 2 ^ 16 % 16
    let prof := e.word.toNat / 2 ^ 20 % 4
    let slot := e.word.toNat / 2 ^ 24 % 1024
    let rec_ := bankPa n (e.word.toNat / 2 ^ 36 % 1024 * 256)
    let bs := s.bytes rec_ 256
    let tags := (List.range 4).map fun j => s.tags.contains (rec_ / 16 + 4 + j)
    let word := fun (j : Nat) => BitVec.ofNat 64 (leToNat (s.bytes (rec_ + 8 * j) 8))
    let sound := ∀ j, j < 4 → s.sound n (rec_ + 64 * j) 64
    let past := fun (t : State) (code : BitVec 8) => (t.core n).tcmdQ = rest ∧ (t.core n).tsCode = code ∧ (t.core n).tsTask.toNat = tk
    let ends := fun (t : State) (code : BitVec 8) => past t code ∧ t.mem = s.mem
    let outside := fun (t : State) (sl p : Nat) => ∀ a, (a < bankPa n (sl * 256) ∨ bankPa n (sl * 256) + slotSize p ≤ a) → t.byte a = s.byte a
    let op := e.word.toNat % 8
    (op = 0 → s.task n tk = none → prof ≠ 3 → (s.core n).slotOk slot prof = true → sound → recKeysBad bs tags false = false →
      s2Allowed (recCase bs) (BitVec.ofNat 12 (keyJob (recKey bs 0))) (recCase bs).s2ctl = true →
      ∃ (t : State) (z : Task), exec (.create core) s = .next t ∧ past t 0 ∧ outside t slot prof ∧ t.task n tk = some z ∧ z.st ≠ .waiting ∧
        z.prof = prof ∧ z.slot = slot ∧ z.job.toNat = keyJob (recKey bs 0) ∧ (t.ctx n (some tk)).pc = (word 0).setWidth 48 ∧
        (t.ctx n (some tk)).dsp = (word 1).setWidth 48 ∧ (t.ctx n (some tk)).dreg 0 = word 6 ∧
        (t.ctx n (some tk)).dreg 1 = word 7 ∧ (∀ j, 2 ≤ j → (t.ctx n (some tk)).dreg j = 0)) ∧
    (op = 0 → s.task n tk ≠ none → ∃ t : State, exec (.create core) s = .next t ∧ ends t 0x81) ∧
    (op = 1 → s.task n tk ≠ none → ∃ t : State, exec (.kill core) s = .next t ∧ ends t 0 ∧ t.task n tk = none) ∧
    (op = 1 → s.task n tk = none → ∃ t : State, exec (.kill core) s = .next t ∧ ends t 0x82) ∧
    (∀ j y, op = 2 → k < 8 → e.fromKeeper = true → (s.case n k).task = some j → s.task n j = some y → y.loc = some k →
      (s.core n).caseBusy k = false → (s.case n k).tErr = [] → (s.case n k).tCorr = [] → y.slot * 256 + slotSize y.prof ≤ 0x40000 →
      ∃ (t : State) (z : Task), exec (.spill core) s = .next t ∧ past t 0 ∧ outside t y.slot y.prof ∧ t.task n j = some z ∧
        z.loc = none ∧ z.image = { s.case n k with dirty := 0 } ∧ (t.case n k).task = none ∧
        (∀ i, i < 32 → (s.case n k).dirty.getLsbD (1 + i / 8) = true →
          leToNat (t.bytes (bankPa n (y.slot * 256 + 0x800 + 8 * i)) 8) = ((s.case n k).dreg i).toNat)) ∧
    (∀ y, op = 3 → k < 8 → e.fromKeeper = true → s.task n tk = some y → y.loc = none → (s.core n).caseFree k = true →
      y.slot * 256 + slotSize y.prof ≤ 0x40000 → s.slotBad n y = (s, false) →
      ∃ (t : State) (z : Task), exec (.fill core) s = .next t ∧ ends t 0 ∧ t.task n tk = some z ∧ z.loc = some k ∧
        t.case n k = { s.takeGroups n (y.slot * 256) y.prof y.image with dirty := 0, tCorr := [], tErr := [], task := some tk } ∧
        (∀ i, i < 32 → (t.case n k).dreg i = BitVec.ofNat 64 (leToNat (s.bytes (bankPa n (y.slot * 256 + 0x800 + 8 * i)) 8)))) ∧
    (op = 4 → (s.core n).ken = false → sound → recKeysBad bs tags true = false →
      s2Allowed (recCase bs) (BitVec.ofNat 12 (keyJob (recKey bs 0))) (recCase bs).s2ctl = true →
      ∃ t : State, exec (.kstart core) s = .next t ∧ ends t 0 ∧ (t.core n).ken = true ∧ (t.core n).keeperPc = (word 0).setWidth 48 ∧
        (t.case n 8).dreg 0 = word 6 ∧ (t.case n 8).dreg 1 = word 7) ∧
    (op = 4 → (s.core n).ken = true → ∃ t : State, exec (.kstart core) s = .next t ∧ ends t 0x0B)

/-- What the scheduler does by itself: the hardware fill under way puts a spilled task into the casement it was begun for, the
registers from its slot and from its image (log entry 17), and lets it run (R273); the keeper's cycle limit locks the core up with cause 6 (R275); the idle detector reports an idle core unless it is excluded
(R264); a test slot empties the core's caches and ends with its result recorded (R339–R342), but not while write-backs of the
caches remain (log entry 118); the job sequencer ends a job: none of its tasks is left (R336, R337). A row whose event is not due
changes nothing (log entry 5). -/
def Obligations.SchedulerRows : Prop :=
  (∀ (core : CoreId) (s : State) (tk k : Nat) (y : Task), s.coreOn core.val = true → (s.core core.val).lockCause = 0 →
    s.drain.st = .run →
    let n := core.val
    s.wakesBarred n = false → (s.core n).taskFill = some (tk, k) → s.task n tk = some y → s.slotBad n y = (s, false) →
    ∃ (t : State) (z : Task), exec (.hardwareFill core) s = .next t ∧ (t.core n).running = some k ∧ t.task n tk = some z ∧
      z.loc = some k ∧ z.st = .running ∧ (t.case n k).pc = y.image.pc ∧ (t.core n).taskFill = none ∧ t.mem = s.mem ∧
      (∀ j x, j ≠ k → (s.core n).running = some j → (s.case n j).task = some x → x ≠ tk → (t.core n).readyQ.head? = some x) ∧
      (∀ i, i < 32 → (t.case n k).dreg i = BitVec.ofNat 64 (leToNat (s.bytes (bankPa n (y.slot * 256 + 0x800 + 8 * i)) 8)))) ∧
  (∀ (core : CoreId) (s : State), s.coreOn core.val = true →
    let n := core.val
    ((s.core n).running = some 8 → 4096 < (s.core n).keeperIssues → (s.core n).lockCause = 0 →
      ∃ t : State, exec (.keeperCycleLimit core) s = .next t ∧ (t.core n).lockCause = 6 ∧ t.mem = s.mem) ∧
    ((s.core n).keeperIssues ≤ 4096 → exec (.keeperCycleLimit core) s = .next s) ∧
    ((s.core n).lockCause = 0 → (s.core n).isIdle = true → (s.core n).tmrOwner = .detector →
      ∃ t : State, exec (.idleDetectorExpiry core) s = .next t ∧ (t.core n).eligible = !(s.core n).texcl ∧
        (t.core n).tmrOwner = .none ∧ (t.core n).tmrCount = 0 ∧ (∀ j, t.case n j = s.case n j) ∧ t.mem = s.mem)) ∧
  (∀ (cl : ClusterId) (s : State) (i seg : Nat), s.live = true → (s.cluster cl.val).dst = .on →
    let x := s.cluster cl.val
    let n := cl.val * 64 + i
    (x.slot = none → s.drain.st = .run → x.testList.find? (fun p => s.grantable cl.val p.1) = some (i, seg) →
      ∃ t : State, exec (.testSlotGrant cl) s = .next t ∧ (t.cluster cl.val).slot = some i ∧ (t.cluster cl.val).slotSeg = seg ∧
        (t.core n).underTest = true ∧ (t.core n).dcache = [] ∧ (t.core n).icache = [] ∧ t.mem = s.mem) ∧
    (∀ pass, x.slot = some i → (s.core n).evicts ≠ [] → exec (.testSlotEnd cl pass) s = .next s) ∧
    (∀ pass, x.slot = some i → x.slotSeg = seg → (s.core n).evicts = [] → ∃ t : State, exec (.testSlotEnd cl pass) s = .next t ∧
      (t.cluster cl.val).slot = none ∧ (t.core n).underTest = false ∧ t.mem = s.mem ∧
      (pass = true → (i, seg) ∉ (t.cluster cl.val).retests ∧ tabGet 0xFFFF (t.cluster cl.val).ages (i * 4 + seg) = 0) ∧
      (pass = false → (i, seg) ∈ (t.cluster cl.val).retests))) ∧
  (∀ (s : State) (r : JobReport) (rs : List JobReport), s.live = true → s.jobs.reports = r :: rs →
    ∃ t : State, exec .jobSequencerEnd s = .next t ∧ t.jobs.reports = rs.filter (·.job != r.job) ∧
      (∀ n tk z, t.task n tk = some z → z.job ≠ r.job) ∧ t.drain.jobEnd = bump s.drain.jobEnd ∧ t.mem = s.mem)

/-! ### The mesh, the stacks, the engines -/

/-- Requests and responses on the mesh (R295, R298), in turn between their agents: a read of a bank is answered with its bytes,
a write changes them and is acknowledged, a request for a stack joins the queue of its port or ends there as a bus error, one
whose header is beyond correction is discarded (Table 15-1); the response of a load brings its data to the pending result. -/
def Obligations.MeshRows : Prop :=
  ∀ (i : Nat) (s : State), s.live = true →
    (∀ p, s.packets[i]? = some p → s.meshFirst p.src p.dst p.id = true → s.addendFirst p.src p.dst p.id = true →
      s.bankFirst p = true →
      let goes := fun (t : State) => exec (.meshRequest i) s = .next t ∧ t.packets = dropAt s.packets i
      let answers := fun (t : State) (st : RStat) (bs : List Byte) =>
        t.responses = s.responses ++ [{ num := p.id, src := p.dst, dst := p.src, ret := p.ret, stat := st, data := bs }]
      (p.flit = .header → ∃ t : State, goes t ∧ t.responses = s.responses ∧ t.mem = s.mem) ∧
      (∀ n pa len, p.flit ≠ .header → p.dst = .bank n → p.op = .read pa len → s.sound n pa len →
        ∃ t : State, goes t ∧ answers t .ok (s.bytes pa len) ∧ t.mem = s.mem) ∧
      (∀ n pa bs, p.flit = .none → p.dst = .bank n → p.op = .write pa bs false → s.sound n pa bs.length →
        ∃ t : State, goes t ∧ answers t .ok [] ∧ (∀ j, j < bs.length → t.byte (pa + j) = bs.getD j 0) ∧
          ∀ a, (a < pa ∨ pa + bs.length ≤ a) → t.byte a = s.byte a) ∧
      (∀ k pa len, p.flit = .none → p.dst = .stack k → p.op.span = some (pa, len) →
        ((s.locate pa len).2 = .ok → ∃ (t : State) (q : Packet), goes t ∧ (t.port k).queue = (s.port k).queue ++ [q] ∧
          q.op = p.op ∧ q.ret = p.ret ∧ q.src = p.src ∧ t.mem = s.mem) ∧
        ((s.locate pa len).2 ≠ .ok → ∃ t : State, goes t ∧ answers t .busErr [] ∧ t.mem = s.mem))) ∧
    (∀ r n tk y pid, s.responses[i]? = some r → (∀ x ∈ s.responses.take i, ¬(x.src = r.src ∧ x.dst = r.dst)) →
      r.flit = .none → s.dropsBack r.ret = false → r.ret = .load n (some tk) pid → tk < 64 → s.task n tk = some y →
      (∀ k, y.loc = some k → (s.case n k).task = some tk) → ∃ t : State, exec (.meshResponse i) s = .next t ∧
        t.responses = dropAt s.responses i ∧ t.mem = s.mem ∧
        (t.ctx n (some tk)).pend = (s.ctx n (some tk)).pend.map (fun e : Pending =>
          if e.await = .access ∧ e.id = pid then e.arrive r.stat r.data else e))

/-- Stack ports: a request at the head of its lines is performed and answered (R427); a refresh changes no stored value, and takes
the rate its stack asks for (R324), here by the sample of the last beat boundary (log entry 130); that of a port that is off does
nothing (log entry 5); a patrol scrub counts a period and leaves no correctable error in the port's storage (R322); a port that is up retrains, its retry
notice held, comes up again at its new rate, or fails, with its queue answered and its engine empty (R325, R326).

Digests (R329): a mark is counted on every port; with no digest running and the interval not reached nothing else
happens; the end of a digest gives each region and port the CRC-64 of its bytes and counts the digest. -/
def Obligations.StackPortRows : Prop :=
   (∀ (port : StackId) (s : State), s.live = true →
      let k := port.val
      let x := s.port k
      exec (.stackRefresh port) s =
        .next (if x.st = .off then s else s.onPort k fun y => { y with hot := s.beat.hotStacks.getLsbD k }) ∧
      (∀ i q, x.queue[i]? = some q → x.st = .up → s.portFirst k i q = true → s.eccBad = [] → s.eccCorr = [] →
        let a := s.storeAddr
        (∀ pa len, q.op = .read pa len → (∀ l ∈ unitsOf 64 (a pa) len, l ∉ s.poison) → ∃ t : State, exec (.stackRequest port i) s = .next t ∧
          (t.port k).queue = dropAt x.queue i ∧ t.mem = s.mem ∧
          t.responses = s.responses ++ [{ num := q.id, src := q.dst, dst := q.src, ret := q.ret, stat := .ok, data := s.bytes (a pa) len }]) ∧
        (∀ pa bs, q.op = .write pa bs false → ∃ t : State, exec (.stackRequest port i) s = .next t ∧
          (t.port k).queue = dropAt x.queue i ∧ (∀ j, j < bs.length → t.byte (a pa + j) = bs.getD j 0) ∧
          (∀ b, (b < a pa ∨ a pa + bs.length ≤ b) → t.byte b = s.byte b) ∧
          t.responses = s.responses ++ [{ num := q.id, src := q.dst, dst := q.src, ret := q.ret, stat := .ok }])) ∧
      (x.st = .up → ∃ t : State, exec (.patrolScrub port) s = .next t ∧ (t.port k).scrubs = bump x.scrubs ∧ t.mem = s.mem ∧
        ∀ w ∈ t.eccCorr, w ∈ s.eccCorr ∧ ¬(k * 2 ^ 31 ≤ w / 8 ∧ w / 8 < (k + 1) * 2 ^ 31)) ∧
      (x.st = .up → (x.recent.filter fun b => s.beat.count.toNat < b + 1000).length < 8 →
        ∃ t : State, exec (.portRetrain port) s = .next t ∧ (t.port k).st = .retrain ∧ (t.port k).retrains = bump x.retrains ∧
          (t.port k).notice = true ∧ (t.port k).queue = x.queue ∧ t.mem = s.mem) ∧
      (x.st = .up → x.eng.ready = [] → x.eng.held = [] → 8 ≤ (x.recent.filter fun b => s.beat.count.toNat < b + 1000).length →
        ∃ t : State, exec (.portRetrain port) s = .next t ∧ (t.port k).st = .failed ∧ t.mem = s.mem) ∧
      (∀ rate, x.st = .retrain → rate ≠ 0 → ∃ t : State, exec (.portRetrainComplete port rate) s = .next t ∧ (t.port k).st = .up ∧
        (t.port k).rate = rate ∧ (t.port k).queue = x.queue ∧ t.mem = s.mem) ∧
      (x.st = .retrain → x.eng.ready = [] → x.eng.held = [] → ∃ t : State, exec (.portFailed port) s = .next t ∧ (t.port k).st = .failed ∧ (t.port k).queue = [] ∧
        (t.port k).eng = {} ∧ t.mem = s.mem)) ∧
   (∀ (s : State), s.live = true →
      (∃ t : State, exec .digestMark s = .next t ∧ t.mem = s.mem ∧
        (s.digest.marks + 1 < s.digest.interval.toNat → t.digest = { s.digest with marks := s.digest.marks + 1 } ∧
          ∀ k, k < 8 → (t.port k).dgMarks = bump (s.port k).dgMarks) ∧
        (s.digest.busy = false → s.digest.interval ≠ 0 → s.digest.interval.toNat ≤ s.digest.marks + 1 →
          s.digest.regions ≠ [] → t.digest.busy = true ∧ ∀ k, k < 8 → (t.port k).dgMarks = 0)) ∧
      (s.digest.busy = true → s.digest.marks < s.digest.interval.toNat →
        (∀ x ∈ s.ports, x.2.st ≠ .retrain) →
        ∃ t : State, exec .digestComplete s = .next t ∧ t.digest.busy = false ∧ t.digest.number = s.digest.number + 1 ∧ t.mem = s.mem ∧
          ∀ r g k, s.digest.regions[r]? = some g → k < 8 →
            tabGet 0 t.digest.values (r * 8 + k) = (s.portDigest k g.base g.length (0, false)).1) ∧
      crc64 [0x31, 0x32, 0x33, 0x34, 0x35, 0x36, 0x37, 0x38, 0x39] = 0x6C40DF5F0B497347)

/-- Addends at their engine (R185, R187, R189): one without a rank, and one whose turn it is, is made ready; one of a later
rank is held; one of an earlier rank, and one of another SIZE than its element's open round, is an order error, counted and made
ready; a refused one goes on its way again; the read-modify-write of a line applies a ready one to its element and to no other
byte: the exact sum rounded to nearest even without a flag, or the default NaN for FP64, FP32 and W16 adds, the larger with −0
below +0, or the default NaN, for the floating maxima (R184, R93, R104). A bank scrub leaves no correctable error
in the bank and no error unfound in the tiles beneath the core (R331). -/
def Obligations.EngineRows : Prop :=
  (∀ (i : Nat) (s : State) (a : Addend) (k : EngAt), s.live = true → s.addends[i]? = some a → a.void = false → a.flit = .none →
    s.meshFirst a.agent (s.addendDst a) a.id = true → s.addendFirst a.agent (s.addendDst a) a.id = true →
    s.engineFor a.pa = .inl k → s.notice = false →
    let e := s.getEng k
    let z := if a.af = 1 ∨ a.af = 3 ∨ a.af = 7 then 4 else if a.af = 2 then 2 else 8
    let r := e.round (a.pa / z * z, z)
    let comes := fun (t : State) => exec (.addendArrival i) s = .next t ∧ t.addends = dropAt s.addends i ∧ t.mem = s.mem
    let same := fun (x : Addend) => x.pa = a.pa ∧ x.af = a.af ∧ x.val = a.val ∧ x.rank = a.rank ∧ x.size = a.size ∧ x.ret = a.ret
    ((a.size = 0 ∨ 2 < a.af) → ∃ (t : State) (x : Addend), comes t ∧ (t.getEng k).ready = e.ready ++ [x] ∧ same x ∧
      (t.getEng k).held = e.held) ∧
    (a.af ≤ 2 → a.size ≠ 0 → r.late = [] → e.overlaps (a.pa / z * z, z) = true → ∃ (t : State) (x : Addend), comes t ∧
      (t.getEng k).ready = e.ready ++ [x] ∧ same x ∧ x.err = true) ∧
    (a.af ≤ 2 → a.size ≠ 0 → e.overlaps (a.pa / z * z, z) = false → r.late = [] → e.tableLines.length < k.tableCap →
      e.held.length < k.holdCap →
      (a.rank = r.next → e.fits a = true → ∃ (t : State) (x : Addend), comes t ∧
        (t.getEng k).ready = e.ready ++ [x] ∧ same x ∧ (t.getEng k).held = e.held) ∧
      (r.next < a.rank → e.fits a = true → ∃ (t : State) (x : Addend), comes t ∧
        (t.getEng k).held = e.held ++ [x] ∧ same x ∧ (t.getEng k).ready = e.ready) ∧
      (a.rank < r.next ∨ e.fits a = false → ∃ (t : State) (x : Addend), comes t ∧ (t.getEng k).ready = e.ready ++ [x] ∧ same x ∧ x.err = true ∧
        (∀ n, k = .bank n → (t.cluster (n / 64)).orderErr = bump (s.cluster (n / 64)).orderErr)))) ∧
  (∀ (i : Nat) (s : State) (a : Addend), s.live = true → s.refused[i]? = some a → ∃ (t : State) (x : Addend),
    exec (.addendResend i) s = .next t ∧ t.refused = dropAt s.refused i ∧ t.addends = s.addends ++ [x] ∧ x.pa = a.pa ∧
      x.af = a.af ∧ x.val = a.val ∧ x.rank = a.rank ∧ x.size = a.size ∧ x.ret = a.ret ∧ t.mem = s.mem) ∧
  (∀ (n : CoreId) (s : State) (a : Addend), s.hasPower n.val = true → (s.engine n.val).ready = [a] → (s.engine n.val).held = [] →
    a.void = false → a.ret = .none → a.poison = false →
    let z := if a.af = 1 ∨ a.af = 3 ∨ a.af = 7 then 4 else if a.af = 2 then 2 else 8
    let at_ := a.pa / z * z
    s.sound n.val at_ z →
    let old := leToNat (s.bytes at_ z)
    let w := a.val.toNat
    let v := w % 2 ^ (8 * z)
    let sum := fun (f : FFmt) => if f.isNan old || f.isNan v then f.nan
      else engineFinish f (xadd 0 (f.decode old) (f.decode v)) % 2 ^ (8 * z)
    let larger := fun (f : FFmt) => if f.isNan old || f.isNan v then f.nan
      else if xcmpZ (f.decode old) (f.decode v) < 0 then v else old
    ∃ t : State, exec (.engineRmw (.bank n) (a.pa / 64)) s = .next t ∧ (t.engine n.val).ready = [] ∧
      (∀ b, (b < at_ ∨ at_ + z ≤ b) → t.byte b = s.byte b) ∧
      let new := leToNat (t.bytes at_ z)
      (a.af = 0 → new = sum .fp64) ∧ (a.af = 1 → new = sum .fp32) ∧ (a.af = 2 → new = sum .w16) ∧
      (a.af = 6 → new = larger .fp64) ∧ (a.af = 7 → new = larger .fp32) ∧
      (a.af = 3 → new = (old + w % 2 ^ 32) % 2 ^ 32) ∧
      (a.af = 4 → new = if (BitVec.ofNat 64 old).toInt < a.val.toInt then w else old) ∧
      (a.af = 5 → new = max old w) ∧ (a.af = 8 → new = if old = a.cmp.toNat then w else old)) ∧
  (∀ (core : CoreId) (s : State), s.coreOn core.val = true → ∃ t : State, exec (.bankScrub core) s = .next t ∧ t.mem = s.mem ∧
    (∀ w ∈ t.eccCorr, w ∈ s.eccCorr ∧ ¬(bankPa core.val 0 / 64 ≤ w / 8 ∧ w / 8 < bankPa core.val 0 / 64 + 4096)) ∧
    ∀ k j, k < 8 → j < 8 → tabGet 0 (t.case core.val k).tCorr j = 0 ∧ tabGet 0 (t.case core.val k).tErr j = 0)

/-! ### Links -/

/-- Messages of a module that is up, intact, well formed and next in sequence (R303–R314, R380, R386): each is accepted, SEQ
rises by 1, and it does what its type says: a PUT and a GET of one piece enter the mesh, an ACCP and a VOID go to the engine (on
release 1.0 the ACCP as a normal-mode write, and the VOID is discarded), a SIGNAL writes its bit and sets the LINK event, unless
one before it on its channel is held (R306), a response completes the request whose RTAG it echoes or is late, a host access
outside the host window is answered as unpopulated, one inside it reads or writes the register there and is answered with what
that gives, a DBELL rings, an ESC fills an idle mailbox. That the row's type stands for that of the message is log entry 58, the
fields of a VOID 47, those of an ESC 57, the size of a host read 56. -/
def Obligations.LinkMessages : Prop :=
  ∀ (m : LinkId) (msg : Msg) (s : State), s.live = true → (s.link m.val).st = .up → msg.corrupt = false →
    msg.seq = (s.link m.val).rxSeq → msg.type ≠ 0 → msg.type ≠ 15 →
    let k := m.val
    let l := s.link k
    let ok := fun (ty : Nat) => msgFieldsOk { msg with type := BitVec.ofNat 4 ty } ty (l.role == 2) = true
    let takes := fun (i : Instr) (t : State) => exec i s = .next t ∧ (t.link k).rxSeq = l.rxSeq + 1 ∧ (t.link k).gap = false ∧
      t.mem = s.mem
    let pa := msg.offset.toNat
    let len := msg.len.toNat
    let z := afBytes msg.af.toNat
    let one := s.inboundOk pa len = true ∧ len ≤ 64 ∧ pa % 4096 + len ≤ 4096
    (ok 1 → l.held = [] → one → ∃ (t : State) (p : Packet) (r : Inbound), takes (.linkPut m msg) t ∧ t.packets = s.packets ++ [p] ∧
      p.op = .write pa msg.payload (msg.arg.getLsbD 0) ∧ p.ret = .link k r.id ∧ (t.link k).inbound = l.inbound ++ [r] ∧ r.left = 1) ∧
    (ok 2 → l.held = [] → one → ∃ (t : State) (p : Packet) (r : Inbound), takes (.linkGet m msg) t ∧ t.packets = s.packets ++ [p] ∧
      p.op = .read pa len ∧ p.ret = .linkGet k r.id 0 ∧ (t.link k).inbound = l.inbound ++ [r] ∧ r.left = 1) ∧
    (ok 3 → l.held = [] → one → len = z → ∃ (t : State) (a : Addend), takes (.linkAccp m msg) t ∧ t.addends = s.addends ++ [a] ∧
      a.pa = pa ∧ a.af = msg.af.toNat ∧ a.val.toNat = leToNat msg.payload ∧ a.rank = msg.rank.toNat ∧
      a.size = msg.size.toNat ∧ a.strict = (msg.strict && !s.rel10) ∧ a.src = msg.src.toNat ∧ a.srcblk = msg.srcblk.toNat) ∧
    (∀ y, ok 4 → l.signalWaits msg = false → l.held = [] → msg.arg.toNat % 2 ^ 14 < 10240 →
      s.clusterOn (msg.arg.toNat % 2 ^ 14) = true → s.task (msg.arg.toNat % 2 ^ 14) (msg.arg.toNat / 2 ^ 16 % 64) = some y →
      3072 ≤ msg.arg.toNat / 2 ^ 22 % 2 ^ 12 → msg.arg.toNat / 2 ^ 22 % 2 ^ 12 ≠ 3065 → msg.arg.toNat / 2 ^ 22 % 2 ^ 12 ≠ 3066 →
      ∃ t : State, takes (.linkSignal m msg) t ∧
        let c := t.ctx (msg.arg.toNat % 2 ^ 14) (some (msg.arg.toNat / 2 ^ 16 % 64))
        c.bit (msg.arg.toNat / 2 ^ 22 % 2 ^ 12) = msg.arg.getLsbD 63 ∧ c.bit 3065 = true) ∧
    (∀ r : LinkReq, r ∈ l.reqs → r.ret = .none → r.sent = true → r.msg.rtag = msg.rtag → (∀ x ∈ l.reqs, x.msg.rtag = msg.rtag → x = r) →
      (∀ x ∈ l.reqs, x.id = r.id → x = r) →
      (ok 5 → r.msg.type = 2 → ∃ t : State, takes (.linkGetr m msg) t ∧ (t.link k).reqs = l.reqs.filter (·.id != r.id)) ∧
      (ok 6 → r.msg.type = 1 → ∃ t : State, takes (.linkAck m msg) t ∧ (t.link k).reqs = l.reqs.filter (·.id != r.id))) ∧
    ((∀ x ∈ l.reqs, x.msg.rtag ≠ msg.rtag) →
      (ok 5 → ∃ t : State, takes (.linkGetr m msg) t ∧ (t.link k).late = bump l.late ∧ (t.link k).reqs = l.reqs) ∧
      (ok 6 → ∃ t : State, takes (.linkAck m msg) t ∧ (t.link k).late = bump l.late ∧ (t.link k).reqs = l.reqs)) ∧
    (ok 7 → l.held = [] → s.rel10 = false → ∃ (t : State) (a : Addend), takes (.linkVoid m msg) t ∧ t.addends = s.addends ++ [a] ∧
      a.void = true ∧ a.pa = pa ∧ a.rank = msg.rank.toNat ∧ a.size = msg.size.toNat ∧ a.src = msg.src.toNat ∧
      a.srcblk = msg.srcblk.toNat) ∧
    (ok 7 → l.held = [] → s.rel10 = true → ∃ t : State, takes (.linkVoid m msg) t ∧ t.addends = s.addends) ∧
    (ok 0xB → l.hostHeld = [] → s.hostBusy k = false → (pa < s.start.winBase ∨ s.start.winBase + s.start.winLen ≤ pa) →
      ∃ (t : State) (q : Msg), takes (.linkHreq m msg) t ∧ (q ∈ (t.link k).wire ∨ q ∈ (t.link k).waiting) ∧ q.type = 0xC ∧
        q.rtag = msg.rtag ∧ q.arg = 0x80 ∧ t.power = s.power ∧ t.beat = s.beat ∧ t.drain = s.drain) ∧
    (ok 0xB → l.hostHeld = [] → s.hostBusy k = false → l.held = [] → (∀ r ∈ l.inbound, r.id < s.nextId) →
      let n := hreqSize msg
      pa % n = 0 → s.start.winBase ≤ pa → pa + n ≤ s.start.winBase + s.start.winLen →
      let like := fun (u : State) => u = { s with
        links := u.links, engines := u.engines, ports := u.ports, clusters := u.clusters, nextId := u.nextId }
      let answered := fun (t : State) (st : RStat) (bs : List Byte) => ∃ q : Msg, (q ∈ (t.link k).wire ∨ q ∈ (t.link k).waiting) ∧
        q.type = 0xC ∧ q.rtag = msg.rtag ∧ q.arg.toNat = st.linkStatus ∧ q.payload = bs
      (msg.payload = [] → ∃ t u : State, takes (.linkHreq m msg) t ∧ like u ∧
        answered t (u.ctlRead pa (n == 8)).1 (natToLe (u.ctlRead pa (n == 8)).2.toNat n)) ∧
      (msg.payload ≠ [] → ∃ (t u : State) (id : Nat), exec (.linkHreq m msg) s = .next t ∧ like u ∧
        ∀ v st, u.ctlWrite pa (n == 8) (BitVec.ofNat 64 (leToNat msg.payload)) .host (.link k id) = (v, some st) →
          v.link k = u.link k → answered t st [] ∧ (t.link k).rxSeq = l.rxSeq + 1 ∧ t.mem = v.mem ∧ t.power = v.power ∧
            t.beat = v.beat ∧ t.drain = v.drain ∧ t.start = v.start)) ∧
    (ok 0xD → l.hostHeld = [] → s.hostBusy k = false → ∃ t : State, takes (.linkDbell m msg) t ∧ (t.box (pa % 32)).bell = true) ∧
    (ok 0xE → pa % 16 = 0 → len % 16 = 0 → 16 ≤ pa % 512 → pa % 512 + len ≤ 512 → (s.box (pa / 512 % 32)).st = .idle →
      ∃ t : State, takes (.linkEsc m msg) t ∧ ∀ j, j < len → tabGet 0 (t.box (pa / 512 % 32)).payload (pa % 512 - 16 + j) = msg.payload.getD j 0)

/-- Link control, timers, reset and routes (R302, R310, R312, R315, R316): credit comes back; LACK frees the replay entries up
to its SEQ (the serial comparison of SEQ is log entry 55); NAK and the replay timer send again what is held from a SEQ on, and
after eight without progress the module resets; the NAK of a gap that lasts for RTO is repeated with the clock, as the row stands
for the replay timer alone (log entry 116); the LACK timer acknowledges; a request that times out, with no data to follow, leaves
the module; a reset drops what waits; a module that has retrained comes up from SEQ 0, one that has not goes OFF (log entry 60); a
route entry that waits is written.

Messages out of turn (R304, R312, R313): one before the expected SEQ is discarded; a corrupt one, or one past it, is discarded
and answered with NAK once, and begins the retry notice; a malformed one, or one of a reserved type, resets the module, and so
does credit for a channel it does not have. So for every sequenced type. -/
def Obligations.LinkControl : Prop :=
   (∀ (m : LinkId) (s : State), s.live = true →
      let k := m.val
      let l := s.link k
      (∀ (ch : Fin 8) u, l.st = .up → chOk ch.val (l.role == 2) = false → l.reqs = [] →
        ∃ t : State, exec (.linkCrd m ch u) s = .next t ∧ (t.link k).st = .resetting ∧ t.mem = s.mem) ∧
      (∀ (ch : Fin 8) u, l.st = .up → chOk ch.val (l.role == 2) = true → l.waiting = [] → l.owed = [] → ∃ t : State, exec (.linkCrd m ch u) s = .next t ∧
        (∀ c, tabGet 0 (t.link k).credits c = tabGet 0 l.credits c + if c = ch.val then u else 0) ∧ t.mem = s.mem) ∧
      (∀ seq, l.st = .up → l.waiting = [] → l.owed = [] → ∃ t : State, exec (.linkLack m seq) s = .next t ∧
        (t.link k).replay = l.replay.filter (fun x => 2 ^ 23 ≤ (seq - x.seq).toNat) ∧ (t.link k).wire = l.wire ∧ t.mem = s.mem) ∧
      (∀ seq x rest, l.st = .up → l.stalls < 8 → l.replay.filter (fun y => (y.seq - seq).toNat < 2 ^ 23) = x :: rest →
        ∃ t : State, exec (.linkNak m seq) s = .next t ∧ (t.link k).replays = bump l.replays ∧ (t.link k).stalls = l.stalls + 1 ∧
          (t.link k).replay = l.replay ∧ (t.link k).wire.length = l.wire.length + (x :: rest).length ∧
          (l.replay.head?.map (·.seq) = some seq → exec (.replayTimeout m) s = .next t)) ∧
      (l.replay = [] → exec (.replayTimeout m) s = .next s) ∧
      (s.pending = [] → ∃ t : State, Machine.step s = .next t ∧ t.mem = s.mem ∧ (t.link k).rxSeq = l.rxSeq ∧ (t.link k).gap = l.gap ∧
        (t.link k).wire = if l.st = .up ∧ l.gap = true ∧ l.nakAt + 1000 * l.rto.toNat ≤ s.now + 1 then l.wire ++ [nakMsg l.rxSeq] else l.wire) ∧
      (∀ x, l.st = .up → 8 ≤ l.stalls → l.replay.head? = some x → l.reqs = [] → ∃ t : State, exec (.replayTimeout m) s = .next t ∧
        (t.link k).st = .resetting) ∧
      (l.st = .up → l.lacked ≠ l.rxSeq → ∃ t : State, exec (.lackTimer m) s = .next t ∧ (t.link k).lacked = l.rxSeq ∧
        (t.link k).wire = l.wire ++ [lackMsg (l.rxSeq - 1)] ∧ t.mem = s.mem) ∧
      (∀ i r, l.st = .up → l.reqs[i]? = some r → r.sent = true → (∀ x ∈ l.reqs.take i, x.sent = false ∨ x.msg.ch ≠ r.msg.ch) →
        r.ret = .none → l.waiting = [] → r.msg.strict = false → ∃ t : State, exec (.requestTimeout m i) s = .next t ∧
          (t.link k).reqs = dropAt l.reqs i ∧ (t.link k).tmo = bump l.tmo ∧ t.mem = s.mem) ∧
      ((l.st = .up ∨ l.st = .training) → l.reqs = [] → ∃ t : State, exec (.moduleReset m) s = .next t ∧ (t.link k).st = .resetting ∧
        (t.link k).waiting = [] ∧ (t.link k).replay = [] ∧ (t.link k).held = [] ∧ (t.link k).resets = bump l.resets ∧ t.mem = s.mem) ∧
      (∀ rate d, (l.st = .resetting ∨ l.st = .training) → l.inbound = [] → l.owed = [] → rate.toNat < 6 →
        ∃ t : State, exec (.moduleRetrainComplete m rate d) s = .next t ∧ (t.link k).st = .up ∧ (t.link k).rate = rate ∧
          (t.link k).degr = d ∧ (t.link k).txSeq = 0 ∧ (t.link k).rxSeq = 0 ∧ (t.link k).replay = [] ∧ t.mem = s.mem) ∧
      (l.st = .resetting → ∃ t : State, exec (.moduleRetrainTimeout m) s = .next t ∧ (t.link k).st = .off ∧ t.mem = s.mem) ∧
      (∀ i b v, s.routeNext[i]? = some (b, v) → s.routeClear b ((tabGet 0 s.routes b).toNat % 2 ^ 16) = true →
        ∃ t : State, exec (.routeEntryUpdate i) s = .next t ∧ (∀ c, tabGet 0 t.routes c = if c = b then v else tabGet 0 s.routes c) ∧
          t.routeNext = dropAt s.routeNext i ∧ t.mem = s.mem)) ∧
   (∀ (m : LinkId) (msg : Msg) (s : State), s.live = true → (s.link m.val).st = .up →
      let k := m.val
      let l := s.link k
      ∀ (i : Instr) (ty : Nat), (i, ty) ∈ [(Instr.linkPut m msg, 1), (.linkGet m msg, 2), (.linkAccp m msg, 3), (.linkSignal m msg, 4),
          (.linkGetr m msg, 5), (.linkAck m msg, 6), (.linkVoid m msg, 7), (.linkHreq m msg, 0xB), (.linkDbell m msg, 0xD),
          (.linkEsc m msg, 0xE)] →
        let ok := msg.type ≠ 0 ∧ msg.type ≠ 15 ∧ msgFieldsOk { msg with type := BitVec.ofNat 4 ty } ty (l.role == 2) = true
        (msg.corrupt = false → ok → 1 ≤ (l.rxSeq - msg.seq).toNat → (l.rxSeq - msg.seq).toNat < 2 ^ 23 → exec i s = .next s) ∧
        ((msg.corrupt = true ∨ (ok ∧ 2 ^ 23 ≤ (l.rxSeq - msg.seq).toNat)) →
          (l.gap = true → msg.corrupt = false → exec i s = .next s) ∧
          (l.gap = true → ∃ t : State, exec i s = .next t ∧ t.link k = l ∧ t.mem = s.mem) ∧
          (l.gap = false → ∃ t : State, exec i s = .next t ∧ (t.link k).gap = true ∧ (t.link k).retry = true ∧
            (t.link k).rxSeq = l.rxSeq ∧ (t.link k).wire = l.wire ++ [nakMsg l.rxSeq] ∧ t.mem = s.mem)) ∧
        (msg.corrupt = false → ¬ok → l.reqs = [] → ∃ t : State, exec i s = .next t ∧ (t.link k).st = .resetting ∧
          (t.link k).resets = bump l.resets ∧ t.mem = s.mem))

/-! ### The drain and the escapement -/

/-- The drain (R348–R350): the first trigger starts it and is recorded, each further one sets its CAUSE bit, and every one but
DRAIN drives FAULT_N low; once all but held addends is complete the engines discard, and a line with an open round is
poisoned; once all is complete, or after the time limit with SHUTTER_N high, the block is drained, and MP3 begins to write the
history's records that are not in the flash (R346). A trigger in the cycle of the first leaves the lower unit in FIRSTUNIT (R422).
What else a timeout leaves is log entry 63, not stated here; a row whose event is not due changes nothing (log entry 5).

Cluster domains (R369): held addends end once nothing else of a fencing cluster is outstanding, and its TLBs are emptied;
once nothing is, the cluster goes OFF: its banks read 0, its cores are as after reset but for their lockup cause (R294), its
DOMSTAT bit clears; a waking cluster comes ON, and its cores leave lockup. -/
def Obligations.DrainRows : Prop :=
   (∀ (s : State), s.live = true →
      (∀ (cause : DrainCause) (unit : BitVec 16), ∃ t : State, exec (.drainTrigger cause unit) s = .next t ∧ t.mem = s.mem ∧
        t.drain.cause = s.drain.cause ||| BitVec.ofNat 8 (2 ^ causeBit cause) ∧
        t.drain.faultN = (s.drain.faultN || decide (cause ≠ .drain)) ∧
        (s.drain.st = .run → t.drain.st = .draining ∧ t.drain.firstUnit = (if cause = .drain then 0xFFFF else unit) ∧
          t.drain.tbeat = s.beat.count.setWidth 32) ∧
        (s.drain.st ≠ .run → t.drain.st = s.drain.st ∧ t.drain.firstUnit =
          (let u : BitVec 16 := if cause = .drain then 0xFFFF else unit
           if s.drain.at_ = s.now ∧ u < s.drain.firstUnit then u else s.drain.firstUnit))) ∧
      (s.drain.st = .draining → s.drain.discarded = false → s.drainedBut s.heldAddends = true →
        ∃ t : State, exec .drainEngineDiscard s = .next t ∧ t.drain.discarded = true ∧
          (∀ k ∈ s.engines_, (t.getEng k).held = [] ∧ (t.getEng k).rounds = []) ∧
          (s.heldAddends = [] → t.mem = s.mem ∧ ∀ k ∈ s.engines_, ∀ r ∈ (s.getEng k).rounds, r.next ≠ 0 → s.storeAddr r.pa / 64 ∈ t.poison)) ∧
      (s.drain.st = .draining → s.drain.discarded = true → s.drainedBut [] = true →
        ∃ t : State, exec .drainComplete s = .next t ∧ t.drain.st = .drained ∧ t.drain.timeout = s.drain.timeout ∧
          t.history = s.history ∧ t.mem = s.mem ∧
          (s.start.classified = true → s.serving 3 = true → (∃ h ∈ s.history, h.flushed = false) →
            ∃ op, t.flashPort.busy = some (.fault, op) ∨ (.fault, op) ∈ t.flashPort.waiting)) ∧
      (s.drain.st = .draining → (s.drain.discarded = false ∨ s.drainedBut [] = false) → exec .drainComplete s = .next s) ∧
      (s.drain.st = .draining → s.power.pinLow = false → ∃ t : State, exec .drainTimeout s = .next t ∧ t.drain.st = .drained ∧
        t.drain.timeout = true) ∧
      (s.drain.st = .draining → s.power.pinLow = true → exec .drainTimeout s = .next s)) ∧
   (∀ (c : ClusterId) (s : State), s.live = true →
      let x := s.cluster c.val
      let mine := fun (a : Nat) => 2 ^ 40 ≤ a ∧ (a - 2 ^ 40) / 0x80000 / 64 = c.val
      (x.dst = .fencing → s.fenceIdle c.val s.heldAddends = true → ∃ t : State, exec (.fenceAddendRelease c) s = .next t ∧
        (t.cluster c.val).released = true ∧
        (∀ n ∈ s.banksOf c.val, (t.engine n).held = [] ∧ (t.engine n).rounds = []) ∧ (t.cluster c.val).tlb = [] ∧
        ∀ n, n / 64 = c.val → (t.core n).tlb = []) ∧
      (x.dst = .fencing → (x.released = true ∨ s.fenceIdle c.val [] = true) →
        (∀ n ∈ s.banksOf c.val, (s.engine n).ready = [] ∧ (s.engine n).held = []) →
        ∃ t : State, exec (.clusterFenceComplete c) s = .next t ∧ (t.cluster c.val).dst = .off ∧
          (∀ a, mine a → t.byte a = 0) ∧ (∀ a, ¬mine a → t.byte a = s.byte a) ∧
          (∀ n, n / 64 = c.val → t.core n = { Core.reset n with lockCause := (s.core n).lockCause }) ∧ (∀ n, n / 64 ≠ c.val → t.core n = s.core n) ∧
          ∀ k, k < 184 → t.domstat.getLsbD k = (s.domstat.getLsbD k && k != c.val)) ∧
      (x.dst = .waking → ∃ t : State, exec (.clusterWakeComplete c) s = .next t ∧ (t.cluster c.val).dst = .on ∧ t.mem = s.mem ∧
        (∀ n, n / 64 = c.val → t.core n = { s.core n with lockCause := 0 }) ∧ (∀ n, n / 64 ≠ c.val → t.core n = s.core n) ∧
        ∀ k, k < 184 → t.domstat.getLsbD k = (s.domstat.getLsbD k || k == c.val)) ∧
      (x.dst = .on → exec (.clusterFenceComplete c) s = .next s ∧ exec (.clusterWakeComplete c) s = .next s))

/-- The management processors and the beat (R353, R355, R357, R358, R360): a restart leaves STATE 1 with its CAUSE and counts;
the processor comes back with STATE 0; a boundary counts the beat, fills the snapshot buffer that SNAPSEL did not name,
and sets the BEAT bit of every task of every powered cluster; an edge in the window is captured and moves the boundaries by
at most 25,000 cycles, any other is a miss. That the snapshot holds BEATCNT as it was before the boundary is log entry 67; a row
of a processor that is in service changes nothing (log entry 5). -/
def Obligations.BeatAndProcessors : Prop :=
  (∀ (i : MpId) (s : State), s.live = true →
    let restarts := fun (x : Instr) (c : BitVec 2) => ∃ t : State, exec x s = .next t ∧ (t.mp i.val).st = 1 ∧
      (t.mp i.val).cause = c ∧ (t.mp i.val).restarts = bump (s.mp i.val).restarts ∧ t.mem = s.mem ∧
      ∀ j, j ≠ i.val → t.mp j = s.mp j
    (2 ≤ s.start.phase.toNat → s.start.phase ≠ 9 → restarts (.mpWatchdogExpiry i) 0 ∧ restarts (.mpSramError i) 1) ∧
    ((s.mp i.val).st ≠ 0 → restarts (.mpReadyTimeout i) 0 ∧
      ∃ t : State, exec (.mpServiceResume i) s = .next t ∧ (t.mp i.val).st = 0 ∧ t.mem = s.mem ∧ ∀ j, j ≠ i.val → t.mp j = s.mp j) ∧
    ((s.mp i.val).st = 0 → exec (.mpReadyTimeout i) s = .next s ∧ exec (.mpServiceResume i) s = .next s)) ∧
  (∀ (x : SensorSample) (s : State), s.live = true → s.beat.running = true → ∃ t : State, exec (.beatBoundary x) s = .next t ∧
    t.beat.count = s.beat.count + 1 ∧ t.beat.snapSel = !s.beat.snapSel ∧ t.beat.captured = false ∧ t.mem = s.mem ∧
    (let new := if s.beat.snapSel then t.beat.snapA else t.beat.snapB
     new.beat = s.beat.count ∧ new.power = x.power ∧ new.thermal = x.thermal ∧ new.current = x.current ∧
       (if s.beat.snapSel then t.beat.snapB = s.beat.snapB else t.beat.snapA = s.beat.snapA)) ∧
    ∀ n tk y, s.coreOn n = true → s.task n tk = some y → (t.ctx n (some tk)).bit 3068 = true) ∧
  (∀ (err : Int) (s : State), s.live = true → s.beat.running = true → s.beat.en = true →
    (err.natAbs ≤ 62500 → s.beat.captured = false → ∃ t : State, exec (.beatInEdge err) s = .next t ∧
      t.beat.capt = bump s.beat.capt ∧ t.beat.lastErr = BitVec.ofInt 17 err ∧
      t.beat.shift = s.beat.shift + max (-25000) (min 25000 err) ∧ t.beat.captured = true ∧ t.beat.miss = s.beat.miss ∧
      (500 < err.natAbs → t.beat.lock = false) ∧ (err.natAbs ≤ 500 → 7 ≤ s.beat.run → t.beat.lock = true)) ∧
    ((62500 < err.natAbs ∨ s.beat.captured = true) → ∃ t : State, exec (.beatInEdge err) s = .next t ∧
      t.beat.miss = bump s.beat.miss ∧ t.beat.lock = false ∧ t.beat.shift = s.beat.shift ∧ t.beat.capt = s.beat.capt))

/-- Guards, voltage and the shutter path (R361, R364–R367, R370): each event changes exactly the bits the spec gives it. The
path stays active while SHUTTER_N is low or a thermal alarm is active; that the end of the alarm releases it is log entry 69. An
activation starts the count of the release's stages afresh. MP1 writes no voltage but VCORE's target, in the range and the steps
of R361; that the fourth invalid response is the failure is log entry 70, that the target is then held until a valid one 121. -/
def Obligations.PowerEvents : Prop :=
  ∀ (s : State), s.live = true →
    let p := s.power
    let leaves := fun (q : Power) => (.next { s with power := q } : Out)
    exec .currentGuardStop s = leaves { p with guardStop := true, guardActed := true } ∧
    exec .currentGuardResume s = leaves { p with guardStop := false } ∧
    exec .shutterRequest s = leaves { p with pinLow := true, shut := true, lift := 0 } ∧
    exec .shutterRelease s = leaves { p with pinLow := false, shut := p.shut && p.talarm } ∧
    exec .thermalAlarm s = leaves { p with talarm := true, shut := true, lift := 0 } ∧
    exec .thermalAlarmClear s = leaves { p with talarm := false, shut := p.shut && p.pinLow } ∧
    exec .thermtrip s = leaves { p with ttrip := true, talarm := true, shut := true, lift := 0 } ∧
    exec .pllLockLoss s = .next { s with clkLoss := true } ∧
    (∀ c : ClusterId, (s.cluster c.val).dst = .on → ∃ t : State, exec (.droopEvent c) s = .next t ∧
      (t.cluster c.val).droopHold = true ∧ (t.cluster c.val).droop = bump (s.cluster c.val).droop ∧
      (t.cluster c.val).droopBeat = bump (s.cluster c.val).droopBeat ∧ t.mem = s.mem ∧ ∀ j, j ≠ c.val → t.cluster j = s.cluster j) ∧
    (∀ c : ClusterId, ∃ t : State, exec (.droopHoldEnd c) s = .next t ∧ (t.cluster c.val).droopHold = false ∧ t.mem = s.mem ∧
      ∀ j, j ≠ c.val → t.cluster j = s.cluster j) ∧
    (∀ f : AvsFrame, 3 ≤ s.start.phase.toNat →
      let sent := ∀ mv, f.cmd = .voltageWrite mv →
        f.rail = 0 ∧ mv.toNat = p.vtgt.toNat ∧ 650 ≤ mv.toNat ∧ mv.toNat ≤ 850 ∧ mv.toNat % 5 = 0
      (¬sent → exec (.avsbusFrame f) s = .next s) ∧
      (f.valid = true → f.cmd = .voltageRead → f.rail = 0 → exec (.avsbusFrame f) s =
        leaves { p with avsRetry := 0, avsHold := false, vread := f.value }) ∧
      (∀ mv, sent → f.valid = true → f.cmd = .voltageWrite mv →
        exec (.avsbusFrame f) s = leaves { p with avsRetry := 0, avsHold := false, vcore := mv }) ∧
      (sent → f.valid = false → p.avsRetry < 3 → exec (.avsbusFrame f) s = leaves { p with avsRetry := p.avsRetry + 1 }) ∧
      (sent → f.valid = false → 3 ≤ p.avsRetry → ∃ t : State, exec (.avsbusFrame f) s = .next t ∧ t.power.avsFail = bump p.avsFail ∧
        t.power.avsHold = true ∧ t.power.vtgt = p.vtgt ∧
        t.logNext = s.logNext + 1 ∧ t.mem = s.mem))

/-! ### Mailboxes and their commands -/

/-- Mailboxes (R372, R375, R377, R380, R381): a compare-and-set that Table 17-2 lists takes effect where STATE is what it
expects, and any other is counted in REJ; MBDB rings; MP2 takes the next POSTED mailbox, reports progress, and ends a taken
request with its result in DONE or ERROR; a deadline ends it in TIMEOUT, but counts in RACE where the request has ended, or made
progress in the same mgmt_clk cycle, four of the model's (log entry 77). That of an idle mailbox changes nothing (log entry 5). -/
def Obligations.MailboxRows : Prop :=
  ∀ (n : MailboxId) (s : State), s.live = true →
    let b := s.box n.val
    let leaves := fun (i : Instr) (f : Mailbox → Mailbox) => exec i s = .next (s.onBox n.val f)
    let rejects := fun (i : Instr) => exec i s = .next { s with mail := { s.mail with rej := bump s.mail.rej } }
    (b.st = .idle → leaves (.mailboxPost n 0) fun x => { x with st := .posted, bell := true, timer := true }) ∧
    (b.st = .posted → leaves (.mailboxWithdraw n 1) fun x => { x with st := .idle, timer := false }) ∧
    ((b.st = .done → leaves (.mailboxClear n 3) fun x => { x with st := .idle, status := 0, ack := false, prog := 0 }) ∧
      (b.st = .timeout → leaves (.mailboxClear n 4) fun x => { x with st := .idle, status := 0, ack := false, prog := 0 }) ∧
      (b.st = .error → leaves (.mailboxClear n 5) fun x => { x with st := .idle, status := 0, ack := false, prog := 0 })) ∧
    (∀ e : BitVec 3, e.toNat ≠ b.st.code → rejects (.mailboxPost n e) ∧ rejects (.mailboxWithdraw n e) ∧ rejects (.mailboxClear n e)) ∧
    (b.st = .taken → rejects (.mailboxPost n 2) ∧ rejects (.mailboxWithdraw n 2)) ∧
    (∀ r : BitVec 32, ∃ t : State, exec (.mbdbRing r) s = .next t ∧ t.mem = s.mem ∧
      ∀ j, j < 32 → (t.box j).bell = (r.getLsbD j || (s.box j).bell) ∧ (t.box j).st = (s.box j).st) ∧
    (s.serving 2 = true →
      (b.st = .posted → s.nextTake = some n.val → ∃ (t : State) (w : Work), exec (.mailboxTake n) s = .next t ∧
        (t.box n.val).st = .taken ∧ (t.box n.val).bell = false ∧ (n.val, w) ∈ t.mail.work ∧ w.op = b.opcode ∧
        w.result = s.checkRequest n.val ∧ t.mem = s.mem) ∧
      (b.st ≠ .posted → leaves (.mailboxTake n) fun x => { x with bell := false }) ∧
      (∀ p : BitVec 16, b.st = .taken → b.cls = 2 → (s.mail.work.any fun w => w.1 == n.val) = true →
        leaves (.mailboxProgress n p) fun x =>
          { x with ack := true, prog := if 1000 < p.toNat then 1000 else p, timer := true, progAt := some (s.now / 4) }) ∧
      (∀ w st reply, (s.mail.work.find? fun w => w.1 == n.val) = some (n.val, w) → w.result = some (st, reply) → b.st = .taken →
        (b.opcode ≠ 0xA3 ∨ b.req 0 1 ≠ 2 ∨ st ≠ 0 ∨ (s.known n.val).isSome = true) → ∃ t : State,
          exec (.mailboxComplete n) s = .next t ∧ (t.box n.val).timer = false ∧ (∀ i, t.mp i = s.mp i) ∧
          (∀ x ∈ t.mail.work, x.1 ≠ n.val) ∧ t.mem = s.mem ∧
          (st = 0 → reply.length ≤ 496 → (t.box n.val).st = .done ∧ (t.box n.val).len.toNat = reply.length ∧
            ∀ j, j < reply.length → tabGet 0 (t.box n.val).payload j = reply.getD j 0) ∧
          (st ≠ 0 → (t.box n.val).st = .error ∧ (t.box n.val).status = st ∧ (t.box n.val).len = 0)) ∧
      (∀ w reply, (s.mail.work.find? fun w => w.1 == n.val) = some (n.val, w) → w.result = some (0, reply) → b.st = .taken →
        b.opcode = 0xA3 → b.req 0 1 = 2 → s.known n.val = none → ∃ t : State, exec (.mailboxComplete n) s = .next t ∧
          (t.box n.val).st = .done ∧ (t.mp 2).st = 1 ∧ (t.mp 2).cause = 2)) ∧
    (b.st = .posted → ∃ t : State, exec (.mailboxDeadline n) s = .next t ∧ (t.box n.val).st = .timeout ∧
      (t.box n.val).status = 0x10 ∧ t.mem = s.mem) ∧
    ((b.st = .taken ∧ b.progAt = some (s.now / 4)) ∨ b.st = .done ∨ b.st = .error →
      exec (.mailboxDeadline n) s = .next { s with mail := { s.mail with race := bump s.mail.race } }) ∧
    (b.st = .taken → b.progAt ≠ some (s.now / 4) → ∃ t : State, exec (.mailboxDeadline n) s = .next t ∧ (t.box n.val).st = .timeout ∧
      (t.box n.val).status = 0x11 ∧ t.mem = s.mem) ∧
    (b.st = .idle → exec (.mailboxDeadline n) s = .next s)

/-- The commands of Table 17-4 that report: each, carried out, leaves its result, a STATUS and a reply, with the request. That
LOG_READ of an empty log answers the index of the next record is log entry 79. -/
def Obligations.ReportCommands : Prop :=
  ∀ (n : MailboxId) (s : State),
    let b := s.box n.val
    let gives := fun (i : Instr) (st : BitVec 8) (bs : List Byte) => exec i s = .next (s.setResult n.val (some (st, bs)))
    let a := b.req 0 1
    let h := b.req 0 2
    (s.startable n.val 0x01 = true → ∃ bs, gives (.identify n) 0 bs ∧ bs.length = 24 ∧ leToNat (bs.take 8) = 0x0C3E570101010000 ∧
      leToNat ((bs.drop 8).take 2) = s.start.slot.toNat ∧ leToNat ((bs.drop 12).take 4) = s.start.version.toNat) ∧
    (s.startable n.val 0x02 = true → ∃ bs, gives (.status n) 0 bs ∧ leToNat (bs.take 8) = s.blkStat.toNat ∧
      leToNat ((bs.drop 16).take 8) = s.mpStat.toNat ∧ leToNat ((bs.drop 24).take 8) = s.pwrStat.toNat ∧ bs.length = 44) ∧
    (s.startable n.val 0x11 = true → gives (.powerLimitGet n) 0 (natToLe s.pwrStat.toNat 8)) ∧
    (s.startable n.val 0x41 = true →
      (a ≤ 15 → gives (.linkStatus n) 0 (natToLe (s.lmStat a).toNat 8 ++ natToLe (s.lmCnt a).toNat 8 ++ natToLe (s.link a).owed.length 4)) ∧
      (15 < a → gives (.linkStatus n) 3 [])) ∧
    (s.startable n.val 0x50 = true →
      let c := b.req 2 2
      (h % 2 = 0 → c % 2 = 0 → h + c ≤ 0x570 → c ≤ 480 → ∃ bs, gives (.sensorRead n) 0 bs ∧ bs.length = 8 + c ∧
        leToNat (bs.take 8) = (s.snapshot n.val).beat.toNat ∧
        ∀ i, i < c / 2 → leToNat ((bs.drop (8 + 2 * i)).take 2) = (s.snapshot n.val).half (h / 2 + i) % 2 ^ 16) ∧
      ((h % 2 = 1 ∨ c % 2 = 1 ∨ 0x570 < h + c ∨ 480 < c) → gives (.sensorRead n) 3 [])) ∧
    (s.startable n.val 0x60 = true → s.log = [] → s.logNext < 2 ^ 64 → ∃ bs, gives (.logRead n) 0 bs ∧
      leToNat (bs.take 8) = s.logNext ∧ leToNat ((bs.drop 8).take 2) = 0) ∧
    (∀ r rest, s.startable n.val 0x60 = true → s.log = r :: rest → b.req 0 8 ≤ r.index → r.index + 10 < 2 ^ 64 →
      (∀ x ∈ rest, r.index ≤ x.index) → ∃ bs, gives (.logRead n) 0 bs ∧
        leToNat ((bs.drop 8).take 2) = min 10 (rest.length + 1) ∧ (bs.drop 16).take 48 = r.bytes ∧
        leToNat (bs.take 8) = r.index + min 10 (rest.length + 1)) ∧
    (s.startable n.val 0x61 = true →
      (knownUnit h = true → ∃ bs, gives (.historyRead n) 0 bs ∧ leToNat (bs.take 2) = (if s.isPermanent h then 2
        else if ∃ r ∈ s.history, r.unit.toNat = h then 1 else 0) ∧
        leToNat ((bs.drop 2).take 2) = (s.history.filter fun r => r.unit.toNat == h).length % 2 ^ 16) ∧
      (knownUnit h = false → gives (.historyRead n) 6 [])) ∧
    (s.startable n.val 0x71 = true →
      let c := b.req 2 2
      (c ≤ 60 → h + c ≤ 10240 → ∃ bs, gives (.testResults n) 0 bs ∧ bs.length = 16 + 8 * c ∧ leToNat (bs.take 16) = c ∧
        ∀ i g, i < c → g < 4 → leToNat ((bs.drop (16 + 8 * i + 2 * g)).take 2) =
          (tabGet 0xFFFF (s.cluster ((h + i) / 64)).ages ((h + i) % 64 * 4 + g)).toNat) ∧
      ((60 < c ∨ 10240 < h + c) → gives (.testResults n) 3 [])) ∧
    (s.startable n.val 0x81 = true →
      (a < s.digest.regions.length → s.digest.since < s.digest.number → s.digest.number < 2 ^ 64 → ∃ bs, gives (.digestRead n) 0 bs ∧
        leToNat (bs.take 8) = s.digest.number ∧
        ∀ p, p < 8 → leToNat ((bs.drop (16 + 8 * p)).take 8) = (tabGet 0 s.digest.values (a * 8 + p)).toNat) ∧
      ((s.digest.regions.length ≤ a ∨ s.digest.number ≤ s.digest.since) → gives (.digestRead n) 6 [])) ∧
    (s.startable n.val 0x90 = true →
      (∀ v, s.start.settings.find? (fun r => r.1 == h) = some (h, v) →
        gives (.settingsRead n) 0 (natToLe h 2 ++ natToLe v.length 6 ++ v)) ∧
      (s.start.settings = [] → h = 0xE → gives (.settingsRead n) 0 (natToLe 0xE 2 ++ natToLe 2 6 ++ natToLe 800 2)) ∧
      (s.start.settings = [] → h = 0xF → gives (.settingsRead n) 6 []))

/-- The commands of Table 17-4 that change something: each, carried out, has its effect and leaves its result with the request; one
with a field out of range changes nothing else; a switch of a domain and a restart wait for their end. A cluster that is
switched on has cores as after reset but for their lockup cause (R294). That the storage of a stack reads 0 once it is off is log
entry 9. -/
def Obligations.ControlCommands : Prop :=
  ∀ (n : MailboxId) (s : State),
    let b := s.box n.val
    let does := fun (i : Instr) (u : State) (st : BitVec 8) (bs : List Byte) => exec i s = .next (u.setResult n.val (some (st, bs)))
    let waits := fun (i : Instr) (u : State) => exec i s = .next (u.setResult n.val none)
    let a := b.req 0 1
    let h := b.req 0 2
    (s.startable n.val 0x10 = true →
      (280 ≤ h → h ≤ 1400 → does (.powerLimitSet n) { s with power := { s.power with plimNext := some (BitVec.ofNat 11 h) } } 0 (natToLe h 2)) ∧
      ((h < 280 ∨ 1400 < h) → does (.powerLimitSet n) s 3 [])) ∧
    (s.startable n.val 0x12 = true →
      (b.req 2 1 = 0 → h < 160 → (s.cluster h).dst = .on → s.drain.st = .run → (s.cluster h).slot = none → (∀ x ∈ s.cores, x.1 / 64 ≠ h) →
        waits (.domainSwitchOff n) (s.onCluster h fun x => { x with dst := .fencing, testList := [] })) ∧
      (b.req 2 1 = 0 → h < 160 → (s.cluster h).dst = .on → s.drain.st ≠ .run → does (.domainSwitchOff n) s 5 []) ∧
      (b.req 2 1 = 0 → 160 ≤ h → h < 168 → (s.port (h - 160)).st = .up →
        waits (.domainSwitchOff n) (s.onPort (h - 160) fun x => { x with fenced := true })) ∧
      (b.req 2 1 = 1 → h < 160 → (s.cluster h).dst = .off → ∃ u : State, waits (.domainSwitchOn n) u ∧ (u.cluster h).dst = .waking ∧
        (∀ k, k / 64 = h → u.core k = { Core.reset k with lockCause := (s.core k).lockCause })) ∧
      (b.req 2 1 = 1 → 160 ≤ h → h < 168 → (s.port (h - 160)).st = .off → (s.port (h - 160)).fenced = false →
        waits (.domainSwitchOn n) (s.onPort (h - 160) fun x => { x with st := .training })) ∧
      (184 ≤ h → (b.req 2 1 = 0 → does (.domainSwitchOff n) s 3 []) ∧ (b.req 2 1 = 1 → does (.domainSwitchOn n) s 3 []))) ∧
    (s.startable n.val 0x20 = true →
      (a = 1 → ∃ u bs, does (.beatConfig n) u 0 bs ∧ u = { s with beat := { s.beat with en := true } }) ∧
      (a = 0 → ∃ u bs, does (.beatConfig n) u 0 bs ∧ u = { s with beat := { s.beat with en := false, lock := false, run := 0 } }) ∧
      (1 < a → does (.beatConfig n) s 3 [])) ∧
    (s.startable n.val 0x30 = true → ∃ u bs, does (.drain n) u 0 bs ∧ u = s.startDrain .drain 0xFFFF) ∧
    (s.startable n.val 0x31 = true →
      (s.drain.st ≠ .drained → does (.release n) s 5 []) ∧
      (s.drain.st = .drained → s.drain.cause = 1 → ∃ u bs, does (.release n) u 0 bs ∧ u.drain.st = .run ∧ u.drain.cause = 0 ∧ u.mem = s.mem)) ∧
    (s.startable n.val 0x40 = true → b.req 6 2 = 0 →
      (15 < a → a ≠ 0xFF → does (.linkAssign n) s 3 []) ∧
      (a ≤ 15 → b.req 1 1 ≤ 1 → b.req 2 1 ≤ 3 → 0 < b.req 3 1 → 8 * b.req 3 1 ≤ b.req 4 2 * 100 → ∃ u bs, does (.linkAssign n) u 0 bs ∧
        (u.link a).role.toNat = b.req 1 1 ∧ (u.link a).hsplit.toNat = b.req 2 1 ∧ (u.link a).rto.toNat = b.req 3 1 ∧
        (u.link a).rqto.toNat = b.req 4 2)) ∧
    (s.startable n.val 0x70 = true → (a ≤ 1 → does (.testPolicy n) { s with testEn := a == 1 } 0 (natToLe a 1)) ∧
      (1 < a → does (.testPolicy n) s 3 [])) ∧
    (s.startable n.val 0x80 = true →
      (s.digest.busy = true → does (.digestSchedule n) s 4 []) ∧
      (s.digest.busy = false → b.req 2 2 = 0 → does (.digestSchedule n) { s with digest := { s.digest with
        interval := BitVec.ofNat 16 h, regions := [], since := s.digest.number, values := [], flags := [] } } 0 [])) ∧
    (s.startable n.val 0xA3 = true → (3 < a → does (.mpRestart n) s 3 []) ∧ (a = 2 → does (.mpRestart n) s 0 []) ∧
      (a ≤ 3 → a ≠ 2 → ∃ u : State, waits (.mpRestart n) u ∧ (u.mp a).st = 1 ∧ (u.mp a).cause = 2)) ∧
    (s.startable n.val 0xB0 = true →
      (∀ j, s.jobs.open_.find? (fun x => x.2.toNat == b.req 0 8) = some j → does (.jobOpen n) s 0 (natToLe j.1.toNat 2)) ∧
      (s.jobs.open_ = [] → s.jobFields b = true → 4095 ≤ s.jobs.issued → does (.jobOpen n) s 0x0B []) ∧
      (∀ m, s.jobs.open_ = [] → s.jobFields b = true → s.jobs.issued < 4095 → s.sound m (b.req 8 8) 64 → ∃ u : State,
        does (.jobOpen n) u 0 (natToLe (s.jobs.issued + 1) 2) ∧ u.jobs.issued = s.jobs.issued + 1 ∧
        u.jobs.open_ = [(BitVec.ofNat 12 (s.jobs.issued + 1), BitVec.ofNat 64 (b.req 0 8))] ∧
        (b.rootKeys (s.jobs.issued + 1)).length = 4 ∧
        (∀ i, i < 4 → BitVec.ofNat 128 (leToNat (u.bytes (b.req 8 8 + 16 * i) 16)) = (b.rootKeys (s.jobs.issued + 1)).getD i 0) ∧
        (∀ x, (x < b.req 8 8 ∨ b.req 8 8 + 64 ≤ x) → u.byte x = s.byte x))) ∧
    (s.startable n.val 0xB1 = true →
      ((∀ j ∈ s.jobs.open_, j.1.toNat ≠ h) → does (.jobClose n) s 6 []) ∧
      ((∃ j ∈ s.jobs.open_, j.1.toNat = h) → ∃ u : State, does (.jobClose n) u 0 [] ∧ u.mem = s.mem ∧
        (∀ c t y, u.task c t = some y → y.job.toNat ≠ h) ∧ ∀ j ∈ u.jobs.open_, j.1.toNat ≠ h)) ∧
    (∀ port : StackId, s.live = true → (s.port port.val).fenced = true → (s.port port.val).queue = [] →
      (s.port port.val).eng.ready = [] → (s.port port.val).eng.held = [] → ∃ t : State,
        exec (.stackPortFenceComplete port) s = .next t ∧ (t.port port.val).st = .off ∧ (t.port port.val).fenced = false ∧
        (∀ x, x / 2 ^ 37 = port.val → t.byte x = 0) ∧ (∀ x, x / 2 ^ 37 ≠ port.val → t.byte x = s.byte x) ∧
        t.domstat.getLsbD (160 + port.val) = false)

/-! ### Flash, start-up, pins -/

/-- Commands that use the flash and the end of a flash operation (R397, R401–R403): a field out of range and a foreign
session are refused; else the operations are queued and the command waits for their end; a program clears bits and an
erase sets a block to 0xFF, and neither touches another byte; one that fails changes no byte (log entry 88). That more than 480
bytes answer BAD_FIELD is log entry 82, the answer to a foreign session 83.

FLASH_OPERATION_COMPLETE (R402, R403); with the last read of the history area the units are classified by its records, the
session number rises, and a permanent unit holds the block (R346, R347, R391, R394); that the number is taken from the records in
the flash is log entry 128. With no operation in progress the row changes nothing (log entry 5). -/
def Obligations.FlashRows : Prop :=
   (∀ (n : MailboxId) (s : State), s.flashPort.job = none → s.flashPort.updateIdle = true →
      let b := s.box n.val
      let ends := fun (i : Instr) (st : BitVec 8) (bs : List Byte) => exec i s = .next (State.setResult
        { s with flashPort := { s.flashPort with failed := false, job := none } } n.val (some (st, bs)))
      let queues := fun (i : Instr) (op : Nat) (u : State) => exec i s = .next (State.setResult
        { u with flashPort := { u.flashPort with job := some (n.val, op) } } n.val none)
      let h := b.req 0 2
      let z := b.req 2 2
      (s.startable n.val 0x91 = true →
        ((h = 0 ∨ 0xF ≤ h) → h < 0x8000 → ends (.settingsWrite n) 3 []) ∧
        (480 < z → ends (.settingsWrite n) 3 []) ∧
        (h = 0x1 → z = 1 → b.req 8 1 ≤ 1 → recordsLength (settingPut s.start.settings 1 [(b.bytes 24 1).getD 0 0]) ≤ 262112 →
          ∃ u : State, queues (.settingsWrite n) 0x91 u ∧ u.flash = s.flash ∧
            u = State.writeSettings { s with flashPort := { s.flashPort with failed := false } } 1 (b.bytes 24 1))) ∧
      (s.startable n.val 0xA0 = true →
        (b.req 0 4 ≠ 790528 → ends (.updateBegin n) 3 []) ∧
        (∀ x, b.req 0 4 = 790528 → s.start.session_ = some x → x.1 ≠ n.val → ends (.updateBegin n) 4 []) ∧
        (b.req 0 4 = 790528 → s.start.session_ = none → ∃ u : State, queues (.updateBegin n) 0xA0 u ∧
          u.start.session_ = some (n.val, ~~~s.start.slot, [0]) ∧ u.flash = s.flash)) ∧
      (s.startable n.val 0xA1 = true →
        (s.start.session_ = none → ends (.updateData n) 5 []) ∧
        (∀ x, s.start.session_ = some x → x.1 = n.val → (b.req 0 4 % 16 ≠ 0 ∨ 488 < b.len.toNat) → ends (.updateData n) 3 []) ∧
        (∀ x, s.start.session_ = some x → x.1 = n.val → b.req 0 4 % 16 = 0 → 8 < b.len.toNat → b.len.toNat ≤ 488 →
          b.req 0 4 + (b.len.toNat - 8) ≤ 790528 → ∃ u : State, queues (.updateData n) 0xA1 u ∧ u.flash = s.flash)) ∧
      (s.startable n.val 0xA2 = true →
        (∀ x, s.start.session_ = some x → x.1 = n.val → ∃ u : State, queues (.updateCommit n) 0xA2 u ∧ u.flash = s.flash) ∧
        (s.start.session_ = none → s.start.commits = [] → ends (.updateCommit n) 5 []))) ∧
   (∀ (s : State), s.live = true →
      (s.flashPort.busy = none → ∀ ok, exec (.flashOperationComplete ok) s = .next s) ∧
      (∀ o bs, s.flashPort.busy = some (.update, .program o bs) → ∃ t : State, exec (.flashOperationComplete true) s = .next t ∧
        (∀ i, i < bs.length → flashByte t.flash (o + i) = flashByte s.flash (o + i) &&& bs.getD i 0) ∧
        (∀ a, (a < o ∨ o + bs.length ≤ a) → flashByte t.flash a = flashByte s.flash a) ∧ t.mem = s.mem) ∧
      (∀ o, s.flashPort.busy = some (.update, .erase o) → ∃ t : State, exec (.flashOperationComplete true) s = .next t ∧
        (∀ a, flashByte t.flash a = if o ≤ a ∧ a < o + 65536 then 0xFF else flashByte s.flash a) ∧ t.mem = s.mem) ∧
      (∀ op, s.flashPort.busy = some (.update, op) → s.flashPort.job = none → ∃ t : State,
        exec (.flashOperationComplete false) s = .next t ∧ t.flash = s.flash ∧ t.flashPort.failed = true ∧ t.mem = s.mem) ∧
      (∀ op, s.flashPort.busy = some (.fault, op) → ∃ t : State, exec (.flashOperationComplete false) s = .next t ∧
        t.flash = s.flash ∧ t.history = s.history ∧ t.logNext = s.logNext + 1 ∧ t.mem = s.mem) ∧
      (s.flashPort.busy = some (.fault, .read) → s.flashPort.histLeft = 1 → s.history = [] → s.permanent = [] →
        let recs := (historyIn s.flash).map (·.2)
        ∃ t : State, exec (.flashOperationComplete true) s = .next t ∧ t.start.classified = true ∧ t.flash = s.flash ∧ t.mem = s.mem ∧
          t.start.session = recs.foldl (fun m r => if m < r.session then r.session else m) 0 + 1 ∧
          (permanentIn recs = [] → t.start.phase = s.start.phase ∧ t.drain.st = s.drain.st) ∧
          (permanentIn recs ≠ [] → t.start.phase = 8 ∧ t.drain.st = .drained)) ∧
      (s.flashPort.busy = some (.pattern, .read) → 0 < s.flashPort.fetchLeft → ∃ t : State,
        exec (.flashOperationComplete true) s = .next t ∧ t.flashPort.fetchLeft = s.flashPort.fetchLeft - 1 ∧
          t.flash = s.flash ∧ t.mem = s.mem))

/-- Start-up (R391–R394, R400, R404, R327): a block whose flash gives no SFDP, or with no slot that verifies, stops in phase 9 with
FAULT_N low; else its processors start, and once all four report ready it comes to phase 6, in one row (log entries 84 and 122),
and MP3 begins to read the history area; BLK_READY follows phase 6; the pattern library is copied into SP0's carve-out and is
ready if its hash agrees (log entry 93); fuses are blown up to the image's rollback version, all in one row (log entry 92); a stack
port that trains after start-up is UP, SP0 once the library has been loaded again (R327). How the header of an image holds its key
and signature is log entry 13.

RESET_N and the supply (R410, R413): every state of the block is discarded but what lies in the flash, the fuses and the
test access port, so a history record that has not reached the flash is lost (log entry 86); the supply monitor's reset holds, also
over a pulse of RESET_N, until its recovery, and RESET_N still low goes on holding. Whether the supply that fell is the test access
port's is a free value (log entry 144). -/
def Obligations.StartupRows : Prop :=
   ((∀ (env : StartupEnv) (s : State), s.start.phase = 0 → s.supplyHold = false → s.clkLoss = false → ∃ t : State,
      exec (.startupSequence env) s = .next t ∧ t.resetLow = false ∧ t.resetPin = false ∧ t.beat.running = true ∧ t.start.rollCnt = BitVec.ofNat 7 s.fuses ∧
        t.mem = s.mem ∧ t.fuses = s.fuses ∧
        (env.sfdpOk = false → t.start.phase = 9 ∧ t.drain.faultN = true ∧ t.sessions = s.sessions) ∧
        (env.sfdpOk = true → (let f := match env.flash with | some l => flashLoad l | none => s.flash
          (imageStatus f (slotBase 0) s.fuses s.keyHash ≠ 0 ∧ imageStatus f (slotBase 1) s.fuses s.keyHash ≠ 0 →
            t.start.phase = 9 ∧ t.drain.faultN = true) ∧
          (imageStatus f (slotBase 0) s.fuses s.keyHash = 0 ∨ imageStatus f (slotBase 1) s.fuses s.keyHash = 0 →
            let all := ∀ i, i < 4 → env.ready.getD i true = true
            (all → t.start.phase = 6 ∧ t.start.filled = true ∧ t.start.left = none ∧
              (s.start.classified = false → t.flashPort.histLeft = historyBursts)) ∧
            (¬all → t.start.phase = 2 ∧ t.start.filled = s.start.filled ∧ t.start.left = some (env.stackPorts, env.linkRates)) ∧
            ∀ i, i < 4 → (t.mp i).st = if env.ready.getD i true then 0 else 2)))) ∧
    (∀ (env : StartupEnv) (s : State), s.supplyHold = true → exec (.startupSequence env) s = .next { s with resetPin := false }) ∧
    (∀ (i : MpId) (s : State) (x : List Training × List (Option (BitVec 3))), s.live = true → (s.mp i.val).st ≠ 0 →
      s.start.phase = 2 → s.start.left = some x → (∀ j, j < 4 → j ≠ i.val → (s.mp j).st = 0) →
      ∃ t : State, exec (.mpServiceResume i) s = .next t ∧ t.start.phase = 6 ∧ t.start.filled = true ∧ t.start.left = none) ∧
    (∀ (s : State), s.live = true → s.start.phase = 6 → (s.readyToServe = true →
        exec .blkReadyAssert s = .next { s with start := { s.start with ready := true, phase := 7 } }) ∧
      (s.readyToServe = false → exec .blkReadyAssert s = .next s)) ∧
    (∀ (s : State), s.serving 3 = true → s.start.filled = true → s.start.libReady = false → s.start.libBad = false →
      s.flashPort.fetchLeft = 0 → ∃ t : State, exec .patternLibraryLoad s = .next t ∧
        let home := (s.port 0).st = .up ∨ (s.port 0).trained = true
        (t.start.libReady = true ↔ home ∧ s.libraryOk = true) ∧ (t.start.libBad = true ↔ ¬(home ∧ s.libraryOk = true)) ∧
        ((s.port 0).trained = true → (t.port 0).st = .up ∧ t.domstat.getLsbD 160 = true) ∧
        (home → ∀ a, a < 0x4000000 → flashByte t.start.patterns a = flashByte s.flash (0x1000000 + a)) ∧
        t.mem = s.mem) ∧
    (∀ (s : State), s.serving 0 = true → (∀ i, i < 4 → (s.mp i).image = s.start.imageNo) →
      (1000 ≤ s.start.cleanBeats → ∃ t : State, exec .rollbackFuseRaise s = .next t ∧ t.fuses = max s.fuses s.start.rollVer.toNat ∧
        t.mem = s.mem) ∧
      (s.start.cleanBeats < 1000 → exec .rollbackFuseRaise s = .next s)) ∧
    (∀ (port : StackId) (x : Training) (s : State), s.live = true → (s.port port.val).st = .training →
      (s.port port.val).trained = false →
      (x.ok = true → x.rate ≠ 0 → 1 ≤ x.scap.toNat → x.scap.toNat ≤ 8 → ∃ t : State,
        exec (.stackPortTrainingComplete port x) s = .next t ∧ (t.port port.val).rate = x.rate ∧
          (t.port port.val).scap = x.scap ∧ t.mem = s.mem ∧
          (port.val ≠ 0 → (t.port port.val).st = .up ∧ t.domstat.getLsbD (160 + port.val) = true) ∧
          (port.val = 0 → (t.port 0).st = .training ∧ (t.port 0).trained = true ∧ t.start.libReady = false ∧
            (s.serving 3 = true → t.flashPort.fetchLeft = 16384))) ∧
      (x.ok = false → (s.port port.val).queue = [] → (s.port port.val).eng.ready = [] → (s.port port.val).eng.held = [] → ∃ t : State,
        exec (.stackPortTrainingComplete port x) s = .next t ∧ (t.port port.val).st = .failed ∧ t.mem = s.mem))) ∧
   (∀ (s : State),
      (∃ t : State, exec .resetNAssert s = .next t ∧ t.resetLow = true ∧ t.mem = [] ∧ (∀ n, t.core n = Core.reset n) ∧
        (∀ c, t.cluster c = {}) ∧ (∀ k, t.link k = {} ∧ t.port k = {} ∧ t.box k = {}) ∧ t.start = {} ∧ t.drain = {} ∧ t.power = {} ∧
        t.beat = {} ∧ t.log = [] ∧ t.domstat = 0 ∧ t.resetPin = true ∧ t.supplyHold = s.supplyHold ∧ t.flash = s.flash ∧ t.fuses = s.fuses ∧ t.tap = s.tap ∧
        t.sessions = s.sessions ∧ t.history = []) ∧
      (s.resetLow = false → ∃ t : State, exec .supplyMonitorTrip s = .next t ∧ t.resetLow = true ∧ t.supplyHold = true ∧ t.mem = [] ∧
        (∀ n, t.core n = Core.reset n) ∧ t.flash = s.flash) ∧
      (s.supplyHold = true → exec .supplyRecoveryRestart s =
        .next { s with supplyHold := false, unpowered := false, resetLow := s.resetPin }) ∧
      (s.supplyHold = false → exec .supplyRecoveryRestart s = .next s))

/-- The test access port, the I3C target and control space (R387, R415, R416, R420): an instruction that drives the pins is in
force only while RESET_N is low, in service BYPASS stands in its place with Capture-IR 0b0101; EXTEST drives the outputs with the
preloaded values and HIGHZ floats them; SAMPLE captures the levels the block drives; without its supply the port does nothing;
IDCODE reads 0x15701C3F (0x05701C3F on release 1.0). Which cell stands for which signal is log entry 144. An I3C write of four bytes
or more goes into an idle management mailbox and an I3C read returns its bytes; a misaligned control-space write changes nothing,
and TCTL, SPA and a mailbox take theirs. -/
def Obligations.PortRows : Prop :=
  ∀ (s : State),
    let tap := fun (t : Tap) => (.next { s with tap := t } : Out)
    let out := fun (x : Signal) (i : Nat) => scanCells[i]? = some x ∧ cellOf x = some i ∧ x.isInput = false
    (s.unpowered = true → ∀ p q, exec .bypass s = .next s ∧ exec (.samplePreload p q) s = .next s ∧ exec .idcode s = .next s ∧
      exec .extest s = .next s ∧ exec .highz s = .next s) ∧
    (s.unpowered = false → exec .bypass s = tap (s.tap.load .bypass) ∧
      exec .idcode s = tap { s.tap.load .idcode with dr := if s.rel10 then 0x05701C3F else 0x15701C3F }) ∧
    (∀ p q, s.unpowered = false → ∃ bits : BitVec 64,
      exec (.samplePreload p q) s = tap { s.tap.load .samplePreload with bsr := bits, preload := q } ∧
      ∀ i, i < 24 → (s.resetLow = false →
          (scanCells[i]? = some .blkReady → bits.getLsbD i = s.start.ready) ∧ (scanCells[i]? = some .lockupN → bits.getLsbD i = !s.lockupN) ∧
          (scanCells[i]? = some .faultN → bits.getLsbD i = !(s.drain.faultN || s.clkLoss)) ∧
          (scanCells[i]? = some .thermtripN → bits.getLsbD i = !s.power.ttrip)) ∧
        (∀ x, scanCells[i]? = some x → x.isInput = true → bits.getLsbD i = p.getLsbD i)) ∧
    (s.unpowered = false → s.resetPin = true →
      (∃ t : State, exec .extest s = .next t ∧ t.tap = { s.tap.load .extest with driving := true } ∧ t = { s with tap := t.tap } ∧
        ∀ x i, out x i → t.pinState x = if s.tap.preload.getLsbD i then (if x.openDrain then .released else .high) else .low) ∧
      (∃ t : State, exec .highz s = .next t ∧ t.tap = { s.tap.load .highz with floating := true } ∧ t = { s with tap := t.tap } ∧
        ∀ x i, out x i → t.pinState x = if x.openDrain then .released else .highZ)) ∧
    (s.resetPin = false → s.unpowered = false → ∃ t : Tap, exec .extest s = tap t ∧ exec .highz s = tap t ∧ exec (.instrumentAccess .writing) s = tap t ∧
      t.ir = .bypass ∧ t.capture = 0b0101 ∧ t.driving = false ∧ t.floating = false) ∧
    (s.unpowered = false → exec (.instrumentAccess .startStat) s = tap { s.tap with capture := 1, dr := s.startStat }) ∧
    (s.i3cServes = true →
      (∀ a : BitVec 7, exec (.dynamicAddressAssignment a) s = .next { s with i3c := { s.i3c with dynamic := some a } }) ∧
      (∀ e, exec (.enec e) s = .next { s with i3c := { s.i3c with ibi := e } }) ∧
      (∀ count, s.i3c.offset.toNat < 0x400 → ∃ bs, exec (.i3cPrivateRead count) s = .next { s with i3c := { s.i3c with readData := bs } } ∧
        bs.length = count ∧ ∀ i, i < count → bs.getD i 0 =
          (s.box (32 + s.i3c.offset.toNat / 512)).byte ((s.i3c.offset.toNat + i) % 512)) ∧
      (∀ (o : BitVec 16) data, o.toNat < 0x400 → 16 ≤ o.toNat % 512 → o.toNat % 512 + data.length ≤ 512 →
        let n := 32 + o.toNat / 512
        (data ≠ [] → data.length < 4 → ∃ t : State, exec (.i3cPrivateWrite o data) s = .next t ∧ t.i3c.offset = o ∧
          t.mail.rej = bump s.mail.rej ∧ t.box n = s.box n) ∧
        ((s.box n).st = .idle → 4 ≤ data.length → ∃ t : State, exec (.i3cPrivateWrite o data) s = .next t ∧ t.i3c.offset = o ∧ t.mem = s.mem ∧
          ∀ i, i < data.length → tabGet 0 (t.box n).payload (o.toNat % 512 - 16 + i) = data.getD i 0) ∧
        ((s.box n).st ≠ .idle → data ≠ [] → ∃ t : State, exec (.i3cPrivateWrite o data) s = .next t ∧ t.i3c.offset = o ∧
          t.mail.rej = bump s.mail.rej ∧ t.box n = s.box n))) ∧
    (s.live = true → ∀ (r : Requester) (v : Word),
      (∀ (o : BitVec 26) w, o.toNat % (if w then 8 else 4) ≠ 0 → exec (.controlRegisterWrite r o w v) s = .next s) ∧
      exec (.controlRegisterWrite r 0x200 true v) s = .next { s with walkErrMode := v.getLsbD 0 && !s.rel10 } ∧
      (∀ n, n < 10240 → s.coreOn n = true → (s.core n).tasks = [] → v.toNat % 256 + v.toNat / 256 % 512 ≤ 256 →
        ∃ t : State, exec (.controlRegisterWrite r (BitVec.ofNat 26 (0x1000000 + n / 64 * 0x10000 + 0x8000 + n % 64 * 0x200 + 8)) true v) s = .next t ∧
          (t.core n).spa = v &&& 0x1FFFF ∧ t.mem = s.mem) ∧
      (∀ n j, n < 32 → j < 62 → (s.box n).st = .idle → ∃ t : State,
        exec (.controlRegisterWrite r (BitVec.ofNat 26 (0x1000 + n * 512 + 16 + 8 * j)) true v) s = .next t ∧
          ∀ i, i < 8 → tabGet 0 (t.box n).payload (8 * j + i) = v.extractLsb' (8 * i) 8))
end

