-- ==== Sys2Proof/Laws/Tables.lean ====
section
/-! SUPPORT. Laws of the tables of `Bits` and of the accessors of `Ops`: a read after a write. -/

namespace Sys2Proof.Machine

theorem tabGet_tabErase {α : Type} (d : α) (t : Tab α) (k j : Nat) :
    tabGet d (tabErase t k) j = if j = k then d else tabGet d t j := by
  induction t with
  | nil => simp [tabErase, tabGet]
  | cons p t ih =>
    obtain ⟨i, b⟩ := p
    by_cases h : i = k
    · subst h
      by_cases hj : j = i
      · subst hj; simp [tabErase, ih]
      · have : ¬ i = j := fun e => hj e.symm
        simp [tabErase, ih, hj, tabGet, this]
    · by_cases hj : i = j
      · subst hj; simp [tabErase, tabGet, h]
      · simp [tabErase, tabGet, h, hj, ih]

theorem tabGet_tabPut {α : Type} (d : α) (t : Tab α) (k j : Nat) (a : α) :
    tabGet d (tabPut t k a) j = if j = k then a else tabGet d t j := by
  induction t with
  | nil => by_cases h : j = k <;> simp [tabPut, tabGet, h]; intro e; exact absurd e.symm h
  | cons p t ih =>
    obtain ⟨i, b⟩ := p
    unfold tabPut
    split
    · by_cases h : j = k
      · subst h; simp [tabGet]
      · have : ¬ k = j := fun e => h e.symm
        simp [tabGet, h, this]
    · split
      · rename_i h1 h2
        subst h2
        by_cases h : j = k
        · subst h; simp [tabGet]
        · have : ¬ k = j := fun e => h e.symm
          simp [tabGet, h, this]
      · rename_i h1 h2
        by_cases h : i = j
        · subst h
          have : ¬ i = k := fun e => h2 e.symm
          simp [tabGet, this]
        · simp [tabGet, h, ih]

/-- A read of a table after a write. -/
@[simp] theorem tabGet_tabSet {α : Type} [DecidableEq α] (d : α) (t : Tab α) (k j : Nat) (a : α) :
    tabGet d (tabSet d t k a) j = if j = k then a else tabGet d t j := by
  unfold tabSet
  split
  · rename_i h; subst h; exact tabGet_tabErase _ _ _ _
  · exact tabGet_tabPut _ _ _ _ _

/-! ### Cores and casements -/

@[simp] theorem core_setCore (s : State) (n m : Nat) (c : Core) : (s.setCore n c).core m = if m = n then c else s.core m := by
  unfold State.core State.setCore
  by_cases h : m = n
  · subst h; simp
  · simp only [h, if_false]
    have := tabGet_tabSet (Core.reset n) s.cores n m c
    -- the default differs by core number; the entry read is not the one written
    clear this
    unfold tabSet
    split
    · have := tabGet_tabErase (Core.reset m) s.cores n m; simp [h] at this; exact this
    · have := tabGet_tabPut (Core.reset m) s.cores n m c; simp [h] at this; exact this

@[simp] theorem core_onCore (s : State) (n m : Nat) (f : Core → Core) :
    (s.onCore n f).core m = if m = n then f (s.core n) else s.core m := by
  simp [State.onCore]

@[simp] theorem case_setCase (s : State) (n k m j : Nat) (c : Casement) :
    (s.setCase n k c).case m j = if m = n ∧ j = k then c else s.case m j := by
  unfold State.case State.setCase
  by_cases h : m = n
  · subst h; simp
  · simp [h]

@[simp] theorem case_onCase (s : State) (n k m j : Nat) (f : Casement → Casement) :
    (s.onCase n k f).case m j = if m = n ∧ j = k then f (s.case n k) else s.case m j := by
  simp [State.onCase]

end Sys2Proof.Machine
end

