-- ==== Sys2Proof/Laws/State.lean ====
section
/-! SUPPORT. What each update of `State` and of a casement leaves as it was: one lemma per field. -/

namespace Sys2Proof.Machine

/-! `State.setCore` -/
@[simp] theorem State.setCore_pending (s : State) (n : Nat) (c : Core) : (s.setCore n c).pending = s.pending := rfl
@[simp] theorem State.setCore_resetLow (s : State) (n : Nat) (c : Core) : (s.setCore n c).resetLow = s.resetLow := rfl
@[simp] theorem State.setCore_resetPin (s : State) (n : Nat) (c : Core) : (s.setCore n c).resetPin = s.resetPin := rfl
@[simp] theorem State.setCore_unpowered (s : State) (n : Nat) (c : Core) : (s.setCore n c).unpowered = s.unpowered := rfl
@[simp] theorem State.setCore_work (s : State) (n : Nat) (c : Core) : (s.setCore n c).work = s.work := rfl
@[simp] theorem State.setCore_supplyHold (s : State) (n : Nat) (c : Core) : (s.setCore n c).supplyHold = s.supplyHold := rfl
@[simp] theorem State.setCore_clkLoss (s : State) (n : Nat) (c : Core) : (s.setCore n c).clkLoss = s.clkLoss := rfl
@[simp] theorem State.setCore_now (s : State) (n : Nat) (c : Core) : (s.setCore n c).now = s.now := rfl
@[simp] theorem State.setCore_free (s : State) (n : Nat) (c : Core) : (s.setCore n c).free = s.free := rfl
@[simp] theorem State.setCore_nextId (s : State) (n : Nat) (c : Core) : (s.setCore n c).nextId = s.nextId := rfl
@[simp] theorem State.setCore_mem (s : State) (n : Nat) (c : Core) : (s.setCore n c).mem = s.mem := rfl
@[simp] theorem State.setCore_poison (s : State) (n : Nat) (c : Core) : (s.setCore n c).poison = s.poison := rfl
@[simp] theorem State.setCore_tags (s : State) (n : Nat) (c : Core) : (s.setCore n c).tags = s.tags := rfl
@[simp] theorem State.setCore_eccCorr (s : State) (n : Nat) (c : Core) : (s.setCore n c).eccCorr = s.eccCorr := rfl
@[simp] theorem State.setCore_eccBad (s : State) (n : Nat) (c : Core) : (s.setCore n c).eccBad = s.eccBad := rfl
@[simp] theorem State.setCore_frames (s : State) (n : Nat) (c : Core) : (s.setCore n c).frames = s.frames := rfl
@[simp] theorem State.setCore_clusters (s : State) (n : Nat) (c : Core) : (s.setCore n c).clusters = s.clusters := rfl
@[simp] theorem State.setCore_engines (s : State) (n : Nat) (c : Core) : (s.setCore n c).engines = s.engines := rfl
@[simp] theorem State.setCore_ports (s : State) (n : Nat) (c : Core) : (s.setCore n c).ports = s.ports := rfl
@[simp] theorem State.setCore_links (s : State) (n : Nat) (c : Core) : (s.setCore n c).links = s.links := rfl
@[simp] theorem State.setCore_routes (s : State) (n : Nat) (c : Core) : (s.setCore n c).routes = s.routes := rfl
@[simp] theorem State.setCore_routeNext (s : State) (n : Nat) (c : Core) : (s.setCore n c).routeNext = s.routeNext := rfl
@[simp] theorem State.setCore_self (s : State) (n : Nat) (c : Core) : (s.setCore n c).self = s.self := rfl
@[simp] theorem State.setCore_ilv (s : State) (n : Nat) (c : Core) : (s.setCore n c).ilv = s.ilv := rfl
@[simp] theorem State.setCore_cap (s : State) (n : Nat) (c : Core) : (s.setCore n c).cap = s.cap := rfl
@[simp] theorem State.setCore_walkErrMode (s : State) (n : Nat) (c : Core) : (s.setCore n c).walkErrMode = s.walkErrMode := rfl
@[simp] theorem State.setCore_rel10 (s : State) (n : Nat) (c : Core) : (s.setCore n c).rel10 = s.rel10 := rfl
@[simp] theorem State.setCore_packets (s : State) (n : Nat) (c : Core) : (s.setCore n c).packets = s.packets := rfl
@[simp] theorem State.setCore_responses (s : State) (n : Nat) (c : Core) : (s.setCore n c).responses = s.responses := rfl
@[simp] theorem State.setCore_addends (s : State) (n : Nat) (c : Core) : (s.setCore n c).addends = s.addends := rfl
@[simp] theorem State.setCore_refused (s : State) (n : Nat) (c : Core) : (s.setCore n c).refused = s.refused := rfl
@[simp] theorem State.setCore_lost (s : State) (n : Nat) (c : Core) : (s.setCore n c).lost = s.lost := rfl
@[simp] theorem State.setCore_domstat (s : State) (n : Nat) (c : Core) : (s.setCore n c).domstat = s.domstat := rfl
@[simp] theorem State.setCore_images (s : State) (n : Nat) (c : Core) : (s.setCore n c).images = s.images := rfl
@[simp] theorem State.setCore_keyHash (s : State) (n : Nat) (c : Core) : (s.setCore n c).keyHash = s.keyHash := rfl
@[simp] theorem State.setCore_mps (s : State) (n : Nat) (c : Core) : (s.setCore n c).mps = s.mps := rfl
@[simp] theorem State.setCore_mail (s : State) (n : Nat) (c : Core) : (s.setCore n c).mail = s.mail := rfl
@[simp] theorem State.setCore_beat (s : State) (n : Nat) (c : Core) : (s.setCore n c).beat = s.beat := rfl
@[simp] theorem State.setCore_power (s : State) (n : Nat) (c : Core) : (s.setCore n c).power = s.power := rfl
@[simp] theorem State.setCore_drain (s : State) (n : Nat) (c : Core) : (s.setCore n c).drain = s.drain := rfl
@[simp] theorem State.setCore_jobs (s : State) (n : Nat) (c : Core) : (s.setCore n c).jobs = s.jobs := rfl
@[simp] theorem State.setCore_digest (s : State) (n : Nat) (c : Core) : (s.setCore n c).digest = s.digest := rfl
@[simp] theorem State.setCore_start (s : State) (n : Nat) (c : Core) : (s.setCore n c).start = s.start := rfl
@[simp] theorem State.setCore_testEn (s : State) (n : Nat) (c : Core) : (s.setCore n c).testEn = s.testEn := rfl
@[simp] theorem State.setCore_log (s : State) (n : Nat) (c : Core) : (s.setCore n c).log = s.log := rfl
@[simp] theorem State.setCore_logNext (s : State) (n : Nat) (c : Core) : (s.setCore n c).logNext = s.logNext := rfl
@[simp] theorem State.setCore_history (s : State) (n : Nat) (c : Core) : (s.setCore n c).history = s.history := rfl
@[simp] theorem State.setCore_permanent (s : State) (n : Nat) (c : Core) : (s.setCore n c).permanent = s.permanent := rfl
@[simp] theorem State.setCore_correctable (s : State) (n : Nat) (c : Core) : (s.setCore n c).correctable = s.correctable := rfl
@[simp] theorem State.setCore_powered (s : State) (n : Nat) (c : Core) : (s.setCore n c).powered = s.powered := rfl
@[simp] theorem State.setCore_sessions (s : State) (n : Nat) (c : Core) : (s.setCore n c).sessions = s.sessions := rfl
@[simp] theorem State.setCore_flash (s : State) (n : Nat) (c : Core) : (s.setCore n c).flash = s.flash := rfl
@[simp] theorem State.setCore_fuses (s : State) (n : Nat) (c : Core) : (s.setCore n c).fuses = s.fuses := rfl
@[simp] theorem State.setCore_flashPort (s : State) (n : Nat) (c : Core) : (s.setCore n c).flashPort = s.flashPort := rfl
@[simp] theorem State.setCore_i3c (s : State) (n : Nat) (c : Core) : (s.setCore n c).i3c = s.i3c := rfl
@[simp] theorem State.setCore_tap (s : State) (n : Nat) (c : Core) : (s.setCore n c).tap = s.tap := rfl

/-! `State.onCore` -/
@[simp] theorem State.onCore_pending (s : State) (n : Nat) (f : Core → Core) : (s.onCore n f).pending = s.pending := rfl
@[simp] theorem State.onCore_resetLow (s : State) (n : Nat) (f : Core → Core) : (s.onCore n f).resetLow = s.resetLow := rfl
@[simp] theorem State.onCore_resetPin (s : State) (n : Nat) (f : Core → Core) : (s.onCore n f).resetPin = s.resetPin := rfl
@[simp] theorem State.onCore_unpowered (s : State) (n : Nat) (f : Core → Core) : (s.onCore n f).unpowered = s.unpowered := rfl
@[simp] theorem State.onCore_work (s : State) (n : Nat) (f : Core → Core) : (s.onCore n f).work = s.work := rfl
@[simp] theorem State.onCore_supplyHold (s : State) (n : Nat) (f : Core → Core) : (s.onCore n f).supplyHold = s.supplyHold := rfl
@[simp] theorem State.onCore_clkLoss (s : State) (n : Nat) (f : Core → Core) : (s.onCore n f).clkLoss = s.clkLoss := rfl
@[simp] theorem State.onCore_now (s : State) (n : Nat) (f : Core → Core) : (s.onCore n f).now = s.now := rfl
@[simp] theorem State.onCore_free (s : State) (n : Nat) (f : Core → Core) : (s.onCore n f).free = s.free := rfl
@[simp] theorem State.onCore_nextId (s : State) (n : Nat) (f : Core → Core) : (s.onCore n f).nextId = s.nextId := rfl
@[simp] theorem State.onCore_mem (s : State) (n : Nat) (f : Core → Core) : (s.onCore n f).mem = s.mem := rfl
@[simp] theorem State.onCore_poison (s : State) (n : Nat) (f : Core → Core) : (s.onCore n f).poison = s.poison := rfl
@[simp] theorem State.onCore_tags (s : State) (n : Nat) (f : Core → Core) : (s.onCore n f).tags = s.tags := rfl
@[simp] theorem State.onCore_eccCorr (s : State) (n : Nat) (f : Core → Core) : (s.onCore n f).eccCorr = s.eccCorr := rfl
@[simp] theorem State.onCore_eccBad (s : State) (n : Nat) (f : Core → Core) : (s.onCore n f).eccBad = s.eccBad := rfl
@[simp] theorem State.onCore_frames (s : State) (n : Nat) (f : Core → Core) : (s.onCore n f).frames = s.frames := rfl
@[simp] theorem State.onCore_clusters (s : State) (n : Nat) (f : Core → Core) : (s.onCore n f).clusters = s.clusters := rfl
@[simp] theorem State.onCore_engines (s : State) (n : Nat) (f : Core → Core) : (s.onCore n f).engines = s.engines := rfl
@[simp] theorem State.onCore_ports (s : State) (n : Nat) (f : Core → Core) : (s.onCore n f).ports = s.ports := rfl
@[simp] theorem State.onCore_links (s : State) (n : Nat) (f : Core → Core) : (s.onCore n f).links = s.links := rfl
@[simp] theorem State.onCore_routes (s : State) (n : Nat) (f : Core → Core) : (s.onCore n f).routes = s.routes := rfl
@[simp] theorem State.onCore_routeNext (s : State) (n : Nat) (f : Core → Core) : (s.onCore n f).routeNext = s.routeNext := rfl
@[simp] theorem State.onCore_self (s : State) (n : Nat) (f : Core → Core) : (s.onCore n f).self = s.self := rfl
@[simp] theorem State.onCore_ilv (s : State) (n : Nat) (f : Core → Core) : (s.onCore n f).ilv = s.ilv := rfl
@[simp] theorem State.onCore_cap (s : State) (n : Nat) (f : Core → Core) : (s.onCore n f).cap = s.cap := rfl
@[simp] theorem State.onCore_walkErrMode (s : State) (n : Nat) (f : Core → Core) : (s.onCore n f).walkErrMode = s.walkErrMode := rfl
@[simp] theorem State.onCore_rel10 (s : State) (n : Nat) (f : Core → Core) : (s.onCore n f).rel10 = s.rel10 := rfl
@[simp] theorem State.onCore_packets (s : State) (n : Nat) (f : Core → Core) : (s.onCore n f).packets = s.packets := rfl
@[simp] theorem State.onCore_responses (s : State) (n : Nat) (f : Core → Core) : (s.onCore n f).responses = s.responses := rfl
@[simp] theorem State.onCore_addends (s : State) (n : Nat) (f : Core → Core) : (s.onCore n f).addends = s.addends := rfl
@[simp] theorem State.onCore_refused (s : State) (n : Nat) (f : Core → Core) : (s.onCore n f).refused = s.refused := rfl
@[simp] theorem State.onCore_lost (s : State) (n : Nat) (f : Core → Core) : (s.onCore n f).lost = s.lost := rfl
@[simp] theorem State.onCore_domstat (s : State) (n : Nat) (f : Core → Core) : (s.onCore n f).domstat = s.domstat := rfl
@[simp] theorem State.onCore_images (s : State) (n : Nat) (f : Core → Core) : (s.onCore n f).images = s.images := rfl
@[simp] theorem State.onCore_keyHash (s : State) (n : Nat) (f : Core → Core) : (s.onCore n f).keyHash = s.keyHash := rfl
@[simp] theorem State.onCore_mps (s : State) (n : Nat) (f : Core → Core) : (s.onCore n f).mps = s.mps := rfl
@[simp] theorem State.onCore_mail (s : State) (n : Nat) (f : Core → Core) : (s.onCore n f).mail = s.mail := rfl
@[simp] theorem State.onCore_beat (s : State) (n : Nat) (f : Core → Core) : (s.onCore n f).beat = s.beat := rfl
@[simp] theorem State.onCore_power (s : State) (n : Nat) (f : Core → Core) : (s.onCore n f).power = s.power := rfl
@[simp] theorem State.onCore_drain (s : State) (n : Nat) (f : Core → Core) : (s.onCore n f).drain = s.drain := rfl
@[simp] theorem State.onCore_jobs (s : State) (n : Nat) (f : Core → Core) : (s.onCore n f).jobs = s.jobs := rfl
@[simp] theorem State.onCore_digest (s : State) (n : Nat) (f : Core → Core) : (s.onCore n f).digest = s.digest := rfl
@[simp] theorem State.onCore_start (s : State) (n : Nat) (f : Core → Core) : (s.onCore n f).start = s.start := rfl
@[simp] theorem State.onCore_testEn (s : State) (n : Nat) (f : Core → Core) : (s.onCore n f).testEn = s.testEn := rfl
@[simp] theorem State.onCore_log (s : State) (n : Nat) (f : Core → Core) : (s.onCore n f).log = s.log := rfl
@[simp] theorem State.onCore_logNext (s : State) (n : Nat) (f : Core → Core) : (s.onCore n f).logNext = s.logNext := rfl
@[simp] theorem State.onCore_history (s : State) (n : Nat) (f : Core → Core) : (s.onCore n f).history = s.history := rfl
@[simp] theorem State.onCore_permanent (s : State) (n : Nat) (f : Core → Core) : (s.onCore n f).permanent = s.permanent := rfl
@[simp] theorem State.onCore_correctable (s : State) (n : Nat) (f : Core → Core) : (s.onCore n f).correctable = s.correctable := rfl
@[simp] theorem State.onCore_powered (s : State) (n : Nat) (f : Core → Core) : (s.onCore n f).powered = s.powered := rfl
@[simp] theorem State.onCore_sessions (s : State) (n : Nat) (f : Core → Core) : (s.onCore n f).sessions = s.sessions := rfl
@[simp] theorem State.onCore_flash (s : State) (n : Nat) (f : Core → Core) : (s.onCore n f).flash = s.flash := rfl
@[simp] theorem State.onCore_fuses (s : State) (n : Nat) (f : Core → Core) : (s.onCore n f).fuses = s.fuses := rfl
@[simp] theorem State.onCore_flashPort (s : State) (n : Nat) (f : Core → Core) : (s.onCore n f).flashPort = s.flashPort := rfl
@[simp] theorem State.onCore_i3c (s : State) (n : Nat) (f : Core → Core) : (s.onCore n f).i3c = s.i3c := rfl
@[simp] theorem State.onCore_tap (s : State) (n : Nat) (f : Core → Core) : (s.onCore n f).tap = s.tap := rfl

/-! `State.setCase` -/
@[simp] theorem State.setCase_pending (s : State) (n k : Nat) (c : Casement) : (s.setCase n k c).pending = s.pending := rfl
@[simp] theorem State.setCase_resetLow (s : State) (n k : Nat) (c : Casement) : (s.setCase n k c).resetLow = s.resetLow := rfl
@[simp] theorem State.setCase_resetPin (s : State) (n k : Nat) (c : Casement) : (s.setCase n k c).resetPin = s.resetPin := rfl
@[simp] theorem State.setCase_unpowered (s : State) (n k : Nat) (c : Casement) : (s.setCase n k c).unpowered = s.unpowered := rfl
@[simp] theorem State.setCase_work (s : State) (n k : Nat) (c : Casement) : (s.setCase n k c).work = s.work := rfl
@[simp] theorem State.setCase_supplyHold (s : State) (n k : Nat) (c : Casement) : (s.setCase n k c).supplyHold = s.supplyHold := rfl
@[simp] theorem State.setCase_clkLoss (s : State) (n k : Nat) (c : Casement) : (s.setCase n k c).clkLoss = s.clkLoss := rfl
@[simp] theorem State.setCase_now (s : State) (n k : Nat) (c : Casement) : (s.setCase n k c).now = s.now := rfl
@[simp] theorem State.setCase_free (s : State) (n k : Nat) (c : Casement) : (s.setCase n k c).free = s.free := rfl
@[simp] theorem State.setCase_nextId (s : State) (n k : Nat) (c : Casement) : (s.setCase n k c).nextId = s.nextId := rfl
@[simp] theorem State.setCase_mem (s : State) (n k : Nat) (c : Casement) : (s.setCase n k c).mem = s.mem := rfl
@[simp] theorem State.setCase_poison (s : State) (n k : Nat) (c : Casement) : (s.setCase n k c).poison = s.poison := rfl
@[simp] theorem State.setCase_tags (s : State) (n k : Nat) (c : Casement) : (s.setCase n k c).tags = s.tags := rfl
@[simp] theorem State.setCase_eccCorr (s : State) (n k : Nat) (c : Casement) : (s.setCase n k c).eccCorr = s.eccCorr := rfl
@[simp] theorem State.setCase_eccBad (s : State) (n k : Nat) (c : Casement) : (s.setCase n k c).eccBad = s.eccBad := rfl
@[simp] theorem State.setCase_frames (s : State) (n k : Nat) (c : Casement) : (s.setCase n k c).frames = s.frames := rfl
@[simp] theorem State.setCase_clusters (s : State) (n k : Nat) (c : Casement) : (s.setCase n k c).clusters = s.clusters := rfl
@[simp] theorem State.setCase_engines (s : State) (n k : Nat) (c : Casement) : (s.setCase n k c).engines = s.engines := rfl
@[simp] theorem State.setCase_ports (s : State) (n k : Nat) (c : Casement) : (s.setCase n k c).ports = s.ports := rfl
@[simp] theorem State.setCase_links (s : State) (n k : Nat) (c : Casement) : (s.setCase n k c).links = s.links := rfl
@[simp] theorem State.setCase_routes (s : State) (n k : Nat) (c : Casement) : (s.setCase n k c).routes = s.routes := rfl
@[simp] theorem State.setCase_routeNext (s : State) (n k : Nat) (c : Casement) : (s.setCase n k c).routeNext = s.routeNext := rfl
@[simp] theorem State.setCase_self (s : State) (n k : Nat) (c : Casement) : (s.setCase n k c).self = s.self := rfl
@[simp] theorem State.setCase_ilv (s : State) (n k : Nat) (c : Casement) : (s.setCase n k c).ilv = s.ilv := rfl
@[simp] theorem State.setCase_cap (s : State) (n k : Nat) (c : Casement) : (s.setCase n k c).cap = s.cap := rfl
@[simp] theorem State.setCase_walkErrMode (s : State) (n k : Nat) (c : Casement) : (s.setCase n k c).walkErrMode = s.walkErrMode := rfl
@[simp] theorem State.setCase_rel10 (s : State) (n k : Nat) (c : Casement) : (s.setCase n k c).rel10 = s.rel10 := rfl
@[simp] theorem State.setCase_packets (s : State) (n k : Nat) (c : Casement) : (s.setCase n k c).packets = s.packets := rfl
@[simp] theorem State.setCase_responses (s : State) (n k : Nat) (c : Casement) : (s.setCase n k c).responses = s.responses := rfl
@[simp] theorem State.setCase_addends (s : State) (n k : Nat) (c : Casement) : (s.setCase n k c).addends = s.addends := rfl
@[simp] theorem State.setCase_refused (s : State) (n k : Nat) (c : Casement) : (s.setCase n k c).refused = s.refused := rfl
@[simp] theorem State.setCase_lost (s : State) (n k : Nat) (c : Casement) : (s.setCase n k c).lost = s.lost := rfl
@[simp] theorem State.setCase_domstat (s : State) (n k : Nat) (c : Casement) : (s.setCase n k c).domstat = s.domstat := rfl
@[simp] theorem State.setCase_images (s : State) (n k : Nat) (c : Casement) : (s.setCase n k c).images = s.images := rfl
@[simp] theorem State.setCase_keyHash (s : State) (n k : Nat) (c : Casement) : (s.setCase n k c).keyHash = s.keyHash := rfl
@[simp] theorem State.setCase_mps (s : State) (n k : Nat) (c : Casement) : (s.setCase n k c).mps = s.mps := rfl
@[simp] theorem State.setCase_mail (s : State) (n k : Nat) (c : Casement) : (s.setCase n k c).mail = s.mail := rfl
@[simp] theorem State.setCase_beat (s : State) (n k : Nat) (c : Casement) : (s.setCase n k c).beat = s.beat := rfl
@[simp] theorem State.setCase_power (s : State) (n k : Nat) (c : Casement) : (s.setCase n k c).power = s.power := rfl
@[simp] theorem State.setCase_drain (s : State) (n k : Nat) (c : Casement) : (s.setCase n k c).drain = s.drain := rfl
@[simp] theorem State.setCase_jobs (s : State) (n k : Nat) (c : Casement) : (s.setCase n k c).jobs = s.jobs := rfl
@[simp] theorem State.setCase_digest (s : State) (n k : Nat) (c : Casement) : (s.setCase n k c).digest = s.digest := rfl
@[simp] theorem State.setCase_start (s : State) (n k : Nat) (c : Casement) : (s.setCase n k c).start = s.start := rfl
@[simp] theorem State.setCase_testEn (s : State) (n k : Nat) (c : Casement) : (s.setCase n k c).testEn = s.testEn := rfl
@[simp] theorem State.setCase_log (s : State) (n k : Nat) (c : Casement) : (s.setCase n k c).log = s.log := rfl
@[simp] theorem State.setCase_logNext (s : State) (n k : Nat) (c : Casement) : (s.setCase n k c).logNext = s.logNext := rfl
@[simp] theorem State.setCase_history (s : State) (n k : Nat) (c : Casement) : (s.setCase n k c).history = s.history := rfl
@[simp] theorem State.setCase_permanent (s : State) (n k : Nat) (c : Casement) : (s.setCase n k c).permanent = s.permanent := rfl
@[simp] theorem State.setCase_correctable (s : State) (n k : Nat) (c : Casement) : (s.setCase n k c).correctable = s.correctable := rfl
@[simp] theorem State.setCase_powered (s : State) (n k : Nat) (c : Casement) : (s.setCase n k c).powered = s.powered := rfl
@[simp] theorem State.setCase_sessions (s : State) (n k : Nat) (c : Casement) : (s.setCase n k c).sessions = s.sessions := rfl
@[simp] theorem State.setCase_flash (s : State) (n k : Nat) (c : Casement) : (s.setCase n k c).flash = s.flash := rfl
@[simp] theorem State.setCase_fuses (s : State) (n k : Nat) (c : Casement) : (s.setCase n k c).fuses = s.fuses := rfl
@[simp] theorem State.setCase_flashPort (s : State) (n k : Nat) (c : Casement) : (s.setCase n k c).flashPort = s.flashPort := rfl
@[simp] theorem State.setCase_i3c (s : State) (n k : Nat) (c : Casement) : (s.setCase n k c).i3c = s.i3c := rfl
@[simp] theorem State.setCase_tap (s : State) (n k : Nat) (c : Casement) : (s.setCase n k c).tap = s.tap := rfl

/-! `State.onCase` -/
@[simp] theorem State.onCase_pending (s : State) (n k : Nat) (f : Casement → Casement) : (s.onCase n k f).pending = s.pending := rfl
@[simp] theorem State.onCase_resetLow (s : State) (n k : Nat) (f : Casement → Casement) : (s.onCase n k f).resetLow = s.resetLow := rfl
@[simp] theorem State.onCase_resetPin (s : State) (n k : Nat) (f : Casement → Casement) : (s.onCase n k f).resetPin = s.resetPin := rfl
@[simp] theorem State.onCase_unpowered (s : State) (n k : Nat) (f : Casement → Casement) : (s.onCase n k f).unpowered = s.unpowered := rfl
@[simp] theorem State.onCase_work (s : State) (n k : Nat) (f : Casement → Casement) : (s.onCase n k f).work = s.work := rfl
@[simp] theorem State.onCase_supplyHold (s : State) (n k : Nat) (f : Casement → Casement) : (s.onCase n k f).supplyHold = s.supplyHold := rfl
@[simp] theorem State.onCase_clkLoss (s : State) (n k : Nat) (f : Casement → Casement) : (s.onCase n k f).clkLoss = s.clkLoss := rfl
@[simp] theorem State.onCase_now (s : State) (n k : Nat) (f : Casement → Casement) : (s.onCase n k f).now = s.now := rfl
@[simp] theorem State.onCase_free (s : State) (n k : Nat) (f : Casement → Casement) : (s.onCase n k f).free = s.free := rfl
@[simp] theorem State.onCase_nextId (s : State) (n k : Nat) (f : Casement → Casement) : (s.onCase n k f).nextId = s.nextId := rfl
@[simp] theorem State.onCase_mem (s : State) (n k : Nat) (f : Casement → Casement) : (s.onCase n k f).mem = s.mem := rfl
@[simp] theorem State.onCase_poison (s : State) (n k : Nat) (f : Casement → Casement) : (s.onCase n k f).poison = s.poison := rfl
@[simp] theorem State.onCase_tags (s : State) (n k : Nat) (f : Casement → Casement) : (s.onCase n k f).tags = s.tags := rfl
@[simp] theorem State.onCase_eccCorr (s : State) (n k : Nat) (f : Casement → Casement) : (s.onCase n k f).eccCorr = s.eccCorr := rfl
@[simp] theorem State.onCase_eccBad (s : State) (n k : Nat) (f : Casement → Casement) : (s.onCase n k f).eccBad = s.eccBad := rfl
@[simp] theorem State.onCase_frames (s : State) (n k : Nat) (f : Casement → Casement) : (s.onCase n k f).frames = s.frames := rfl
@[simp] theorem State.onCase_clusters (s : State) (n k : Nat) (f : Casement → Casement) : (s.onCase n k f).clusters = s.clusters := rfl
@[simp] theorem State.onCase_engines (s : State) (n k : Nat) (f : Casement → Casement) : (s.onCase n k f).engines = s.engines := rfl
@[simp] theorem State.onCase_ports (s : State) (n k : Nat) (f : Casement → Casement) : (s.onCase n k f).ports = s.ports := rfl
@[simp] theorem State.onCase_links (s : State) (n k : Nat) (f : Casement → Casement) : (s.onCase n k f).links = s.links := rfl
@[simp] theorem State.onCase_routes (s : State) (n k : Nat) (f : Casement → Casement) : (s.onCase n k f).routes = s.routes := rfl
@[simp] theorem State.onCase_routeNext (s : State) (n k : Nat) (f : Casement → Casement) : (s.onCase n k f).routeNext = s.routeNext := rfl
@[simp] theorem State.onCase_self (s : State) (n k : Nat) (f : Casement → Casement) : (s.onCase n k f).self = s.self := rfl
@[simp] theorem State.onCase_ilv (s : State) (n k : Nat) (f : Casement → Casement) : (s.onCase n k f).ilv = s.ilv := rfl
@[simp] theorem State.onCase_cap (s : State) (n k : Nat) (f : Casement → Casement) : (s.onCase n k f).cap = s.cap := rfl
@[simp] theorem State.onCase_walkErrMode (s : State) (n k : Nat) (f : Casement → Casement) : (s.onCase n k f).walkErrMode = s.walkErrMode := rfl
@[simp] theorem State.onCase_rel10 (s : State) (n k : Nat) (f : Casement → Casement) : (s.onCase n k f).rel10 = s.rel10 := rfl
@[simp] theorem State.onCase_packets (s : State) (n k : Nat) (f : Casement → Casement) : (s.onCase n k f).packets = s.packets := rfl
@[simp] theorem State.onCase_responses (s : State) (n k : Nat) (f : Casement → Casement) : (s.onCase n k f).responses = s.responses := rfl
@[simp] theorem State.onCase_addends (s : State) (n k : Nat) (f : Casement → Casement) : (s.onCase n k f).addends = s.addends := rfl
@[simp] theorem State.onCase_refused (s : State) (n k : Nat) (f : Casement → Casement) : (s.onCase n k f).refused = s.refused := rfl
@[simp] theorem State.onCase_lost (s : State) (n k : Nat) (f : Casement → Casement) : (s.onCase n k f).lost = s.lost := rfl
@[simp] theorem State.onCase_domstat (s : State) (n k : Nat) (f : Casement → Casement) : (s.onCase n k f).domstat = s.domstat := rfl
@[simp] theorem State.onCase_images (s : State) (n k : Nat) (f : Casement → Casement) : (s.onCase n k f).images = s.images := rfl
@[simp] theorem State.onCase_keyHash (s : State) (n k : Nat) (f : Casement → Casement) : (s.onCase n k f).keyHash = s.keyHash := rfl
@[simp] theorem State.onCase_mps (s : State) (n k : Nat) (f : Casement → Casement) : (s.onCase n k f).mps = s.mps := rfl
@[simp] theorem State.onCase_mail (s : State) (n k : Nat) (f : Casement → Casement) : (s.onCase n k f).mail = s.mail := rfl
@[simp] theorem State.onCase_beat (s : State) (n k : Nat) (f : Casement → Casement) : (s.onCase n k f).beat = s.beat := rfl
@[simp] theorem State.onCase_power (s : State) (n k : Nat) (f : Casement → Casement) : (s.onCase n k f).power = s.power := rfl
@[simp] theorem State.onCase_drain (s : State) (n k : Nat) (f : Casement → Casement) : (s.onCase n k f).drain = s.drain := rfl
@[simp] theorem State.onCase_jobs (s : State) (n k : Nat) (f : Casement → Casement) : (s.onCase n k f).jobs = s.jobs := rfl
@[simp] theorem State.onCase_digest (s : State) (n k : Nat) (f : Casement → Casement) : (s.onCase n k f).digest = s.digest := rfl
@[simp] theorem State.onCase_start (s : State) (n k : Nat) (f : Casement → Casement) : (s.onCase n k f).start = s.start := rfl
@[simp] theorem State.onCase_testEn (s : State) (n k : Nat) (f : Casement → Casement) : (s.onCase n k f).testEn = s.testEn := rfl
@[simp] theorem State.onCase_log (s : State) (n k : Nat) (f : Casement → Casement) : (s.onCase n k f).log = s.log := rfl
@[simp] theorem State.onCase_logNext (s : State) (n k : Nat) (f : Casement → Casement) : (s.onCase n k f).logNext = s.logNext := rfl
@[simp] theorem State.onCase_history (s : State) (n k : Nat) (f : Casement → Casement) : (s.onCase n k f).history = s.history := rfl
@[simp] theorem State.onCase_permanent (s : State) (n k : Nat) (f : Casement → Casement) : (s.onCase n k f).permanent = s.permanent := rfl
@[simp] theorem State.onCase_correctable (s : State) (n k : Nat) (f : Casement → Casement) : (s.onCase n k f).correctable = s.correctable := rfl
@[simp] theorem State.onCase_powered (s : State) (n k : Nat) (f : Casement → Casement) : (s.onCase n k f).powered = s.powered := rfl
@[simp] theorem State.onCase_sessions (s : State) (n k : Nat) (f : Casement → Casement) : (s.onCase n k f).sessions = s.sessions := rfl
@[simp] theorem State.onCase_flash (s : State) (n k : Nat) (f : Casement → Casement) : (s.onCase n k f).flash = s.flash := rfl
@[simp] theorem State.onCase_fuses (s : State) (n k : Nat) (f : Casement → Casement) : (s.onCase n k f).fuses = s.fuses := rfl
@[simp] theorem State.onCase_flashPort (s : State) (n k : Nat) (f : Casement → Casement) : (s.onCase n k f).flashPort = s.flashPort := rfl
@[simp] theorem State.onCase_i3c (s : State) (n k : Nat) (f : Casement → Casement) : (s.onCase n k f).i3c = s.i3c := rfl
@[simp] theorem State.onCase_tap (s : State) (n k : Nat) (f : Casement → Casement) : (s.onCase n k f).tap = s.tap := rfl

/-! `State.onCluster` -/
@[simp] theorem State.onCluster_pending (s : State) (c : Nat) (f : Cluster → Cluster) : (s.onCluster c f).pending = s.pending := rfl
@[simp] theorem State.onCluster_resetLow (s : State) (c : Nat) (f : Cluster → Cluster) : (s.onCluster c f).resetLow = s.resetLow := rfl
@[simp] theorem State.onCluster_resetPin (s : State) (c : Nat) (f : Cluster → Cluster) : (s.onCluster c f).resetPin = s.resetPin := rfl
@[simp] theorem State.onCluster_unpowered (s : State) (c : Nat) (f : Cluster → Cluster) : (s.onCluster c f).unpowered = s.unpowered := rfl
@[simp] theorem State.onCluster_work (s : State) (c : Nat) (f : Cluster → Cluster) : (s.onCluster c f).work = s.work := rfl
@[simp] theorem State.onCluster_supplyHold (s : State) (c : Nat) (f : Cluster → Cluster) : (s.onCluster c f).supplyHold = s.supplyHold := rfl
@[simp] theorem State.onCluster_clkLoss (s : State) (c : Nat) (f : Cluster → Cluster) : (s.onCluster c f).clkLoss = s.clkLoss := rfl
@[simp] theorem State.onCluster_now (s : State) (c : Nat) (f : Cluster → Cluster) : (s.onCluster c f).now = s.now := rfl
@[simp] theorem State.onCluster_free (s : State) (c : Nat) (f : Cluster → Cluster) : (s.onCluster c f).free = s.free := rfl
@[simp] theorem State.onCluster_nextId (s : State) (c : Nat) (f : Cluster → Cluster) : (s.onCluster c f).nextId = s.nextId := rfl
@[simp] theorem State.onCluster_mem (s : State) (c : Nat) (f : Cluster → Cluster) : (s.onCluster c f).mem = s.mem := rfl
@[simp] theorem State.onCluster_poison (s : State) (c : Nat) (f : Cluster → Cluster) : (s.onCluster c f).poison = s.poison := rfl
@[simp] theorem State.onCluster_tags (s : State) (c : Nat) (f : Cluster → Cluster) : (s.onCluster c f).tags = s.tags := rfl
@[simp] theorem State.onCluster_eccCorr (s : State) (c : Nat) (f : Cluster → Cluster) : (s.onCluster c f).eccCorr = s.eccCorr := rfl
@[simp] theorem State.onCluster_eccBad (s : State) (c : Nat) (f : Cluster → Cluster) : (s.onCluster c f).eccBad = s.eccBad := rfl
@[simp] theorem State.onCluster_frames (s : State) (c : Nat) (f : Cluster → Cluster) : (s.onCluster c f).frames = s.frames := rfl
@[simp] theorem State.onCluster_cores (s : State) (c : Nat) (f : Cluster → Cluster) : (s.onCluster c f).cores = s.cores := rfl
@[simp] theorem State.onCluster_engines (s : State) (c : Nat) (f : Cluster → Cluster) : (s.onCluster c f).engines = s.engines := rfl
@[simp] theorem State.onCluster_ports (s : State) (c : Nat) (f : Cluster → Cluster) : (s.onCluster c f).ports = s.ports := rfl
@[simp] theorem State.onCluster_links (s : State) (c : Nat) (f : Cluster → Cluster) : (s.onCluster c f).links = s.links := rfl
@[simp] theorem State.onCluster_routes (s : State) (c : Nat) (f : Cluster → Cluster) : (s.onCluster c f).routes = s.routes := rfl
@[simp] theorem State.onCluster_routeNext (s : State) (c : Nat) (f : Cluster → Cluster) : (s.onCluster c f).routeNext = s.routeNext := rfl
@[simp] theorem State.onCluster_self (s : State) (c : Nat) (f : Cluster → Cluster) : (s.onCluster c f).self = s.self := rfl
@[simp] theorem State.onCluster_ilv (s : State) (c : Nat) (f : Cluster → Cluster) : (s.onCluster c f).ilv = s.ilv := rfl
@[simp] theorem State.onCluster_cap (s : State) (c : Nat) (f : Cluster → Cluster) : (s.onCluster c f).cap = s.cap := rfl
@[simp] theorem State.onCluster_walkErrMode (s : State) (c : Nat) (f : Cluster → Cluster) : (s.onCluster c f).walkErrMode = s.walkErrMode := rfl
@[simp] theorem State.onCluster_rel10 (s : State) (c : Nat) (f : Cluster → Cluster) : (s.onCluster c f).rel10 = s.rel10 := rfl
@[simp] theorem State.onCluster_packets (s : State) (c : Nat) (f : Cluster → Cluster) : (s.onCluster c f).packets = s.packets := rfl
@[simp] theorem State.onCluster_responses (s : State) (c : Nat) (f : Cluster → Cluster) : (s.onCluster c f).responses = s.responses := rfl
@[simp] theorem State.onCluster_addends (s : State) (c : Nat) (f : Cluster → Cluster) : (s.onCluster c f).addends = s.addends := rfl
@[simp] theorem State.onCluster_refused (s : State) (c : Nat) (f : Cluster → Cluster) : (s.onCluster c f).refused = s.refused := rfl
@[simp] theorem State.onCluster_lost (s : State) (c : Nat) (f : Cluster → Cluster) : (s.onCluster c f).lost = s.lost := rfl
@[simp] theorem State.onCluster_domstat (s : State) (c : Nat) (f : Cluster → Cluster) : (s.onCluster c f).domstat = s.domstat := rfl
@[simp] theorem State.onCluster_images (s : State) (c : Nat) (f : Cluster → Cluster) : (s.onCluster c f).images = s.images := rfl
@[simp] theorem State.onCluster_keyHash (s : State) (c : Nat) (f : Cluster → Cluster) : (s.onCluster c f).keyHash = s.keyHash := rfl
@[simp] theorem State.onCluster_mps (s : State) (c : Nat) (f : Cluster → Cluster) : (s.onCluster c f).mps = s.mps := rfl
@[simp] theorem State.onCluster_mail (s : State) (c : Nat) (f : Cluster → Cluster) : (s.onCluster c f).mail = s.mail := rfl
@[simp] theorem State.onCluster_beat (s : State) (c : Nat) (f : Cluster → Cluster) : (s.onCluster c f).beat = s.beat := rfl
@[simp] theorem State.onCluster_power (s : State) (c : Nat) (f : Cluster → Cluster) : (s.onCluster c f).power = s.power := rfl
@[simp] theorem State.onCluster_drain (s : State) (c : Nat) (f : Cluster → Cluster) : (s.onCluster c f).drain = s.drain := rfl
@[simp] theorem State.onCluster_jobs (s : State) (c : Nat) (f : Cluster → Cluster) : (s.onCluster c f).jobs = s.jobs := rfl
@[simp] theorem State.onCluster_digest (s : State) (c : Nat) (f : Cluster → Cluster) : (s.onCluster c f).digest = s.digest := rfl
@[simp] theorem State.onCluster_start (s : State) (c : Nat) (f : Cluster → Cluster) : (s.onCluster c f).start = s.start := rfl
@[simp] theorem State.onCluster_testEn (s : State) (c : Nat) (f : Cluster → Cluster) : (s.onCluster c f).testEn = s.testEn := rfl
@[simp] theorem State.onCluster_log (s : State) (c : Nat) (f : Cluster → Cluster) : (s.onCluster c f).log = s.log := rfl
@[simp] theorem State.onCluster_logNext (s : State) (c : Nat) (f : Cluster → Cluster) : (s.onCluster c f).logNext = s.logNext := rfl
@[simp] theorem State.onCluster_history (s : State) (c : Nat) (f : Cluster → Cluster) : (s.onCluster c f).history = s.history := rfl
@[simp] theorem State.onCluster_permanent (s : State) (c : Nat) (f : Cluster → Cluster) : (s.onCluster c f).permanent = s.permanent := rfl
@[simp] theorem State.onCluster_correctable (s : State) (c : Nat) (f : Cluster → Cluster) : (s.onCluster c f).correctable = s.correctable := rfl
@[simp] theorem State.onCluster_powered (s : State) (c : Nat) (f : Cluster → Cluster) : (s.onCluster c f).powered = s.powered := rfl
@[simp] theorem State.onCluster_sessions (s : State) (c : Nat) (f : Cluster → Cluster) : (s.onCluster c f).sessions = s.sessions := rfl
@[simp] theorem State.onCluster_flash (s : State) (c : Nat) (f : Cluster → Cluster) : (s.onCluster c f).flash = s.flash := rfl
@[simp] theorem State.onCluster_fuses (s : State) (c : Nat) (f : Cluster → Cluster) : (s.onCluster c f).fuses = s.fuses := rfl
@[simp] theorem State.onCluster_flashPort (s : State) (c : Nat) (f : Cluster → Cluster) : (s.onCluster c f).flashPort = s.flashPort := rfl
@[simp] theorem State.onCluster_i3c (s : State) (c : Nat) (f : Cluster → Cluster) : (s.onCluster c f).i3c = s.i3c := rfl
@[simp] theorem State.onCluster_tap (s : State) (c : Nat) (f : Cluster → Cluster) : (s.onCluster c f).tap = s.tap := rfl

/-! `State.onPort` -/
@[simp] theorem State.onPort_pending (s : State) (p : Nat) (f : Stack → Stack) : (s.onPort p f).pending = s.pending := rfl
@[simp] theorem State.onPort_resetLow (s : State) (p : Nat) (f : Stack → Stack) : (s.onPort p f).resetLow = s.resetLow := rfl
@[simp] theorem State.onPort_resetPin (s : State) (p : Nat) (f : Stack → Stack) : (s.onPort p f).resetPin = s.resetPin := rfl
@[simp] theorem State.onPort_unpowered (s : State) (p : Nat) (f : Stack → Stack) : (s.onPort p f).unpowered = s.unpowered := rfl
@[simp] theorem State.onPort_work (s : State) (p : Nat) (f : Stack → Stack) : (s.onPort p f).work = s.work := rfl
@[simp] theorem State.onPort_supplyHold (s : State) (p : Nat) (f : Stack → Stack) : (s.onPort p f).supplyHold = s.supplyHold := rfl
@[simp] theorem State.onPort_clkLoss (s : State) (p : Nat) (f : Stack → Stack) : (s.onPort p f).clkLoss = s.clkLoss := rfl
@[simp] theorem State.onPort_now (s : State) (p : Nat) (f : Stack → Stack) : (s.onPort p f).now = s.now := rfl
@[simp] theorem State.onPort_free (s : State) (p : Nat) (f : Stack → Stack) : (s.onPort p f).free = s.free := rfl
@[simp] theorem State.onPort_nextId (s : State) (p : Nat) (f : Stack → Stack) : (s.onPort p f).nextId = s.nextId := rfl
@[simp] theorem State.onPort_mem (s : State) (p : Nat) (f : Stack → Stack) : (s.onPort p f).mem = s.mem := rfl
@[simp] theorem State.onPort_poison (s : State) (p : Nat) (f : Stack → Stack) : (s.onPort p f).poison = s.poison := rfl
@[simp] theorem State.onPort_tags (s : State) (p : Nat) (f : Stack → Stack) : (s.onPort p f).tags = s.tags := rfl
@[simp] theorem State.onPort_eccCorr (s : State) (p : Nat) (f : Stack → Stack) : (s.onPort p f).eccCorr = s.eccCorr := rfl
@[simp] theorem State.onPort_eccBad (s : State) (p : Nat) (f : Stack → Stack) : (s.onPort p f).eccBad = s.eccBad := rfl
@[simp] theorem State.onPort_frames (s : State) (p : Nat) (f : Stack → Stack) : (s.onPort p f).frames = s.frames := rfl
@[simp] theorem State.onPort_cores (s : State) (p : Nat) (f : Stack → Stack) : (s.onPort p f).cores = s.cores := rfl
@[simp] theorem State.onPort_clusters (s : State) (p : Nat) (f : Stack → Stack) : (s.onPort p f).clusters = s.clusters := rfl
@[simp] theorem State.onPort_engines (s : State) (p : Nat) (f : Stack → Stack) : (s.onPort p f).engines = s.engines := rfl
@[simp] theorem State.onPort_links (s : State) (p : Nat) (f : Stack → Stack) : (s.onPort p f).links = s.links := rfl
@[simp] theorem State.onPort_routes (s : State) (p : Nat) (f : Stack → Stack) : (s.onPort p f).routes = s.routes := rfl
@[simp] theorem State.onPort_routeNext (s : State) (p : Nat) (f : Stack → Stack) : (s.onPort p f).routeNext = s.routeNext := rfl
@[simp] theorem State.onPort_self (s : State) (p : Nat) (f : Stack → Stack) : (s.onPort p f).self = s.self := rfl
@[simp] theorem State.onPort_ilv (s : State) (p : Nat) (f : Stack → Stack) : (s.onPort p f).ilv = s.ilv := rfl
@[simp] theorem State.onPort_cap (s : State) (p : Nat) (f : Stack → Stack) : (s.onPort p f).cap = s.cap := rfl
@[simp] theorem State.onPort_walkErrMode (s : State) (p : Nat) (f : Stack → Stack) : (s.onPort p f).walkErrMode = s.walkErrMode := rfl
@[simp] theorem State.onPort_rel10 (s : State) (p : Nat) (f : Stack → Stack) : (s.onPort p f).rel10 = s.rel10 := rfl
@[simp] theorem State.onPort_packets (s : State) (p : Nat) (f : Stack → Stack) : (s.onPort p f).packets = s.packets := rfl
@[simp] theorem State.onPort_responses (s : State) (p : Nat) (f : Stack → Stack) : (s.onPort p f).responses = s.responses := rfl
@[simp] theorem State.onPort_addends (s : State) (p : Nat) (f : Stack → Stack) : (s.onPort p f).addends = s.addends := rfl
@[simp] theorem State.onPort_refused (s : State) (p : Nat) (f : Stack → Stack) : (s.onPort p f).refused = s.refused := rfl
@[simp] theorem State.onPort_lost (s : State) (p : Nat) (f : Stack → Stack) : (s.onPort p f).lost = s.lost := rfl
@[simp] theorem State.onPort_domstat (s : State) (p : Nat) (f : Stack → Stack) : (s.onPort p f).domstat = s.domstat := rfl
@[simp] theorem State.onPort_images (s : State) (p : Nat) (f : Stack → Stack) : (s.onPort p f).images = s.images := rfl
@[simp] theorem State.onPort_keyHash (s : State) (p : Nat) (f : Stack → Stack) : (s.onPort p f).keyHash = s.keyHash := rfl
@[simp] theorem State.onPort_mps (s : State) (p : Nat) (f : Stack → Stack) : (s.onPort p f).mps = s.mps := rfl
@[simp] theorem State.onPort_mail (s : State) (p : Nat) (f : Stack → Stack) : (s.onPort p f).mail = s.mail := rfl
@[simp] theorem State.onPort_beat (s : State) (p : Nat) (f : Stack → Stack) : (s.onPort p f).beat = s.beat := rfl
@[simp] theorem State.onPort_power (s : State) (p : Nat) (f : Stack → Stack) : (s.onPort p f).power = s.power := rfl
@[simp] theorem State.onPort_drain (s : State) (p : Nat) (f : Stack → Stack) : (s.onPort p f).drain = s.drain := rfl
@[simp] theorem State.onPort_jobs (s : State) (p : Nat) (f : Stack → Stack) : (s.onPort p f).jobs = s.jobs := rfl
@[simp] theorem State.onPort_digest (s : State) (p : Nat) (f : Stack → Stack) : (s.onPort p f).digest = s.digest := rfl
@[simp] theorem State.onPort_start (s : State) (p : Nat) (f : Stack → Stack) : (s.onPort p f).start = s.start := rfl
@[simp] theorem State.onPort_testEn (s : State) (p : Nat) (f : Stack → Stack) : (s.onPort p f).testEn = s.testEn := rfl
@[simp] theorem State.onPort_log (s : State) (p : Nat) (f : Stack → Stack) : (s.onPort p f).log = s.log := rfl
@[simp] theorem State.onPort_logNext (s : State) (p : Nat) (f : Stack → Stack) : (s.onPort p f).logNext = s.logNext := rfl
@[simp] theorem State.onPort_history (s : State) (p : Nat) (f : Stack → Stack) : (s.onPort p f).history = s.history := rfl
@[simp] theorem State.onPort_permanent (s : State) (p : Nat) (f : Stack → Stack) : (s.onPort p f).permanent = s.permanent := rfl
@[simp] theorem State.onPort_correctable (s : State) (p : Nat) (f : Stack → Stack) : (s.onPort p f).correctable = s.correctable := rfl
@[simp] theorem State.onPort_powered (s : State) (p : Nat) (f : Stack → Stack) : (s.onPort p f).powered = s.powered := rfl
@[simp] theorem State.onPort_sessions (s : State) (p : Nat) (f : Stack → Stack) : (s.onPort p f).sessions = s.sessions := rfl
@[simp] theorem State.onPort_flash (s : State) (p : Nat) (f : Stack → Stack) : (s.onPort p f).flash = s.flash := rfl
@[simp] theorem State.onPort_fuses (s : State) (p : Nat) (f : Stack → Stack) : (s.onPort p f).fuses = s.fuses := rfl
@[simp] theorem State.onPort_flashPort (s : State) (p : Nat) (f : Stack → Stack) : (s.onPort p f).flashPort = s.flashPort := rfl
@[simp] theorem State.onPort_i3c (s : State) (p : Nat) (f : Stack → Stack) : (s.onPort p f).i3c = s.i3c := rfl
@[simp] theorem State.onPort_tap (s : State) (p : Nat) (f : Stack → Stack) : (s.onPort p f).tap = s.tap := rfl

/-! `State.onLink` -/
@[simp] theorem State.onLink_pending (s : State) (m : Nat) (f : Link → Link) : (s.onLink m f).pending = s.pending := rfl
@[simp] theorem State.onLink_resetLow (s : State) (m : Nat) (f : Link → Link) : (s.onLink m f).resetLow = s.resetLow := rfl
@[simp] theorem State.onLink_resetPin (s : State) (m : Nat) (f : Link → Link) : (s.onLink m f).resetPin = s.resetPin := rfl
@[simp] theorem State.onLink_unpowered (s : State) (m : Nat) (f : Link → Link) : (s.onLink m f).unpowered = s.unpowered := rfl
@[simp] theorem State.onLink_work (s : State) (m : Nat) (f : Link → Link) : (s.onLink m f).work = s.work := rfl
@[simp] theorem State.onLink_supplyHold (s : State) (m : Nat) (f : Link → Link) : (s.onLink m f).supplyHold = s.supplyHold := rfl
@[simp] theorem State.onLink_clkLoss (s : State) (m : Nat) (f : Link → Link) : (s.onLink m f).clkLoss = s.clkLoss := rfl
@[simp] theorem State.onLink_now (s : State) (m : Nat) (f : Link → Link) : (s.onLink m f).now = s.now := rfl
@[simp] theorem State.onLink_free (s : State) (m : Nat) (f : Link → Link) : (s.onLink m f).free = s.free := rfl
@[simp] theorem State.onLink_nextId (s : State) (m : Nat) (f : Link → Link) : (s.onLink m f).nextId = s.nextId := rfl
@[simp] theorem State.onLink_mem (s : State) (m : Nat) (f : Link → Link) : (s.onLink m f).mem = s.mem := rfl
@[simp] theorem State.onLink_poison (s : State) (m : Nat) (f : Link → Link) : (s.onLink m f).poison = s.poison := rfl
@[simp] theorem State.onLink_tags (s : State) (m : Nat) (f : Link → Link) : (s.onLink m f).tags = s.tags := rfl
@[simp] theorem State.onLink_eccCorr (s : State) (m : Nat) (f : Link → Link) : (s.onLink m f).eccCorr = s.eccCorr := rfl
@[simp] theorem State.onLink_eccBad (s : State) (m : Nat) (f : Link → Link) : (s.onLink m f).eccBad = s.eccBad := rfl
@[simp] theorem State.onLink_frames (s : State) (m : Nat) (f : Link → Link) : (s.onLink m f).frames = s.frames := rfl
@[simp] theorem State.onLink_cores (s : State) (m : Nat) (f : Link → Link) : (s.onLink m f).cores = s.cores := rfl
@[simp] theorem State.onLink_clusters (s : State) (m : Nat) (f : Link → Link) : (s.onLink m f).clusters = s.clusters := rfl
@[simp] theorem State.onLink_engines (s : State) (m : Nat) (f : Link → Link) : (s.onLink m f).engines = s.engines := rfl
@[simp] theorem State.onLink_ports (s : State) (m : Nat) (f : Link → Link) : (s.onLink m f).ports = s.ports := rfl
@[simp] theorem State.onLink_routes (s : State) (m : Nat) (f : Link → Link) : (s.onLink m f).routes = s.routes := rfl
@[simp] theorem State.onLink_routeNext (s : State) (m : Nat) (f : Link → Link) : (s.onLink m f).routeNext = s.routeNext := rfl
@[simp] theorem State.onLink_self (s : State) (m : Nat) (f : Link → Link) : (s.onLink m f).self = s.self := rfl
@[simp] theorem State.onLink_ilv (s : State) (m : Nat) (f : Link → Link) : (s.onLink m f).ilv = s.ilv := rfl
@[simp] theorem State.onLink_cap (s : State) (m : Nat) (f : Link → Link) : (s.onLink m f).cap = s.cap := rfl
@[simp] theorem State.onLink_walkErrMode (s : State) (m : Nat) (f : Link → Link) : (s.onLink m f).walkErrMode = s.walkErrMode := rfl
@[simp] theorem State.onLink_rel10 (s : State) (m : Nat) (f : Link → Link) : (s.onLink m f).rel10 = s.rel10 := rfl
@[simp] theorem State.onLink_packets (s : State) (m : Nat) (f : Link → Link) : (s.onLink m f).packets = s.packets := rfl
@[simp] theorem State.onLink_responses (s : State) (m : Nat) (f : Link → Link) : (s.onLink m f).responses = s.responses := rfl
@[simp] theorem State.onLink_addends (s : State) (m : Nat) (f : Link → Link) : (s.onLink m f).addends = s.addends := rfl
@[simp] theorem State.onLink_refused (s : State) (m : Nat) (f : Link → Link) : (s.onLink m f).refused = s.refused := rfl
@[simp] theorem State.onLink_lost (s : State) (m : Nat) (f : Link → Link) : (s.onLink m f).lost = s.lost := rfl
@[simp] theorem State.onLink_domstat (s : State) (m : Nat) (f : Link → Link) : (s.onLink m f).domstat = s.domstat := rfl
@[simp] theorem State.onLink_images (s : State) (m : Nat) (f : Link → Link) : (s.onLink m f).images = s.images := rfl
@[simp] theorem State.onLink_keyHash (s : State) (m : Nat) (f : Link → Link) : (s.onLink m f).keyHash = s.keyHash := rfl
@[simp] theorem State.onLink_mps (s : State) (m : Nat) (f : Link → Link) : (s.onLink m f).mps = s.mps := rfl
@[simp] theorem State.onLink_mail (s : State) (m : Nat) (f : Link → Link) : (s.onLink m f).mail = s.mail := rfl
@[simp] theorem State.onLink_beat (s : State) (m : Nat) (f : Link → Link) : (s.onLink m f).beat = s.beat := rfl
@[simp] theorem State.onLink_power (s : State) (m : Nat) (f : Link → Link) : (s.onLink m f).power = s.power := rfl
@[simp] theorem State.onLink_drain (s : State) (m : Nat) (f : Link → Link) : (s.onLink m f).drain = s.drain := rfl
@[simp] theorem State.onLink_jobs (s : State) (m : Nat) (f : Link → Link) : (s.onLink m f).jobs = s.jobs := rfl
@[simp] theorem State.onLink_digest (s : State) (m : Nat) (f : Link → Link) : (s.onLink m f).digest = s.digest := rfl
@[simp] theorem State.onLink_start (s : State) (m : Nat) (f : Link → Link) : (s.onLink m f).start = s.start := rfl
@[simp] theorem State.onLink_testEn (s : State) (m : Nat) (f : Link → Link) : (s.onLink m f).testEn = s.testEn := rfl
@[simp] theorem State.onLink_log (s : State) (m : Nat) (f : Link → Link) : (s.onLink m f).log = s.log := rfl
@[simp] theorem State.onLink_logNext (s : State) (m : Nat) (f : Link → Link) : (s.onLink m f).logNext = s.logNext := rfl
@[simp] theorem State.onLink_history (s : State) (m : Nat) (f : Link → Link) : (s.onLink m f).history = s.history := rfl
@[simp] theorem State.onLink_permanent (s : State) (m : Nat) (f : Link → Link) : (s.onLink m f).permanent = s.permanent := rfl
@[simp] theorem State.onLink_correctable (s : State) (m : Nat) (f : Link → Link) : (s.onLink m f).correctable = s.correctable := rfl
@[simp] theorem State.onLink_powered (s : State) (m : Nat) (f : Link → Link) : (s.onLink m f).powered = s.powered := rfl
@[simp] theorem State.onLink_sessions (s : State) (m : Nat) (f : Link → Link) : (s.onLink m f).sessions = s.sessions := rfl
@[simp] theorem State.onLink_flash (s : State) (m : Nat) (f : Link → Link) : (s.onLink m f).flash = s.flash := rfl
@[simp] theorem State.onLink_fuses (s : State) (m : Nat) (f : Link → Link) : (s.onLink m f).fuses = s.fuses := rfl
@[simp] theorem State.onLink_flashPort (s : State) (m : Nat) (f : Link → Link) : (s.onLink m f).flashPort = s.flashPort := rfl
@[simp] theorem State.onLink_i3c (s : State) (m : Nat) (f : Link → Link) : (s.onLink m f).i3c = s.i3c := rfl
@[simp] theorem State.onLink_tap (s : State) (m : Nat) (f : Link → Link) : (s.onLink m f).tap = s.tap := rfl

/-! `State.onBox` -/
@[simp] theorem State.onBox_pending (s : State) (n : Nat) (f : Mailbox → Mailbox) : (s.onBox n f).pending = s.pending := rfl
@[simp] theorem State.onBox_resetLow (s : State) (n : Nat) (f : Mailbox → Mailbox) : (s.onBox n f).resetLow = s.resetLow := rfl
@[simp] theorem State.onBox_resetPin (s : State) (n : Nat) (f : Mailbox → Mailbox) : (s.onBox n f).resetPin = s.resetPin := rfl
@[simp] theorem State.onBox_unpowered (s : State) (n : Nat) (f : Mailbox → Mailbox) : (s.onBox n f).unpowered = s.unpowered := rfl
@[simp] theorem State.onBox_work (s : State) (n : Nat) (f : Mailbox → Mailbox) : (s.onBox n f).work = s.work := rfl
@[simp] theorem State.onBox_supplyHold (s : State) (n : Nat) (f : Mailbox → Mailbox) : (s.onBox n f).supplyHold = s.supplyHold := rfl
@[simp] theorem State.onBox_clkLoss (s : State) (n : Nat) (f : Mailbox → Mailbox) : (s.onBox n f).clkLoss = s.clkLoss := rfl
@[simp] theorem State.onBox_now (s : State) (n : Nat) (f : Mailbox → Mailbox) : (s.onBox n f).now = s.now := rfl
@[simp] theorem State.onBox_free (s : State) (n : Nat) (f : Mailbox → Mailbox) : (s.onBox n f).free = s.free := rfl
@[simp] theorem State.onBox_nextId (s : State) (n : Nat) (f : Mailbox → Mailbox) : (s.onBox n f).nextId = s.nextId := rfl
@[simp] theorem State.onBox_mem (s : State) (n : Nat) (f : Mailbox → Mailbox) : (s.onBox n f).mem = s.mem := rfl
@[simp] theorem State.onBox_poison (s : State) (n : Nat) (f : Mailbox → Mailbox) : (s.onBox n f).poison = s.poison := rfl
@[simp] theorem State.onBox_tags (s : State) (n : Nat) (f : Mailbox → Mailbox) : (s.onBox n f).tags = s.tags := rfl
@[simp] theorem State.onBox_eccCorr (s : State) (n : Nat) (f : Mailbox → Mailbox) : (s.onBox n f).eccCorr = s.eccCorr := rfl
@[simp] theorem State.onBox_eccBad (s : State) (n : Nat) (f : Mailbox → Mailbox) : (s.onBox n f).eccBad = s.eccBad := rfl
@[simp] theorem State.onBox_frames (s : State) (n : Nat) (f : Mailbox → Mailbox) : (s.onBox n f).frames = s.frames := rfl
@[simp] theorem State.onBox_cores (s : State) (n : Nat) (f : Mailbox → Mailbox) : (s.onBox n f).cores = s.cores := rfl
@[simp] theorem State.onBox_clusters (s : State) (n : Nat) (f : Mailbox → Mailbox) : (s.onBox n f).clusters = s.clusters := rfl
@[simp] theorem State.onBox_engines (s : State) (n : Nat) (f : Mailbox → Mailbox) : (s.onBox n f).engines = s.engines := rfl
@[simp] theorem State.onBox_ports (s : State) (n : Nat) (f : Mailbox → Mailbox) : (s.onBox n f).ports = s.ports := rfl
@[simp] theorem State.onBox_links (s : State) (n : Nat) (f : Mailbox → Mailbox) : (s.onBox n f).links = s.links := rfl
@[simp] theorem State.onBox_routes (s : State) (n : Nat) (f : Mailbox → Mailbox) : (s.onBox n f).routes = s.routes := rfl
@[simp] theorem State.onBox_routeNext (s : State) (n : Nat) (f : Mailbox → Mailbox) : (s.onBox n f).routeNext = s.routeNext := rfl
@[simp] theorem State.onBox_self (s : State) (n : Nat) (f : Mailbox → Mailbox) : (s.onBox n f).self = s.self := rfl
@[simp] theorem State.onBox_ilv (s : State) (n : Nat) (f : Mailbox → Mailbox) : (s.onBox n f).ilv = s.ilv := rfl
@[simp] theorem State.onBox_cap (s : State) (n : Nat) (f : Mailbox → Mailbox) : (s.onBox n f).cap = s.cap := rfl
@[simp] theorem State.onBox_walkErrMode (s : State) (n : Nat) (f : Mailbox → Mailbox) : (s.onBox n f).walkErrMode = s.walkErrMode := rfl
@[simp] theorem State.onBox_rel10 (s : State) (n : Nat) (f : Mailbox → Mailbox) : (s.onBox n f).rel10 = s.rel10 := rfl
@[simp] theorem State.onBox_packets (s : State) (n : Nat) (f : Mailbox → Mailbox) : (s.onBox n f).packets = s.packets := rfl
@[simp] theorem State.onBox_responses (s : State) (n : Nat) (f : Mailbox → Mailbox) : (s.onBox n f).responses = s.responses := rfl
@[simp] theorem State.onBox_addends (s : State) (n : Nat) (f : Mailbox → Mailbox) : (s.onBox n f).addends = s.addends := rfl
@[simp] theorem State.onBox_refused (s : State) (n : Nat) (f : Mailbox → Mailbox) : (s.onBox n f).refused = s.refused := rfl
@[simp] theorem State.onBox_lost (s : State) (n : Nat) (f : Mailbox → Mailbox) : (s.onBox n f).lost = s.lost := rfl
@[simp] theorem State.onBox_domstat (s : State) (n : Nat) (f : Mailbox → Mailbox) : (s.onBox n f).domstat = s.domstat := rfl
@[simp] theorem State.onBox_images (s : State) (n : Nat) (f : Mailbox → Mailbox) : (s.onBox n f).images = s.images := rfl
@[simp] theorem State.onBox_keyHash (s : State) (n : Nat) (f : Mailbox → Mailbox) : (s.onBox n f).keyHash = s.keyHash := rfl
@[simp] theorem State.onBox_mps (s : State) (n : Nat) (f : Mailbox → Mailbox) : (s.onBox n f).mps = s.mps := rfl
@[simp] theorem State.onBox_beat (s : State) (n : Nat) (f : Mailbox → Mailbox) : (s.onBox n f).beat = s.beat := rfl
@[simp] theorem State.onBox_power (s : State) (n : Nat) (f : Mailbox → Mailbox) : (s.onBox n f).power = s.power := rfl
@[simp] theorem State.onBox_drain (s : State) (n : Nat) (f : Mailbox → Mailbox) : (s.onBox n f).drain = s.drain := rfl
@[simp] theorem State.onBox_jobs (s : State) (n : Nat) (f : Mailbox → Mailbox) : (s.onBox n f).jobs = s.jobs := rfl
@[simp] theorem State.onBox_digest (s : State) (n : Nat) (f : Mailbox → Mailbox) : (s.onBox n f).digest = s.digest := rfl
@[simp] theorem State.onBox_start (s : State) (n : Nat) (f : Mailbox → Mailbox) : (s.onBox n f).start = s.start := rfl
@[simp] theorem State.onBox_testEn (s : State) (n : Nat) (f : Mailbox → Mailbox) : (s.onBox n f).testEn = s.testEn := rfl
@[simp] theorem State.onBox_log (s : State) (n : Nat) (f : Mailbox → Mailbox) : (s.onBox n f).log = s.log := rfl
@[simp] theorem State.onBox_logNext (s : State) (n : Nat) (f : Mailbox → Mailbox) : (s.onBox n f).logNext = s.logNext := rfl
@[simp] theorem State.onBox_history (s : State) (n : Nat) (f : Mailbox → Mailbox) : (s.onBox n f).history = s.history := rfl
@[simp] theorem State.onBox_permanent (s : State) (n : Nat) (f : Mailbox → Mailbox) : (s.onBox n f).permanent = s.permanent := rfl
@[simp] theorem State.onBox_correctable (s : State) (n : Nat) (f : Mailbox → Mailbox) : (s.onBox n f).correctable = s.correctable := rfl
@[simp] theorem State.onBox_powered (s : State) (n : Nat) (f : Mailbox → Mailbox) : (s.onBox n f).powered = s.powered := rfl
@[simp] theorem State.onBox_sessions (s : State) (n : Nat) (f : Mailbox → Mailbox) : (s.onBox n f).sessions = s.sessions := rfl
@[simp] theorem State.onBox_flash (s : State) (n : Nat) (f : Mailbox → Mailbox) : (s.onBox n f).flash = s.flash := rfl
@[simp] theorem State.onBox_fuses (s : State) (n : Nat) (f : Mailbox → Mailbox) : (s.onBox n f).fuses = s.fuses := rfl
@[simp] theorem State.onBox_flashPort (s : State) (n : Nat) (f : Mailbox → Mailbox) : (s.onBox n f).flashPort = s.flashPort := rfl
@[simp] theorem State.onBox_i3c (s : State) (n : Nat) (f : Mailbox → Mailbox) : (s.onBox n f).i3c = s.i3c := rfl
@[simp] theorem State.onBox_tap (s : State) (n : Nat) (f : Mailbox → Mailbox) : (s.onBox n f).tap = s.tap := rfl

/-! `State.onMp` -/
@[simp] theorem State.onMp_pending (s : State) (i : Nat) (f : Mp → Mp) : (s.onMp i f).pending = s.pending := rfl
@[simp] theorem State.onMp_resetLow (s : State) (i : Nat) (f : Mp → Mp) : (s.onMp i f).resetLow = s.resetLow := rfl
@[simp] theorem State.onMp_resetPin (s : State) (i : Nat) (f : Mp → Mp) : (s.onMp i f).resetPin = s.resetPin := rfl
@[simp] theorem State.onMp_unpowered (s : State) (i : Nat) (f : Mp → Mp) : (s.onMp i f).unpowered = s.unpowered := rfl
@[simp] theorem State.onMp_work (s : State) (i : Nat) (f : Mp → Mp) : (s.onMp i f).work = s.work := rfl
@[simp] theorem State.onMp_supplyHold (s : State) (i : Nat) (f : Mp → Mp) : (s.onMp i f).supplyHold = s.supplyHold := rfl
@[simp] theorem State.onMp_clkLoss (s : State) (i : Nat) (f : Mp → Mp) : (s.onMp i f).clkLoss = s.clkLoss := rfl
@[simp] theorem State.onMp_now (s : State) (i : Nat) (f : Mp → Mp) : (s.onMp i f).now = s.now := rfl
@[simp] theorem State.onMp_free (s : State) (i : Nat) (f : Mp → Mp) : (s.onMp i f).free = s.free := rfl
@[simp] theorem State.onMp_nextId (s : State) (i : Nat) (f : Mp → Mp) : (s.onMp i f).nextId = s.nextId := rfl
@[simp] theorem State.onMp_mem (s : State) (i : Nat) (f : Mp → Mp) : (s.onMp i f).mem = s.mem := rfl
@[simp] theorem State.onMp_poison (s : State) (i : Nat) (f : Mp → Mp) : (s.onMp i f).poison = s.poison := rfl
@[simp] theorem State.onMp_tags (s : State) (i : Nat) (f : Mp → Mp) : (s.onMp i f).tags = s.tags := rfl
@[simp] theorem State.onMp_eccCorr (s : State) (i : Nat) (f : Mp → Mp) : (s.onMp i f).eccCorr = s.eccCorr := rfl
@[simp] theorem State.onMp_eccBad (s : State) (i : Nat) (f : Mp → Mp) : (s.onMp i f).eccBad = s.eccBad := rfl
@[simp] theorem State.onMp_frames (s : State) (i : Nat) (f : Mp → Mp) : (s.onMp i f).frames = s.frames := rfl
@[simp] theorem State.onMp_cores (s : State) (i : Nat) (f : Mp → Mp) : (s.onMp i f).cores = s.cores := rfl
@[simp] theorem State.onMp_clusters (s : State) (i : Nat) (f : Mp → Mp) : (s.onMp i f).clusters = s.clusters := rfl
@[simp] theorem State.onMp_engines (s : State) (i : Nat) (f : Mp → Mp) : (s.onMp i f).engines = s.engines := rfl
@[simp] theorem State.onMp_ports (s : State) (i : Nat) (f : Mp → Mp) : (s.onMp i f).ports = s.ports := rfl
@[simp] theorem State.onMp_links (s : State) (i : Nat) (f : Mp → Mp) : (s.onMp i f).links = s.links := rfl
@[simp] theorem State.onMp_routes (s : State) (i : Nat) (f : Mp → Mp) : (s.onMp i f).routes = s.routes := rfl
@[simp] theorem State.onMp_routeNext (s : State) (i : Nat) (f : Mp → Mp) : (s.onMp i f).routeNext = s.routeNext := rfl
@[simp] theorem State.onMp_self (s : State) (i : Nat) (f : Mp → Mp) : (s.onMp i f).self = s.self := rfl
@[simp] theorem State.onMp_ilv (s : State) (i : Nat) (f : Mp → Mp) : (s.onMp i f).ilv = s.ilv := rfl
@[simp] theorem State.onMp_cap (s : State) (i : Nat) (f : Mp → Mp) : (s.onMp i f).cap = s.cap := rfl
@[simp] theorem State.onMp_walkErrMode (s : State) (i : Nat) (f : Mp → Mp) : (s.onMp i f).walkErrMode = s.walkErrMode := rfl
@[simp] theorem State.onMp_rel10 (s : State) (i : Nat) (f : Mp → Mp) : (s.onMp i f).rel10 = s.rel10 := rfl
@[simp] theorem State.onMp_packets (s : State) (i : Nat) (f : Mp → Mp) : (s.onMp i f).packets = s.packets := rfl
@[simp] theorem State.onMp_responses (s : State) (i : Nat) (f : Mp → Mp) : (s.onMp i f).responses = s.responses := rfl
@[simp] theorem State.onMp_addends (s : State) (i : Nat) (f : Mp → Mp) : (s.onMp i f).addends = s.addends := rfl
@[simp] theorem State.onMp_refused (s : State) (i : Nat) (f : Mp → Mp) : (s.onMp i f).refused = s.refused := rfl
@[simp] theorem State.onMp_lost (s : State) (i : Nat) (f : Mp → Mp) : (s.onMp i f).lost = s.lost := rfl
@[simp] theorem State.onMp_domstat (s : State) (i : Nat) (f : Mp → Mp) : (s.onMp i f).domstat = s.domstat := rfl
@[simp] theorem State.onMp_images (s : State) (i : Nat) (f : Mp → Mp) : (s.onMp i f).images = s.images := rfl
@[simp] theorem State.onMp_keyHash (s : State) (i : Nat) (f : Mp → Mp) : (s.onMp i f).keyHash = s.keyHash := rfl
@[simp] theorem State.onMp_mail (s : State) (i : Nat) (f : Mp → Mp) : (s.onMp i f).mail = s.mail := rfl
@[simp] theorem State.onMp_beat (s : State) (i : Nat) (f : Mp → Mp) : (s.onMp i f).beat = s.beat := rfl
@[simp] theorem State.onMp_power (s : State) (i : Nat) (f : Mp → Mp) : (s.onMp i f).power = s.power := rfl
@[simp] theorem State.onMp_drain (s : State) (i : Nat) (f : Mp → Mp) : (s.onMp i f).drain = s.drain := rfl
@[simp] theorem State.onMp_jobs (s : State) (i : Nat) (f : Mp → Mp) : (s.onMp i f).jobs = s.jobs := rfl
@[simp] theorem State.onMp_digest (s : State) (i : Nat) (f : Mp → Mp) : (s.onMp i f).digest = s.digest := rfl
@[simp] theorem State.onMp_start (s : State) (i : Nat) (f : Mp → Mp) : (s.onMp i f).start = s.start := rfl
@[simp] theorem State.onMp_testEn (s : State) (i : Nat) (f : Mp → Mp) : (s.onMp i f).testEn = s.testEn := rfl
@[simp] theorem State.onMp_log (s : State) (i : Nat) (f : Mp → Mp) : (s.onMp i f).log = s.log := rfl
@[simp] theorem State.onMp_logNext (s : State) (i : Nat) (f : Mp → Mp) : (s.onMp i f).logNext = s.logNext := rfl
@[simp] theorem State.onMp_history (s : State) (i : Nat) (f : Mp → Mp) : (s.onMp i f).history = s.history := rfl
@[simp] theorem State.onMp_permanent (s : State) (i : Nat) (f : Mp → Mp) : (s.onMp i f).permanent = s.permanent := rfl
@[simp] theorem State.onMp_correctable (s : State) (i : Nat) (f : Mp → Mp) : (s.onMp i f).correctable = s.correctable := rfl
@[simp] theorem State.onMp_powered (s : State) (i : Nat) (f : Mp → Mp) : (s.onMp i f).powered = s.powered := rfl
@[simp] theorem State.onMp_sessions (s : State) (i : Nat) (f : Mp → Mp) : (s.onMp i f).sessions = s.sessions := rfl
@[simp] theorem State.onMp_flash (s : State) (i : Nat) (f : Mp → Mp) : (s.onMp i f).flash = s.flash := rfl
@[simp] theorem State.onMp_fuses (s : State) (i : Nat) (f : Mp → Mp) : (s.onMp i f).fuses = s.fuses := rfl
@[simp] theorem State.onMp_flashPort (s : State) (i : Nat) (f : Mp → Mp) : (s.onMp i f).flashPort = s.flashPort := rfl
@[simp] theorem State.onMp_i3c (s : State) (i : Nat) (f : Mp → Mp) : (s.onMp i f).i3c = s.i3c := rfl
@[simp] theorem State.onMp_tap (s : State) (i : Nat) (f : Mp → Mp) : (s.onMp i f).tap = s.tap := rfl

/-! `State.setResult` -/
@[simp] theorem State.setResult_pending (s : State) (n : Nat) (r : Option (BitVec 8 × List Byte)) : (s.setResult n r).pending = s.pending := rfl
@[simp] theorem State.setResult_resetLow (s : State) (n : Nat) (r : Option (BitVec 8 × List Byte)) : (s.setResult n r).resetLow = s.resetLow := rfl
@[simp] theorem State.setResult_resetPin (s : State) (n : Nat) (r : Option (BitVec 8 × List Byte)) : (s.setResult n r).resetPin = s.resetPin := rfl
@[simp] theorem State.setResult_unpowered (s : State) (n : Nat) (r : Option (BitVec 8 × List Byte)) : (s.setResult n r).unpowered = s.unpowered := rfl
@[simp] theorem State.setResult_work (s : State) (n : Nat) (r : Option (BitVec 8 × List Byte)) : (s.setResult n r).work = s.work := rfl
@[simp] theorem State.setResult_supplyHold (s : State) (n : Nat) (r : Option (BitVec 8 × List Byte)) : (s.setResult n r).supplyHold = s.supplyHold := rfl
@[simp] theorem State.setResult_clkLoss (s : State) (n : Nat) (r : Option (BitVec 8 × List Byte)) : (s.setResult n r).clkLoss = s.clkLoss := rfl
@[simp] theorem State.setResult_now (s : State) (n : Nat) (r : Option (BitVec 8 × List Byte)) : (s.setResult n r).now = s.now := rfl
@[simp] theorem State.setResult_free (s : State) (n : Nat) (r : Option (BitVec 8 × List Byte)) : (s.setResult n r).free = s.free := rfl
@[simp] theorem State.setResult_nextId (s : State) (n : Nat) (r : Option (BitVec 8 × List Byte)) : (s.setResult n r).nextId = s.nextId := rfl
@[simp] theorem State.setResult_mem (s : State) (n : Nat) (r : Option (BitVec 8 × List Byte)) : (s.setResult n r).mem = s.mem := rfl
@[simp] theorem State.setResult_poison (s : State) (n : Nat) (r : Option (BitVec 8 × List Byte)) : (s.setResult n r).poison = s.poison := rfl
@[simp] theorem State.setResult_tags (s : State) (n : Nat) (r : Option (BitVec 8 × List Byte)) : (s.setResult n r).tags = s.tags := rfl
@[simp] theorem State.setResult_eccCorr (s : State) (n : Nat) (r : Option (BitVec 8 × List Byte)) : (s.setResult n r).eccCorr = s.eccCorr := rfl
@[simp] theorem State.setResult_eccBad (s : State) (n : Nat) (r : Option (BitVec 8 × List Byte)) : (s.setResult n r).eccBad = s.eccBad := rfl
@[simp] theorem State.setResult_frames (s : State) (n : Nat) (r : Option (BitVec 8 × List Byte)) : (s.setResult n r).frames = s.frames := rfl
@[simp] theorem State.setResult_cores (s : State) (n : Nat) (r : Option (BitVec 8 × List Byte)) : (s.setResult n r).cores = s.cores := rfl
@[simp] theorem State.setResult_clusters (s : State) (n : Nat) (r : Option (BitVec 8 × List Byte)) : (s.setResult n r).clusters = s.clusters := rfl
@[simp] theorem State.setResult_engines (s : State) (n : Nat) (r : Option (BitVec 8 × List Byte)) : (s.setResult n r).engines = s.engines := rfl
@[simp] theorem State.setResult_ports (s : State) (n : Nat) (r : Option (BitVec 8 × List Byte)) : (s.setResult n r).ports = s.ports := rfl
@[simp] theorem State.setResult_links (s : State) (n : Nat) (r : Option (BitVec 8 × List Byte)) : (s.setResult n r).links = s.links := rfl
@[simp] theorem State.setResult_routes (s : State) (n : Nat) (r : Option (BitVec 8 × List Byte)) : (s.setResult n r).routes = s.routes := rfl
@[simp] theorem State.setResult_routeNext (s : State) (n : Nat) (r : Option (BitVec 8 × List Byte)) : (s.setResult n r).routeNext = s.routeNext := rfl
@[simp] theorem State.setResult_self (s : State) (n : Nat) (r : Option (BitVec 8 × List Byte)) : (s.setResult n r).self = s.self := rfl
@[simp] theorem State.setResult_ilv (s : State) (n : Nat) (r : Option (BitVec 8 × List Byte)) : (s.setResult n r).ilv = s.ilv := rfl
@[simp] theorem State.setResult_cap (s : State) (n : Nat) (r : Option (BitVec 8 × List Byte)) : (s.setResult n r).cap = s.cap := rfl
@[simp] theorem State.setResult_walkErrMode (s : State) (n : Nat) (r : Option (BitVec 8 × List Byte)) : (s.setResult n r).walkErrMode = s.walkErrMode := rfl
@[simp] theorem State.setResult_rel10 (s : State) (n : Nat) (r : Option (BitVec 8 × List Byte)) : (s.setResult n r).rel10 = s.rel10 := rfl
@[simp] theorem State.setResult_packets (s : State) (n : Nat) (r : Option (BitVec 8 × List Byte)) : (s.setResult n r).packets = s.packets := rfl
@[simp] theorem State.setResult_responses (s : State) (n : Nat) (r : Option (BitVec 8 × List Byte)) : (s.setResult n r).responses = s.responses := rfl
@[simp] theorem State.setResult_addends (s : State) (n : Nat) (r : Option (BitVec 8 × List Byte)) : (s.setResult n r).addends = s.addends := rfl
@[simp] theorem State.setResult_refused (s : State) (n : Nat) (r : Option (BitVec 8 × List Byte)) : (s.setResult n r).refused = s.refused := rfl
@[simp] theorem State.setResult_lost (s : State) (n : Nat) (r : Option (BitVec 8 × List Byte)) : (s.setResult n r).lost = s.lost := rfl
@[simp] theorem State.setResult_domstat (s : State) (n : Nat) (r : Option (BitVec 8 × List Byte)) : (s.setResult n r).domstat = s.domstat := rfl
@[simp] theorem State.setResult_images (s : State) (n : Nat) (r : Option (BitVec 8 × List Byte)) : (s.setResult n r).images = s.images := rfl
@[simp] theorem State.setResult_keyHash (s : State) (n : Nat) (r : Option (BitVec 8 × List Byte)) : (s.setResult n r).keyHash = s.keyHash := rfl
@[simp] theorem State.setResult_mps (s : State) (n : Nat) (r : Option (BitVec 8 × List Byte)) : (s.setResult n r).mps = s.mps := rfl
@[simp] theorem State.setResult_beat (s : State) (n : Nat) (r : Option (BitVec 8 × List Byte)) : (s.setResult n r).beat = s.beat := rfl
@[simp] theorem State.setResult_power (s : State) (n : Nat) (r : Option (BitVec 8 × List Byte)) : (s.setResult n r).power = s.power := rfl
@[simp] theorem State.setResult_drain (s : State) (n : Nat) (r : Option (BitVec 8 × List Byte)) : (s.setResult n r).drain = s.drain := rfl
@[simp] theorem State.setResult_jobs (s : State) (n : Nat) (r : Option (BitVec 8 × List Byte)) : (s.setResult n r).jobs = s.jobs := rfl
@[simp] theorem State.setResult_digest (s : State) (n : Nat) (r : Option (BitVec 8 × List Byte)) : (s.setResult n r).digest = s.digest := rfl
@[simp] theorem State.setResult_start (s : State) (n : Nat) (r : Option (BitVec 8 × List Byte)) : (s.setResult n r).start = s.start := rfl
@[simp] theorem State.setResult_testEn (s : State) (n : Nat) (r : Option (BitVec 8 × List Byte)) : (s.setResult n r).testEn = s.testEn := rfl
@[simp] theorem State.setResult_log (s : State) (n : Nat) (r : Option (BitVec 8 × List Byte)) : (s.setResult n r).log = s.log := rfl
@[simp] theorem State.setResult_logNext (s : State) (n : Nat) (r : Option (BitVec 8 × List Byte)) : (s.setResult n r).logNext = s.logNext := rfl
@[simp] theorem State.setResult_history (s : State) (n : Nat) (r : Option (BitVec 8 × List Byte)) : (s.setResult n r).history = s.history := rfl
@[simp] theorem State.setResult_permanent (s : State) (n : Nat) (r : Option (BitVec 8 × List Byte)) : (s.setResult n r).permanent = s.permanent := rfl
@[simp] theorem State.setResult_correctable (s : State) (n : Nat) (r : Option (BitVec 8 × List Byte)) : (s.setResult n r).correctable = s.correctable := rfl
@[simp] theorem State.setResult_powered (s : State) (n : Nat) (r : Option (BitVec 8 × List Byte)) : (s.setResult n r).powered = s.powered := rfl
@[simp] theorem State.setResult_sessions (s : State) (n : Nat) (r : Option (BitVec 8 × List Byte)) : (s.setResult n r).sessions = s.sessions := rfl
@[simp] theorem State.setResult_flash (s : State) (n : Nat) (r : Option (BitVec 8 × List Byte)) : (s.setResult n r).flash = s.flash := rfl
@[simp] theorem State.setResult_fuses (s : State) (n : Nat) (r : Option (BitVec 8 × List Byte)) : (s.setResult n r).fuses = s.fuses := rfl
@[simp] theorem State.setResult_flashPort (s : State) (n : Nat) (r : Option (BitVec 8 × List Byte)) : (s.setResult n r).flashPort = s.flashPort := rfl
@[simp] theorem State.setResult_i3c (s : State) (n : Nat) (r : Option (BitVec 8 × List Byte)) : (s.setResult n r).i3c = s.i3c := rfl
@[simp] theorem State.setResult_tap (s : State) (n : Nat) (r : Option (BitVec 8 × List Byte)) : (s.setResult n r).tap = s.tap := rfl

/-! `State.addLog` -/
@[simp] theorem State.addLog_pending (s : State) (kind unit : Nat) (detail pc addr : Word) : (s.addLog kind unit detail pc addr).pending = s.pending := rfl
@[simp] theorem State.addLog_resetLow (s : State) (kind unit : Nat) (detail pc addr : Word) : (s.addLog kind unit detail pc addr).resetLow = s.resetLow := rfl
@[simp] theorem State.addLog_resetPin (s : State) (kind unit : Nat) (detail pc addr : Word) : (s.addLog kind unit detail pc addr).resetPin = s.resetPin := rfl
@[simp] theorem State.addLog_unpowered (s : State) (kind unit : Nat) (detail pc addr : Word) : (s.addLog kind unit detail pc addr).unpowered = s.unpowered := rfl
@[simp] theorem State.addLog_work (s : State) (kind unit : Nat) (detail pc addr : Word) : (s.addLog kind unit detail pc addr).work = s.work := rfl
@[simp] theorem State.addLog_supplyHold (s : State) (kind unit : Nat) (detail pc addr : Word) : (s.addLog kind unit detail pc addr).supplyHold = s.supplyHold := rfl
@[simp] theorem State.addLog_clkLoss (s : State) (kind unit : Nat) (detail pc addr : Word) : (s.addLog kind unit detail pc addr).clkLoss = s.clkLoss := rfl
@[simp] theorem State.addLog_now (s : State) (kind unit : Nat) (detail pc addr : Word) : (s.addLog kind unit detail pc addr).now = s.now := rfl
@[simp] theorem State.addLog_nextId (s : State) (kind unit : Nat) (detail pc addr : Word) : (s.addLog kind unit detail pc addr).nextId = s.nextId := rfl
@[simp] theorem State.addLog_mem (s : State) (kind unit : Nat) (detail pc addr : Word) : (s.addLog kind unit detail pc addr).mem = s.mem := rfl
@[simp] theorem State.addLog_poison (s : State) (kind unit : Nat) (detail pc addr : Word) : (s.addLog kind unit detail pc addr).poison = s.poison := rfl
@[simp] theorem State.addLog_tags (s : State) (kind unit : Nat) (detail pc addr : Word) : (s.addLog kind unit detail pc addr).tags = s.tags := rfl
@[simp] theorem State.addLog_eccCorr (s : State) (kind unit : Nat) (detail pc addr : Word) : (s.addLog kind unit detail pc addr).eccCorr = s.eccCorr := rfl
@[simp] theorem State.addLog_eccBad (s : State) (kind unit : Nat) (detail pc addr : Word) : (s.addLog kind unit detail pc addr).eccBad = s.eccBad := rfl
@[simp] theorem State.addLog_frames (s : State) (kind unit : Nat) (detail pc addr : Word) : (s.addLog kind unit detail pc addr).frames = s.frames := rfl
@[simp] theorem State.addLog_cores (s : State) (kind unit : Nat) (detail pc addr : Word) : (s.addLog kind unit detail pc addr).cores = s.cores := rfl
@[simp] theorem State.addLog_clusters (s : State) (kind unit : Nat) (detail pc addr : Word) : (s.addLog kind unit detail pc addr).clusters = s.clusters := rfl
@[simp] theorem State.addLog_engines (s : State) (kind unit : Nat) (detail pc addr : Word) : (s.addLog kind unit detail pc addr).engines = s.engines := rfl
@[simp] theorem State.addLog_ports (s : State) (kind unit : Nat) (detail pc addr : Word) : (s.addLog kind unit detail pc addr).ports = s.ports := rfl
@[simp] theorem State.addLog_links (s : State) (kind unit : Nat) (detail pc addr : Word) : (s.addLog kind unit detail pc addr).links = s.links := rfl
@[simp] theorem State.addLog_routes (s : State) (kind unit : Nat) (detail pc addr : Word) : (s.addLog kind unit detail pc addr).routes = s.routes := rfl
@[simp] theorem State.addLog_routeNext (s : State) (kind unit : Nat) (detail pc addr : Word) : (s.addLog kind unit detail pc addr).routeNext = s.routeNext := rfl
@[simp] theorem State.addLog_self (s : State) (kind unit : Nat) (detail pc addr : Word) : (s.addLog kind unit detail pc addr).self = s.self := rfl
@[simp] theorem State.addLog_ilv (s : State) (kind unit : Nat) (detail pc addr : Word) : (s.addLog kind unit detail pc addr).ilv = s.ilv := rfl
@[simp] theorem State.addLog_cap (s : State) (kind unit : Nat) (detail pc addr : Word) : (s.addLog kind unit detail pc addr).cap = s.cap := rfl
@[simp] theorem State.addLog_walkErrMode (s : State) (kind unit : Nat) (detail pc addr : Word) : (s.addLog kind unit detail pc addr).walkErrMode = s.walkErrMode := rfl
@[simp] theorem State.addLog_rel10 (s : State) (kind unit : Nat) (detail pc addr : Word) : (s.addLog kind unit detail pc addr).rel10 = s.rel10 := rfl
@[simp] theorem State.addLog_packets (s : State) (kind unit : Nat) (detail pc addr : Word) : (s.addLog kind unit detail pc addr).packets = s.packets := rfl
@[simp] theorem State.addLog_responses (s : State) (kind unit : Nat) (detail pc addr : Word) : (s.addLog kind unit detail pc addr).responses = s.responses := rfl
@[simp] theorem State.addLog_addends (s : State) (kind unit : Nat) (detail pc addr : Word) : (s.addLog kind unit detail pc addr).addends = s.addends := rfl
@[simp] theorem State.addLog_refused (s : State) (kind unit : Nat) (detail pc addr : Word) : (s.addLog kind unit detail pc addr).refused = s.refused := rfl
@[simp] theorem State.addLog_lost (s : State) (kind unit : Nat) (detail pc addr : Word) : (s.addLog kind unit detail pc addr).lost = s.lost := rfl
@[simp] theorem State.addLog_domstat (s : State) (kind unit : Nat) (detail pc addr : Word) : (s.addLog kind unit detail pc addr).domstat = s.domstat := rfl
@[simp] theorem State.addLog_images (s : State) (kind unit : Nat) (detail pc addr : Word) : (s.addLog kind unit detail pc addr).images = s.images := rfl
@[simp] theorem State.addLog_keyHash (s : State) (kind unit : Nat) (detail pc addr : Word) : (s.addLog kind unit detail pc addr).keyHash = s.keyHash := rfl
@[simp] theorem State.addLog_mps (s : State) (kind unit : Nat) (detail pc addr : Word) : (s.addLog kind unit detail pc addr).mps = s.mps := rfl
@[simp] theorem State.addLog_mail (s : State) (kind unit : Nat) (detail pc addr : Word) : (s.addLog kind unit detail pc addr).mail = s.mail := rfl
@[simp] theorem State.addLog_beat (s : State) (kind unit : Nat) (detail pc addr : Word) : (s.addLog kind unit detail pc addr).beat = s.beat := rfl
@[simp] theorem State.addLog_power (s : State) (kind unit : Nat) (detail pc addr : Word) : (s.addLog kind unit detail pc addr).power = s.power := rfl
@[simp] theorem State.addLog_drain (s : State) (kind unit : Nat) (detail pc addr : Word) : (s.addLog kind unit detail pc addr).drain = s.drain := rfl
@[simp] theorem State.addLog_jobs (s : State) (kind unit : Nat) (detail pc addr : Word) : (s.addLog kind unit detail pc addr).jobs = s.jobs := rfl
@[simp] theorem State.addLog_digest (s : State) (kind unit : Nat) (detail pc addr : Word) : (s.addLog kind unit detail pc addr).digest = s.digest := rfl
@[simp] theorem State.addLog_start (s : State) (kind unit : Nat) (detail pc addr : Word) : (s.addLog kind unit detail pc addr).start = s.start := rfl
@[simp] theorem State.addLog_testEn (s : State) (kind unit : Nat) (detail pc addr : Word) : (s.addLog kind unit detail pc addr).testEn = s.testEn := rfl
@[simp] theorem State.addLog_history (s : State) (kind unit : Nat) (detail pc addr : Word) : (s.addLog kind unit detail pc addr).history = s.history := rfl
@[simp] theorem State.addLog_permanent (s : State) (kind unit : Nat) (detail pc addr : Word) : (s.addLog kind unit detail pc addr).permanent = s.permanent := rfl
@[simp] theorem State.addLog_correctable (s : State) (kind unit : Nat) (detail pc addr : Word) : (s.addLog kind unit detail pc addr).correctable = s.correctable := rfl
@[simp] theorem State.addLog_powered (s : State) (kind unit : Nat) (detail pc addr : Word) : (s.addLog kind unit detail pc addr).powered = s.powered := rfl
@[simp] theorem State.addLog_sessions (s : State) (kind unit : Nat) (detail pc addr : Word) : (s.addLog kind unit detail pc addr).sessions = s.sessions := rfl
@[simp] theorem State.addLog_flash (s : State) (kind unit : Nat) (detail pc addr : Word) : (s.addLog kind unit detail pc addr).flash = s.flash := rfl
@[simp] theorem State.addLog_fuses (s : State) (kind unit : Nat) (detail pc addr : Word) : (s.addLog kind unit detail pc addr).fuses = s.fuses := rfl
@[simp] theorem State.addLog_flashPort (s : State) (kind unit : Nat) (detail pc addr : Word) : (s.addLog kind unit detail pc addr).flashPort = s.flashPort := rfl
@[simp] theorem State.addLog_i3c (s : State) (kind unit : Nat) (detail pc addr : Word) : (s.addLog kind unit detail pc addr).i3c = s.i3c := rfl
@[simp] theorem State.addLog_tap (s : State) (kind unit : Nat) (detail pc addr : Word) : (s.addLog kind unit detail pc addr).tap = s.tap := rfl

/-! `State.setDomain` -/
@[simp] theorem State.setDomain_pending (s : State) (k : Nat) (on : Bool) : (s.setDomain k on).pending = s.pending := rfl
@[simp] theorem State.setDomain_resetLow (s : State) (k : Nat) (on : Bool) : (s.setDomain k on).resetLow = s.resetLow := rfl
@[simp] theorem State.setDomain_resetPin (s : State) (k : Nat) (on : Bool) : (s.setDomain k on).resetPin = s.resetPin := rfl
@[simp] theorem State.setDomain_unpowered (s : State) (k : Nat) (on : Bool) : (s.setDomain k on).unpowered = s.unpowered := rfl
@[simp] theorem State.setDomain_work (s : State) (k : Nat) (on : Bool) : (s.setDomain k on).work = s.work := rfl
@[simp] theorem State.setDomain_supplyHold (s : State) (k : Nat) (on : Bool) : (s.setDomain k on).supplyHold = s.supplyHold := rfl
@[simp] theorem State.setDomain_clkLoss (s : State) (k : Nat) (on : Bool) : (s.setDomain k on).clkLoss = s.clkLoss := rfl
@[simp] theorem State.setDomain_now (s : State) (k : Nat) (on : Bool) : (s.setDomain k on).now = s.now := rfl
@[simp] theorem State.setDomain_free (s : State) (k : Nat) (on : Bool) : (s.setDomain k on).free = s.free := rfl
@[simp] theorem State.setDomain_nextId (s : State) (k : Nat) (on : Bool) : (s.setDomain k on).nextId = s.nextId := rfl
@[simp] theorem State.setDomain_mem (s : State) (k : Nat) (on : Bool) : (s.setDomain k on).mem = s.mem := rfl
@[simp] theorem State.setDomain_poison (s : State) (k : Nat) (on : Bool) : (s.setDomain k on).poison = s.poison := rfl
@[simp] theorem State.setDomain_tags (s : State) (k : Nat) (on : Bool) : (s.setDomain k on).tags = s.tags := rfl
@[simp] theorem State.setDomain_eccCorr (s : State) (k : Nat) (on : Bool) : (s.setDomain k on).eccCorr = s.eccCorr := rfl
@[simp] theorem State.setDomain_eccBad (s : State) (k : Nat) (on : Bool) : (s.setDomain k on).eccBad = s.eccBad := rfl
@[simp] theorem State.setDomain_frames (s : State) (k : Nat) (on : Bool) : (s.setDomain k on).frames = s.frames := rfl
@[simp] theorem State.setDomain_cores (s : State) (k : Nat) (on : Bool) : (s.setDomain k on).cores = s.cores := rfl
@[simp] theorem State.setDomain_clusters (s : State) (k : Nat) (on : Bool) : (s.setDomain k on).clusters = s.clusters := rfl
@[simp] theorem State.setDomain_engines (s : State) (k : Nat) (on : Bool) : (s.setDomain k on).engines = s.engines := rfl
@[simp] theorem State.setDomain_ports (s : State) (k : Nat) (on : Bool) : (s.setDomain k on).ports = s.ports := rfl
@[simp] theorem State.setDomain_links (s : State) (k : Nat) (on : Bool) : (s.setDomain k on).links = s.links := rfl
@[simp] theorem State.setDomain_routes (s : State) (k : Nat) (on : Bool) : (s.setDomain k on).routes = s.routes := rfl
@[simp] theorem State.setDomain_routeNext (s : State) (k : Nat) (on : Bool) : (s.setDomain k on).routeNext = s.routeNext := rfl
@[simp] theorem State.setDomain_self (s : State) (k : Nat) (on : Bool) : (s.setDomain k on).self = s.self := rfl
@[simp] theorem State.setDomain_ilv (s : State) (k : Nat) (on : Bool) : (s.setDomain k on).ilv = s.ilv := rfl
@[simp] theorem State.setDomain_cap (s : State) (k : Nat) (on : Bool) : (s.setDomain k on).cap = s.cap := rfl
@[simp] theorem State.setDomain_walkErrMode (s : State) (k : Nat) (on : Bool) : (s.setDomain k on).walkErrMode = s.walkErrMode := rfl
@[simp] theorem State.setDomain_rel10 (s : State) (k : Nat) (on : Bool) : (s.setDomain k on).rel10 = s.rel10 := rfl
@[simp] theorem State.setDomain_packets (s : State) (k : Nat) (on : Bool) : (s.setDomain k on).packets = s.packets := rfl
@[simp] theorem State.setDomain_responses (s : State) (k : Nat) (on : Bool) : (s.setDomain k on).responses = s.responses := rfl
@[simp] theorem State.setDomain_addends (s : State) (k : Nat) (on : Bool) : (s.setDomain k on).addends = s.addends := rfl
@[simp] theorem State.setDomain_refused (s : State) (k : Nat) (on : Bool) : (s.setDomain k on).refused = s.refused := rfl
@[simp] theorem State.setDomain_lost (s : State) (k : Nat) (on : Bool) : (s.setDomain k on).lost = s.lost := rfl
@[simp] theorem State.setDomain_images (s : State) (k : Nat) (on : Bool) : (s.setDomain k on).images = s.images := rfl
@[simp] theorem State.setDomain_keyHash (s : State) (k : Nat) (on : Bool) : (s.setDomain k on).keyHash = s.keyHash := rfl
@[simp] theorem State.setDomain_mps (s : State) (k : Nat) (on : Bool) : (s.setDomain k on).mps = s.mps := rfl
@[simp] theorem State.setDomain_mail (s : State) (k : Nat) (on : Bool) : (s.setDomain k on).mail = s.mail := rfl
@[simp] theorem State.setDomain_beat (s : State) (k : Nat) (on : Bool) : (s.setDomain k on).beat = s.beat := rfl
@[simp] theorem State.setDomain_power (s : State) (k : Nat) (on : Bool) : (s.setDomain k on).power = s.power := rfl
@[simp] theorem State.setDomain_drain (s : State) (k : Nat) (on : Bool) : (s.setDomain k on).drain = s.drain := rfl
@[simp] theorem State.setDomain_jobs (s : State) (k : Nat) (on : Bool) : (s.setDomain k on).jobs = s.jobs := rfl
@[simp] theorem State.setDomain_digest (s : State) (k : Nat) (on : Bool) : (s.setDomain k on).digest = s.digest := rfl
@[simp] theorem State.setDomain_start (s : State) (k : Nat) (on : Bool) : (s.setDomain k on).start = s.start := rfl
@[simp] theorem State.setDomain_testEn (s : State) (k : Nat) (on : Bool) : (s.setDomain k on).testEn = s.testEn := rfl
@[simp] theorem State.setDomain_log (s : State) (k : Nat) (on : Bool) : (s.setDomain k on).log = s.log := rfl
@[simp] theorem State.setDomain_logNext (s : State) (k : Nat) (on : Bool) : (s.setDomain k on).logNext = s.logNext := rfl
@[simp] theorem State.setDomain_history (s : State) (k : Nat) (on : Bool) : (s.setDomain k on).history = s.history := rfl
@[simp] theorem State.setDomain_permanent (s : State) (k : Nat) (on : Bool) : (s.setDomain k on).permanent = s.permanent := rfl
@[simp] theorem State.setDomain_correctable (s : State) (k : Nat) (on : Bool) : (s.setDomain k on).correctable = s.correctable := rfl
@[simp] theorem State.setDomain_powered (s : State) (k : Nat) (on : Bool) : (s.setDomain k on).powered = s.powered := rfl
@[simp] theorem State.setDomain_sessions (s : State) (k : Nat) (on : Bool) : (s.setDomain k on).sessions = s.sessions := rfl
@[simp] theorem State.setDomain_flash (s : State) (k : Nat) (on : Bool) : (s.setDomain k on).flash = s.flash := rfl
@[simp] theorem State.setDomain_fuses (s : State) (k : Nat) (on : Bool) : (s.setDomain k on).fuses = s.fuses := rfl
@[simp] theorem State.setDomain_flashPort (s : State) (k : Nat) (on : Bool) : (s.setDomain k on).flashPort = s.flashPort := rfl
@[simp] theorem State.setDomain_i3c (s : State) (k : Nat) (on : Bool) : (s.setDomain k on).i3c = s.i3c := rfl
@[simp] theorem State.setDomain_tap (s : State) (k : Nat) (on : Bool) : (s.setDomain k on).tap = s.tap := rfl

/-! `Casement.touch` -/
@[simp] theorem Casement.touch_task (c : Casement) (g : Nat) : (c.touch g).task = c.task := rfl
@[simp] theorem Casement.touch_pc (c : Casement) (g : Nat) : (c.touch g).pc = c.pc := rfl
@[simp] theorem Casement.touch_icount (c : Casement) (g : Nat) : (c.touch g).icount = c.icount := rfl
@[simp] theorem Casement.touch_d (c : Casement) (g : Nat) : (c.touch g).d = c.d := rfl
@[simp] theorem Casement.touch_k (c : Casement) (g : Nat) : (c.touch g).k = c.k := rfl
@[simp] theorem Casement.touch_lent (c : Casement) (g : Nat) : (c.touch g).lent = c.lent := rfl
@[simp] theorem Casement.touch_x (c : Casement) (g : Nat) : (c.touch g).x = c.x := rfl
@[simp] theorem Casement.touch_xpend (c : Casement) (g : Nat) : (c.touch g).xpend = c.xpend := rfl
@[simp] theorem Casement.touch_s2ctl (c : Casement) (g : Nat) : (c.touch g).s2ctl = c.s2ctl := rfl
@[simp] theorem Casement.touch_bnk (c : Casement) (g : Nat) : (c.touch g).bnk = c.bnk := rfl
@[simp] theorem Casement.touch_tsbp (c : Casement) (g : Nat) : (c.touch g).tsbp = c.tsbp := rfl
@[simp] theorem Casement.touch_gsel (c : Casement) (g : Nat) : (c.touch g).gsel = c.gsel := rfl
@[simp] theorem Casement.touch_flg (c : Casement) (g : Nat) : (c.touch g).flg = c.flg := rfl
@[simp] theorem Casement.touch_rptc (c : Casement) (g : Nat) : (c.touch g).rptc = c.rptc := rfl
@[simp] theorem Casement.touch_dsp (c : Casement) (g : Nat) : (c.touch g).dsp = c.dsp := rfl
@[simp] theorem Casement.touch_rsa (c : Casement) (g : Nat) : (c.touch g).rsa = c.rsa := rfl
@[simp] theorem Casement.touch_rstack (c : Casement) (g : Nat) : (c.touch g).rstack = c.rstack := rfl
@[simp] theorem Casement.touch_bits (c : Casement) (g : Nat) : (c.touch g).bits = c.bits := rfl
@[simp] theorem Casement.touch_watches (c : Casement) (g : Nat) : (c.touch g).watches = c.watches := rfl
@[simp] theorem Casement.touch_opnd (c : Casement) (g : Nat) : (c.touch g).opnd = c.opnd := rfl
@[simp] theorem Casement.touch_shown (c : Casement) (g : Nat) : (c.touch g).shown = c.shown := rfl
@[simp] theorem Casement.touch_pend (c : Casement) (g : Nat) : (c.touch g).pend = c.pend := rfl
@[simp] theorem Casement.touch_fpc (c : Casement) (g : Nat) : (c.touch g).fpc = c.fpc := rfl
@[simp] theorem Casement.touch_rdc (c : Casement) (g : Nat) : (c.touch g).rdc = c.rdc := rfl
@[simp] theorem Casement.touch_asl (c : Casement) (g : Nat) : (c.touch g).asl = c.asl := rfl
@[simp] theorem Casement.touch_tfs (c : Casement) (g : Nat) : (c.touch g).tfs = c.tfs := rfl
@[simp] theorem Casement.touch_tfva (c : Casement) (g : Nat) : (c.touch g).tfva = c.tfva := rfl
@[simp] theorem Casement.touch_tfia (c : Casement) (g : Nat) : (c.touch g).tfia = c.tfia := rfl
@[simp] theorem Casement.touch_rmax (c : Casement) (g : Nat) : (c.touch g).rmax = c.rmax := rfl
@[simp] theorem Casement.touch_nsat (c : Casement) (g : Nat) : (c.touch g).nsat = c.nsat := rfl
@[simp] theorem Casement.touch_nflz (c : Casement) (g : Nat) : (c.touch g).nflz = c.nflz := rfl
@[simp] theorem Casement.touch_tstart (c : Casement) (g : Nat) : (c.touch g).tstart = c.tstart := rfl
@[simp] theorem Casement.touch_rowNext (c : Casement) (g : Nat) : (c.touch g).rowNext = c.rowNext := rfl
@[simp] theorem Casement.touch_frame (c : Casement) (g : Nat) : (c.touch g).frame = c.frame := rfl
@[simp] theorem Casement.touch_switched (c : Casement) (g : Nat) : (c.touch g).switched = c.switched := rfl
@[simp] theorem Casement.touch_ticket (c : Casement) (g : Nat) : (c.touch g).ticket = c.ticket := rfl
@[simp] theorem Casement.touch_gen (c : Casement) (g : Nat) : (c.touch g).gen = c.gen := rfl
@[simp] theorem Casement.touch_dfmFmt (c : Casement) (g : Nat) : (c.touch g).dfmFmt = c.dfmFmt := rfl
@[simp] theorem Casement.touch_acc (c : Casement) (g : Nat) : (c.touch g).acc = c.acc := rfl
@[simp] theorem Casement.touch_v (c : Casement) (g : Nat) : (c.touch g).v = c.v := rfl
@[simp] theorem Casement.touch_vpoison (c : Casement) (g : Nat) : (c.touch g).vpoison = c.vpoison := rfl
@[simp] theorem Casement.touch_vres (c : Casement) (g : Nat) : (c.touch g).vres = c.vres := rfl
@[simp] theorem Casement.touch_m (c : Casement) (g : Nat) : (c.touch g).m = c.m := rfl
@[simp] theorem Casement.touch_vlen (c : Casement) (g : Nat) : (c.touch g).vlen = c.vlen := rfl
@[simp] theorem Casement.touch_t (c : Casement) (g : Nat) : (c.touch g).t = c.t := rfl
@[simp] theorem Casement.touch_tpoison (c : Casement) (g : Nat) : (c.touch g).tpoison = c.tpoison := rfl
@[simp] theorem Casement.touch_tres (c : Casement) (g : Nat) : (c.touch g).tres = c.tres := rfl
@[simp] theorem Casement.touch_tCorr (c : Casement) (g : Nat) : (c.touch g).tCorr = c.tCorr := rfl
@[simp] theorem Casement.touch_tErr (c : Casement) (g : Nat) : (c.touch g).tErr = c.tErr := rfl
@[simp] theorem Casement.touch_call (c : Casement) (g : Nat) : (c.touch g).call = c.call := rfl
@[simp] theorem Casement.touch_xfer (c : Casement) (g : Nat) : (c.touch g).xfer = c.xfer := rfl
@[simp] theorem Casement.touch_waiting (c : Casement) (g : Nat) : (c.touch g).waiting = c.waiting := rfl
@[simp] theorem Casement.touch_raised (c : Casement) (g : Nat) : (c.touch g).raised = c.raised := rfl
@[simp] theorem Casement.touch_held (c : Casement) (g : Nat) : (c.touch g).held = c.held := rfl
@[simp] theorem Casement.touch_fails (c : Casement) (g : Nat) : (c.touch g).fails = c.fails := rfl
@[simp] theorem Casement.touch_asyncDue (c : Casement) (g : Nat) : (c.touch g).asyncDue = c.asyncDue := rfl
@[simp] theorem Casement.touch_stores (c : Casement) (g : Nat) : (c.touch g).stores = c.stores := rfl
@[simp] theorem Casement.touch_landed (c : Casement) (g : Nat) : (c.touch g).landed = c.landed := rfl
@[simp] theorem Casement.touch_first (c : Casement) (g : Nat) : (c.touch g).first = c.first := rfl
@[simp] theorem Casement.touch_frameRet (c : Casement) (g : Nat) : (c.touch g).frameRet = c.frameRet := rfl
@[simp] theorem Casement.touch_skip (c : Casement) (g : Nat) : (c.touch g).skip = c.skip := rfl
@[simp] theorem Casement.touch_dBad (c : Casement) (g : Nat) : (c.touch g).dBad = c.dBad := rfl
@[simp] theorem Casement.touch_kBad (c : Casement) (g : Nat) : (c.touch g).kBad = c.kBad := rfl
@[simp] theorem Casement.touch_gBad (c : Casement) (g : Nat) : (c.touch g).gBad = c.gBad := rfl
@[simp] theorem Casement.touch_otherBad (c : Casement) (g : Nat) : (c.touch g).otherBad = c.otherBad := rfl

/-! `Casement.setD` -/
@[simp] theorem Casement.setD_task (c : Casement) (i : Nat) (v : Word) : (c.setD i v).task = c.task := rfl
@[simp] theorem Casement.setD_pc (c : Casement) (i : Nat) (v : Word) : (c.setD i v).pc = c.pc := rfl
@[simp] theorem Casement.setD_icount (c : Casement) (i : Nat) (v : Word) : (c.setD i v).icount = c.icount := rfl
@[simp] theorem Casement.setD_k (c : Casement) (i : Nat) (v : Word) : (c.setD i v).k = c.k := rfl
@[simp] theorem Casement.setD_lent (c : Casement) (i : Nat) (v : Word) : (c.setD i v).lent = c.lent := rfl
@[simp] theorem Casement.setD_x (c : Casement) (i : Nat) (v : Word) : (c.setD i v).x = c.x := rfl
@[simp] theorem Casement.setD_xpend (c : Casement) (i : Nat) (v : Word) : (c.setD i v).xpend = c.xpend := rfl
@[simp] theorem Casement.setD_s2ctl (c : Casement) (i : Nat) (v : Word) : (c.setD i v).s2ctl = c.s2ctl := rfl
@[simp] theorem Casement.setD_bnk (c : Casement) (i : Nat) (v : Word) : (c.setD i v).bnk = c.bnk := rfl
@[simp] theorem Casement.setD_tsbp (c : Casement) (i : Nat) (v : Word) : (c.setD i v).tsbp = c.tsbp := rfl
@[simp] theorem Casement.setD_gsel (c : Casement) (i : Nat) (v : Word) : (c.setD i v).gsel = c.gsel := rfl
@[simp] theorem Casement.setD_flg (c : Casement) (i : Nat) (v : Word) : (c.setD i v).flg = c.flg := rfl
@[simp] theorem Casement.setD_rptc (c : Casement) (i : Nat) (v : Word) : (c.setD i v).rptc = c.rptc := rfl
@[simp] theorem Casement.setD_dsp (c : Casement) (i : Nat) (v : Word) : (c.setD i v).dsp = c.dsp := rfl
@[simp] theorem Casement.setD_rsa (c : Casement) (i : Nat) (v : Word) : (c.setD i v).rsa = c.rsa := rfl
@[simp] theorem Casement.setD_rstack (c : Casement) (i : Nat) (v : Word) : (c.setD i v).rstack = c.rstack := rfl
@[simp] theorem Casement.setD_bits (c : Casement) (i : Nat) (v : Word) : (c.setD i v).bits = c.bits := rfl
@[simp] theorem Casement.setD_watches (c : Casement) (i : Nat) (v : Word) : (c.setD i v).watches = c.watches := rfl
@[simp] theorem Casement.setD_opnd (c : Casement) (i : Nat) (v : Word) : (c.setD i v).opnd = c.opnd := rfl
@[simp] theorem Casement.setD_shown (c : Casement) (i : Nat) (v : Word) : (c.setD i v).shown = c.shown := rfl
@[simp] theorem Casement.setD_pend (c : Casement) (i : Nat) (v : Word) : (c.setD i v).pend = c.pend := rfl
@[simp] theorem Casement.setD_fpc (c : Casement) (i : Nat) (v : Word) : (c.setD i v).fpc = c.fpc := rfl
@[simp] theorem Casement.setD_rdc (c : Casement) (i : Nat) (v : Word) : (c.setD i v).rdc = c.rdc := rfl
@[simp] theorem Casement.setD_asl (c : Casement) (i : Nat) (v : Word) : (c.setD i v).asl = c.asl := rfl
@[simp] theorem Casement.setD_tfs (c : Casement) (i : Nat) (v : Word) : (c.setD i v).tfs = c.tfs := rfl
@[simp] theorem Casement.setD_tfva (c : Casement) (i : Nat) (v : Word) : (c.setD i v).tfva = c.tfva := rfl
@[simp] theorem Casement.setD_tfia (c : Casement) (i : Nat) (v : Word) : (c.setD i v).tfia = c.tfia := rfl
@[simp] theorem Casement.setD_rmax (c : Casement) (i : Nat) (v : Word) : (c.setD i v).rmax = c.rmax := rfl
@[simp] theorem Casement.setD_nsat (c : Casement) (i : Nat) (v : Word) : (c.setD i v).nsat = c.nsat := rfl
@[simp] theorem Casement.setD_nflz (c : Casement) (i : Nat) (v : Word) : (c.setD i v).nflz = c.nflz := rfl
@[simp] theorem Casement.setD_tstart (c : Casement) (i : Nat) (v : Word) : (c.setD i v).tstart = c.tstart := rfl
@[simp] theorem Casement.setD_rowNext (c : Casement) (i : Nat) (v : Word) : (c.setD i v).rowNext = c.rowNext := rfl
@[simp] theorem Casement.setD_frame (c : Casement) (i : Nat) (v : Word) : (c.setD i v).frame = c.frame := rfl
@[simp] theorem Casement.setD_switched (c : Casement) (i : Nat) (v : Word) : (c.setD i v).switched = c.switched := rfl
@[simp] theorem Casement.setD_ticket (c : Casement) (i : Nat) (v : Word) : (c.setD i v).ticket = c.ticket := rfl
@[simp] theorem Casement.setD_gen (c : Casement) (i : Nat) (v : Word) : (c.setD i v).gen = c.gen := rfl
@[simp] theorem Casement.setD_dfmFmt (c : Casement) (i : Nat) (v : Word) : (c.setD i v).dfmFmt = c.dfmFmt := rfl
@[simp] theorem Casement.setD_acc (c : Casement) (i : Nat) (v : Word) : (c.setD i v).acc = c.acc := rfl
@[simp] theorem Casement.setD_v (c : Casement) (i : Nat) (v : Word) : (c.setD i v).v = c.v := rfl
@[simp] theorem Casement.setD_vpoison (c : Casement) (i : Nat) (v : Word) : (c.setD i v).vpoison = c.vpoison := rfl
@[simp] theorem Casement.setD_vres (c : Casement) (i : Nat) (v : Word) : (c.setD i v).vres = c.vres := rfl
@[simp] theorem Casement.setD_m (c : Casement) (i : Nat) (v : Word) : (c.setD i v).m = c.m := rfl
@[simp] theorem Casement.setD_vlen (c : Casement) (i : Nat) (v : Word) : (c.setD i v).vlen = c.vlen := rfl
@[simp] theorem Casement.setD_t (c : Casement) (i : Nat) (v : Word) : (c.setD i v).t = c.t := rfl
@[simp] theorem Casement.setD_tpoison (c : Casement) (i : Nat) (v : Word) : (c.setD i v).tpoison = c.tpoison := rfl
@[simp] theorem Casement.setD_tres (c : Casement) (i : Nat) (v : Word) : (c.setD i v).tres = c.tres := rfl
@[simp] theorem Casement.setD_tCorr (c : Casement) (i : Nat) (v : Word) : (c.setD i v).tCorr = c.tCorr := rfl
@[simp] theorem Casement.setD_tErr (c : Casement) (i : Nat) (v : Word) : (c.setD i v).tErr = c.tErr := rfl
@[simp] theorem Casement.setD_call (c : Casement) (i : Nat) (v : Word) : (c.setD i v).call = c.call := rfl
@[simp] theorem Casement.setD_xfer (c : Casement) (i : Nat) (v : Word) : (c.setD i v).xfer = c.xfer := rfl
@[simp] theorem Casement.setD_waiting (c : Casement) (i : Nat) (v : Word) : (c.setD i v).waiting = c.waiting := rfl
@[simp] theorem Casement.setD_raised (c : Casement) (i : Nat) (v : Word) : (c.setD i v).raised = c.raised := rfl
@[simp] theorem Casement.setD_held (c : Casement) (i : Nat) (v : Word) : (c.setD i v).held = c.held := rfl
@[simp] theorem Casement.setD_fails (c : Casement) (i : Nat) (v : Word) : (c.setD i v).fails = c.fails := rfl
@[simp] theorem Casement.setD_asyncDue (c : Casement) (i : Nat) (v : Word) : (c.setD i v).asyncDue = c.asyncDue := rfl
@[simp] theorem Casement.setD_stores (c : Casement) (i : Nat) (v : Word) : (c.setD i v).stores = c.stores := rfl
@[simp] theorem Casement.setD_landed (c : Casement) (i : Nat) (v : Word) : (c.setD i v).landed = c.landed := rfl
@[simp] theorem Casement.setD_first (c : Casement) (i : Nat) (v : Word) : (c.setD i v).first = c.first := rfl
@[simp] theorem Casement.setD_frameRet (c : Casement) (i : Nat) (v : Word) : (c.setD i v).frameRet = c.frameRet := rfl
@[simp] theorem Casement.setD_skip (c : Casement) (i : Nat) (v : Word) : (c.setD i v).skip = c.skip := rfl
@[simp] theorem Casement.setD_kBad (c : Casement) (i : Nat) (v : Word) : (c.setD i v).kBad = c.kBad := rfl
@[simp] theorem Casement.setD_gBad (c : Casement) (i : Nat) (v : Word) : (c.setD i v).gBad = c.gBad := rfl
@[simp] theorem Casement.setD_otherBad (c : Casement) (i : Nat) (v : Word) : (c.setD i v).otherBad = c.otherBad := rfl

/-! `Casement.setKey` -/
@[simp] theorem Casement.setKey_task (c : Casement) (i : Nat) (key : Key) (isLent : Bool) : (c.setKey i key isLent).task = c.task := rfl
@[simp] theorem Casement.setKey_pc (c : Casement) (i : Nat) (key : Key) (isLent : Bool) : (c.setKey i key isLent).pc = c.pc := rfl
@[simp] theorem Casement.setKey_icount (c : Casement) (i : Nat) (key : Key) (isLent : Bool) : (c.setKey i key isLent).icount = c.icount := rfl
@[simp] theorem Casement.setKey_d (c : Casement) (i : Nat) (key : Key) (isLent : Bool) : (c.setKey i key isLent).d = c.d := rfl
@[simp] theorem Casement.setKey_x (c : Casement) (i : Nat) (key : Key) (isLent : Bool) : (c.setKey i key isLent).x = c.x := rfl
@[simp] theorem Casement.setKey_xpend (c : Casement) (i : Nat) (key : Key) (isLent : Bool) : (c.setKey i key isLent).xpend = c.xpend := rfl
@[simp] theorem Casement.setKey_s2ctl (c : Casement) (i : Nat) (key : Key) (isLent : Bool) : (c.setKey i key isLent).s2ctl = c.s2ctl := rfl
@[simp] theorem Casement.setKey_bnk (c : Casement) (i : Nat) (key : Key) (isLent : Bool) : (c.setKey i key isLent).bnk = c.bnk := rfl
@[simp] theorem Casement.setKey_tsbp (c : Casement) (i : Nat) (key : Key) (isLent : Bool) : (c.setKey i key isLent).tsbp = c.tsbp := rfl
@[simp] theorem Casement.setKey_gsel (c : Casement) (i : Nat) (key : Key) (isLent : Bool) : (c.setKey i key isLent).gsel = c.gsel := rfl
@[simp] theorem Casement.setKey_flg (c : Casement) (i : Nat) (key : Key) (isLent : Bool) : (c.setKey i key isLent).flg = c.flg := rfl
@[simp] theorem Casement.setKey_rptc (c : Casement) (i : Nat) (key : Key) (isLent : Bool) : (c.setKey i key isLent).rptc = c.rptc := rfl
@[simp] theorem Casement.setKey_dsp (c : Casement) (i : Nat) (key : Key) (isLent : Bool) : (c.setKey i key isLent).dsp = c.dsp := rfl
@[simp] theorem Casement.setKey_rsa (c : Casement) (i : Nat) (key : Key) (isLent : Bool) : (c.setKey i key isLent).rsa = c.rsa := rfl
@[simp] theorem Casement.setKey_rstack (c : Casement) (i : Nat) (key : Key) (isLent : Bool) : (c.setKey i key isLent).rstack = c.rstack := rfl
@[simp] theorem Casement.setKey_bits (c : Casement) (i : Nat) (key : Key) (isLent : Bool) : (c.setKey i key isLent).bits = c.bits := rfl
@[simp] theorem Casement.setKey_watches (c : Casement) (i : Nat) (key : Key) (isLent : Bool) : (c.setKey i key isLent).watches = c.watches := rfl
@[simp] theorem Casement.setKey_opnd (c : Casement) (i : Nat) (key : Key) (isLent : Bool) : (c.setKey i key isLent).opnd = c.opnd := rfl
@[simp] theorem Casement.setKey_shown (c : Casement) (i : Nat) (key : Key) (isLent : Bool) : (c.setKey i key isLent).shown = c.shown := rfl
@[simp] theorem Casement.setKey_pend (c : Casement) (i : Nat) (key : Key) (isLent : Bool) : (c.setKey i key isLent).pend = c.pend := rfl
@[simp] theorem Casement.setKey_fpc (c : Casement) (i : Nat) (key : Key) (isLent : Bool) : (c.setKey i key isLent).fpc = c.fpc := rfl
@[simp] theorem Casement.setKey_rdc (c : Casement) (i : Nat) (key : Key) (isLent : Bool) : (c.setKey i key isLent).rdc = c.rdc := rfl
@[simp] theorem Casement.setKey_asl (c : Casement) (i : Nat) (key : Key) (isLent : Bool) : (c.setKey i key isLent).asl = c.asl := rfl
@[simp] theorem Casement.setKey_tfs (c : Casement) (i : Nat) (key : Key) (isLent : Bool) : (c.setKey i key isLent).tfs = c.tfs := rfl
@[simp] theorem Casement.setKey_tfva (c : Casement) (i : Nat) (key : Key) (isLent : Bool) : (c.setKey i key isLent).tfva = c.tfva := rfl
@[simp] theorem Casement.setKey_tfia (c : Casement) (i : Nat) (key : Key) (isLent : Bool) : (c.setKey i key isLent).tfia = c.tfia := rfl
@[simp] theorem Casement.setKey_rmax (c : Casement) (i : Nat) (key : Key) (isLent : Bool) : (c.setKey i key isLent).rmax = c.rmax := rfl
@[simp] theorem Casement.setKey_nsat (c : Casement) (i : Nat) (key : Key) (isLent : Bool) : (c.setKey i key isLent).nsat = c.nsat := rfl
@[simp] theorem Casement.setKey_nflz (c : Casement) (i : Nat) (key : Key) (isLent : Bool) : (c.setKey i key isLent).nflz = c.nflz := rfl
@[simp] theorem Casement.setKey_tstart (c : Casement) (i : Nat) (key : Key) (isLent : Bool) : (c.setKey i key isLent).tstart = c.tstart := rfl
@[simp] theorem Casement.setKey_rowNext (c : Casement) (i : Nat) (key : Key) (isLent : Bool) : (c.setKey i key isLent).rowNext = c.rowNext := rfl
@[simp] theorem Casement.setKey_frame (c : Casement) (i : Nat) (key : Key) (isLent : Bool) : (c.setKey i key isLent).frame = c.frame := rfl
@[simp] theorem Casement.setKey_switched (c : Casement) (i : Nat) (key : Key) (isLent : Bool) : (c.setKey i key isLent).switched = c.switched := rfl
@[simp] theorem Casement.setKey_ticket (c : Casement) (i : Nat) (key : Key) (isLent : Bool) : (c.setKey i key isLent).ticket = c.ticket := rfl
@[simp] theorem Casement.setKey_gen (c : Casement) (i : Nat) (key : Key) (isLent : Bool) : (c.setKey i key isLent).gen = c.gen := rfl
@[simp] theorem Casement.setKey_dfmFmt (c : Casement) (i : Nat) (key : Key) (isLent : Bool) : (c.setKey i key isLent).dfmFmt = c.dfmFmt := rfl
@[simp] theorem Casement.setKey_acc (c : Casement) (i : Nat) (key : Key) (isLent : Bool) : (c.setKey i key isLent).acc = c.acc := rfl
@[simp] theorem Casement.setKey_v (c : Casement) (i : Nat) (key : Key) (isLent : Bool) : (c.setKey i key isLent).v = c.v := rfl
@[simp] theorem Casement.setKey_vpoison (c : Casement) (i : Nat) (key : Key) (isLent : Bool) : (c.setKey i key isLent).vpoison = c.vpoison := rfl
@[simp] theorem Casement.setKey_vres (c : Casement) (i : Nat) (key : Key) (isLent : Bool) : (c.setKey i key isLent).vres = c.vres := rfl
@[simp] theorem Casement.setKey_m (c : Casement) (i : Nat) (key : Key) (isLent : Bool) : (c.setKey i key isLent).m = c.m := rfl
@[simp] theorem Casement.setKey_vlen (c : Casement) (i : Nat) (key : Key) (isLent : Bool) : (c.setKey i key isLent).vlen = c.vlen := rfl
@[simp] theorem Casement.setKey_t (c : Casement) (i : Nat) (key : Key) (isLent : Bool) : (c.setKey i key isLent).t = c.t := rfl
@[simp] theorem Casement.setKey_tpoison (c : Casement) (i : Nat) (key : Key) (isLent : Bool) : (c.setKey i key isLent).tpoison = c.tpoison := rfl
@[simp] theorem Casement.setKey_tres (c : Casement) (i : Nat) (key : Key) (isLent : Bool) : (c.setKey i key isLent).tres = c.tres := rfl
@[simp] theorem Casement.setKey_tCorr (c : Casement) (i : Nat) (key : Key) (isLent : Bool) : (c.setKey i key isLent).tCorr = c.tCorr := rfl
@[simp] theorem Casement.setKey_tErr (c : Casement) (i : Nat) (key : Key) (isLent : Bool) : (c.setKey i key isLent).tErr = c.tErr := rfl
@[simp] theorem Casement.setKey_call (c : Casement) (i : Nat) (key : Key) (isLent : Bool) : (c.setKey i key isLent).call = c.call := rfl
@[simp] theorem Casement.setKey_xfer (c : Casement) (i : Nat) (key : Key) (isLent : Bool) : (c.setKey i key isLent).xfer = c.xfer := rfl
@[simp] theorem Casement.setKey_waiting (c : Casement) (i : Nat) (key : Key) (isLent : Bool) : (c.setKey i key isLent).waiting = c.waiting := rfl
@[simp] theorem Casement.setKey_raised (c : Casement) (i : Nat) (key : Key) (isLent : Bool) : (c.setKey i key isLent).raised = c.raised := rfl
@[simp] theorem Casement.setKey_held (c : Casement) (i : Nat) (key : Key) (isLent : Bool) : (c.setKey i key isLent).held = c.held := rfl
@[simp] theorem Casement.setKey_fails (c : Casement) (i : Nat) (key : Key) (isLent : Bool) : (c.setKey i key isLent).fails = c.fails := rfl
@[simp] theorem Casement.setKey_asyncDue (c : Casement) (i : Nat) (key : Key) (isLent : Bool) : (c.setKey i key isLent).asyncDue = c.asyncDue := rfl
@[simp] theorem Casement.setKey_stores (c : Casement) (i : Nat) (key : Key) (isLent : Bool) : (c.setKey i key isLent).stores = c.stores := rfl
@[simp] theorem Casement.setKey_landed (c : Casement) (i : Nat) (key : Key) (isLent : Bool) : (c.setKey i key isLent).landed = c.landed := rfl
@[simp] theorem Casement.setKey_first (c : Casement) (i : Nat) (key : Key) (isLent : Bool) : (c.setKey i key isLent).first = c.first := rfl
@[simp] theorem Casement.setKey_frameRet (c : Casement) (i : Nat) (key : Key) (isLent : Bool) : (c.setKey i key isLent).frameRet = c.frameRet := rfl
@[simp] theorem Casement.setKey_skip (c : Casement) (i : Nat) (key : Key) (isLent : Bool) : (c.setKey i key isLent).skip = c.skip := rfl
@[simp] theorem Casement.setKey_dBad (c : Casement) (i : Nat) (key : Key) (isLent : Bool) : (c.setKey i key isLent).dBad = c.dBad := rfl
@[simp] theorem Casement.setKey_gBad (c : Casement) (i : Nat) (key : Key) (isLent : Bool) : (c.setKey i key isLent).gBad = c.gBad := rfl
@[simp] theorem Casement.setKey_otherBad (c : Casement) (i : Nat) (key : Key) (isLent : Bool) : (c.setKey i key isLent).otherBad = c.otherBad := rfl

/-! `Casement.setGroup` -/
@[simp] theorem Casement.setGroup_task (c : Casement) (g : Nat) (v : Word) : (c.setGroup g v).task = c.task := rfl
@[simp] theorem Casement.setGroup_pc (c : Casement) (g : Nat) (v : Word) : (c.setGroup g v).pc = c.pc := rfl
@[simp] theorem Casement.setGroup_icount (c : Casement) (g : Nat) (v : Word) : (c.setGroup g v).icount = c.icount := rfl
@[simp] theorem Casement.setGroup_d (c : Casement) (g : Nat) (v : Word) : (c.setGroup g v).d = c.d := rfl
@[simp] theorem Casement.setGroup_k (c : Casement) (g : Nat) (v : Word) : (c.setGroup g v).k = c.k := rfl
@[simp] theorem Casement.setGroup_lent (c : Casement) (g : Nat) (v : Word) : (c.setGroup g v).lent = c.lent := rfl
@[simp] theorem Casement.setGroup_x (c : Casement) (g : Nat) (v : Word) : (c.setGroup g v).x = c.x := rfl
@[simp] theorem Casement.setGroup_xpend (c : Casement) (g : Nat) (v : Word) : (c.setGroup g v).xpend = c.xpend := rfl
@[simp] theorem Casement.setGroup_s2ctl (c : Casement) (g : Nat) (v : Word) : (c.setGroup g v).s2ctl = c.s2ctl := rfl
@[simp] theorem Casement.setGroup_bnk (c : Casement) (g : Nat) (v : Word) : (c.setGroup g v).bnk = c.bnk := rfl
@[simp] theorem Casement.setGroup_tsbp (c : Casement) (g : Nat) (v : Word) : (c.setGroup g v).tsbp = c.tsbp := rfl
@[simp] theorem Casement.setGroup_gsel (c : Casement) (g : Nat) (v : Word) : (c.setGroup g v).gsel = c.gsel := rfl
@[simp] theorem Casement.setGroup_flg (c : Casement) (g : Nat) (v : Word) : (c.setGroup g v).flg = c.flg := rfl
@[simp] theorem Casement.setGroup_rptc (c : Casement) (g : Nat) (v : Word) : (c.setGroup g v).rptc = c.rptc := rfl
@[simp] theorem Casement.setGroup_dsp (c : Casement) (g : Nat) (v : Word) : (c.setGroup g v).dsp = c.dsp := rfl
@[simp] theorem Casement.setGroup_rsa (c : Casement) (g : Nat) (v : Word) : (c.setGroup g v).rsa = c.rsa := rfl
@[simp] theorem Casement.setGroup_rstack (c : Casement) (g : Nat) (v : Word) : (c.setGroup g v).rstack = c.rstack := rfl
@[simp] theorem Casement.setGroup_watches (c : Casement) (g : Nat) (v : Word) : (c.setGroup g v).watches = c.watches := rfl
@[simp] theorem Casement.setGroup_opnd (c : Casement) (g : Nat) (v : Word) : (c.setGroup g v).opnd = c.opnd := rfl
@[simp] theorem Casement.setGroup_shown (c : Casement) (g : Nat) (v : Word) : (c.setGroup g v).shown = c.shown := rfl
@[simp] theorem Casement.setGroup_pend (c : Casement) (g : Nat) (v : Word) : (c.setGroup g v).pend = c.pend := rfl
@[simp] theorem Casement.setGroup_fpc (c : Casement) (g : Nat) (v : Word) : (c.setGroup g v).fpc = c.fpc := rfl
@[simp] theorem Casement.setGroup_rdc (c : Casement) (g : Nat) (v : Word) : (c.setGroup g v).rdc = c.rdc := rfl
@[simp] theorem Casement.setGroup_asl (c : Casement) (g : Nat) (v : Word) : (c.setGroup g v).asl = c.asl := rfl
@[simp] theorem Casement.setGroup_tfs (c : Casement) (g : Nat) (v : Word) : (c.setGroup g v).tfs = c.tfs := rfl
@[simp] theorem Casement.setGroup_tfva (c : Casement) (g : Nat) (v : Word) : (c.setGroup g v).tfva = c.tfva := rfl
@[simp] theorem Casement.setGroup_tfia (c : Casement) (g : Nat) (v : Word) : (c.setGroup g v).tfia = c.tfia := rfl
@[simp] theorem Casement.setGroup_rmax (c : Casement) (g : Nat) (v : Word) : (c.setGroup g v).rmax = c.rmax := rfl
@[simp] theorem Casement.setGroup_nsat (c : Casement) (g : Nat) (v : Word) : (c.setGroup g v).nsat = c.nsat := rfl
@[simp] theorem Casement.setGroup_nflz (c : Casement) (g : Nat) (v : Word) : (c.setGroup g v).nflz = c.nflz := rfl
@[simp] theorem Casement.setGroup_tstart (c : Casement) (g : Nat) (v : Word) : (c.setGroup g v).tstart = c.tstart := rfl
@[simp] theorem Casement.setGroup_rowNext (c : Casement) (g : Nat) (v : Word) : (c.setGroup g v).rowNext = c.rowNext := rfl
@[simp] theorem Casement.setGroup_frame (c : Casement) (g : Nat) (v : Word) : (c.setGroup g v).frame = c.frame := rfl
@[simp] theorem Casement.setGroup_switched (c : Casement) (g : Nat) (v : Word) : (c.setGroup g v).switched = c.switched := rfl
@[simp] theorem Casement.setGroup_ticket (c : Casement) (g : Nat) (v : Word) : (c.setGroup g v).ticket = c.ticket := rfl
@[simp] theorem Casement.setGroup_gen (c : Casement) (g : Nat) (v : Word) : (c.setGroup g v).gen = c.gen := rfl
@[simp] theorem Casement.setGroup_dfmFmt (c : Casement) (g : Nat) (v : Word) : (c.setGroup g v).dfmFmt = c.dfmFmt := rfl
@[simp] theorem Casement.setGroup_acc (c : Casement) (g : Nat) (v : Word) : (c.setGroup g v).acc = c.acc := rfl
@[simp] theorem Casement.setGroup_v (c : Casement) (g : Nat) (v : Word) : (c.setGroup g v).v = c.v := rfl
@[simp] theorem Casement.setGroup_vpoison (c : Casement) (g : Nat) (v : Word) : (c.setGroup g v).vpoison = c.vpoison := rfl
@[simp] theorem Casement.setGroup_vres (c : Casement) (g : Nat) (v : Word) : (c.setGroup g v).vres = c.vres := rfl
@[simp] theorem Casement.setGroup_m (c : Casement) (g : Nat) (v : Word) : (c.setGroup g v).m = c.m := rfl
@[simp] theorem Casement.setGroup_vlen (c : Casement) (g : Nat) (v : Word) : (c.setGroup g v).vlen = c.vlen := rfl
@[simp] theorem Casement.setGroup_t (c : Casement) (g : Nat) (v : Word) : (c.setGroup g v).t = c.t := rfl
@[simp] theorem Casement.setGroup_tpoison (c : Casement) (g : Nat) (v : Word) : (c.setGroup g v).tpoison = c.tpoison := rfl
@[simp] theorem Casement.setGroup_tres (c : Casement) (g : Nat) (v : Word) : (c.setGroup g v).tres = c.tres := rfl
@[simp] theorem Casement.setGroup_tCorr (c : Casement) (g : Nat) (v : Word) : (c.setGroup g v).tCorr = c.tCorr := rfl
@[simp] theorem Casement.setGroup_tErr (c : Casement) (g : Nat) (v : Word) : (c.setGroup g v).tErr = c.tErr := rfl
@[simp] theorem Casement.setGroup_call (c : Casement) (g : Nat) (v : Word) : (c.setGroup g v).call = c.call := rfl
@[simp] theorem Casement.setGroup_xfer (c : Casement) (g : Nat) (v : Word) : (c.setGroup g v).xfer = c.xfer := rfl
@[simp] theorem Casement.setGroup_waiting (c : Casement) (g : Nat) (v : Word) : (c.setGroup g v).waiting = c.waiting := rfl
@[simp] theorem Casement.setGroup_raised (c : Casement) (g : Nat) (v : Word) : (c.setGroup g v).raised = c.raised := rfl
@[simp] theorem Casement.setGroup_held (c : Casement) (g : Nat) (v : Word) : (c.setGroup g v).held = c.held := rfl
@[simp] theorem Casement.setGroup_fails (c : Casement) (g : Nat) (v : Word) : (c.setGroup g v).fails = c.fails := rfl
@[simp] theorem Casement.setGroup_asyncDue (c : Casement) (g : Nat) (v : Word) : (c.setGroup g v).asyncDue = c.asyncDue := rfl
@[simp] theorem Casement.setGroup_stores (c : Casement) (g : Nat) (v : Word) : (c.setGroup g v).stores = c.stores := rfl
@[simp] theorem Casement.setGroup_landed (c : Casement) (g : Nat) (v : Word) : (c.setGroup g v).landed = c.landed := rfl
@[simp] theorem Casement.setGroup_first (c : Casement) (g : Nat) (v : Word) : (c.setGroup g v).first = c.first := rfl
@[simp] theorem Casement.setGroup_frameRet (c : Casement) (g : Nat) (v : Word) : (c.setGroup g v).frameRet = c.frameRet := rfl
@[simp] theorem Casement.setGroup_skip (c : Casement) (g : Nat) (v : Word) : (c.setGroup g v).skip = c.skip := rfl
@[simp] theorem Casement.setGroup_dBad (c : Casement) (g : Nat) (v : Word) : (c.setGroup g v).dBad = c.dBad := rfl
@[simp] theorem Casement.setGroup_kBad (c : Casement) (g : Nat) (v : Word) : (c.setGroup g v).kBad = c.kBad := rfl
@[simp] theorem Casement.setGroup_otherBad (c : Casement) (g : Nat) (v : Word) : (c.setGroup g v).otherBad = c.otherBad := rfl

/-! `Casement.setBit` -/
@[simp] theorem Casement.setBit_task (c : Casement) (n : Nat) (b : Bool) : (c.setBit n b).task = c.task := rfl
@[simp] theorem Casement.setBit_pc (c : Casement) (n : Nat) (b : Bool) : (c.setBit n b).pc = c.pc := rfl
@[simp] theorem Casement.setBit_icount (c : Casement) (n : Nat) (b : Bool) : (c.setBit n b).icount = c.icount := rfl
@[simp] theorem Casement.setBit_d (c : Casement) (n : Nat) (b : Bool) : (c.setBit n b).d = c.d := rfl
@[simp] theorem Casement.setBit_k (c : Casement) (n : Nat) (b : Bool) : (c.setBit n b).k = c.k := rfl
@[simp] theorem Casement.setBit_lent (c : Casement) (n : Nat) (b : Bool) : (c.setBit n b).lent = c.lent := rfl
@[simp] theorem Casement.setBit_x (c : Casement) (n : Nat) (b : Bool) : (c.setBit n b).x = c.x := rfl
@[simp] theorem Casement.setBit_xpend (c : Casement) (n : Nat) (b : Bool) : (c.setBit n b).xpend = c.xpend := rfl
@[simp] theorem Casement.setBit_s2ctl (c : Casement) (n : Nat) (b : Bool) : (c.setBit n b).s2ctl = c.s2ctl := rfl
@[simp] theorem Casement.setBit_bnk (c : Casement) (n : Nat) (b : Bool) : (c.setBit n b).bnk = c.bnk := rfl
@[simp] theorem Casement.setBit_tsbp (c : Casement) (n : Nat) (b : Bool) : (c.setBit n b).tsbp = c.tsbp := rfl
@[simp] theorem Casement.setBit_gsel (c : Casement) (n : Nat) (b : Bool) : (c.setBit n b).gsel = c.gsel := rfl
@[simp] theorem Casement.setBit_flg (c : Casement) (n : Nat) (b : Bool) : (c.setBit n b).flg = c.flg := rfl
@[simp] theorem Casement.setBit_rptc (c : Casement) (n : Nat) (b : Bool) : (c.setBit n b).rptc = c.rptc := rfl
@[simp] theorem Casement.setBit_dsp (c : Casement) (n : Nat) (b : Bool) : (c.setBit n b).dsp = c.dsp := rfl
@[simp] theorem Casement.setBit_rsa (c : Casement) (n : Nat) (b : Bool) : (c.setBit n b).rsa = c.rsa := rfl
@[simp] theorem Casement.setBit_rstack (c : Casement) (n : Nat) (b : Bool) : (c.setBit n b).rstack = c.rstack := rfl
@[simp] theorem Casement.setBit_watches (c : Casement) (n : Nat) (b : Bool) : (c.setBit n b).watches = c.watches := rfl
@[simp] theorem Casement.setBit_opnd (c : Casement) (n : Nat) (b : Bool) : (c.setBit n b).opnd = c.opnd := rfl
@[simp] theorem Casement.setBit_shown (c : Casement) (n : Nat) (b : Bool) : (c.setBit n b).shown = c.shown := rfl
@[simp] theorem Casement.setBit_pend (c : Casement) (n : Nat) (b : Bool) : (c.setBit n b).pend = c.pend := rfl
@[simp] theorem Casement.setBit_fpc (c : Casement) (n : Nat) (b : Bool) : (c.setBit n b).fpc = c.fpc := rfl
@[simp] theorem Casement.setBit_rdc (c : Casement) (n : Nat) (b : Bool) : (c.setBit n b).rdc = c.rdc := rfl
@[simp] theorem Casement.setBit_asl (c : Casement) (n : Nat) (b : Bool) : (c.setBit n b).asl = c.asl := rfl
@[simp] theorem Casement.setBit_tfs (c : Casement) (n : Nat) (b : Bool) : (c.setBit n b).tfs = c.tfs := rfl
@[simp] theorem Casement.setBit_tfva (c : Casement) (n : Nat) (b : Bool) : (c.setBit n b).tfva = c.tfva := rfl
@[simp] theorem Casement.setBit_tfia (c : Casement) (n : Nat) (b : Bool) : (c.setBit n b).tfia = c.tfia := rfl
@[simp] theorem Casement.setBit_rmax (c : Casement) (n : Nat) (b : Bool) : (c.setBit n b).rmax = c.rmax := rfl
@[simp] theorem Casement.setBit_nsat (c : Casement) (n : Nat) (b : Bool) : (c.setBit n b).nsat = c.nsat := rfl
@[simp] theorem Casement.setBit_nflz (c : Casement) (n : Nat) (b : Bool) : (c.setBit n b).nflz = c.nflz := rfl
@[simp] theorem Casement.setBit_tstart (c : Casement) (n : Nat) (b : Bool) : (c.setBit n b).tstart = c.tstart := rfl
@[simp] theorem Casement.setBit_rowNext (c : Casement) (n : Nat) (b : Bool) : (c.setBit n b).rowNext = c.rowNext := rfl
@[simp] theorem Casement.setBit_frame (c : Casement) (n : Nat) (b : Bool) : (c.setBit n b).frame = c.frame := rfl
@[simp] theorem Casement.setBit_switched (c : Casement) (n : Nat) (b : Bool) : (c.setBit n b).switched = c.switched := rfl
@[simp] theorem Casement.setBit_ticket (c : Casement) (n : Nat) (b : Bool) : (c.setBit n b).ticket = c.ticket := rfl
@[simp] theorem Casement.setBit_gen (c : Casement) (n : Nat) (b : Bool) : (c.setBit n b).gen = c.gen := rfl
@[simp] theorem Casement.setBit_dfmFmt (c : Casement) (n : Nat) (b : Bool) : (c.setBit n b).dfmFmt = c.dfmFmt := rfl
@[simp] theorem Casement.setBit_acc (c : Casement) (n : Nat) (b : Bool) : (c.setBit n b).acc = c.acc := rfl
@[simp] theorem Casement.setBit_v (c : Casement) (n : Nat) (b : Bool) : (c.setBit n b).v = c.v := rfl
@[simp] theorem Casement.setBit_vpoison (c : Casement) (n : Nat) (b : Bool) : (c.setBit n b).vpoison = c.vpoison := rfl
@[simp] theorem Casement.setBit_vres (c : Casement) (n : Nat) (b : Bool) : (c.setBit n b).vres = c.vres := rfl
@[simp] theorem Casement.setBit_m (c : Casement) (n : Nat) (b : Bool) : (c.setBit n b).m = c.m := rfl
@[simp] theorem Casement.setBit_vlen (c : Casement) (n : Nat) (b : Bool) : (c.setBit n b).vlen = c.vlen := rfl
@[simp] theorem Casement.setBit_t (c : Casement) (n : Nat) (b : Bool) : (c.setBit n b).t = c.t := rfl
@[simp] theorem Casement.setBit_tpoison (c : Casement) (n : Nat) (b : Bool) : (c.setBit n b).tpoison = c.tpoison := rfl
@[simp] theorem Casement.setBit_tres (c : Casement) (n : Nat) (b : Bool) : (c.setBit n b).tres = c.tres := rfl
@[simp] theorem Casement.setBit_tCorr (c : Casement) (n : Nat) (b : Bool) : (c.setBit n b).tCorr = c.tCorr := rfl
@[simp] theorem Casement.setBit_tErr (c : Casement) (n : Nat) (b : Bool) : (c.setBit n b).tErr = c.tErr := rfl
@[simp] theorem Casement.setBit_call (c : Casement) (n : Nat) (b : Bool) : (c.setBit n b).call = c.call := rfl
@[simp] theorem Casement.setBit_xfer (c : Casement) (n : Nat) (b : Bool) : (c.setBit n b).xfer = c.xfer := rfl
@[simp] theorem Casement.setBit_waiting (c : Casement) (n : Nat) (b : Bool) : (c.setBit n b).waiting = c.waiting := rfl
@[simp] theorem Casement.setBit_raised (c : Casement) (n : Nat) (b : Bool) : (c.setBit n b).raised = c.raised := rfl
@[simp] theorem Casement.setBit_held (c : Casement) (n : Nat) (b : Bool) : (c.setBit n b).held = c.held := rfl
@[simp] theorem Casement.setBit_fails (c : Casement) (n : Nat) (b : Bool) : (c.setBit n b).fails = c.fails := rfl
@[simp] theorem Casement.setBit_asyncDue (c : Casement) (n : Nat) (b : Bool) : (c.setBit n b).asyncDue = c.asyncDue := rfl
@[simp] theorem Casement.setBit_stores (c : Casement) (n : Nat) (b : Bool) : (c.setBit n b).stores = c.stores := rfl
@[simp] theorem Casement.setBit_landed (c : Casement) (n : Nat) (b : Bool) : (c.setBit n b).landed = c.landed := rfl
@[simp] theorem Casement.setBit_first (c : Casement) (n : Nat) (b : Bool) : (c.setBit n b).first = c.first := rfl
@[simp] theorem Casement.setBit_frameRet (c : Casement) (n : Nat) (b : Bool) : (c.setBit n b).frameRet = c.frameRet := rfl
@[simp] theorem Casement.setBit_skip (c : Casement) (n : Nat) (b : Bool) : (c.setBit n b).skip = c.skip := rfl
@[simp] theorem Casement.setBit_dBad (c : Casement) (n : Nat) (b : Bool) : (c.setBit n b).dBad = c.dBad := rfl
@[simp] theorem Casement.setBit_kBad (c : Casement) (n : Nat) (b : Bool) : (c.setBit n b).kBad = c.kBad := rfl
@[simp] theorem Casement.setBit_otherBad (c : Casement) (n : Nat) (b : Bool) : (c.setBit n b).otherBad = c.otherBad := rfl

/-! `Casement.setTile` -/
@[simp] theorem Casement.setTile_task (c : Casement) (j : Nat) (v : BitVec 8192) (bad res : BitVec 16) : (c.setTile j v bad res).task = c.task := rfl
@[simp] theorem Casement.setTile_pc (c : Casement) (j : Nat) (v : BitVec 8192) (bad res : BitVec 16) : (c.setTile j v bad res).pc = c.pc := rfl
@[simp] theorem Casement.setTile_icount (c : Casement) (j : Nat) (v : BitVec 8192) (bad res : BitVec 16) : (c.setTile j v bad res).icount = c.icount := rfl
@[simp] theorem Casement.setTile_d (c : Casement) (j : Nat) (v : BitVec 8192) (bad res : BitVec 16) : (c.setTile j v bad res).d = c.d := rfl
@[simp] theorem Casement.setTile_k (c : Casement) (j : Nat) (v : BitVec 8192) (bad res : BitVec 16) : (c.setTile j v bad res).k = c.k := rfl
@[simp] theorem Casement.setTile_lent (c : Casement) (j : Nat) (v : BitVec 8192) (bad res : BitVec 16) : (c.setTile j v bad res).lent = c.lent := rfl
@[simp] theorem Casement.setTile_x (c : Casement) (j : Nat) (v : BitVec 8192) (bad res : BitVec 16) : (c.setTile j v bad res).x = c.x := rfl
@[simp] theorem Casement.setTile_xpend (c : Casement) (j : Nat) (v : BitVec 8192) (bad res : BitVec 16) : (c.setTile j v bad res).xpend = c.xpend := rfl
@[simp] theorem Casement.setTile_s2ctl (c : Casement) (j : Nat) (v : BitVec 8192) (bad res : BitVec 16) : (c.setTile j v bad res).s2ctl = c.s2ctl := rfl
@[simp] theorem Casement.setTile_bnk (c : Casement) (j : Nat) (v : BitVec 8192) (bad res : BitVec 16) : (c.setTile j v bad res).bnk = c.bnk := rfl
@[simp] theorem Casement.setTile_tsbp (c : Casement) (j : Nat) (v : BitVec 8192) (bad res : BitVec 16) : (c.setTile j v bad res).tsbp = c.tsbp := rfl
@[simp] theorem Casement.setTile_gsel (c : Casement) (j : Nat) (v : BitVec 8192) (bad res : BitVec 16) : (c.setTile j v bad res).gsel = c.gsel := rfl
@[simp] theorem Casement.setTile_flg (c : Casement) (j : Nat) (v : BitVec 8192) (bad res : BitVec 16) : (c.setTile j v bad res).flg = c.flg := rfl
@[simp] theorem Casement.setTile_rptc (c : Casement) (j : Nat) (v : BitVec 8192) (bad res : BitVec 16) : (c.setTile j v bad res).rptc = c.rptc := rfl
@[simp] theorem Casement.setTile_dsp (c : Casement) (j : Nat) (v : BitVec 8192) (bad res : BitVec 16) : (c.setTile j v bad res).dsp = c.dsp := rfl
@[simp] theorem Casement.setTile_rsa (c : Casement) (j : Nat) (v : BitVec 8192) (bad res : BitVec 16) : (c.setTile j v bad res).rsa = c.rsa := rfl
@[simp] theorem Casement.setTile_rstack (c : Casement) (j : Nat) (v : BitVec 8192) (bad res : BitVec 16) : (c.setTile j v bad res).rstack = c.rstack := rfl
@[simp] theorem Casement.setTile_bits (c : Casement) (j : Nat) (v : BitVec 8192) (bad res : BitVec 16) : (c.setTile j v bad res).bits = c.bits := rfl
@[simp] theorem Casement.setTile_watches (c : Casement) (j : Nat) (v : BitVec 8192) (bad res : BitVec 16) : (c.setTile j v bad res).watches = c.watches := rfl
@[simp] theorem Casement.setTile_opnd (c : Casement) (j : Nat) (v : BitVec 8192) (bad res : BitVec 16) : (c.setTile j v bad res).opnd = c.opnd := rfl
@[simp] theorem Casement.setTile_shown (c : Casement) (j : Nat) (v : BitVec 8192) (bad res : BitVec 16) : (c.setTile j v bad res).shown = c.shown := rfl
@[simp] theorem Casement.setTile_pend (c : Casement) (j : Nat) (v : BitVec 8192) (bad res : BitVec 16) : (c.setTile j v bad res).pend = c.pend := rfl
@[simp] theorem Casement.setTile_fpc (c : Casement) (j : Nat) (v : BitVec 8192) (bad res : BitVec 16) : (c.setTile j v bad res).fpc = c.fpc := rfl
@[simp] theorem Casement.setTile_rdc (c : Casement) (j : Nat) (v : BitVec 8192) (bad res : BitVec 16) : (c.setTile j v bad res).rdc = c.rdc := rfl
@[simp] theorem Casement.setTile_asl (c : Casement) (j : Nat) (v : BitVec 8192) (bad res : BitVec 16) : (c.setTile j v bad res).asl = c.asl := rfl
@[simp] theorem Casement.setTile_tfs (c : Casement) (j : Nat) (v : BitVec 8192) (bad res : BitVec 16) : (c.setTile j v bad res).tfs = c.tfs := rfl
@[simp] theorem Casement.setTile_tfva (c : Casement) (j : Nat) (v : BitVec 8192) (bad res : BitVec 16) : (c.setTile j v bad res).tfva = c.tfva := rfl
@[simp] theorem Casement.setTile_tfia (c : Casement) (j : Nat) (v : BitVec 8192) (bad res : BitVec 16) : (c.setTile j v bad res).tfia = c.tfia := rfl
@[simp] theorem Casement.setTile_rmax (c : Casement) (j : Nat) (v : BitVec 8192) (bad res : BitVec 16) : (c.setTile j v bad res).rmax = c.rmax := rfl
@[simp] theorem Casement.setTile_nsat (c : Casement) (j : Nat) (v : BitVec 8192) (bad res : BitVec 16) : (c.setTile j v bad res).nsat = c.nsat := rfl
@[simp] theorem Casement.setTile_nflz (c : Casement) (j : Nat) (v : BitVec 8192) (bad res : BitVec 16) : (c.setTile j v bad res).nflz = c.nflz := rfl
@[simp] theorem Casement.setTile_tstart (c : Casement) (j : Nat) (v : BitVec 8192) (bad res : BitVec 16) : (c.setTile j v bad res).tstart = c.tstart := rfl
@[simp] theorem Casement.setTile_rowNext (c : Casement) (j : Nat) (v : BitVec 8192) (bad res : BitVec 16) : (c.setTile j v bad res).rowNext = c.rowNext := rfl
@[simp] theorem Casement.setTile_frame (c : Casement) (j : Nat) (v : BitVec 8192) (bad res : BitVec 16) : (c.setTile j v bad res).frame = c.frame := rfl
@[simp] theorem Casement.setTile_switched (c : Casement) (j : Nat) (v : BitVec 8192) (bad res : BitVec 16) : (c.setTile j v bad res).switched = c.switched := rfl
@[simp] theorem Casement.setTile_ticket (c : Casement) (j : Nat) (v : BitVec 8192) (bad res : BitVec 16) : (c.setTile j v bad res).ticket = c.ticket := rfl
@[simp] theorem Casement.setTile_gen (c : Casement) (j : Nat) (v : BitVec 8192) (bad res : BitVec 16) : (c.setTile j v bad res).gen = c.gen := rfl
@[simp] theorem Casement.setTile_dfmFmt (c : Casement) (j : Nat) (v : BitVec 8192) (bad res : BitVec 16) : (c.setTile j v bad res).dfmFmt = c.dfmFmt := rfl
@[simp] theorem Casement.setTile_acc (c : Casement) (j : Nat) (v : BitVec 8192) (bad res : BitVec 16) : (c.setTile j v bad res).acc = c.acc := rfl
@[simp] theorem Casement.setTile_v (c : Casement) (j : Nat) (v : BitVec 8192) (bad res : BitVec 16) : (c.setTile j v bad res).v = c.v := rfl
@[simp] theorem Casement.setTile_vpoison (c : Casement) (j : Nat) (v : BitVec 8192) (bad res : BitVec 16) : (c.setTile j v bad res).vpoison = c.vpoison := rfl
@[simp] theorem Casement.setTile_vres (c : Casement) (j : Nat) (v : BitVec 8192) (bad res : BitVec 16) : (c.setTile j v bad res).vres = c.vres := rfl
@[simp] theorem Casement.setTile_m (c : Casement) (j : Nat) (v : BitVec 8192) (bad res : BitVec 16) : (c.setTile j v bad res).m = c.m := rfl
@[simp] theorem Casement.setTile_vlen (c : Casement) (j : Nat) (v : BitVec 8192) (bad res : BitVec 16) : (c.setTile j v bad res).vlen = c.vlen := rfl
@[simp] theorem Casement.setTile_call (c : Casement) (j : Nat) (v : BitVec 8192) (bad res : BitVec 16) : (c.setTile j v bad res).call = c.call := rfl
@[simp] theorem Casement.setTile_xfer (c : Casement) (j : Nat) (v : BitVec 8192) (bad res : BitVec 16) : (c.setTile j v bad res).xfer = c.xfer := rfl
@[simp] theorem Casement.setTile_waiting (c : Casement) (j : Nat) (v : BitVec 8192) (bad res : BitVec 16) : (c.setTile j v bad res).waiting = c.waiting := rfl
@[simp] theorem Casement.setTile_raised (c : Casement) (j : Nat) (v : BitVec 8192) (bad res : BitVec 16) : (c.setTile j v bad res).raised = c.raised := rfl
@[simp] theorem Casement.setTile_held (c : Casement) (j : Nat) (v : BitVec 8192) (bad res : BitVec 16) : (c.setTile j v bad res).held = c.held := rfl
@[simp] theorem Casement.setTile_fails (c : Casement) (j : Nat) (v : BitVec 8192) (bad res : BitVec 16) : (c.setTile j v bad res).fails = c.fails := rfl
@[simp] theorem Casement.setTile_asyncDue (c : Casement) (j : Nat) (v : BitVec 8192) (bad res : BitVec 16) : (c.setTile j v bad res).asyncDue = c.asyncDue := rfl
@[simp] theorem Casement.setTile_stores (c : Casement) (j : Nat) (v : BitVec 8192) (bad res : BitVec 16) : (c.setTile j v bad res).stores = c.stores := rfl
@[simp] theorem Casement.setTile_landed (c : Casement) (j : Nat) (v : BitVec 8192) (bad res : BitVec 16) : (c.setTile j v bad res).landed = c.landed := rfl
@[simp] theorem Casement.setTile_first (c : Casement) (j : Nat) (v : BitVec 8192) (bad res : BitVec 16) : (c.setTile j v bad res).first = c.first := rfl
@[simp] theorem Casement.setTile_frameRet (c : Casement) (j : Nat) (v : BitVec 8192) (bad res : BitVec 16) : (c.setTile j v bad res).frameRet = c.frameRet := rfl
@[simp] theorem Casement.setTile_skip (c : Casement) (j : Nat) (v : BitVec 8192) (bad res : BitVec 16) : (c.setTile j v bad res).skip = c.skip := rfl
@[simp] theorem Casement.setTile_dBad (c : Casement) (j : Nat) (v : BitVec 8192) (bad res : BitVec 16) : (c.setTile j v bad res).dBad = c.dBad := rfl
@[simp] theorem Casement.setTile_kBad (c : Casement) (j : Nat) (v : BitVec 8192) (bad res : BitVec 16) : (c.setTile j v bad res).kBad = c.kBad := rfl
@[simp] theorem Casement.setTile_gBad (c : Casement) (j : Nat) (v : BitVec 8192) (bad res : BitVec 16) : (c.setTile j v bad res).gBad = c.gBad := rfl
@[simp] theorem Casement.setTile_otherBad (c : Casement) (j : Nat) (v : BitVec 8192) (bad res : BitVec 16) : (c.setTile j v bad res).otherBad = c.otherBad := rfl

/-! `Casement.setV` -/
@[simp] theorem Casement.setV_task (c : Casement) (j : Nat) (v : BitVec 2048) (bad res : BitVec 32) : (c.setV j v bad res).task = c.task := rfl
@[simp] theorem Casement.setV_pc (c : Casement) (j : Nat) (v : BitVec 2048) (bad res : BitVec 32) : (c.setV j v bad res).pc = c.pc := rfl
@[simp] theorem Casement.setV_icount (c : Casement) (j : Nat) (v : BitVec 2048) (bad res : BitVec 32) : (c.setV j v bad res).icount = c.icount := rfl
@[simp] theorem Casement.setV_d (c : Casement) (j : Nat) (v : BitVec 2048) (bad res : BitVec 32) : (c.setV j v bad res).d = c.d := rfl
@[simp] theorem Casement.setV_k (c : Casement) (j : Nat) (v : BitVec 2048) (bad res : BitVec 32) : (c.setV j v bad res).k = c.k := rfl
@[simp] theorem Casement.setV_lent (c : Casement) (j : Nat) (v : BitVec 2048) (bad res : BitVec 32) : (c.setV j v bad res).lent = c.lent := rfl
@[simp] theorem Casement.setV_x (c : Casement) (j : Nat) (v : BitVec 2048) (bad res : BitVec 32) : (c.setV j v bad res).x = c.x := rfl
@[simp] theorem Casement.setV_xpend (c : Casement) (j : Nat) (v : BitVec 2048) (bad res : BitVec 32) : (c.setV j v bad res).xpend = c.xpend := rfl
@[simp] theorem Casement.setV_s2ctl (c : Casement) (j : Nat) (v : BitVec 2048) (bad res : BitVec 32) : (c.setV j v bad res).s2ctl = c.s2ctl := rfl
@[simp] theorem Casement.setV_bnk (c : Casement) (j : Nat) (v : BitVec 2048) (bad res : BitVec 32) : (c.setV j v bad res).bnk = c.bnk := rfl
@[simp] theorem Casement.setV_tsbp (c : Casement) (j : Nat) (v : BitVec 2048) (bad res : BitVec 32) : (c.setV j v bad res).tsbp = c.tsbp := rfl
@[simp] theorem Casement.setV_gsel (c : Casement) (j : Nat) (v : BitVec 2048) (bad res : BitVec 32) : (c.setV j v bad res).gsel = c.gsel := rfl
@[simp] theorem Casement.setV_flg (c : Casement) (j : Nat) (v : BitVec 2048) (bad res : BitVec 32) : (c.setV j v bad res).flg = c.flg := rfl
@[simp] theorem Casement.setV_rptc (c : Casement) (j : Nat) (v : BitVec 2048) (bad res : BitVec 32) : (c.setV j v bad res).rptc = c.rptc := rfl
@[simp] theorem Casement.setV_dsp (c : Casement) (j : Nat) (v : BitVec 2048) (bad res : BitVec 32) : (c.setV j v bad res).dsp = c.dsp := rfl
@[simp] theorem Casement.setV_rsa (c : Casement) (j : Nat) (v : BitVec 2048) (bad res : BitVec 32) : (c.setV j v bad res).rsa = c.rsa := rfl
@[simp] theorem Casement.setV_rstack (c : Casement) (j : Nat) (v : BitVec 2048) (bad res : BitVec 32) : (c.setV j v bad res).rstack = c.rstack := rfl
@[simp] theorem Casement.setV_bits (c : Casement) (j : Nat) (v : BitVec 2048) (bad res : BitVec 32) : (c.setV j v bad res).bits = c.bits := rfl
@[simp] theorem Casement.setV_watches (c : Casement) (j : Nat) (v : BitVec 2048) (bad res : BitVec 32) : (c.setV j v bad res).watches = c.watches := rfl
@[simp] theorem Casement.setV_opnd (c : Casement) (j : Nat) (v : BitVec 2048) (bad res : BitVec 32) : (c.setV j v bad res).opnd = c.opnd := rfl
@[simp] theorem Casement.setV_shown (c : Casement) (j : Nat) (v : BitVec 2048) (bad res : BitVec 32) : (c.setV j v bad res).shown = c.shown := rfl
@[simp] theorem Casement.setV_pend (c : Casement) (j : Nat) (v : BitVec 2048) (bad res : BitVec 32) : (c.setV j v bad res).pend = c.pend := rfl
@[simp] theorem Casement.setV_fpc (c : Casement) (j : Nat) (v : BitVec 2048) (bad res : BitVec 32) : (c.setV j v bad res).fpc = c.fpc := rfl
@[simp] theorem Casement.setV_rdc (c : Casement) (j : Nat) (v : BitVec 2048) (bad res : BitVec 32) : (c.setV j v bad res).rdc = c.rdc := rfl
@[simp] theorem Casement.setV_asl (c : Casement) (j : Nat) (v : BitVec 2048) (bad res : BitVec 32) : (c.setV j v bad res).asl = c.asl := rfl
@[simp] theorem Casement.setV_tfs (c : Casement) (j : Nat) (v : BitVec 2048) (bad res : BitVec 32) : (c.setV j v bad res).tfs = c.tfs := rfl
@[simp] theorem Casement.setV_tfva (c : Casement) (j : Nat) (v : BitVec 2048) (bad res : BitVec 32) : (c.setV j v bad res).tfva = c.tfva := rfl
@[simp] theorem Casement.setV_tfia (c : Casement) (j : Nat) (v : BitVec 2048) (bad res : BitVec 32) : (c.setV j v bad res).tfia = c.tfia := rfl
@[simp] theorem Casement.setV_rmax (c : Casement) (j : Nat) (v : BitVec 2048) (bad res : BitVec 32) : (c.setV j v bad res).rmax = c.rmax := rfl
@[simp] theorem Casement.setV_nsat (c : Casement) (j : Nat) (v : BitVec 2048) (bad res : BitVec 32) : (c.setV j v bad res).nsat = c.nsat := rfl
@[simp] theorem Casement.setV_nflz (c : Casement) (j : Nat) (v : BitVec 2048) (bad res : BitVec 32) : (c.setV j v bad res).nflz = c.nflz := rfl
@[simp] theorem Casement.setV_tstart (c : Casement) (j : Nat) (v : BitVec 2048) (bad res : BitVec 32) : (c.setV j v bad res).tstart = c.tstart := rfl
@[simp] theorem Casement.setV_rowNext (c : Casement) (j : Nat) (v : BitVec 2048) (bad res : BitVec 32) : (c.setV j v bad res).rowNext = c.rowNext := rfl
@[simp] theorem Casement.setV_frame (c : Casement) (j : Nat) (v : BitVec 2048) (bad res : BitVec 32) : (c.setV j v bad res).frame = c.frame := rfl
@[simp] theorem Casement.setV_switched (c : Casement) (j : Nat) (v : BitVec 2048) (bad res : BitVec 32) : (c.setV j v bad res).switched = c.switched := rfl
@[simp] theorem Casement.setV_ticket (c : Casement) (j : Nat) (v : BitVec 2048) (bad res : BitVec 32) : (c.setV j v bad res).ticket = c.ticket := rfl
@[simp] theorem Casement.setV_gen (c : Casement) (j : Nat) (v : BitVec 2048) (bad res : BitVec 32) : (c.setV j v bad res).gen = c.gen := rfl
@[simp] theorem Casement.setV_dfmFmt (c : Casement) (j : Nat) (v : BitVec 2048) (bad res : BitVec 32) : (c.setV j v bad res).dfmFmt = c.dfmFmt := rfl
@[simp] theorem Casement.setV_acc (c : Casement) (j : Nat) (v : BitVec 2048) (bad res : BitVec 32) : (c.setV j v bad res).acc = c.acc := rfl
@[simp] theorem Casement.setV_m (c : Casement) (j : Nat) (v : BitVec 2048) (bad res : BitVec 32) : (c.setV j v bad res).m = c.m := rfl
@[simp] theorem Casement.setV_vlen (c : Casement) (j : Nat) (v : BitVec 2048) (bad res : BitVec 32) : (c.setV j v bad res).vlen = c.vlen := rfl
@[simp] theorem Casement.setV_t (c : Casement) (j : Nat) (v : BitVec 2048) (bad res : BitVec 32) : (c.setV j v bad res).t = c.t := rfl
@[simp] theorem Casement.setV_tpoison (c : Casement) (j : Nat) (v : BitVec 2048) (bad res : BitVec 32) : (c.setV j v bad res).tpoison = c.tpoison := rfl
@[simp] theorem Casement.setV_tres (c : Casement) (j : Nat) (v : BitVec 2048) (bad res : BitVec 32) : (c.setV j v bad res).tres = c.tres := rfl
@[simp] theorem Casement.setV_tCorr (c : Casement) (j : Nat) (v : BitVec 2048) (bad res : BitVec 32) : (c.setV j v bad res).tCorr = c.tCorr := rfl
@[simp] theorem Casement.setV_tErr (c : Casement) (j : Nat) (v : BitVec 2048) (bad res : BitVec 32) : (c.setV j v bad res).tErr = c.tErr := rfl
@[simp] theorem Casement.setV_call (c : Casement) (j : Nat) (v : BitVec 2048) (bad res : BitVec 32) : (c.setV j v bad res).call = c.call := rfl
@[simp] theorem Casement.setV_xfer (c : Casement) (j : Nat) (v : BitVec 2048) (bad res : BitVec 32) : (c.setV j v bad res).xfer = c.xfer := rfl
@[simp] theorem Casement.setV_waiting (c : Casement) (j : Nat) (v : BitVec 2048) (bad res : BitVec 32) : (c.setV j v bad res).waiting = c.waiting := rfl
@[simp] theorem Casement.setV_raised (c : Casement) (j : Nat) (v : BitVec 2048) (bad res : BitVec 32) : (c.setV j v bad res).raised = c.raised := rfl
@[simp] theorem Casement.setV_held (c : Casement) (j : Nat) (v : BitVec 2048) (bad res : BitVec 32) : (c.setV j v bad res).held = c.held := rfl
@[simp] theorem Casement.setV_fails (c : Casement) (j : Nat) (v : BitVec 2048) (bad res : BitVec 32) : (c.setV j v bad res).fails = c.fails := rfl
@[simp] theorem Casement.setV_asyncDue (c : Casement) (j : Nat) (v : BitVec 2048) (bad res : BitVec 32) : (c.setV j v bad res).asyncDue = c.asyncDue := rfl
@[simp] theorem Casement.setV_stores (c : Casement) (j : Nat) (v : BitVec 2048) (bad res : BitVec 32) : (c.setV j v bad res).stores = c.stores := rfl
@[simp] theorem Casement.setV_landed (c : Casement) (j : Nat) (v : BitVec 2048) (bad res : BitVec 32) : (c.setV j v bad res).landed = c.landed := rfl
@[simp] theorem Casement.setV_first (c : Casement) (j : Nat) (v : BitVec 2048) (bad res : BitVec 32) : (c.setV j v bad res).first = c.first := rfl
@[simp] theorem Casement.setV_frameRet (c : Casement) (j : Nat) (v : BitVec 2048) (bad res : BitVec 32) : (c.setV j v bad res).frameRet = c.frameRet := rfl
@[simp] theorem Casement.setV_skip (c : Casement) (j : Nat) (v : BitVec 2048) (bad res : BitVec 32) : (c.setV j v bad res).skip = c.skip := rfl
@[simp] theorem Casement.setV_dBad (c : Casement) (j : Nat) (v : BitVec 2048) (bad res : BitVec 32) : (c.setV j v bad res).dBad = c.dBad := rfl
@[simp] theorem Casement.setV_kBad (c : Casement) (j : Nat) (v : BitVec 2048) (bad res : BitVec 32) : (c.setV j v bad res).kBad = c.kBad := rfl
@[simp] theorem Casement.setV_gBad (c : Casement) (j : Nat) (v : BitVec 2048) (bad res : BitVec 32) : (c.setV j v bad res).gBad = c.gBad := rfl
@[simp] theorem Casement.setV_otherBad (c : Casement) (j : Nat) (v : BitVec 2048) (bad res : BitVec 32) : (c.setV j v bad res).otherBad = c.otherBad := rfl

/-! `Casement.setM` -/
@[simp] theorem Casement.setM_task (c : Casement) (j : Nat) (v : BitVec 256) : (c.setM j v).task = c.task := rfl
@[simp] theorem Casement.setM_pc (c : Casement) (j : Nat) (v : BitVec 256) : (c.setM j v).pc = c.pc := rfl
@[simp] theorem Casement.setM_icount (c : Casement) (j : Nat) (v : BitVec 256) : (c.setM j v).icount = c.icount := rfl
@[simp] theorem Casement.setM_d (c : Casement) (j : Nat) (v : BitVec 256) : (c.setM j v).d = c.d := rfl
@[simp] theorem Casement.setM_k (c : Casement) (j : Nat) (v : BitVec 256) : (c.setM j v).k = c.k := rfl
@[simp] theorem Casement.setM_lent (c : Casement) (j : Nat) (v : BitVec 256) : (c.setM j v).lent = c.lent := rfl
@[simp] theorem Casement.setM_x (c : Casement) (j : Nat) (v : BitVec 256) : (c.setM j v).x = c.x := rfl
@[simp] theorem Casement.setM_xpend (c : Casement) (j : Nat) (v : BitVec 256) : (c.setM j v).xpend = c.xpend := rfl
@[simp] theorem Casement.setM_s2ctl (c : Casement) (j : Nat) (v : BitVec 256) : (c.setM j v).s2ctl = c.s2ctl := rfl
@[simp] theorem Casement.setM_bnk (c : Casement) (j : Nat) (v : BitVec 256) : (c.setM j v).bnk = c.bnk := rfl
@[simp] theorem Casement.setM_tsbp (c : Casement) (j : Nat) (v : BitVec 256) : (c.setM j v).tsbp = c.tsbp := rfl
@[simp] theorem Casement.setM_gsel (c : Casement) (j : Nat) (v : BitVec 256) : (c.setM j v).gsel = c.gsel := rfl
@[simp] theorem Casement.setM_flg (c : Casement) (j : Nat) (v : BitVec 256) : (c.setM j v).flg = c.flg := rfl
@[simp] theorem Casement.setM_rptc (c : Casement) (j : Nat) (v : BitVec 256) : (c.setM j v).rptc = c.rptc := rfl
@[simp] theorem Casement.setM_dsp (c : Casement) (j : Nat) (v : BitVec 256) : (c.setM j v).dsp = c.dsp := rfl
@[simp] theorem Casement.setM_rsa (c : Casement) (j : Nat) (v : BitVec 256) : (c.setM j v).rsa = c.rsa := rfl
@[simp] theorem Casement.setM_rstack (c : Casement) (j : Nat) (v : BitVec 256) : (c.setM j v).rstack = c.rstack := rfl
@[simp] theorem Casement.setM_bits (c : Casement) (j : Nat) (v : BitVec 256) : (c.setM j v).bits = c.bits := rfl
@[simp] theorem Casement.setM_watches (c : Casement) (j : Nat) (v : BitVec 256) : (c.setM j v).watches = c.watches := rfl
@[simp] theorem Casement.setM_opnd (c : Casement) (j : Nat) (v : BitVec 256) : (c.setM j v).opnd = c.opnd := rfl
@[simp] theorem Casement.setM_shown (c : Casement) (j : Nat) (v : BitVec 256) : (c.setM j v).shown = c.shown := rfl
@[simp] theorem Casement.setM_pend (c : Casement) (j : Nat) (v : BitVec 256) : (c.setM j v).pend = c.pend := rfl
@[simp] theorem Casement.setM_fpc (c : Casement) (j : Nat) (v : BitVec 256) : (c.setM j v).fpc = c.fpc := rfl
@[simp] theorem Casement.setM_rdc (c : Casement) (j : Nat) (v : BitVec 256) : (c.setM j v).rdc = c.rdc := rfl
@[simp] theorem Casement.setM_asl (c : Casement) (j : Nat) (v : BitVec 256) : (c.setM j v).asl = c.asl := rfl
@[simp] theorem Casement.setM_tfs (c : Casement) (j : Nat) (v : BitVec 256) : (c.setM j v).tfs = c.tfs := rfl
@[simp] theorem Casement.setM_tfva (c : Casement) (j : Nat) (v : BitVec 256) : (c.setM j v).tfva = c.tfva := rfl
@[simp] theorem Casement.setM_tfia (c : Casement) (j : Nat) (v : BitVec 256) : (c.setM j v).tfia = c.tfia := rfl
@[simp] theorem Casement.setM_rmax (c : Casement) (j : Nat) (v : BitVec 256) : (c.setM j v).rmax = c.rmax := rfl
@[simp] theorem Casement.setM_nsat (c : Casement) (j : Nat) (v : BitVec 256) : (c.setM j v).nsat = c.nsat := rfl
@[simp] theorem Casement.setM_nflz (c : Casement) (j : Nat) (v : BitVec 256) : (c.setM j v).nflz = c.nflz := rfl
@[simp] theorem Casement.setM_tstart (c : Casement) (j : Nat) (v : BitVec 256) : (c.setM j v).tstart = c.tstart := rfl
@[simp] theorem Casement.setM_rowNext (c : Casement) (j : Nat) (v : BitVec 256) : (c.setM j v).rowNext = c.rowNext := rfl
@[simp] theorem Casement.setM_frame (c : Casement) (j : Nat) (v : BitVec 256) : (c.setM j v).frame = c.frame := rfl
@[simp] theorem Casement.setM_switched (c : Casement) (j : Nat) (v : BitVec 256) : (c.setM j v).switched = c.switched := rfl
@[simp] theorem Casement.setM_ticket (c : Casement) (j : Nat) (v : BitVec 256) : (c.setM j v).ticket = c.ticket := rfl
@[simp] theorem Casement.setM_gen (c : Casement) (j : Nat) (v : BitVec 256) : (c.setM j v).gen = c.gen := rfl
@[simp] theorem Casement.setM_dfmFmt (c : Casement) (j : Nat) (v : BitVec 256) : (c.setM j v).dfmFmt = c.dfmFmt := rfl
@[simp] theorem Casement.setM_acc (c : Casement) (j : Nat) (v : BitVec 256) : (c.setM j v).acc = c.acc := rfl
@[simp] theorem Casement.setM_v (c : Casement) (j : Nat) (v : BitVec 256) : (c.setM j v).v = c.v := rfl
@[simp] theorem Casement.setM_vpoison (c : Casement) (j : Nat) (v : BitVec 256) : (c.setM j v).vpoison = c.vpoison := rfl
@[simp] theorem Casement.setM_vres (c : Casement) (j : Nat) (v : BitVec 256) : (c.setM j v).vres = c.vres := rfl
@[simp] theorem Casement.setM_vlen (c : Casement) (j : Nat) (v : BitVec 256) : (c.setM j v).vlen = c.vlen := rfl
@[simp] theorem Casement.setM_t (c : Casement) (j : Nat) (v : BitVec 256) : (c.setM j v).t = c.t := rfl
@[simp] theorem Casement.setM_tpoison (c : Casement) (j : Nat) (v : BitVec 256) : (c.setM j v).tpoison = c.tpoison := rfl
@[simp] theorem Casement.setM_tres (c : Casement) (j : Nat) (v : BitVec 256) : (c.setM j v).tres = c.tres := rfl
@[simp] theorem Casement.setM_tCorr (c : Casement) (j : Nat) (v : BitVec 256) : (c.setM j v).tCorr = c.tCorr := rfl
@[simp] theorem Casement.setM_tErr (c : Casement) (j : Nat) (v : BitVec 256) : (c.setM j v).tErr = c.tErr := rfl
@[simp] theorem Casement.setM_call (c : Casement) (j : Nat) (v : BitVec 256) : (c.setM j v).call = c.call := rfl
@[simp] theorem Casement.setM_xfer (c : Casement) (j : Nat) (v : BitVec 256) : (c.setM j v).xfer = c.xfer := rfl
@[simp] theorem Casement.setM_waiting (c : Casement) (j : Nat) (v : BitVec 256) : (c.setM j v).waiting = c.waiting := rfl
@[simp] theorem Casement.setM_raised (c : Casement) (j : Nat) (v : BitVec 256) : (c.setM j v).raised = c.raised := rfl
@[simp] theorem Casement.setM_held (c : Casement) (j : Nat) (v : BitVec 256) : (c.setM j v).held = c.held := rfl
@[simp] theorem Casement.setM_fails (c : Casement) (j : Nat) (v : BitVec 256) : (c.setM j v).fails = c.fails := rfl
@[simp] theorem Casement.setM_asyncDue (c : Casement) (j : Nat) (v : BitVec 256) : (c.setM j v).asyncDue = c.asyncDue := rfl
@[simp] theorem Casement.setM_stores (c : Casement) (j : Nat) (v : BitVec 256) : (c.setM j v).stores = c.stores := rfl
@[simp] theorem Casement.setM_landed (c : Casement) (j : Nat) (v : BitVec 256) : (c.setM j v).landed = c.landed := rfl
@[simp] theorem Casement.setM_first (c : Casement) (j : Nat) (v : BitVec 256) : (c.setM j v).first = c.first := rfl
@[simp] theorem Casement.setM_frameRet (c : Casement) (j : Nat) (v : BitVec 256) : (c.setM j v).frameRet = c.frameRet := rfl
@[simp] theorem Casement.setM_skip (c : Casement) (j : Nat) (v : BitVec 256) : (c.setM j v).skip = c.skip := rfl
@[simp] theorem Casement.setM_dBad (c : Casement) (j : Nat) (v : BitVec 256) : (c.setM j v).dBad = c.dBad := rfl
@[simp] theorem Casement.setM_kBad (c : Casement) (j : Nat) (v : BitVec 256) : (c.setM j v).kBad = c.kBad := rfl
@[simp] theorem Casement.setM_gBad (c : Casement) (j : Nat) (v : BitVec 256) : (c.setM j v).gBad = c.gBad := rfl
@[simp] theorem Casement.setM_otherBad (c : Casement) (j : Nat) (v : BitVec 256) : (c.setM j v).otherBad = c.otherBad := rfl

/-! `Casement.landRegs` -/
@[simp] theorem Casement.landRegs_task (c : Casement) (x : Contrib) : (c.landRegs x).task = c.task := rfl
@[simp] theorem Casement.landRegs_pc (c : Casement) (x : Contrib) : (c.landRegs x).pc = c.pc := rfl
@[simp] theorem Casement.landRegs_icount (c : Casement) (x : Contrib) : (c.landRegs x).icount = c.icount := rfl
@[simp] theorem Casement.landRegs_d (c : Casement) (x : Contrib) : (c.landRegs x).d = c.d := rfl
@[simp] theorem Casement.landRegs_k (c : Casement) (x : Contrib) : (c.landRegs x).k = c.k := rfl
@[simp] theorem Casement.landRegs_lent (c : Casement) (x : Contrib) : (c.landRegs x).lent = c.lent := rfl
@[simp] theorem Casement.landRegs_x (c : Casement) (x : Contrib) : (c.landRegs x).x = c.x := rfl
@[simp] theorem Casement.landRegs_xpend (c : Casement) (x : Contrib) : (c.landRegs x).xpend = c.xpend := rfl
@[simp] theorem Casement.landRegs_s2ctl (c : Casement) (x : Contrib) : (c.landRegs x).s2ctl = c.s2ctl := rfl
@[simp] theorem Casement.landRegs_bnk (c : Casement) (x : Contrib) : (c.landRegs x).bnk = c.bnk := rfl
@[simp] theorem Casement.landRegs_tsbp (c : Casement) (x : Contrib) : (c.landRegs x).tsbp = c.tsbp := rfl
@[simp] theorem Casement.landRegs_gsel (c : Casement) (x : Contrib) : (c.landRegs x).gsel = c.gsel := rfl
@[simp] theorem Casement.landRegs_flg (c : Casement) (x : Contrib) : (c.landRegs x).flg = c.flg := rfl
@[simp] theorem Casement.landRegs_rptc (c : Casement) (x : Contrib) : (c.landRegs x).rptc = c.rptc := rfl
@[simp] theorem Casement.landRegs_dsp (c : Casement) (x : Contrib) : (c.landRegs x).dsp = c.dsp := rfl
@[simp] theorem Casement.landRegs_rsa (c : Casement) (x : Contrib) : (c.landRegs x).rsa = c.rsa := rfl
@[simp] theorem Casement.landRegs_rstack (c : Casement) (x : Contrib) : (c.landRegs x).rstack = c.rstack := rfl
@[simp] theorem Casement.landRegs_bits (c : Casement) (x : Contrib) : (c.landRegs x).bits = c.bits := rfl
@[simp] theorem Casement.landRegs_watches (c : Casement) (x : Contrib) : (c.landRegs x).watches = c.watches := rfl
@[simp] theorem Casement.landRegs_opnd (c : Casement) (x : Contrib) : (c.landRegs x).opnd = c.opnd := rfl
@[simp] theorem Casement.landRegs_shown (c : Casement) (x : Contrib) : (c.landRegs x).shown = c.shown := rfl
@[simp] theorem Casement.landRegs_pend (c : Casement) (x : Contrib) : (c.landRegs x).pend = c.pend := rfl
@[simp] theorem Casement.landRegs_rdc (c : Casement) (x : Contrib) : (c.landRegs x).rdc = c.rdc := rfl
@[simp] theorem Casement.landRegs_asl (c : Casement) (x : Contrib) : (c.landRegs x).asl = c.asl := rfl
@[simp] theorem Casement.landRegs_tfs (c : Casement) (x : Contrib) : (c.landRegs x).tfs = c.tfs := rfl
@[simp] theorem Casement.landRegs_tfva (c : Casement) (x : Contrib) : (c.landRegs x).tfva = c.tfva := rfl
@[simp] theorem Casement.landRegs_tfia (c : Casement) (x : Contrib) : (c.landRegs x).tfia = c.tfia := rfl
@[simp] theorem Casement.landRegs_rowNext (c : Casement) (x : Contrib) : (c.landRegs x).rowNext = c.rowNext := rfl
@[simp] theorem Casement.landRegs_frame (c : Casement) (x : Contrib) : (c.landRegs x).frame = c.frame := rfl
@[simp] theorem Casement.landRegs_switched (c : Casement) (x : Contrib) : (c.landRegs x).switched = c.switched := rfl
@[simp] theorem Casement.landRegs_ticket (c : Casement) (x : Contrib) : (c.landRegs x).ticket = c.ticket := rfl
@[simp] theorem Casement.landRegs_gen (c : Casement) (x : Contrib) : (c.landRegs x).gen = c.gen := rfl
@[simp] theorem Casement.landRegs_dfmFmt (c : Casement) (x : Contrib) : (c.landRegs x).dfmFmt = c.dfmFmt := rfl
@[simp] theorem Casement.landRegs_acc (c : Casement) (x : Contrib) : (c.landRegs x).acc = c.acc := rfl
@[simp] theorem Casement.landRegs_v (c : Casement) (x : Contrib) : (c.landRegs x).v = c.v := rfl
@[simp] theorem Casement.landRegs_vpoison (c : Casement) (x : Contrib) : (c.landRegs x).vpoison = c.vpoison := rfl
@[simp] theorem Casement.landRegs_vres (c : Casement) (x : Contrib) : (c.landRegs x).vres = c.vres := rfl
@[simp] theorem Casement.landRegs_m (c : Casement) (x : Contrib) : (c.landRegs x).m = c.m := rfl
@[simp] theorem Casement.landRegs_vlen (c : Casement) (x : Contrib) : (c.landRegs x).vlen = c.vlen := rfl
@[simp] theorem Casement.landRegs_t (c : Casement) (x : Contrib) : (c.landRegs x).t = c.t := rfl
@[simp] theorem Casement.landRegs_tpoison (c : Casement) (x : Contrib) : (c.landRegs x).tpoison = c.tpoison := rfl
@[simp] theorem Casement.landRegs_tres (c : Casement) (x : Contrib) : (c.landRegs x).tres = c.tres := rfl
@[simp] theorem Casement.landRegs_tCorr (c : Casement) (x : Contrib) : (c.landRegs x).tCorr = c.tCorr := rfl
@[simp] theorem Casement.landRegs_tErr (c : Casement) (x : Contrib) : (c.landRegs x).tErr = c.tErr := rfl
@[simp] theorem Casement.landRegs_call (c : Casement) (x : Contrib) : (c.landRegs x).call = c.call := rfl
@[simp] theorem Casement.landRegs_xfer (c : Casement) (x : Contrib) : (c.landRegs x).xfer = c.xfer := rfl
@[simp] theorem Casement.landRegs_waiting (c : Casement) (x : Contrib) : (c.landRegs x).waiting = c.waiting := rfl
@[simp] theorem Casement.landRegs_raised (c : Casement) (x : Contrib) : (c.landRegs x).raised = c.raised := rfl
@[simp] theorem Casement.landRegs_held (c : Casement) (x : Contrib) : (c.landRegs x).held = c.held := rfl
@[simp] theorem Casement.landRegs_fails (c : Casement) (x : Contrib) : (c.landRegs x).fails = c.fails := rfl
@[simp] theorem Casement.landRegs_asyncDue (c : Casement) (x : Contrib) : (c.landRegs x).asyncDue = c.asyncDue := rfl
@[simp] theorem Casement.landRegs_stores (c : Casement) (x : Contrib) : (c.landRegs x).stores = c.stores := rfl
@[simp] theorem Casement.landRegs_landed (c : Casement) (x : Contrib) : (c.landRegs x).landed = c.landed := rfl
@[simp] theorem Casement.landRegs_first (c : Casement) (x : Contrib) : (c.landRegs x).first = c.first := rfl
@[simp] theorem Casement.landRegs_frameRet (c : Casement) (x : Contrib) : (c.landRegs x).frameRet = c.frameRet := rfl
@[simp] theorem Casement.landRegs_skip (c : Casement) (x : Contrib) : (c.landRegs x).skip = c.skip := rfl
@[simp] theorem Casement.landRegs_dBad (c : Casement) (x : Contrib) : (c.landRegs x).dBad = c.dBad := rfl
@[simp] theorem Casement.landRegs_kBad (c : Casement) (x : Contrib) : (c.landRegs x).kBad = c.kBad := rfl
@[simp] theorem Casement.landRegs_gBad (c : Casement) (x : Contrib) : (c.landRegs x).gBad = c.gBad := rfl
@[simp] theorem Casement.landRegs_otherBad (c : Casement) (x : Contrib) : (c.landRegs x).otherBad = c.otherBad := rfl
@[simp] theorem Casement.landRegs_dirty (c : Casement) (x : Contrib) : (c.landRegs x).dirty = c.dirty := rfl

/-! `Casement.addPend` -/
@[simp] theorem Casement.addPend_task (c : Casement) (p : Port) (d : Nat) (v : Word) : (c.addPend p d v).task = c.task := rfl
@[simp] theorem Casement.addPend_pc (c : Casement) (p : Port) (d : Nat) (v : Word) : (c.addPend p d v).pc = c.pc := rfl
@[simp] theorem Casement.addPend_icount (c : Casement) (p : Port) (d : Nat) (v : Word) : (c.addPend p d v).icount = c.icount := rfl
@[simp] theorem Casement.addPend_d (c : Casement) (p : Port) (d : Nat) (v : Word) : (c.addPend p d v).d = c.d := rfl
@[simp] theorem Casement.addPend_k (c : Casement) (p : Port) (d : Nat) (v : Word) : (c.addPend p d v).k = c.k := rfl
@[simp] theorem Casement.addPend_lent (c : Casement) (p : Port) (d : Nat) (v : Word) : (c.addPend p d v).lent = c.lent := rfl
@[simp] theorem Casement.addPend_x (c : Casement) (p : Port) (d : Nat) (v : Word) : (c.addPend p d v).x = c.x := rfl
@[simp] theorem Casement.addPend_xpend (c : Casement) (p : Port) (d : Nat) (v : Word) : (c.addPend p d v).xpend = c.xpend := rfl
@[simp] theorem Casement.addPend_s2ctl (c : Casement) (p : Port) (d : Nat) (v : Word) : (c.addPend p d v).s2ctl = c.s2ctl := rfl
@[simp] theorem Casement.addPend_bnk (c : Casement) (p : Port) (d : Nat) (v : Word) : (c.addPend p d v).bnk = c.bnk := rfl
@[simp] theorem Casement.addPend_tsbp (c : Casement) (p : Port) (d : Nat) (v : Word) : (c.addPend p d v).tsbp = c.tsbp := rfl
@[simp] theorem Casement.addPend_gsel (c : Casement) (p : Port) (d : Nat) (v : Word) : (c.addPend p d v).gsel = c.gsel := rfl
@[simp] theorem Casement.addPend_flg (c : Casement) (p : Port) (d : Nat) (v : Word) : (c.addPend p d v).flg = c.flg := rfl
@[simp] theorem Casement.addPend_rptc (c : Casement) (p : Port) (d : Nat) (v : Word) : (c.addPend p d v).rptc = c.rptc := rfl
@[simp] theorem Casement.addPend_dsp (c : Casement) (p : Port) (d : Nat) (v : Word) : (c.addPend p d v).dsp = c.dsp := rfl
@[simp] theorem Casement.addPend_rsa (c : Casement) (p : Port) (d : Nat) (v : Word) : (c.addPend p d v).rsa = c.rsa := rfl
@[simp] theorem Casement.addPend_rstack (c : Casement) (p : Port) (d : Nat) (v : Word) : (c.addPend p d v).rstack = c.rstack := rfl
@[simp] theorem Casement.addPend_bits (c : Casement) (p : Port) (d : Nat) (v : Word) : (c.addPend p d v).bits = c.bits := rfl
@[simp] theorem Casement.addPend_watches (c : Casement) (p : Port) (d : Nat) (v : Word) : (c.addPend p d v).watches = c.watches := rfl
@[simp] theorem Casement.addPend_opnd (c : Casement) (p : Port) (d : Nat) (v : Word) : (c.addPend p d v).opnd = c.opnd := rfl
@[simp] theorem Casement.addPend_shown (c : Casement) (p : Port) (d : Nat) (v : Word) : (c.addPend p d v).shown = c.shown := rfl
@[simp] theorem Casement.addPend_fpc (c : Casement) (p : Port) (d : Nat) (v : Word) : (c.addPend p d v).fpc = c.fpc := rfl
@[simp] theorem Casement.addPend_rdc (c : Casement) (p : Port) (d : Nat) (v : Word) : (c.addPend p d v).rdc = c.rdc := rfl
@[simp] theorem Casement.addPend_asl (c : Casement) (p : Port) (d : Nat) (v : Word) : (c.addPend p d v).asl = c.asl := rfl
@[simp] theorem Casement.addPend_tfs (c : Casement) (p : Port) (d : Nat) (v : Word) : (c.addPend p d v).tfs = c.tfs := rfl
@[simp] theorem Casement.addPend_tfva (c : Casement) (p : Port) (d : Nat) (v : Word) : (c.addPend p d v).tfva = c.tfva := rfl
@[simp] theorem Casement.addPend_tfia (c : Casement) (p : Port) (d : Nat) (v : Word) : (c.addPend p d v).tfia = c.tfia := rfl
@[simp] theorem Casement.addPend_rmax (c : Casement) (p : Port) (d : Nat) (v : Word) : (c.addPend p d v).rmax = c.rmax := rfl
@[simp] theorem Casement.addPend_nsat (c : Casement) (p : Port) (d : Nat) (v : Word) : (c.addPend p d v).nsat = c.nsat := rfl
@[simp] theorem Casement.addPend_nflz (c : Casement) (p : Port) (d : Nat) (v : Word) : (c.addPend p d v).nflz = c.nflz := rfl
@[simp] theorem Casement.addPend_tstart (c : Casement) (p : Port) (d : Nat) (v : Word) : (c.addPend p d v).tstart = c.tstart := rfl
@[simp] theorem Casement.addPend_rowNext (c : Casement) (p : Port) (d : Nat) (v : Word) : (c.addPend p d v).rowNext = c.rowNext := rfl
@[simp] theorem Casement.addPend_frame (c : Casement) (p : Port) (d : Nat) (v : Word) : (c.addPend p d v).frame = c.frame := rfl
@[simp] theorem Casement.addPend_switched (c : Casement) (p : Port) (d : Nat) (v : Word) : (c.addPend p d v).switched = c.switched := rfl
@[simp] theorem Casement.addPend_ticket (c : Casement) (p : Port) (d : Nat) (v : Word) : (c.addPend p d v).ticket = c.ticket := rfl
@[simp] theorem Casement.addPend_gen (c : Casement) (p : Port) (d : Nat) (v : Word) : (c.addPend p d v).gen = c.gen := rfl
@[simp] theorem Casement.addPend_dfmFmt (c : Casement) (p : Port) (d : Nat) (v : Word) : (c.addPend p d v).dfmFmt = c.dfmFmt := rfl
@[simp] theorem Casement.addPend_acc (c : Casement) (p : Port) (d : Nat) (v : Word) : (c.addPend p d v).acc = c.acc := rfl
@[simp] theorem Casement.addPend_v (c : Casement) (p : Port) (d : Nat) (v : Word) : (c.addPend p d v).v = c.v := rfl
@[simp] theorem Casement.addPend_vpoison (c : Casement) (p : Port) (d : Nat) (v : Word) : (c.addPend p d v).vpoison = c.vpoison := rfl
@[simp] theorem Casement.addPend_vres (c : Casement) (p : Port) (d : Nat) (v : Word) : (c.addPend p d v).vres = c.vres := rfl
@[simp] theorem Casement.addPend_m (c : Casement) (p : Port) (d : Nat) (v : Word) : (c.addPend p d v).m = c.m := rfl
@[simp] theorem Casement.addPend_vlen (c : Casement) (p : Port) (d : Nat) (v : Word) : (c.addPend p d v).vlen = c.vlen := rfl
@[simp] theorem Casement.addPend_t (c : Casement) (p : Port) (d : Nat) (v : Word) : (c.addPend p d v).t = c.t := rfl
@[simp] theorem Casement.addPend_tpoison (c : Casement) (p : Port) (d : Nat) (v : Word) : (c.addPend p d v).tpoison = c.tpoison := rfl
@[simp] theorem Casement.addPend_tres (c : Casement) (p : Port) (d : Nat) (v : Word) : (c.addPend p d v).tres = c.tres := rfl
@[simp] theorem Casement.addPend_tCorr (c : Casement) (p : Port) (d : Nat) (v : Word) : (c.addPend p d v).tCorr = c.tCorr := rfl
@[simp] theorem Casement.addPend_tErr (c : Casement) (p : Port) (d : Nat) (v : Word) : (c.addPend p d v).tErr = c.tErr := rfl
@[simp] theorem Casement.addPend_call (c : Casement) (p : Port) (d : Nat) (v : Word) : (c.addPend p d v).call = c.call := rfl
@[simp] theorem Casement.addPend_xfer (c : Casement) (p : Port) (d : Nat) (v : Word) : (c.addPend p d v).xfer = c.xfer := rfl
@[simp] theorem Casement.addPend_waiting (c : Casement) (p : Port) (d : Nat) (v : Word) : (c.addPend p d v).waiting = c.waiting := rfl
@[simp] theorem Casement.addPend_raised (c : Casement) (p : Port) (d : Nat) (v : Word) : (c.addPend p d v).raised = c.raised := rfl
@[simp] theorem Casement.addPend_held (c : Casement) (p : Port) (d : Nat) (v : Word) : (c.addPend p d v).held = c.held := rfl
@[simp] theorem Casement.addPend_fails (c : Casement) (p : Port) (d : Nat) (v : Word) : (c.addPend p d v).fails = c.fails := rfl
@[simp] theorem Casement.addPend_asyncDue (c : Casement) (p : Port) (d : Nat) (v : Word) : (c.addPend p d v).asyncDue = c.asyncDue := rfl
@[simp] theorem Casement.addPend_stores (c : Casement) (p : Port) (d : Nat) (v : Word) : (c.addPend p d v).stores = c.stores := rfl
@[simp] theorem Casement.addPend_landed (c : Casement) (p : Port) (d : Nat) (v : Word) : (c.addPend p d v).landed = c.landed := rfl
@[simp] theorem Casement.addPend_first (c : Casement) (p : Port) (d : Nat) (v : Word) : (c.addPend p d v).first = c.first := rfl
@[simp] theorem Casement.addPend_frameRet (c : Casement) (p : Port) (d : Nat) (v : Word) : (c.addPend p d v).frameRet = c.frameRet := rfl
@[simp] theorem Casement.addPend_skip (c : Casement) (p : Port) (d : Nat) (v : Word) : (c.addPend p d v).skip = c.skip := rfl
@[simp] theorem Casement.addPend_dBad (c : Casement) (p : Port) (d : Nat) (v : Word) : (c.addPend p d v).dBad = c.dBad := rfl
@[simp] theorem Casement.addPend_kBad (c : Casement) (p : Port) (d : Nat) (v : Word) : (c.addPend p d v).kBad = c.kBad := rfl
@[simp] theorem Casement.addPend_gBad (c : Casement) (p : Port) (d : Nat) (v : Word) : (c.addPend p d v).gBad = c.gBad := rfl
@[simp] theorem Casement.addPend_otherBad (c : Casement) (p : Port) (d : Nat) (v : Word) : (c.addPend p d v).otherBad = c.otherBad := rfl

/-! `Casement.addPending` -/
@[simp] theorem Casement.addPending_task (c : Casement) (e : Pending) : (c.addPending e).task = c.task := rfl
@[simp] theorem Casement.addPending_pc (c : Casement) (e : Pending) : (c.addPending e).pc = c.pc := rfl
@[simp] theorem Casement.addPending_icount (c : Casement) (e : Pending) : (c.addPending e).icount = c.icount := rfl
@[simp] theorem Casement.addPending_d (c : Casement) (e : Pending) : (c.addPending e).d = c.d := rfl
@[simp] theorem Casement.addPending_k (c : Casement) (e : Pending) : (c.addPending e).k = c.k := rfl
@[simp] theorem Casement.addPending_lent (c : Casement) (e : Pending) : (c.addPending e).lent = c.lent := rfl
@[simp] theorem Casement.addPending_x (c : Casement) (e : Pending) : (c.addPending e).x = c.x := rfl
@[simp] theorem Casement.addPending_xpend (c : Casement) (e : Pending) : (c.addPending e).xpend = c.xpend := rfl
@[simp] theorem Casement.addPending_s2ctl (c : Casement) (e : Pending) : (c.addPending e).s2ctl = c.s2ctl := rfl
@[simp] theorem Casement.addPending_bnk (c : Casement) (e : Pending) : (c.addPending e).bnk = c.bnk := rfl
@[simp] theorem Casement.addPending_tsbp (c : Casement) (e : Pending) : (c.addPending e).tsbp = c.tsbp := rfl
@[simp] theorem Casement.addPending_gsel (c : Casement) (e : Pending) : (c.addPending e).gsel = c.gsel := rfl
@[simp] theorem Casement.addPending_flg (c : Casement) (e : Pending) : (c.addPending e).flg = c.flg := rfl
@[simp] theorem Casement.addPending_rptc (c : Casement) (e : Pending) : (c.addPending e).rptc = c.rptc := rfl
@[simp] theorem Casement.addPending_dsp (c : Casement) (e : Pending) : (c.addPending e).dsp = c.dsp := rfl
@[simp] theorem Casement.addPending_rsa (c : Casement) (e : Pending) : (c.addPending e).rsa = c.rsa := rfl
@[simp] theorem Casement.addPending_rstack (c : Casement) (e : Pending) : (c.addPending e).rstack = c.rstack := rfl
@[simp] theorem Casement.addPending_bits (c : Casement) (e : Pending) : (c.addPending e).bits = c.bits := rfl
@[simp] theorem Casement.addPending_watches (c : Casement) (e : Pending) : (c.addPending e).watches = c.watches := rfl
@[simp] theorem Casement.addPending_opnd (c : Casement) (e : Pending) : (c.addPending e).opnd = c.opnd := rfl
@[simp] theorem Casement.addPending_shown (c : Casement) (e : Pending) : (c.addPending e).shown = c.shown := rfl
@[simp] theorem Casement.addPending_fpc (c : Casement) (e : Pending) : (c.addPending e).fpc = c.fpc := rfl
@[simp] theorem Casement.addPending_rdc (c : Casement) (e : Pending) : (c.addPending e).rdc = c.rdc := rfl
@[simp] theorem Casement.addPending_asl (c : Casement) (e : Pending) : (c.addPending e).asl = c.asl := rfl
@[simp] theorem Casement.addPending_tfs (c : Casement) (e : Pending) : (c.addPending e).tfs = c.tfs := rfl
@[simp] theorem Casement.addPending_tfva (c : Casement) (e : Pending) : (c.addPending e).tfva = c.tfva := rfl
@[simp] theorem Casement.addPending_tfia (c : Casement) (e : Pending) : (c.addPending e).tfia = c.tfia := rfl
@[simp] theorem Casement.addPending_rmax (c : Casement) (e : Pending) : (c.addPending e).rmax = c.rmax := rfl
@[simp] theorem Casement.addPending_nsat (c : Casement) (e : Pending) : (c.addPending e).nsat = c.nsat := rfl
@[simp] theorem Casement.addPending_nflz (c : Casement) (e : Pending) : (c.addPending e).nflz = c.nflz := rfl
@[simp] theorem Casement.addPending_tstart (c : Casement) (e : Pending) : (c.addPending e).tstart = c.tstart := rfl
@[simp] theorem Casement.addPending_rowNext (c : Casement) (e : Pending) : (c.addPending e).rowNext = c.rowNext := rfl
@[simp] theorem Casement.addPending_frame (c : Casement) (e : Pending) : (c.addPending e).frame = c.frame := rfl
@[simp] theorem Casement.addPending_switched (c : Casement) (e : Pending) : (c.addPending e).switched = c.switched := rfl
@[simp] theorem Casement.addPending_ticket (c : Casement) (e : Pending) : (c.addPending e).ticket = c.ticket := rfl
@[simp] theorem Casement.addPending_gen (c : Casement) (e : Pending) : (c.addPending e).gen = c.gen := rfl
@[simp] theorem Casement.addPending_dfmFmt (c : Casement) (e : Pending) : (c.addPending e).dfmFmt = c.dfmFmt := rfl
@[simp] theorem Casement.addPending_acc (c : Casement) (e : Pending) : (c.addPending e).acc = c.acc := rfl
@[simp] theorem Casement.addPending_v (c : Casement) (e : Pending) : (c.addPending e).v = c.v := rfl
@[simp] theorem Casement.addPending_vpoison (c : Casement) (e : Pending) : (c.addPending e).vpoison = c.vpoison := rfl
@[simp] theorem Casement.addPending_vres (c : Casement) (e : Pending) : (c.addPending e).vres = c.vres := rfl
@[simp] theorem Casement.addPending_m (c : Casement) (e : Pending) : (c.addPending e).m = c.m := rfl
@[simp] theorem Casement.addPending_vlen (c : Casement) (e : Pending) : (c.addPending e).vlen = c.vlen := rfl
@[simp] theorem Casement.addPending_t (c : Casement) (e : Pending) : (c.addPending e).t = c.t := rfl
@[simp] theorem Casement.addPending_tpoison (c : Casement) (e : Pending) : (c.addPending e).tpoison = c.tpoison := rfl
@[simp] theorem Casement.addPending_tres (c : Casement) (e : Pending) : (c.addPending e).tres = c.tres := rfl
@[simp] theorem Casement.addPending_tCorr (c : Casement) (e : Pending) : (c.addPending e).tCorr = c.tCorr := rfl
@[simp] theorem Casement.addPending_tErr (c : Casement) (e : Pending) : (c.addPending e).tErr = c.tErr := rfl
@[simp] theorem Casement.addPending_call (c : Casement) (e : Pending) : (c.addPending e).call = c.call := rfl
@[simp] theorem Casement.addPending_xfer (c : Casement) (e : Pending) : (c.addPending e).xfer = c.xfer := rfl
@[simp] theorem Casement.addPending_waiting (c : Casement) (e : Pending) : (c.addPending e).waiting = c.waiting := rfl
@[simp] theorem Casement.addPending_raised (c : Casement) (e : Pending) : (c.addPending e).raised = c.raised := rfl
@[simp] theorem Casement.addPending_held (c : Casement) (e : Pending) : (c.addPending e).held = c.held := rfl
@[simp] theorem Casement.addPending_fails (c : Casement) (e : Pending) : (c.addPending e).fails = c.fails := rfl
@[simp] theorem Casement.addPending_asyncDue (c : Casement) (e : Pending) : (c.addPending e).asyncDue = c.asyncDue := rfl
@[simp] theorem Casement.addPending_stores (c : Casement) (e : Pending) : (c.addPending e).stores = c.stores := rfl
@[simp] theorem Casement.addPending_landed (c : Casement) (e : Pending) : (c.addPending e).landed = c.landed := rfl
@[simp] theorem Casement.addPending_first (c : Casement) (e : Pending) : (c.addPending e).first = c.first := rfl
@[simp] theorem Casement.addPending_frameRet (c : Casement) (e : Pending) : (c.addPending e).frameRet = c.frameRet := rfl
@[simp] theorem Casement.addPending_skip (c : Casement) (e : Pending) : (c.addPending e).skip = c.skip := rfl
@[simp] theorem Casement.addPending_dBad (c : Casement) (e : Pending) : (c.addPending e).dBad = c.dBad := rfl
@[simp] theorem Casement.addPending_kBad (c : Casement) (e : Pending) : (c.addPending e).kBad = c.kBad := rfl
@[simp] theorem Casement.addPending_gBad (c : Casement) (e : Pending) : (c.addPending e).gBad = c.gBad := rfl
@[simp] theorem Casement.addPending_otherBad (c : Casement) (e : Pending) : (c.addPending e).otherBad = c.otherBad := rfl

end Sys2Proof.Machine
end

