-- ==== Sys2Proof/Laws/Memory.lean ====
section
/-! SUPPORT. Laws of storage: a read after a write, and that each way memory is written keeps its canonical form. -/

namespace Sys2Proof.Machine

/-! ### The canonical form -/

theorem rising_cons {a : Nat} {l : List Nat} : rising (a :: l) = true ↔ (∀ b, l.head? = some b → a < b) ∧ rising l = true := by
  cases l with
  | nil => simp [rising]
  | cons b t => simp [rising]

/-- The first key of a table after a put is the key put or the first one before. -/
theorem head_tabPut {α : Type} (t : Tab α) (k : Nat) (a : α) (b : Nat) (h : ((tabPut t k a).map (·.1)).head? = some b) :
    b = k ∨ (t.map (·.1)).head? = some b := by
  cases t with
  | nil => simp [tabPut] at h; exact .inl h.symm
  | cons p t =>
    obtain ⟨j, x⟩ := p
    unfold tabPut at h
    split at h
    · simp at h; exact .inl h.symm
    · split at h
      · simp at h; exact .inl h.symm
      · simp at h; right; simp [h]

theorem rising_tabPut {α : Type} (t : Tab α) (k : Nat) (a : α) (h : rising (t.map (·.1)) = true) :
    rising ((tabPut t k a).map (·.1)) = true := by
  induction t with
  | nil => simp [tabPut, rising]
  | cons p t ih =>
    obtain ⟨j, x⟩ := p
    rw [List.map_cons, rising_cons] at h
    unfold tabPut
    split
    · rename_i hk
      rw [List.map_cons, rising_cons]
      exact ⟨by simp; exact hk, by rw [List.map_cons, rising_cons]; exact h⟩
    · split
      · rename_i hk; subst hk
        rw [List.map_cons, rising_cons]; exact h
      · rename_i h1 h2
        rw [List.map_cons, rising_cons]
        refine ⟨fun b hb => ?_, ih h.2⟩
        rcases head_tabPut t k a b hb with rfl | hb
        · show j < b; omega
        · exact h.1 b hb

/-- A rising list bounds every later element by its head. -/
theorem rising_lt {a : Nat} {l : List Nat} (h : rising (a :: l) = true) : ∀ b ∈ l, a < b := by
  induction l generalizing a with
  | nil => simp
  | cons c t ih =>
    rw [rising_cons] at h
    intro b hb
    have hc : a < c := h.1 c rfl
    rcases List.mem_cons.1 hb with rfl | hb
    · exact hc
    · exact Nat.lt_trans hc (ih h.2 b hb)

/-- Leaving out entries keeps the keys rising. -/
theorem rising_sublist {l m : List Nat} (s : l.Sublist m) (h : rising m = true) : rising l = true := by
  induction s with
  | slnil => rfl
  | cons a s ih => exact ih (rising_cons.1 h).2
  | cons_cons a s ih =>
    refine rising_cons.2 ⟨fun b hb => ?_, ih (rising_cons.1 h).2⟩
    exact rising_lt h b (s.subset (List.mem_of_mem_head? hb))

theorem tabErase_eq_filter {α : Type} (t : Tab α) (k : Nat) : tabErase t k = t.filter fun c => c.1 ≠ k := by
  induction t with
  | nil => rfl
  | cons p t ih =>
    obtain ⟨j, x⟩ := p
    by_cases h : j = k <;> simp [tabErase, h, ih]

/-- Leaving out cells keeps the canonical form. -/
theorem memWf_filter {m : List Host.Cell} (p : Host.Cell → Bool) (h : memWf m = true) : memWf (m.filter p) = true := by
  simp only [memWf, Bool.and_eq_true, List.all_eq_true] at h ⊢
  exact ⟨rising_sublist (List.filter_sublist.map _) h.1, fun c hc => h.2 c (List.mem_filter.1 hc).1⟩

theorem mem_tabPut {α : Type} (t : Tab α) (k : Nat) (a : α) (c : Nat × α) (h : c ∈ tabPut t k a) : c = (k, a) ∨ c ∈ t := by
  induction t with
  | nil => simp [tabPut] at h; exact .inl h
  | cons p t ih =>
    obtain ⟨j, x⟩ := p
    unfold tabPut at h
    split at h
    · rcases List.mem_cons.1 h with h | h
      · exact .inl h
      · exact .inr h
    · split at h
      · rcases List.mem_cons.1 h with h | h
        · exact .inl h
        · exact .inr (List.mem_cons_of_mem _ h)
      · rcases List.mem_cons.1 h with h | h
        · exact .inr (h ▸ List.mem_cons_self ..)
        · exact (ih h).imp id (List.mem_cons_of_mem _)

/-- Setting a byte keeps the canonical form. -/
theorem memWf_memSet {m : List Host.Cell} (a : Nat) (b : Byte) (h : memWf m = true) : memWf (memSet m a b) = true := by
  unfold memSet tabSet
  split
  · rw [tabErase_eq_filter]; exact memWf_filter _ h
  · rename_i hb
    simp only [memWf, Bool.and_eq_true, List.all_eq_true] at h ⊢
    refine ⟨rising_tabPut _ _ _ h.1, fun c hc => ?_⟩
    rcases mem_tabPut _ _ _ _ hc with rfl | hc
    · simpa using hb
    · exact h.2 c hc

/-- Setting consecutive bytes keeps the canonical form. -/
theorem memWf_memSetAll {m : List Host.Cell} (a : Nat) (bs : List Byte) (h : memWf m = true) :
    memWf (memSetAll m a bs) = true := by
  induction bs generalizing m a with
  | nil => exact h
  | cons b t ih => exact ih (a + 1) (memWf_memSet a b h)

/-! ### A read after a write -/

theorem tabGet_memSetAll (m : List Host.Cell) (a : Nat) (bs : List Byte) (x : Nat) :
    tabGet 0 (memSetAll m a bs) x = if a ≤ x ∧ x < a + bs.length then bs.getD (x - a) 0 else tabGet 0 m x := by
  induction bs generalizing m a with
  | nil => simp [memSetAll]
  | cons b t ih =>
    simp only [memSetAll, ih, memSet, tabGet_tabSet, List.length_cons]
    by_cases h : x = a
    · subst h; simp
    · by_cases h1 : a + 1 ≤ x ∧ x < a + 1 + t.length
      · have e : x - a = x - (a + 1) + 1 := by omega
        rw [if_pos h1, if_pos (by omega), e]; rfl
      · rw [if_neg h1, if_neg h, if_neg (by omega)]

/-! ### What the errors of storage and a write leave -/

@[simp] theorem State.countUnit_mem (s : State) (u : Nat) : (s.countUnit u).mem = s.mem := rfl

@[simp] theorem State.countCe_mem (s : State) (a : Nat) : (s.countCe a).mem = s.mem := by
  unfold State.countCe; split <;> rfl

@[simp] theorem State.makePermanent_mem (s : State) (u : Nat) : (s.makePermanent u).mem = s.mem := by
  unfold State.makePermanent; split <;> rfl

@[simp] theorem State.startDrain_mem (s : State) (c : DrainCause) (u : Nat) : (s.startDrain c u).mem = s.mem := by
  unfold State.startDrain; simp only []; split <;> rfl

@[simp] theorem State.addHistory_mem (s : State) (u k g : Nat) (f : Bool) (c : BitVec 32) :
    (s.addHistory u k g f c).mem = s.mem := rfl

@[simp] theorem State.record_mem (s : State) (u k g : Nat) (r : Bool) : (s.record u k g r).mem = s.mem := by
  simp only [State.record]
  repeat' split
  all_goals simp

@[simp] theorem State.countUe_mem (s : State) (a : Nat) : (s.countUe a).mem = s.mem := by
  unfold State.countUe; split <;> simp

@[simp] theorem State.scrubWord_mem (s : State) (w : Nat) : (s.scrubWord w).mem = s.mem := by
  unfold State.scrubWord; repeat' split
  all_goals simp

@[simp] theorem State.scrubWords_mem (s : State) (l : List Nat) : (s.scrubWords l).mem = s.mem := by
  unfold State.scrubWords
  induction l generalizing s with
  | nil => rfl
  | cons x t ih => rw [List.foldl_cons, ih, State.scrubWord_mem]

@[simp] theorem State.dropRows_mem (s : State) (a n : Nat) : (s.dropRows a n).mem = s.mem := by
  simp only [State.dropRows]; repeat' split
  all_goals rfl

@[simp] theorem State.noteDigest_mem (s : State) (a n : Nat) : (s.noteDigest a n).mem = s.mem := by
  simp only [State.noteDigest]; repeat' split
  all_goals rfl

/-- R279, R334: what a write to storage does to memory. -/
@[simp] theorem State.writeStore_mem (s : State) (a : Nat) (bs : List Byte) (bad : Bool) :
    (s.writeStore a bs bad).mem = memSetAll s.mem a bs := by
  simp only [State.writeStore, State.noteDigest_mem, State.dropRows_mem]
  split <;> simp

/-- A read of storage finds errors but writes no byte. -/
@[simp] theorem State.readStore_mem (s : State) (a n : Nat) : (s.readStore a n).1.mem = s.mem := by
  simp only [State.readStore]; split <;> simp

/-- The byte read after a write to storage. -/
theorem State.writeStore_byte (s : State) (a : Nat) (bs : List Byte) (bad : Bool) (x : Nat) :
    (s.writeStore a bs bad).byte x = if a ≤ x ∧ x < a + bs.length then bs.getD (x - a) 0 else s.byte x := by
  rw [State.byte, State.writeStore_mem, tabGet_memSetAll]; rfl

/-- A write to storage keeps the canonical form. -/
theorem State.writeStore_memWf {s : State} (a : Nat) (bs : List Byte) (bad : Bool) (h : memWf s.mem = true) :
    memWf (s.writeStore a bs bad).mem = true := by
  rw [State.writeStore_mem]; exact memWf_memSetAll a bs h

@[simp] theorem State.bondNote_mem (s : State) (own : Option Nat) : (s.bondNote own).mem = s.mem := by
  unfold State.bondNote; repeat' split
  all_goals simp

/-- A write at a physical address keeps the canonical form, whether it is performed or not. -/
theorem State.writePa_memWf {s : State} (pa : Nat) (bs : List Byte) (bad : Bool) (own : Option Nat)
    (h : memWf s.mem = true) : memWf (s.writePa pa bs bad own).1.mem = true := by
  simp only [State.writePa]
  split
  · rw [State.bondNote_mem]; exact State.writeStore_memWf _ _ _ h
  · exact h

end Sys2Proof.Machine
end

