-- ==== Sys2Proof/Laws/Access.lean ====
section
/-! SUPPORT. Laws of the accessors: what is read after a write, of the block's units and of a casement's registers; and what
carrying out a mailbox command comes to. -/

namespace Sys2Proof.Machine

/-! ### Units of the block -/

@[simp] theorem cluster_onCluster (s : State) (c d : Nat) (f : Cluster → Cluster) :
    (s.onCluster c f).cluster d = if d = c then f (s.cluster c) else s.cluster d := by
  simp [State.cluster, State.onCluster]

@[simp] theorem port_onPort (s : State) (p q : Nat) (f : Stack → Stack) :
    (s.onPort p f).port q = if q = p then f (s.port p) else s.port q := by
  simp [State.port, State.onPort]

@[simp] theorem link_onLink (s : State) (m j : Nat) (f : Link → Link) :
    (s.onLink m f).link j = if j = m then f (s.link m) else s.link j := by
  simp [State.link, State.onLink]

@[simp] theorem box_onBox (s : State) (n j : Nat) (f : Mailbox → Mailbox) :
    (s.onBox n f).box j = if j = n then f (s.box n) else s.box j := by
  simp [State.box, State.onBox]

@[simp] theorem core_onCluster (s : State) (c n : Nat) (f : Cluster → Cluster) : (s.onCluster c f).core n = s.core n := rfl
@[simp] theorem case_onCluster (s : State) (c n k : Nat) (f : Cluster → Cluster) : (s.onCluster c f).case n k = s.case n k := rfl
@[simp] theorem port_onCluster (s : State) (c p : Nat) (f : Cluster → Cluster) : (s.onCluster c f).port p = s.port p := rfl
@[simp] theorem link_onCluster (s : State) (c m : Nat) (f : Cluster → Cluster) : (s.onCluster c f).link m = s.link m := rfl
@[simp] theorem core_onPort (s : State) (p n : Nat) (f : Stack → Stack) : (s.onPort p f).core n = s.core n := rfl
@[simp] theorem case_onPort (s : State) (p n k : Nat) (f : Stack → Stack) : (s.onPort p f).case n k = s.case n k := rfl
@[simp] theorem cluster_onPort (s : State) (p c : Nat) (f : Stack → Stack) : (s.onPort p f).cluster c = s.cluster c := rfl
@[simp] theorem link_onPort (s : State) (p m : Nat) (f : Stack → Stack) : (s.onPort p f).link m = s.link m := rfl
@[simp] theorem core_onLink (s : State) (m n : Nat) (f : Link → Link) : (s.onLink m f).core n = s.core n := rfl
@[simp] theorem case_onLink (s : State) (m n k : Nat) (f : Link → Link) : (s.onLink m f).case n k = s.case n k := rfl
@[simp] theorem cluster_onLink (s : State) (m c : Nat) (f : Link → Link) : (s.onLink m f).cluster c = s.cluster c := rfl
@[simp] theorem port_onLink (s : State) (m p : Nat) (f : Link → Link) : (s.onLink m f).port p = s.port p := rfl
@[simp] theorem cluster_onCore (s : State) (n c : Nat) (f : Core → Core) : (s.onCore n f).cluster c = s.cluster c := rfl
@[simp] theorem port_onCore (s : State) (n p : Nat) (f : Core → Core) : (s.onCore n f).port p = s.port p := rfl
@[simp] theorem link_onCore (s : State) (n m : Nat) (f : Core → Core) : (s.onCore n f).link m = s.link m := rfl
@[simp] theorem box_onCore (s : State) (n m : Nat) (f : Core → Core) : (s.onCore n f).box m = s.box m := rfl
@[simp] theorem core_onBox (s : State) (m n : Nat) (f : Mailbox → Mailbox) : (s.onBox m f).core n = s.core n := rfl
@[simp] theorem box_setResult (s : State) (n m : Nat) (r : Option (BitVec 8 × List Byte)) : (s.setResult n r).box m = s.box m := rfl

/-! ### Registers of a casement -/

@[simp] theorem dreg_setD (c : Casement) (i j : Nat) (v : Word) : (c.setD i v).dreg j = if j = i then v else c.dreg j := by
  simp [Casement.dreg, Casement.setD, Casement.touch]

@[simp] theorem key_setKey (c : Casement) (i j : Nat) (k : Key) (l : Bool) :
    (c.setKey i k l).key j = if j = i then k else c.key j := by
  simp [Casement.key, Casement.setKey, Casement.touch]

@[simp] theorem vreg_setV (c : Casement) (i j : Nat) (v : BitVec 2048) (bad res : BitVec 32) :
    (c.setV i v bad res).vreg j = if j = i then v else c.vreg j := by
  simp [Casement.vreg, Casement.setV, Casement.touch]

@[simp] theorem vregBad_setV (c : Casement) (i j : Nat) (v : BitVec 2048) (bad res : BitVec 32) :
    (c.setV i v bad res).vregBad j = if j = i then bad else c.vregBad j := by
  simp [Casement.vregBad, Casement.setV, Casement.touch]

@[simp] theorem mreg_setM (c : Casement) (i j : Nat) (v : BitVec 256) : (c.setM i v).mreg j = if j = i then v else c.mreg j := by
  simp [Casement.mreg, Casement.setM, Casement.touch]

@[simp] theorem tile_setTile (c : Casement) (i j : Nat) (v : BitVec 8192) (bad res : BitVec 16) :
    (c.setTile i v bad res).tile j = if j = i then v else c.tile j := by
  simp [Casement.tile, Casement.setTile, Casement.touch]

@[simp] theorem tileBad_setTile (c : Casement) (i j : Nat) (v : BitVec 8192) (bad res : BitVec 16) :
    (c.setTile i v bad res).tileBad j = if j = i then bad else c.tileBad j := by
  simp [Casement.tileBad, Casement.setTile, Casement.touch]

@[simp] theorem dreg_setGroup (c : Casement) (g i : Nat) (v : Word) : (c.setGroup g v).dreg i = c.dreg i := rfl
@[simp] theorem dreg_setBit (c : Casement) (n i : Nat) (b : Bool) : (c.setBit n b).dreg i = c.dreg i := rfl
@[simp] theorem dreg_addPending (c : Casement) (e : Pending) (i : Nat) : (c.addPending e).dreg i = c.dreg i := rfl
@[simp] theorem key_addPending (c : Casement) (e : Pending) (i : Nat) : (c.addPending e).key i = c.key i := rfl
@[simp] theorem port_addPending (c : Casement) (e : Pending) (p : Port) : (c.addPending e).port p = c.port p := rfl
@[simp] theorem dreg_addPend (c : Casement) (p : Port) (d : Nat) (v : Word) (i : Nat) : (c.addPend p d v).dreg i = c.dreg i := rfl
@[simp] theorem port_addPend (c : Casement) (p q : Port) (d : Nat) (v : Word) : (c.addPend p d v).port q = c.port q := rfl

/-- R43: a pending result is added with its issue cycle, and nothing else of the results changes. -/
theorem pend_addPending (c : Casement) (e : Pending) : (c.addPending e).pend = c.pend ++ [{ e with due := c.icount + e.due }] := rfl

/-! ### Mailbox commands -/

/-- R381: a command whose request may start has the effect and the result its definition gives. -/
theorem State.command_eq {s s' : State} {n op : Nat} {f : State → Mailbox → State × Option (BitVec 8 × List Byte)}
    {r : Option (BitVec 8 × List Byte)} (h : s.startable n op = true) (hf : f s (s.box n) = (s', r)) :
    s.command n op f = .next (s'.setResult n r) := by
  simp [State.command, h, hf]

/-- One that may not start changes nothing. -/
theorem State.command_idle {s : State} {n op : Nat} {f : State → Mailbox → State × Option (BitVec 8 × List Byte)}
    (h : s.startable n op = false) : s.command n op f = .next s := by
  simp [State.command, h]

end Sys2Proof.Machine
end

