-- ==== Sys2Proof/Laws/Arrive.lean ====
section
/-! SUPPORT. What the arrival of due results leaves as it was (R43): only what is shown, the pending list, the reporting
registers and the key registers may change. -/

namespace Sys2Proof.Machine

/-- A field that neither the reporting registers, a key write, nor a shown value touches, after any deliveries. -/
theorem deliverList_keeps {α : Type} (f : Casement → α) (hp : ∀ c p, f { c with pend := p } = f c)
    (hs : ∀ c p, f { c with shown := p } = f c) (hl : ∀ c x, f (Casement.land c x) = f c)
    (hk : ∀ c i k l, f (Casement.setKey c i k l) = f c) (t : Nat) (l : List Pending) (c : Casement) :
    f (deliverList t l c) = f c := by
  induction l generalizing c with
  | nil => rfl
  | cons e rest ih =>
    simp only [deliverList]
    split
    · rw [ih]
      cases e.keyWrite <;> simp only [] <;> split <;> simp only [hs, hl, hk]
    · rw [ih, hp]

/-- The same for `deliver`. -/
theorem deliver_keeps {α : Type} (f : Casement → α) (hp : ∀ c p, f { c with pend := p } = f c)
    (hs : ∀ c p, f { c with shown := p } = f c) (hl : ∀ c x, f (Casement.land c x) = f c)
    (hk : ∀ c i k l, f (Casement.setKey c i k l) = f c) (c : Casement) : f c.deliver = f c := by
  unfold Casement.deliver
  split
  · rw [deliverList_keeps f hp hs hl hk, hp]
  · rfl

@[simp] theorem Casement.land_task (c : Casement) (x : Contrib) : (c.land x).task = c.task := by
  unfold Casement.land; split <;> rfl
@[simp] theorem Casement.land_pc (c : Casement) (x : Contrib) : (c.land x).pc = c.pc := by
  unfold Casement.land; split <;> rfl
@[simp] theorem Casement.land_icount (c : Casement) (x : Contrib) : (c.land x).icount = c.icount := by
  unfold Casement.land; split <;> rfl
@[simp] theorem Casement.land_d (c : Casement) (x : Contrib) : (c.land x).d = c.d := by
  unfold Casement.land; split <;> rfl
@[simp] theorem Casement.land_x (c : Casement) (x : Contrib) : (c.land x).x = c.x := by
  unfold Casement.land; split <;> rfl
@[simp] theorem Casement.land_xpend (c : Casement) (x : Contrib) : (c.land x).xpend = c.xpend := by
  unfold Casement.land; split <;> rfl
@[simp] theorem Casement.land_bnk (c : Casement) (x : Contrib) : (c.land x).bnk = c.bnk := by
  unfold Casement.land; split <;> rfl
@[simp] theorem Casement.land_tsbp (c : Casement) (x : Contrib) : (c.land x).tsbp = c.tsbp := by
  unfold Casement.land; split <;> rfl
@[simp] theorem Casement.land_gsel (c : Casement) (x : Contrib) : (c.land x).gsel = c.gsel := by
  unfold Casement.land; split <;> rfl
@[simp] theorem Casement.land_flg (c : Casement) (x : Contrib) : (c.land x).flg = c.flg := by
  unfold Casement.land; split <;> rfl
@[simp] theorem Casement.land_rptc (c : Casement) (x : Contrib) : (c.land x).rptc = c.rptc := by
  unfold Casement.land; split <;> rfl
@[simp] theorem Casement.land_dsp (c : Casement) (x : Contrib) : (c.land x).dsp = c.dsp := by
  unfold Casement.land; split <;> rfl
@[simp] theorem Casement.land_rsa (c : Casement) (x : Contrib) : (c.land x).rsa = c.rsa := by
  unfold Casement.land; split <;> rfl
@[simp] theorem Casement.land_rstack (c : Casement) (x : Contrib) : (c.land x).rstack = c.rstack := by
  unfold Casement.land; split <;> rfl
@[simp] theorem Casement.land_bits (c : Casement) (x : Contrib) : (c.land x).bits = c.bits := by
  unfold Casement.land; split <;> rfl
@[simp] theorem Casement.land_watches (c : Casement) (x : Contrib) : (c.land x).watches = c.watches := by
  unfold Casement.land; split <;> rfl
@[simp] theorem Casement.land_opnd (c : Casement) (x : Contrib) : (c.land x).opnd = c.opnd := by
  unfold Casement.land; split <;> rfl
@[simp] theorem Casement.land_rdc (c : Casement) (x : Contrib) : (c.land x).rdc = c.rdc := by
  unfold Casement.land; split <;> rfl
@[simp] theorem Casement.land_asl (c : Casement) (x : Contrib) : (c.land x).asl = c.asl := by
  unfold Casement.land; split <;> rfl
@[simp] theorem Casement.land_tfs (c : Casement) (x : Contrib) : (c.land x).tfs = c.tfs := by
  unfold Casement.land; split <;> rfl
@[simp] theorem Casement.land_tfva (c : Casement) (x : Contrib) : (c.land x).tfva = c.tfva := by
  unfold Casement.land; split <;> rfl
@[simp] theorem Casement.land_tfia (c : Casement) (x : Contrib) : (c.land x).tfia = c.tfia := by
  unfold Casement.land; split <;> rfl
@[simp] theorem Casement.land_ticket (c : Casement) (x : Contrib) : (c.land x).ticket = c.ticket := by
  unfold Casement.land; split <;> rfl
@[simp] theorem Casement.land_gen (c : Casement) (x : Contrib) : (c.land x).gen = c.gen := by
  unfold Casement.land; split <;> rfl
@[simp] theorem Casement.land_dfmFmt (c : Casement) (x : Contrib) : (c.land x).dfmFmt = c.dfmFmt := by
  unfold Casement.land; split <;> rfl
@[simp] theorem Casement.land_acc (c : Casement) (x : Contrib) : (c.land x).acc = c.acc := by
  unfold Casement.land; split <;> rfl
@[simp] theorem Casement.land_v (c : Casement) (x : Contrib) : (c.land x).v = c.v := by
  unfold Casement.land; split <;> rfl
@[simp] theorem Casement.land_vpoison (c : Casement) (x : Contrib) : (c.land x).vpoison = c.vpoison := by
  unfold Casement.land; split <;> rfl
@[simp] theorem Casement.land_vres (c : Casement) (x : Contrib) : (c.land x).vres = c.vres := by
  unfold Casement.land; split <;> rfl
@[simp] theorem Casement.land_m (c : Casement) (x : Contrib) : (c.land x).m = c.m := by
  unfold Casement.land; split <;> rfl
@[simp] theorem Casement.land_vlen (c : Casement) (x : Contrib) : (c.land x).vlen = c.vlen := by
  unfold Casement.land; split <;> rfl
@[simp] theorem Casement.land_t (c : Casement) (x : Contrib) : (c.land x).t = c.t := by
  unfold Casement.land; split <;> rfl
@[simp] theorem Casement.land_tpoison (c : Casement) (x : Contrib) : (c.land x).tpoison = c.tpoison := by
  unfold Casement.land; split <;> rfl
@[simp] theorem Casement.land_tres (c : Casement) (x : Contrib) : (c.land x).tres = c.tres := by
  unfold Casement.land; split <;> rfl
@[simp] theorem Casement.land_call (c : Casement) (x : Contrib) : (c.land x).call = c.call := by
  unfold Casement.land; split <;> rfl
@[simp] theorem Casement.land_xfer (c : Casement) (x : Contrib) : (c.land x).xfer = c.xfer := by
  unfold Casement.land; split <;> rfl
@[simp] theorem Casement.land_waiting (c : Casement) (x : Contrib) : (c.land x).waiting = c.waiting := by
  unfold Casement.land; split <;> rfl
@[simp] theorem Casement.land_raised (c : Casement) (x : Contrib) : (c.land x).raised = c.raised := by
  unfold Casement.land; split <;> rfl
@[simp] theorem Casement.land_held (c : Casement) (x : Contrib) : (c.land x).held = c.held := by
  unfold Casement.land; split <;> rfl
@[simp] theorem Casement.land_fails (c : Casement) (x : Contrib) : (c.land x).fails = c.fails := by
  unfold Casement.land; split <;> rfl
@[simp] theorem Casement.land_asyncDue (c : Casement) (x : Contrib) : (c.land x).asyncDue = c.asyncDue := by
  unfold Casement.land; split <;> rfl
@[simp] theorem Casement.land_stores (c : Casement) (x : Contrib) : (c.land x).stores = c.stores := by
  unfold Casement.land; split <;> rfl
@[simp] theorem Casement.land_first (c : Casement) (x : Contrib) : (c.land x).first = c.first := by
  unfold Casement.land; split <;> rfl
@[simp] theorem Casement.land_skip (c : Casement) (x : Contrib) : (c.land x).skip = c.skip := by
  unfold Casement.land; split <;> rfl
@[simp] theorem Casement.land_dBad (c : Casement) (x : Contrib) : (c.land x).dBad = c.dBad := by
  unfold Casement.land; split <;> rfl
@[simp] theorem Casement.land_gBad (c : Casement) (x : Contrib) : (c.land x).gBad = c.gBad := by
  unfold Casement.land; split <;> rfl
@[simp] theorem Casement.land_otherBad (c : Casement) (x : Contrib) : (c.land x).otherBad = c.otherBad := by
  unfold Casement.land; split <;> rfl
@[simp] theorem Casement.land_s2ctl (c : Casement) (x : Contrib) : (c.land x).s2ctl = c.s2ctl := by
  unfold Casement.land; split <;> rfl
@[simp] theorem Casement.land_rowNext (c : Casement) (x : Contrib) : (c.land x).rowNext = c.rowNext := by
  unfold Casement.land; split <;> rfl
@[simp] theorem Casement.land_frameRet (c : Casement) (x : Contrib) : (c.land x).frameRet = c.frameRet := by
  unfold Casement.land; split <;> rfl
@[simp] theorem Casement.land_switched (c : Casement) (x : Contrib) : (c.land x).switched = c.switched := by
  unfold Casement.land; split <;> rfl
@[simp] theorem Casement.land_frame (c : Casement) (x : Contrib) : (c.land x).frame = c.frame := by
  unfold Casement.land; split <;> rfl
@[simp] theorem Casement.land_tCorr (c : Casement) (x : Contrib) : (c.land x).tCorr = c.tCorr := by
  unfold Casement.land; split <;> rfl
@[simp] theorem Casement.land_tErr (c : Casement) (x : Contrib) : (c.land x).tErr = c.tErr := by
  unfold Casement.land; split <;> rfl
@[simp] theorem Casement.land_fpc (c : Casement) (x : Contrib) : (c.land x).fpc = c.fpc := by
  unfold Casement.land; split <;> rfl
@[simp] theorem Casement.land_rmax (c : Casement) (x : Contrib) : (c.land x).rmax = c.rmax := by
  unfold Casement.land; split <;> rfl
@[simp] theorem Casement.land_nsat (c : Casement) (x : Contrib) : (c.land x).nsat = c.nsat := by
  unfold Casement.land; split <;> rfl
@[simp] theorem Casement.land_nflz (c : Casement) (x : Contrib) : (c.land x).nflz = c.nflz := by
  unfold Casement.land; split <;> rfl
@[simp] theorem Casement.land_tstart (c : Casement) (x : Contrib) : (c.land x).tstart = c.tstart := by
  unfold Casement.land; split <;> rfl

@[simp] theorem Casement.deliver_task (c : Casement) : c.deliver.task = c.task :=
  deliver_keeps (·.task) (fun _ _ => rfl) (fun _ _ => rfl) (fun c x => Casement.land_task c x) (fun _ _ _ _ => rfl) c
@[simp] theorem Casement.deliver_pc (c : Casement) : c.deliver.pc = c.pc :=
  deliver_keeps (·.pc) (fun _ _ => rfl) (fun _ _ => rfl) (fun c x => Casement.land_pc c x) (fun _ _ _ _ => rfl) c
@[simp] theorem Casement.deliver_icount (c : Casement) : c.deliver.icount = c.icount :=
  deliver_keeps (·.icount) (fun _ _ => rfl) (fun _ _ => rfl) (fun c x => Casement.land_icount c x) (fun _ _ _ _ => rfl) c
@[simp] theorem Casement.deliver_d (c : Casement) : c.deliver.d = c.d :=
  deliver_keeps (·.d) (fun _ _ => rfl) (fun _ _ => rfl) (fun c x => Casement.land_d c x) (fun _ _ _ _ => rfl) c
@[simp] theorem Casement.deliver_x (c : Casement) : c.deliver.x = c.x :=
  deliver_keeps (·.x) (fun _ _ => rfl) (fun _ _ => rfl) (fun c x => Casement.land_x c x) (fun _ _ _ _ => rfl) c
@[simp] theorem Casement.deliver_xpend (c : Casement) : c.deliver.xpend = c.xpend :=
  deliver_keeps (·.xpend) (fun _ _ => rfl) (fun _ _ => rfl) (fun c x => Casement.land_xpend c x) (fun _ _ _ _ => rfl) c
@[simp] theorem Casement.deliver_bnk (c : Casement) : c.deliver.bnk = c.bnk :=
  deliver_keeps (·.bnk) (fun _ _ => rfl) (fun _ _ => rfl) (fun c x => Casement.land_bnk c x) (fun _ _ _ _ => rfl) c
@[simp] theorem Casement.deliver_tsbp (c : Casement) : c.deliver.tsbp = c.tsbp :=
  deliver_keeps (·.tsbp) (fun _ _ => rfl) (fun _ _ => rfl) (fun c x => Casement.land_tsbp c x) (fun _ _ _ _ => rfl) c
@[simp] theorem Casement.deliver_gsel (c : Casement) : c.deliver.gsel = c.gsel :=
  deliver_keeps (·.gsel) (fun _ _ => rfl) (fun _ _ => rfl) (fun c x => Casement.land_gsel c x) (fun _ _ _ _ => rfl) c
@[simp] theorem Casement.deliver_flg (c : Casement) : c.deliver.flg = c.flg :=
  deliver_keeps (·.flg) (fun _ _ => rfl) (fun _ _ => rfl) (fun c x => Casement.land_flg c x) (fun _ _ _ _ => rfl) c
@[simp] theorem Casement.deliver_rptc (c : Casement) : c.deliver.rptc = c.rptc :=
  deliver_keeps (·.rptc) (fun _ _ => rfl) (fun _ _ => rfl) (fun c x => Casement.land_rptc c x) (fun _ _ _ _ => rfl) c
@[simp] theorem Casement.deliver_dsp (c : Casement) : c.deliver.dsp = c.dsp :=
  deliver_keeps (·.dsp) (fun _ _ => rfl) (fun _ _ => rfl) (fun c x => Casement.land_dsp c x) (fun _ _ _ _ => rfl) c
@[simp] theorem Casement.deliver_rsa (c : Casement) : c.deliver.rsa = c.rsa :=
  deliver_keeps (·.rsa) (fun _ _ => rfl) (fun _ _ => rfl) (fun c x => Casement.land_rsa c x) (fun _ _ _ _ => rfl) c
@[simp] theorem Casement.deliver_rstack (c : Casement) : c.deliver.rstack = c.rstack :=
  deliver_keeps (·.rstack) (fun _ _ => rfl) (fun _ _ => rfl) (fun c x => Casement.land_rstack c x) (fun _ _ _ _ => rfl) c
@[simp] theorem Casement.deliver_bits (c : Casement) : c.deliver.bits = c.bits :=
  deliver_keeps (·.bits) (fun _ _ => rfl) (fun _ _ => rfl) (fun c x => Casement.land_bits c x) (fun _ _ _ _ => rfl) c
@[simp] theorem Casement.deliver_watches (c : Casement) : c.deliver.watches = c.watches :=
  deliver_keeps (·.watches) (fun _ _ => rfl) (fun _ _ => rfl) (fun c x => Casement.land_watches c x) (fun _ _ _ _ => rfl) c
@[simp] theorem Casement.deliver_opnd (c : Casement) : c.deliver.opnd = c.opnd :=
  deliver_keeps (·.opnd) (fun _ _ => rfl) (fun _ _ => rfl) (fun c x => Casement.land_opnd c x) (fun _ _ _ _ => rfl) c
@[simp] theorem Casement.deliver_rdc (c : Casement) : c.deliver.rdc = c.rdc :=
  deliver_keeps (·.rdc) (fun _ _ => rfl) (fun _ _ => rfl) (fun c x => Casement.land_rdc c x) (fun _ _ _ _ => rfl) c
@[simp] theorem Casement.deliver_asl (c : Casement) : c.deliver.asl = c.asl :=
  deliver_keeps (·.asl) (fun _ _ => rfl) (fun _ _ => rfl) (fun c x => Casement.land_asl c x) (fun _ _ _ _ => rfl) c
@[simp] theorem Casement.deliver_tfs (c : Casement) : c.deliver.tfs = c.tfs :=
  deliver_keeps (·.tfs) (fun _ _ => rfl) (fun _ _ => rfl) (fun c x => Casement.land_tfs c x) (fun _ _ _ _ => rfl) c
@[simp] theorem Casement.deliver_tfva (c : Casement) : c.deliver.tfva = c.tfva :=
  deliver_keeps (·.tfva) (fun _ _ => rfl) (fun _ _ => rfl) (fun c x => Casement.land_tfva c x) (fun _ _ _ _ => rfl) c
@[simp] theorem Casement.deliver_tfia (c : Casement) : c.deliver.tfia = c.tfia :=
  deliver_keeps (·.tfia) (fun _ _ => rfl) (fun _ _ => rfl) (fun c x => Casement.land_tfia c x) (fun _ _ _ _ => rfl) c
@[simp] theorem Casement.deliver_ticket (c : Casement) : c.deliver.ticket = c.ticket :=
  deliver_keeps (·.ticket) (fun _ _ => rfl) (fun _ _ => rfl) (fun c x => Casement.land_ticket c x) (fun _ _ _ _ => rfl) c
@[simp] theorem Casement.deliver_gen (c : Casement) : c.deliver.gen = c.gen :=
  deliver_keeps (·.gen) (fun _ _ => rfl) (fun _ _ => rfl) (fun c x => Casement.land_gen c x) (fun _ _ _ _ => rfl) c
@[simp] theorem Casement.deliver_dfmFmt (c : Casement) : c.deliver.dfmFmt = c.dfmFmt :=
  deliver_keeps (·.dfmFmt) (fun _ _ => rfl) (fun _ _ => rfl) (fun c x => Casement.land_dfmFmt c x) (fun _ _ _ _ => rfl) c
@[simp] theorem Casement.deliver_acc (c : Casement) : c.deliver.acc = c.acc :=
  deliver_keeps (·.acc) (fun _ _ => rfl) (fun _ _ => rfl) (fun c x => Casement.land_acc c x) (fun _ _ _ _ => rfl) c
@[simp] theorem Casement.deliver_v (c : Casement) : c.deliver.v = c.v :=
  deliver_keeps (·.v) (fun _ _ => rfl) (fun _ _ => rfl) (fun c x => Casement.land_v c x) (fun _ _ _ _ => rfl) c
@[simp] theorem Casement.deliver_vpoison (c : Casement) : c.deliver.vpoison = c.vpoison :=
  deliver_keeps (·.vpoison) (fun _ _ => rfl) (fun _ _ => rfl) (fun c x => Casement.land_vpoison c x) (fun _ _ _ _ => rfl) c
@[simp] theorem Casement.deliver_vres (c : Casement) : c.deliver.vres = c.vres :=
  deliver_keeps (·.vres) (fun _ _ => rfl) (fun _ _ => rfl) (fun c x => Casement.land_vres c x) (fun _ _ _ _ => rfl) c
@[simp] theorem Casement.deliver_m (c : Casement) : c.deliver.m = c.m :=
  deliver_keeps (·.m) (fun _ _ => rfl) (fun _ _ => rfl) (fun c x => Casement.land_m c x) (fun _ _ _ _ => rfl) c
@[simp] theorem Casement.deliver_vlen (c : Casement) : c.deliver.vlen = c.vlen :=
  deliver_keeps (·.vlen) (fun _ _ => rfl) (fun _ _ => rfl) (fun c x => Casement.land_vlen c x) (fun _ _ _ _ => rfl) c
@[simp] theorem Casement.deliver_t (c : Casement) : c.deliver.t = c.t :=
  deliver_keeps (·.t) (fun _ _ => rfl) (fun _ _ => rfl) (fun c x => Casement.land_t c x) (fun _ _ _ _ => rfl) c
@[simp] theorem Casement.deliver_tpoison (c : Casement) : c.deliver.tpoison = c.tpoison :=
  deliver_keeps (·.tpoison) (fun _ _ => rfl) (fun _ _ => rfl) (fun c x => Casement.land_tpoison c x) (fun _ _ _ _ => rfl) c
@[simp] theorem Casement.deliver_tres (c : Casement) : c.deliver.tres = c.tres :=
  deliver_keeps (·.tres) (fun _ _ => rfl) (fun _ _ => rfl) (fun c x => Casement.land_tres c x) (fun _ _ _ _ => rfl) c
@[simp] theorem Casement.deliver_call (c : Casement) : c.deliver.call = c.call :=
  deliver_keeps (·.call) (fun _ _ => rfl) (fun _ _ => rfl) (fun c x => Casement.land_call c x) (fun _ _ _ _ => rfl) c
@[simp] theorem Casement.deliver_xfer (c : Casement) : c.deliver.xfer = c.xfer :=
  deliver_keeps (·.xfer) (fun _ _ => rfl) (fun _ _ => rfl) (fun c x => Casement.land_xfer c x) (fun _ _ _ _ => rfl) c
@[simp] theorem Casement.deliver_waiting (c : Casement) : c.deliver.waiting = c.waiting :=
  deliver_keeps (·.waiting) (fun _ _ => rfl) (fun _ _ => rfl) (fun c x => Casement.land_waiting c x) (fun _ _ _ _ => rfl) c
@[simp] theorem Casement.deliver_raised (c : Casement) : c.deliver.raised = c.raised :=
  deliver_keeps (·.raised) (fun _ _ => rfl) (fun _ _ => rfl) (fun c x => Casement.land_raised c x) (fun _ _ _ _ => rfl) c
@[simp] theorem Casement.deliver_held (c : Casement) : c.deliver.held = c.held :=
  deliver_keeps (·.held) (fun _ _ => rfl) (fun _ _ => rfl) (fun c x => Casement.land_held c x) (fun _ _ _ _ => rfl) c
@[simp] theorem Casement.deliver_fails (c : Casement) : c.deliver.fails = c.fails :=
  deliver_keeps (·.fails) (fun _ _ => rfl) (fun _ _ => rfl) (fun c x => Casement.land_fails c x) (fun _ _ _ _ => rfl) c
@[simp] theorem Casement.deliver_asyncDue (c : Casement) : c.deliver.asyncDue = c.asyncDue :=
  deliver_keeps (·.asyncDue) (fun _ _ => rfl) (fun _ _ => rfl) (fun c x => Casement.land_asyncDue c x) (fun _ _ _ _ => rfl) c
@[simp] theorem Casement.deliver_stores (c : Casement) : c.deliver.stores = c.stores :=
  deliver_keeps (·.stores) (fun _ _ => rfl) (fun _ _ => rfl) (fun c x => Casement.land_stores c x) (fun _ _ _ _ => rfl) c
@[simp] theorem Casement.deliver_first (c : Casement) : c.deliver.first = c.first :=
  deliver_keeps (·.first) (fun _ _ => rfl) (fun _ _ => rfl) (fun c x => Casement.land_first c x) (fun _ _ _ _ => rfl) c
@[simp] theorem Casement.deliver_skip (c : Casement) : c.deliver.skip = c.skip :=
  deliver_keeps (·.skip) (fun _ _ => rfl) (fun _ _ => rfl) (fun c x => Casement.land_skip c x) (fun _ _ _ _ => rfl) c
@[simp] theorem Casement.deliver_dBad (c : Casement) : c.deliver.dBad = c.dBad :=
  deliver_keeps (·.dBad) (fun _ _ => rfl) (fun _ _ => rfl) (fun c x => Casement.land_dBad c x) (fun _ _ _ _ => rfl) c
@[simp] theorem Casement.deliver_gBad (c : Casement) : c.deliver.gBad = c.gBad :=
  deliver_keeps (·.gBad) (fun _ _ => rfl) (fun _ _ => rfl) (fun c x => Casement.land_gBad c x) (fun _ _ _ _ => rfl) c
@[simp] theorem Casement.deliver_otherBad (c : Casement) : c.deliver.otherBad = c.otherBad :=
  deliver_keeps (·.otherBad) (fun _ _ => rfl) (fun _ _ => rfl) (fun c x => Casement.land_otherBad c x) (fun _ _ _ _ => rfl) c
@[simp] theorem Casement.deliver_s2ctl (c : Casement) : c.deliver.s2ctl = c.s2ctl :=
  deliver_keeps (·.s2ctl) (fun _ _ => rfl) (fun _ _ => rfl) (fun c x => Casement.land_s2ctl c x) (fun _ _ _ _ => rfl) c
@[simp] theorem Casement.deliver_rowNext (c : Casement) : c.deliver.rowNext = c.rowNext :=
  deliver_keeps (·.rowNext) (fun _ _ => rfl) (fun _ _ => rfl) (fun c x => Casement.land_rowNext c x) (fun _ _ _ _ => rfl) c
@[simp] theorem Casement.deliver_frameRet (c : Casement) : c.deliver.frameRet = c.frameRet :=
  deliver_keeps (·.frameRet) (fun _ _ => rfl) (fun _ _ => rfl) (fun c x => Casement.land_frameRet c x) (fun _ _ _ _ => rfl) c
@[simp] theorem Casement.deliver_switched (c : Casement) : c.deliver.switched = c.switched :=
  deliver_keeps (·.switched) (fun _ _ => rfl) (fun _ _ => rfl) (fun c x => Casement.land_switched c x) (fun _ _ _ _ => rfl) c
@[simp] theorem Casement.deliver_frame (c : Casement) : c.deliver.frame = c.frame :=
  deliver_keeps (·.frame) (fun _ _ => rfl) (fun _ _ => rfl) (fun c x => Casement.land_frame c x) (fun _ _ _ _ => rfl) c
@[simp] theorem Casement.deliver_tCorr (c : Casement) : c.deliver.tCorr = c.tCorr :=
  deliver_keeps (·.tCorr) (fun _ _ => rfl) (fun _ _ => rfl) (fun c x => Casement.land_tCorr c x) (fun _ _ _ _ => rfl) c
@[simp] theorem Casement.deliver_tErr (c : Casement) : c.deliver.tErr = c.tErr :=
  deliver_keeps (·.tErr) (fun _ _ => rfl) (fun _ _ => rfl) (fun c x => Casement.land_tErr c x) (fun _ _ _ _ => rfl) c
@[simp] theorem Casement.deliver_fpc (c : Casement) : c.deliver.fpc = c.fpc :=
  deliver_keeps (·.fpc) (fun _ _ => rfl) (fun _ _ => rfl) (fun c x => Casement.land_fpc c x) (fun _ _ _ _ => rfl) c
@[simp] theorem Casement.deliver_rmax (c : Casement) : c.deliver.rmax = c.rmax :=
  deliver_keeps (·.rmax) (fun _ _ => rfl) (fun _ _ => rfl) (fun c x => Casement.land_rmax c x) (fun _ _ _ _ => rfl) c
@[simp] theorem Casement.deliver_nsat (c : Casement) : c.deliver.nsat = c.nsat :=
  deliver_keeps (·.nsat) (fun _ _ => rfl) (fun _ _ => rfl) (fun c x => Casement.land_nsat c x) (fun _ _ _ _ => rfl) c
@[simp] theorem Casement.deliver_nflz (c : Casement) : c.deliver.nflz = c.nflz :=
  deliver_keeps (·.nflz) (fun _ _ => rfl) (fun _ _ => rfl) (fun c x => Casement.land_nflz c x) (fun _ _ _ _ => rfl) c
@[simp] theorem Casement.deliver_tstart (c : Casement) : c.deliver.tstart = c.tstart :=
  deliver_keeps (·.tstart) (fun _ _ => rfl) (fun _ _ => rfl) (fun c x => Casement.land_tstart c x) (fun _ _ _ _ => rfl) c

/-! ### The arrivals at a word -/

/-- Arrivals change cores only. -/
theorem State.tlbiSweep_keeps {α : Type} (g : State → α) (hg : ∀ s n f, g (State.onCore s n f) = g s) (s : State) (n : Nat) :
    g (s.tlbiSweep n) = g s := by
  have h : ∀ (l : List (Nat × List (Option Nat) × List Nat)) (s : State), g (l.foldl (fun s (num, _, ids) =>
      if ids.any s.inFlight then s
      else (s.onCore n fun c => { c with tlbiOpen := c.tlbiOpen.filter (·.1 != num) }).barrierDone n num) s) = g s := by
    intro l
    induction l with
    | nil => intro s; rfl
    | cons e l ih =>
      intro s
      obtain ⟨num, w, ids⟩ := e
      rw [List.foldl_cons, ih]
      simp only []
      split
      · rfl
      · rw [State.barrierDone, State.mapCtx, hg, hg]
  exact h _ s

@[simp] theorem State.arrivals_mem (s : State) (n k : Nat) : (s.arrivals n k).mem = s.mem := by
  rw [State.arrivals, State.onCase_mem, State.tlbiSweep_keeps (·.mem) fun _ _ _ => rfl]
@[simp] theorem State.arrivals_poison (s : State) (n k : Nat) : (s.arrivals n k).poison = s.poison := by
  rw [State.arrivals, State.onCase_poison, State.tlbiSweep_keeps (·.poison) fun _ _ _ => rfl]
@[simp] theorem State.arrivals_tags (s : State) (n k : Nat) : (s.arrivals n k).tags = s.tags := by
  rw [State.arrivals, State.onCase_tags, State.tlbiSweep_keeps (·.tags) fun _ _ _ => rfl]
@[simp] theorem State.arrivals_frames (s : State) (n k : Nat) : (s.arrivals n k).frames = s.frames := by
  rw [State.arrivals, State.onCase_frames, State.tlbiSweep_keeps (·.frames) fun _ _ _ => rfl]
@[simp] theorem State.arrivals_pending (s : State) (n k : Nat) : (s.arrivals n k).pending = s.pending := by
  rw [State.arrivals, State.onCase_pending, State.tlbiSweep_keeps (·.pending) fun _ _ _ => rfl]
@[simp] theorem State.arrivals_now (s : State) (n k : Nat) : (s.arrivals n k).now = s.now := by
  rw [State.arrivals, State.onCase_now, State.tlbiSweep_keeps (·.now) fun _ _ _ => rfl]
@[simp] theorem State.arrivals_free (s : State) (n k : Nat) : (s.arrivals n k).free = s.free := by
  rw [State.arrivals, State.onCase_free, State.tlbiSweep_keeps (·.free) fun _ _ _ => rfl]
@[simp] theorem State.arrivals_nextId (s : State) (n k : Nat) : (s.arrivals n k).nextId = s.nextId := by
  rw [State.arrivals, State.onCase_nextId, State.tlbiSweep_keeps (·.nextId) fun _ _ _ => rfl]
@[simp] theorem State.arrivals_clusters (s : State) (n k : Nat) : (s.arrivals n k).clusters = s.clusters := by
  rw [State.arrivals, State.onCase_clusters, State.tlbiSweep_keeps (·.clusters) fun _ _ _ => rfl]
@[simp] theorem State.arrivals_ports (s : State) (n k : Nat) : (s.arrivals n k).ports = s.ports := by
  rw [State.arrivals, State.onCase_ports, State.tlbiSweep_keeps (·.ports) fun _ _ _ => rfl]
@[simp] theorem State.arrivals_links (s : State) (n k : Nat) : (s.arrivals n k).links = s.links := by
  rw [State.arrivals, State.onCase_links, State.tlbiSweep_keeps (·.links) fun _ _ _ => rfl]
@[simp] theorem State.arrivals_routes (s : State) (n k : Nat) : (s.arrivals n k).routes = s.routes := by
  rw [State.arrivals, State.onCase_routes, State.tlbiSweep_keeps (·.routes) fun _ _ _ => rfl]
@[simp] theorem State.arrivals_packets (s : State) (n k : Nat) : (s.arrivals n k).packets = s.packets := by
  rw [State.arrivals, State.onCase_packets, State.tlbiSweep_keeps (·.packets) fun _ _ _ => rfl]
@[simp] theorem State.arrivals_responses (s : State) (n k : Nat) : (s.arrivals n k).responses = s.responses := by
  rw [State.arrivals, State.onCase_responses, State.tlbiSweep_keeps (·.responses) fun _ _ _ => rfl]
@[simp] theorem State.arrivals_addends (s : State) (n k : Nat) : (s.arrivals n k).addends = s.addends := by
  rw [State.arrivals, State.onCase_addends, State.tlbiSweep_keeps (·.addends) fun _ _ _ => rfl]
@[simp] theorem State.arrivals_drain (s : State) (n k : Nat) : (s.arrivals n k).drain = s.drain := by
  rw [State.arrivals, State.onCase_drain, State.tlbiSweep_keeps (·.drain) fun _ _ _ => rfl]
@[simp] theorem State.arrivals_power (s : State) (n k : Nat) : (s.arrivals n k).power = s.power := by
  rw [State.arrivals, State.onCase_power, State.tlbiSweep_keeps (·.power) fun _ _ _ => rfl]
@[simp] theorem State.arrivals_mail (s : State) (n k : Nat) : (s.arrivals n k).mail = s.mail := by
  rw [State.arrivals, State.onCase_mail, State.tlbiSweep_keeps (·.mail) fun _ _ _ => rfl]
@[simp] theorem State.arrivals_beat (s : State) (n k : Nat) : (s.arrivals n k).beat = s.beat := by
  rw [State.arrivals, State.onCase_beat, State.tlbiSweep_keeps (·.beat) fun _ _ _ => rfl]
@[simp] theorem State.arrivals_jobs (s : State) (n k : Nat) : (s.arrivals n k).jobs = s.jobs := by
  rw [State.arrivals, State.onCase_jobs, State.tlbiSweep_keeps (·.jobs) fun _ _ _ => rfl]
@[simp] theorem State.arrivals_digest (s : State) (n k : Nat) : (s.arrivals n k).digest = s.digest := by
  rw [State.arrivals, State.onCase_digest, State.tlbiSweep_keeps (·.digest) fun _ _ _ => rfl]
@[simp] theorem State.arrivals_start (s : State) (n k : Nat) : (s.arrivals n k).start = s.start := by
  rw [State.arrivals, State.onCase_start, State.tlbiSweep_keeps (·.start) fun _ _ _ => rfl]
@[simp] theorem State.arrivals_log (s : State) (n k : Nat) : (s.arrivals n k).log = s.log := by
  rw [State.arrivals, State.onCase_log, State.tlbiSweep_keeps (·.log) fun _ _ _ => rfl]
@[simp] theorem State.arrivals_history (s : State) (n k : Nat) : (s.arrivals n k).history = s.history := by
  rw [State.arrivals, State.onCase_history, State.tlbiSweep_keeps (·.history) fun _ _ _ => rfl]
@[simp] theorem State.arrivals_flash (s : State) (n k : Nat) : (s.arrivals n k).flash = s.flash := by
  rw [State.arrivals, State.onCase_flash, State.tlbiSweep_keeps (·.flash) fun _ _ _ => rfl]
@[simp] theorem State.arrivals_flashPort (s : State) (n k : Nat) : (s.arrivals n k).flashPort = s.flashPort := by
  rw [State.arrivals, State.onCase_flashPort, State.tlbiSweep_keeps (·.flashPort) fun _ _ _ => rfl]
@[simp] theorem State.arrivals_domstat (s : State) (n k : Nat) : (s.arrivals n k).domstat = s.domstat := by
  rw [State.arrivals, State.onCase_domstat, State.tlbiSweep_keeps (·.domstat) fun _ _ _ => rfl]
@[simp] theorem State.arrivals_images (s : State) (n k : Nat) : (s.arrivals n k).images = s.images := by
  rw [State.arrivals, State.onCase_images, State.tlbiSweep_keeps (·.images) fun _ _ _ => rfl]
@[simp] theorem State.arrivals_keyHash (s : State) (n k : Nat) : (s.arrivals n k).keyHash = s.keyHash := by
  rw [State.arrivals, State.onCase_keyHash, State.tlbiSweep_keeps (·.keyHash) fun _ _ _ => rfl]
@[simp] theorem State.arrivals_i3c (s : State) (n k : Nat) : (s.arrivals n k).i3c = s.i3c := by
  rw [State.arrivals, State.onCase_i3c, State.tlbiSweep_keeps (·.i3c) fun _ _ _ => rfl]
@[simp] theorem State.arrivals_resetLow (s : State) (n k : Nat) : (s.arrivals n k).resetLow = s.resetLow := by
  rw [State.arrivals, State.onCase_resetLow, State.tlbiSweep_keeps (·.resetLow) fun _ _ _ => rfl]
@[simp] theorem State.arrivals_clkLoss (s : State) (n k : Nat) : (s.arrivals n k).clkLoss = s.clkLoss := by
  rw [State.arrivals, State.onCase_clkLoss, State.tlbiSweep_keeps (·.clkLoss) fun _ _ _ => rfl]

end Sys2Proof.Machine
end

