-- ==== Sys2Proof/Laws/Commit.lean ====
section
/-! SUPPORT. What counting a word as issued does (R43, R48, R49): the casement's own bookkeeping, the core's, and nothing of
the rest of the block. -/

namespace Sys2Proof.Machine

theorem State.onTask_keeps {α : Type} (g : State → α) (hg : ∀ s n f, g (State.onCore s n f) = g s) (s : State) (n t : Nat)
    (f : Task → Task) : g (s.onTask n t f) = g s := by
  unfold State.onTask; split
  · rfl
  · exact hg _ _ _

/-- A task's record is no casement. -/
@[simp] theorem State.case_onTask (s : State) (n t m k : Nat) (f : Task → Task) : (s.onTask n t f).case m k = s.case m k := by
  unfold State.onTask; split
  · rfl
  · unfold State.case; rw [core_onCore]; split <;> simp_all

/-- What every issued word does changes cores only. -/
theorem State.afterIssue_keeps {α : Type} (g : State → α) (hg : ∀ s n f, g (State.onCore s n f) = g s) (s : State) (n k : Nat)
    (who : Option Nat) : g (s.afterIssue n k who) = g s := by
  have hc : ∀ s n k f, g (State.onCase s n k f) = g s := fun s n k f => hg s n fun c => { c with cases := tabSet {} c.cases k (f (s.case n k)) }
  unfold State.afterIssue
  cases who with
  | none => simp only [hg, hc]
  | some t => simp only [State.onTask_keeps g hg, hg, hc]

/-- The casement after an issued word. -/
@[simp] theorem State.case_afterIssue (s : State) (n k : Nat) (who : Option Nat) :
    (s.afterIssue n k who).case n k = Casement.touch
      { (s.case n k).settleRegs with
        icount := (s.case n k).icount + 1, held := [], waiting := none, first := false, switched := false, frameRet := false } 0 := by
  unfold State.afterIssue
  cases who with
  | none => simp [State.case, core_onCore]; simp [State.onCase, State.setCase, State.case, core_onCore]
  | some t => simp only [State.case_onTask]; simp [State.case, core_onCore]; simp [State.onCase, State.setCase, State.case, core_onCore]

/-- The end of a word that is neither a repeat body nor the first word of a handler nor a frame return that has waited nor the first
word after a switch that holds wakes, that neither enters nor leaves a wicket or a frame, and that ends no handler of the keeper: the program counter moves on and the
issue is counted. -/
theorem State.commit_calm (s b : State) (n k : Nat) (w : CodeWord) (hf : (b.case n k).first = false)
    (hr : (b.case n k).frameRet = false) (hs : (b.case n k).switched = false) (hb : (b.case n k).inBody = false)
    (hj : b.wrote n k w (fun d => d == 0x494 || d == 0x495) = false)
    (hk : k = 8 → b.wrote n k w (· == 0x496) = false) :
    s.commit b n k w = (s.onCase n k fun c => c.advance (b.case n k) w.bytes (b.wrote n k w (· == 0xC1))).afterIssue n k
      (b.whoIs n k) := by
  by_cases h8 : k = 8
  · subst h8; simp [State.commit, hj, hk]
  · simp [State.commit, hf, hr, hs, hb, hj, h8]

/-- A word of one long move writes the destination it names and no other. -/
theorem State.wrote_move (b : State) (n k sock : Nat) (v : Word) (p : Nat → Bool) (hs : sock < 4096) (hd : dstOk sock = true) :
    b.wrote n k (.move (BitVec.ofNat 12 sock) v) p = p sock := by
  have hn : (BitVec.ofNat 12 sock).toNat = sock := by simp; omega
  simp [State.wrote, CodeWord.moves, hn, hd, Casement.liveMoves, Casement.guardTrue]

/-- The casement where no transfer is in progress and no body repeats: the next word is the one after. -/
theorem Casement.advance_plain (c old : Casement) (len : Nat) (wr : Bool) (hb : old.inBody = false) (hx : old.xfer = none) :
    c.advance old len wr = { c with pc := old.pc + BitVec.ofNat 48 len } := by
  simp [Casement.advance, hb, hx]

@[simp] theorem State.afterIssue_mem (s : State) (n k : Nat) (w : Option Nat) : (s.afterIssue n k w).mem = s.mem :=
  State.afterIssue_keeps (·.mem) (fun _ _ _ => rfl) s n k w
@[simp] theorem State.afterIssue_poison (s : State) (n k : Nat) (w : Option Nat) : (s.afterIssue n k w).poison = s.poison :=
  State.afterIssue_keeps (·.poison) (fun _ _ _ => rfl) s n k w
@[simp] theorem State.afterIssue_tags (s : State) (n k : Nat) (w : Option Nat) : (s.afterIssue n k w).tags = s.tags :=
  State.afterIssue_keeps (·.tags) (fun _ _ _ => rfl) s n k w
@[simp] theorem State.afterIssue_frames (s : State) (n k : Nat) (w : Option Nat) : (s.afterIssue n k w).frames = s.frames :=
  State.afterIssue_keeps (·.frames) (fun _ _ _ => rfl) s n k w
@[simp] theorem State.afterIssue_pending (s : State) (n k : Nat) (w : Option Nat) : (s.afterIssue n k w).pending = s.pending :=
  State.afterIssue_keeps (·.pending) (fun _ _ _ => rfl) s n k w
@[simp] theorem State.afterIssue_now (s : State) (n k : Nat) (w : Option Nat) : (s.afterIssue n k w).now = s.now :=
  State.afterIssue_keeps (·.now) (fun _ _ _ => rfl) s n k w
@[simp] theorem State.afterIssue_free (s : State) (n k : Nat) (w : Option Nat) : (s.afterIssue n k w).free = s.free :=
  State.afterIssue_keeps (·.free) (fun _ _ _ => rfl) s n k w
@[simp] theorem State.afterIssue_nextId (s : State) (n k : Nat) (w : Option Nat) : (s.afterIssue n k w).nextId = s.nextId :=
  State.afterIssue_keeps (·.nextId) (fun _ _ _ => rfl) s n k w
@[simp] theorem State.afterIssue_clusters (s : State) (n k : Nat) (w : Option Nat) : (s.afterIssue n k w).clusters = s.clusters :=
  State.afterIssue_keeps (·.clusters) (fun _ _ _ => rfl) s n k w
@[simp] theorem State.afterIssue_ports (s : State) (n k : Nat) (w : Option Nat) : (s.afterIssue n k w).ports = s.ports :=
  State.afterIssue_keeps (·.ports) (fun _ _ _ => rfl) s n k w
@[simp] theorem State.afterIssue_links (s : State) (n k : Nat) (w : Option Nat) : (s.afterIssue n k w).links = s.links :=
  State.afterIssue_keeps (·.links) (fun _ _ _ => rfl) s n k w
@[simp] theorem State.afterIssue_routes (s : State) (n k : Nat) (w : Option Nat) : (s.afterIssue n k w).routes = s.routes :=
  State.afterIssue_keeps (·.routes) (fun _ _ _ => rfl) s n k w
@[simp] theorem State.afterIssue_packets (s : State) (n k : Nat) (w : Option Nat) : (s.afterIssue n k w).packets = s.packets :=
  State.afterIssue_keeps (·.packets) (fun _ _ _ => rfl) s n k w
@[simp] theorem State.afterIssue_responses (s : State) (n k : Nat) (w : Option Nat) : (s.afterIssue n k w).responses = s.responses :=
  State.afterIssue_keeps (·.responses) (fun _ _ _ => rfl) s n k w
@[simp] theorem State.afterIssue_addends (s : State) (n k : Nat) (w : Option Nat) : (s.afterIssue n k w).addends = s.addends :=
  State.afterIssue_keeps (·.addends) (fun _ _ _ => rfl) s n k w
@[simp] theorem State.afterIssue_drain (s : State) (n k : Nat) (w : Option Nat) : (s.afterIssue n k w).drain = s.drain :=
  State.afterIssue_keeps (·.drain) (fun _ _ _ => rfl) s n k w
@[simp] theorem State.afterIssue_power (s : State) (n k : Nat) (w : Option Nat) : (s.afterIssue n k w).power = s.power :=
  State.afterIssue_keeps (·.power) (fun _ _ _ => rfl) s n k w
@[simp] theorem State.afterIssue_mail (s : State) (n k : Nat) (w : Option Nat) : (s.afterIssue n k w).mail = s.mail :=
  State.afterIssue_keeps (·.mail) (fun _ _ _ => rfl) s n k w
@[simp] theorem State.afterIssue_beat (s : State) (n k : Nat) (w : Option Nat) : (s.afterIssue n k w).beat = s.beat :=
  State.afterIssue_keeps (·.beat) (fun _ _ _ => rfl) s n k w
@[simp] theorem State.afterIssue_jobs (s : State) (n k : Nat) (w : Option Nat) : (s.afterIssue n k w).jobs = s.jobs :=
  State.afterIssue_keeps (·.jobs) (fun _ _ _ => rfl) s n k w
@[simp] theorem State.afterIssue_digest (s : State) (n k : Nat) (w : Option Nat) : (s.afterIssue n k w).digest = s.digest :=
  State.afterIssue_keeps (·.digest) (fun _ _ _ => rfl) s n k w
@[simp] theorem State.afterIssue_start (s : State) (n k : Nat) (w : Option Nat) : (s.afterIssue n k w).start = s.start :=
  State.afterIssue_keeps (·.start) (fun _ _ _ => rfl) s n k w
@[simp] theorem State.afterIssue_log (s : State) (n k : Nat) (w : Option Nat) : (s.afterIssue n k w).log = s.log :=
  State.afterIssue_keeps (·.log) (fun _ _ _ => rfl) s n k w
@[simp] theorem State.afterIssue_history (s : State) (n k : Nat) (w : Option Nat) : (s.afterIssue n k w).history = s.history :=
  State.afterIssue_keeps (·.history) (fun _ _ _ => rfl) s n k w
@[simp] theorem State.afterIssue_flash (s : State) (n k : Nat) (w : Option Nat) : (s.afterIssue n k w).flash = s.flash :=
  State.afterIssue_keeps (·.flash) (fun _ _ _ => rfl) s n k w
@[simp] theorem State.afterIssue_flashPort (s : State) (n k : Nat) (w : Option Nat) : (s.afterIssue n k w).flashPort = s.flashPort :=
  State.afterIssue_keeps (·.flashPort) (fun _ _ _ => rfl) s n k w
@[simp] theorem State.afterIssue_domstat (s : State) (n k : Nat) (w : Option Nat) : (s.afterIssue n k w).domstat = s.domstat :=
  State.afterIssue_keeps (·.domstat) (fun _ _ _ => rfl) s n k w
@[simp] theorem State.afterIssue_resetLow (s : State) (n k : Nat) (w : Option Nat) : (s.afterIssue n k w).resetLow = s.resetLow :=
  State.afterIssue_keeps (·.resetLow) (fun _ _ _ => rfl) s n k w
@[simp] theorem State.afterIssue_clkLoss (s : State) (n k : Nat) (w : Option Nat) : (s.afterIssue n k w).clkLoss = s.clkLoss :=
  State.afterIssue_keeps (·.clkLoss) (fun _ _ _ => rfl) s n k w

end Sys2Proof.Machine
end

