-- ==== Sys2Proof/Laws/Issue.lean ====
section
/-! SUPPORT. What issuing a word of one long move comes to, once for every trigger port: a ready word fires its trigger in the
state of arrivals, and what the trigger answers is settled. -/

namespace Sys2Proof.Machine

/-- What `ready` says, part by part. -/
theorem State.ready_parts {s : State} {n k : Nat} (h : s.ready n k = true) :
    s.issuer n = some k ∧ (s.case n k).waiting = none ∧ (s.case n k).skip = false ∧ (s.reg n k).asyncNow = false ∧
      (s.reg n k).otherBad = false := by
  simp only [State.ready, Bool.and_eq_true, beq_iff_eq, Option.isNone_iff_eq_none, Bool.not_eq_true'] at h
  exact ⟨h.1.1.1.1, h.1.1.1.2, h.1.1.2, h.1.2, h.2⟩

/-- A word of one long move to a trigger port that is no transfer, repeat, call or return fires it. -/
theorem runWord_move {s : State} {n k sock : Nat} {v : Word} {u : Unit_} (hs : sock < 4096)
    (hu : sockOf sock = some (.trig u)) (ho : (s.case n k).otherBad = false)
    (hc : isControl sock = false ∨ ((s.case n k).inSlot = false ∧ (s.case n k).inBody = false)) :
    s.runWord n k (.move (BitVec.ofNat 12 sock) v) = s.fire n k 4 sock v := by
  have hn : (BitVec.ofNat 12 sock).toNat = sock := by simp; omega
  have hw : s.writeSock n k sock v = s := by simp [State.writeSock, hu]
  have hcond : (((s.case n k).inSlot || (s.case n k).inBody) && isControl sock) = false := by
    rcases hc with h | ⟨h1, h2⟩
    · simp [h]
    · simp [h1, h2]
  have hg : (s.case n k).guardBad [{ src := .imm v, dst := sock }] = false := by
    simp [Casement.guardBad, Casement.guardBit]
  unfold State.runWord
  simp only [CodeWord.moves, hn, dstOk, hu, Sock.writable, if_true, Casement.liveMoves, Casement.guardTrue, Bool.not_true,
    Bool.false_eq_true, if_false, List.any_cons, List.any_nil, Bool.or_false, hcond, ho, hg, State.readAll, State.readSrc,
    State.writeAll, State.fireAll, hw, CodeWord.bytes]
  cases s.fire n k 4 sock v <;> rfl

/-- The state after a command that issues one move to a trigger port, where the word is ready. -/
theorem issueMove_ready {s : State} {n k sock : Nat} {v : Word} {u : Unit_} (h : s.ready n k = true) (hs : sock < 4096)
    (hu : sockOf sock = some (.trig u)) (hc : isControl sock = false ∨ s.free_ n k = true) :
    s.issueMove n sock v =
      (s.arrivals n k).settleWord n k (.move (BitVec.ofNat 12 sock) v) ((s.arrivals n k).fire n k 4 sock v) := by
  obtain ⟨h1, h2, h3, h4, h5⟩ := State.ready_parts h
  have hc' : isControl sock = false ∨
      (((s.arrivals n k).case n k).inSlot = false ∧ ((s.arrivals n k).case n k).inBody = false) := by
    rcases hc with hc | hc
    · exact .inl hc
    · right
      simpa [State.free_, State.reg] using hc
  simp only [State.issueMove, h1, h2, h3, State.issueWord, Option.isSome_none, Bool.false_eq_true, if_false]
  have ha : ((s.arrivals n k).case n k).asyncNow = false := by simpa [State.reg] using h4
  simp only [ha, Bool.false_and, Bool.false_eq_true, if_false]
  rw [runWord_move hs hu (by simpa [State.reg] using h5) hc']

/-- Where the trigger takes effect, the command answers its state with the word counted as issued. -/
theorem issueMove_done {s s1 : State} {n k sock : Nat} {v : Word} {u : Unit_} (h : s.ready n k = true) (hs : sock < 4096)
    (hu : sockOf sock = some (.trig u)) (hc : isControl sock = false ∨ s.free_ n k = true)
    (hf : (s.arrivals n k).fire n k 4 sock v = .done s1) :
    (.next (s.issueMove n sock v) : Out) = s.issues n k sock v s1 := by
  rw [issueMove_ready h hs hu hc, hf]; rfl

end Sys2Proof.Machine
end

