-- ==== Sys2Proof/Tests/Slice0.lean ====
section
/-! SUPPORT. Tests: ill-formed commands are refused; single steps against the spec's own figures; for each statement with
hypotheses, states and operands that meet them. -/

namespace Sys2Proof.Tests

/-! The tests are elaborated one after the other: each started beside the others needs a thread of its own. -/
set_option Elab.async false

open Sys2Proof.Machine

/-! ### States -/

/-- 256 KiB of uncached memory at the bottom of bank 0. -/
def page : TlbEntry := { tag := 0, ia := 0, size := 0x40000, pa := 2 ^ 40, perm := 7, attr := 1, level := 3 }

/-- Registers of a task that may access that page through extent 0. -/
def regs : Casement :=
  { task := some 0, pc := 0x100, x := [(0, { limit := 0x30000, ctl := 0xF })], k := [(0, mkKey 0 1 0x40000 1 0x3F)]
    s2ctl := 0x0010000000000000 }

/-- A task of the full profile in casement 0. -/
def task0 : Task := { st := .running, loc := some 0, prof := 2, slot := 0, job := 1 }

/-- A task that is spilled. -/
def task1 : Task := { st := .ready, loc := none, prof := 0, slot := 64, job := 1 }

/-- A block in operation, its cluster 0 on, its core 0 changed by g. -/
def block (g : Core → Core) : State :=
  { State.reset with
    beat := { running := true }, start := { phase := 7, filled := true, classified := true, libReady := true }
    clusters := [(0, { dst := .on })], cores := [(0, g (Core.reset 0))] }

/-- Core 0 runs task 0, whose registers are f of `regs`; the core is changed by g. -/
def runs (f : Casement → Casement) (g : Core → Core) : State :=
  block fun c => g { c with running := some 0, tasks := [(0, task0)], cases := [(0, f regs)], tlb := [page] }

def run (f : Casement → Casement) : State := runs f id

/-- The translation of address a through the page. -/
def pg (a : Nat) : Xl := { pa := 2 ^ 40 + a, type := .uncached, ext := 0, level := 3, ia := a, tag := 0 }

/-- A store-buffer entry of task 0 for 8 bytes of the page's line 1. -/
def entry : SbEntry :=
  { eid := 1, task := some 0, order := 0, va := 0x40, line := (2 ^ 40 + 0x40) / 64, mask := 0xFF, data := 5, cacheable := false, device := false }

/-- What a state answers, as a state. -/
def after (o : Out) : State := match o with | .next t => t | _ => State.reset

/-- A message that is good for each type. -/
def msg (ty : Nat) (pay : List Byte) : Msg :=
  { type := BitVec.ofNat 4 ty, ch := 0, strict := false, seq := 0, srcblk := 1, src := 0, rpl := false, rlast := false, offset := 0
    dstblk := 0, len := BitVec.ofNat 9 pay.length, af := 0, rank := 0, size := 0, rtag := 0, job := 0, arg := 0, payload := pay
    corrupt := false, badReserved := false }

def port8 : List Training := List.replicate 8 { ok := true, rate := 1, scap := 8 }
def env : StartupEnv := { flash := none, sfdpOk := true, stackPorts := port8, linkRates := List.replicate 16 none }

/-- `State.sound`, as a test. -/
def soundAt (s : State) (n pa off len : Nat) : Bool :=
  s.place pa == .bank n off && decide (off + len ≤ 0x40000) && !s.inSpill n off len && s.clusterOn n && decide (0 < len) &&
    decide (pa % 64 + len ≤ 64) && s.eccBad == [] && s.eccCorr == [] && !s.poison.contains (pa / 64) &&
    !(s.core n).badBond

theorem sound_of {s : State} {n pa off len : Nat} (h : soundAt s n pa off len = true) : s.sound n pa len := by
  simp only [soundAt, Bool.and_eq_true, beq_iff_eq, decide_eq_true_eq, Bool.not_eq_true', List.contains_eq_mem,
    decide_eq_false_iff_not] at h
  obtain ⟨⟨⟨⟨⟨⟨⟨⟨⟨a, b⟩, c⟩, d⟩, e⟩, f⟩, g⟩, i⟩, j⟩, k⟩ := h
  exact ⟨⟨off, a, b, c⟩, d, e, f, g, i, j, k⟩

/-! ### Well-formedness -/

theorem test_wf_good : Instr.wf (.linkPut 0 (msg 1 [1])) = true ∧ Instr.wf (.startupSequence env) = true := by decide +kernel

theorem test_wf_linkPut : Instr.wf (.linkPut 0 (msg 1 (List.replicate 257 0))) = false := by decide +kernel
theorem test_wf_linkGet : Instr.wf (.linkGet 0 (msg 2 (List.replicate 257 0))) = false := by decide +kernel
theorem test_wf_linkAccp : Instr.wf (.linkAccp 0 (msg 3 (List.replicate 257 0))) = false := by decide +kernel
theorem test_wf_linkSignal : Instr.wf (.linkSignal 0 (msg 4 (List.replicate 257 0))) = false := by decide +kernel
theorem test_wf_linkGetr : Instr.wf (.linkGetr 0 (msg 5 (List.replicate 257 0))) = false := by decide +kernel
theorem test_wf_linkAck : Instr.wf (.linkAck 0 (msg 6 (List.replicate 257 0))) = false := by decide +kernel
theorem test_wf_linkVoid : Instr.wf (.linkVoid 0 (msg 7 (List.replicate 257 0))) = false := by decide +kernel
theorem test_wf_linkHreq : Instr.wf (.linkHreq 0 (msg 11 (List.replicate 257 0))) = false := by decide +kernel
theorem test_wf_linkDbell : Instr.wf (.linkDbell 0 (msg 13 (List.replicate 257 0))) = false := by decide +kernel
theorem test_wf_linkEsc : Instr.wf (.linkEsc 0 (msg 14 (List.replicate 257 0))) = false := by decide +kernel
theorem test_wf_sample_thermal : Instr.wf (.beatBoundary { power := 0, thermal := [0], current := List.replicate 184 0, hotStacks := 0 }) = false := by decide +kernel
theorem test_wf_sample_current : Instr.wf (.beatBoundary { power := 0, thermal := List.replicate 344 0, current := [0], hotStacks := 0 }) = false := by decide +kernel
theorem test_wf_ports : Instr.wf (.startupSequence { env with stackPorts := [] }) = false := by decide +kernel
theorem test_wf_ready : Instr.wf (.startupSequence { env with ready := [true] }) = false := by decide +kernel
theorem test_wf_links : Instr.wf (.startupSequence { env with linkRates := [] }) = false := by decide +kernel
theorem test_wf_flash_range : Instr.wf (.startupSequence { env with flash := some [(268435456, 0)] }) = false := by decide +kernel
theorem test_wf_flash_erased : Instr.wf (.startupSequence { env with flash := some [(0, 0xFF)] }) = false := by decide +kernel
theorem test_wf_flash_order : Instr.wf (.startupSequence { env with flash := some [(1, 0), (0, 0)] }) = false := by decide +kernel
theorem test_wf_i3c_write : Instr.wf (.i3cPrivateWrite 0 (List.replicate 513 0)) = false := by decide +kernel
theorem test_wf_i3c_read : Instr.wf (.i3cPrivateRead 513) = false := by decide +kernel

/-! ### What the statements' hypotheses are met by -/

theorem witness_StepTicksWhenIdle :
    (run id).pending = [] ∧ (run id).live = true ∧ ({ State.reset with resetLow := true } : State).live = false := by decide

theorem witness_StepKeepsMemoryForm : State.reset.MemOk ∧ ∃ t, step State.reset = .next t := ⟨by unfold State.MemOk; decide +kernel, _, rfl⟩

theorem witness_StorageWrite : State.reset.eccBad = [] ∧ State.reset.eccCorr = [] ∧ ([1] : List Byte) ≠ [] := by decide

theorem witness_IssueAdvances :
    ((0x28 : Nat) < 4096 ∧ 0x28 ≠ 0x494 ∧ 0x28 ≠ 0x495 ∧ (run id).calm 0 0 = true ∧
      (0x28 : Nat) ≠ 0x496 ∧ (runs id fun c => { c with running := some 8 }).calm 0 8 = true) ∧
    (let c : Casement := { xfer := some { target := 8, slots := 2, call := false } }
     c.inBody = false ∧ c.xfer = some { target := 8, slots := 2, call := false }) ∧
    (let c : Casement := { rptc := 0x200000002 }
     c.inBody = true ∧ c.xfer = none ∧ 1 < c.rptc.toNat % 2 ^ 32) ∧
    (let c : Casement := { rptc := 0x200000001 }
     c.inBody = true ∧ c.rptc.toNat % 2 ^ 32 ≤ 1) ∧
    (let c : Casement := { rptc := 0x200000000 }
     c.inBody = true ∧ c.xfer = none ∧ c.rptc.toNat % 2 ^ 32 ≤ 1) := by decide

theorem witness_ResultsArrive :
    (∀ x ∈ ({} : Casement).pend, ({} : Casement).icount + 3 < x.due) ∧ (2 : Nat) < 3 ∧ 3 ≤ 3 ∧ ({} : Casement).pend = [] ∧
    ({} : Casement).landed = {} := by decide

theorem witness_AluFlagRows : (run id).ready 0 0 = true := by decide

theorem witness_DivisionEdges :
    (run id).ready 0 0 = true ∧ (((run id).arrivals 0 0).core 0).divLeft = 0 ∧ (3 : Word) ≠ 0 ∧
    (runs id fun c => { c with divLeft := 1 }).ready 0 0 = true ∧
    0 < (((runs id fun c => { c with divLeft := 1 }).arrivals 0 0).core 0).divLeft ∧
    (let s := run fun c => { c with opnd := [(0x20, 0x8000000000000000)] }
     s.ready 0 0 = true ∧ ((s.arrivals 0 0).core 0).divLeft = 0 ∧ (s.reg 0 0).opnd_ 0x20 = 0x8000000000000000) := by decide +kernel

theorem witness_BitWriteRows :
    ((run id).ready 0 0 = true ∧ ((run id).reg 0 0).gBad = 0 ∧ (3072 : Nat) ≤ 3072 % 4096 ∧ (3071 : Nat) < 3072) ∧
    (decodeWord 0x80E020DC 0).isSome = true ∧ ∀ m ∈ (decodeWord 0x80E020DC 0).getD [], m.long = false := by decide +kernel

theorem witness_BitResultRows :
    (run id).ready 0 0 = true ∧ ((run id).reg 0 0).gBad = 0 ∧ 1 ≤ (0x1000 : Word).toNat / 64 % 128 ∧
    (0x1000 : Word).toNat / 64 % 128 ≤ 64 ∧ 64 < (0x1040 : Word).toNat / 64 % 128 := by decide +kernel

theorem witness_TransferRows :
    (run id).ready 0 0 = true ∧ (run id).free_ 0 0 = true ∧ ((8 : Word).setWidth 48 : BitVec 48).toNat % 4 = 0 ∧
    (((run id).reg 0 0).pc + (8 : Word).setWidth 48).toNat % 4 = 0 ∧ ((run id).reg 0 0).rstack.length < 32 ∧
    ((run fun c => { c with rstack := [0x40] }).reg 0 0).rstack = [0x40] ∧ (6 : Word).toNat % 4 ≠ 0 ∧
    (((run id).reg 0 0).pc.toNat + (6 : Word).toNat) % 4 ≠ 0 ∧ ((run id).reg 0 0).rsa.toNat / 2 ^ 48 = 0 ∧
    (let s := run fun c => { c with rstack := List.replicate 32 0x40, rsa := 0xFFFF000000000000 }
     s.ready 0 0 = true ∧ s.free_ 0 0 = true ∧ (s.reg 0 0).rstack.length = 32 ∧ (s.reg 0 0).rsa.toNat / 2 ^ 48 = 0xFFFF) ∧
    (let s := run fun c => { c with xfer := some { target := 8, slots := 2, call := false } }
     s.ready 0 0 = true ∧ s.free_ 0 0 = false) := by decide +kernel

/-- A call that spills to 0x40, a ret that refills from 0x40. -/
theorem witness_TransferRows_stack :
    (let s := run fun c => { c with rstack := List.replicate 31 0x44 ++ [0x48], rsa := 0x40, x := [(0, { limit := 0x30000, ctl := 0x11 })] }
     s.ready 0 0 = true ∧ s.calm 0 0 = true ∧ (s.reg 0 0).rstack = List.replicate 31 0x44 ++ [0x48] ∧ (s.reg 0 0).rstack.length = 32 ∧
       (s.reg 0 0).rsa.toNat = 0x40 ∧ (s.arrivals 0 0).freshEntry 0 0 = true ∧ (pg 0x40).type ≠ .device ∧ (pg 0x40).pa % 64 = 0x40 % 64 ∧
       (s.arrivals 0 0).passes 0 0 0x40 8 .rsWrite false (pg 0x40) ∧ ((8 : Word).setWidth 48 : BitVec 48).toNat % 4 = 0 ∧
       ((s.reg 0 0).pc + (8 : Word).setWidth 48).toNat % 4 = 0) ∧
    (let s := run fun c => { c with rsa := 0x1000000000048, x := [(0, { limit := 0x30000, ctl := 0x11 })] }
     s.ready 0 0 = true ∧ s.calm 0 0 = true ∧ (s.reg 0 0).rstack = [] ∧ (s.reg 0 0).rsa.toNat / 2 ^ 48 = 1 ∧
       ((s.reg 0 0).rsa.toNat % 2 ^ 48 + 2 ^ 48 - 8) % 2 ^ 48 = 0x40 ∧ (s.arrivals 0 0).passes 0 0 0x40 8 .rsRead false (pg 0x40) ∧
       (s.arrivals 0 0).direct 0 0 (pg 0x40) = true ∧ soundAt (s.arrivals 0 0) 0 (pg 0x40).pa 0x40 8 = true ∧
       leToNat ((s.arrivals 0 0).bytes (pg 0x40).pa 8) = 0) := by
  unfold State.passes; decide +kernel

theorem witness_RepeatRows :
    (run id).ready 0 0 = true ∧ (run id).free_ 0 0 = true ∧ (65 : Word).toNat % 2 ^ 32 ≠ 0 ∧ (0x100000000 : Word).toNat % 2 ^ 32 = 0 ∧
    0 < (64 : Word).toNat ∧ (64 : Word).toNat ≤ 64 ∧ 64 < (65 : Word).toNat ∧
    (let u := run fun c => { c with skip := true }
     u.issuer 0 = some 0 ∧ (u.case 0 0).waiting = none ∧ (u.case 0 0).skip = true) := by decide +kernel

theorem witness_LoadRows :
    (run id).ready 0 0 = true ∧ (run id).calm 0 0 = true ∧ ((run id).arrivals 0 0).direct 0 0 (pg 0x40) = true ∧
    ((run id).arrivals 0 0).passes 0 0 0x40 1 .read true (pg 0x40) ∧ ((run id).arrivals 0 0).passes 0 0 0x40 2 .read true (pg 0x40) ∧
    ((run id).arrivals 0 0).passes 0 0 0x40 4 .read true (pg 0x40) ∧ ((run id).arrivals 0 0).passes 0 0 0x40 8 .read true (pg 0x40) ∧
    (0x41 : Nat) % 2 ≠ 0 ∧ ((run id).reg 0 0).keyDue = false ∧
    (match ((run id).arrivals 0 0).xlate 0 ((run id).reg 0 0) 0x40000 .read true with | .fault _ => true | _ => false) = true := by
  unfold State.passes; decide +kernel

/-- The page as cacheable memory. -/
def cached (g : Core → Core) : State := runs id fun c => g { c with tlb := [{ page with attr := 0 }] }
def cpg (a : Nat) : Xl := { pg a with type := .cached }

/-- A load that hits, one that takes its bytes from the store buffer, one that misses. -/
theorem witness_LoadRows_cached :
    let line := (2 ^ 40 + 0x40) / 64
    let l : Line := { addr := line, data := 0 }
    (cpg 0x40).pa / 64 = line ∧ (cpg 0x40).pa % 64 + 8 ≤ 64 ∧
    (∀ s ∈ [cached fun c => { c with dcache := [(4, l)] }, cached fun c => { c with sbuf := [entry] }, cached id],
      s.ready 0 0 = true ∧ s.calm 0 0 = true ∧ (((s.arrivals 0 0).core 0).dcache.all fun p => !p.2.tagBad) = true ∧
        (∀ e ∈ ((s.arrivals 0 0).core 0).sbuf, e.poison = false) ∧ (s.arrivals 0 0).passes 0 0 0x40 8 .read true (cpg 0x40)) ∧
    (((cached fun c => { c with dcache := [(4, l)] }).arrivals 0 0).core 0).hit false line = some (4, l) ∧
    (∀ j, j < 8 → (bufByte ((((cached fun c => { c with sbuf := [entry] }).arrivals 0 0).core 0).sbuf) line j).isSome = true) ∧
    (let c := ((cached id).arrivals 0 0).core 0
     c.hit false line = none ∧ c.filling false line = false ∧ c.sbuf = [] ∧ (c.allocWay false line).2.isSome = true ∧
       c.lastMiss ≠ some (line - 1)) := by
  unfold State.passes; decide +kernel

theorem witness_StoreRows :
    ((run id).arrivals 0 0).freshEntry 0 0 = true ∧ (pg 0x40).type ≠ .device ∧ (pg 0x40).pa % 64 = 0x40 % 64 ∧
    ((run id).arrivals 0 0).passes 0 0 0x40 1 .write true (pg 0x40) ∧ ((run id).arrivals 0 0).passes 0 0 0x40 2 .write true (pg 0x40) ∧
    ((run id).arrivals 0 0).passes 0 0 0x40 4 .write true (pg 0x40) ∧ ((run id).arrivals 0 0).passes 0 0 0x40 8 .write true (pg 0x40) ∧
    (let s := run fun c => { c with dsp := 0x48 }
     s.ready 0 0 = true ∧ s.calm 0 0 = true ∧ ((s.reg 0 0).dsp - 8).toNat = 0x40 ∧
       (s.arrivals 0 0).passes 0 0 0x40 8 .write false (pg 0x40)) ∧
    (let s := run fun c => { c with dsp := 0x40 }
     s.ready 0 0 = true ∧ s.calm 0 0 = true ∧ (s.arrivals 0 0).direct 0 0 (pg 0x40) = true ∧
       (s.arrivals 0 0).passes 0 0 (s.reg 0 0).dsp.toNat 8 .read false (pg 0x40)) ∧
    ((run fun c => { c with dsp := 0x44 }).reg 0 0).dsp.toNat % 8 ≠ 0 := by
  unfold State.passes; decide +kernel

theorem witness_AccumulateRows :
    let s := run fun c => { c with opnd := [(0x62, 3)] }
    s.ready 0 0 = true ∧ s.calm 0 0 = true ∧ (0x40 : Nat) % 8 = 0 ∧ (s.reg 0 0).keyDue = false ∧
    (s.arrivals 0 0).xlate 0 (s.reg 0 0) 0x40 .accum false = .ok (pg 0x40) ∧ ((s.arrivals 0 0).core 0).sbuf.length < 16 ∧
    (s.arrivals 0 0).xlate 0 (s.reg 0 0) 0x40 .cas false = .ok (pg 0x40) ∧ (pg 0x40).pa < 2 ^ 51 ∧
    (s.arrivals 0 0).storesTo 0 ((s.arrivals 0 0).whoIs 0 0) ((pg 0x40).pa / 64) = false ∧
    (s.arrivals 0 0).bypassBusy 0 ((s.arrivals 0 0).whoIs 0 0) ((pg 0x40).pa / 64) = false ∧
    ((s.reg 0 0).opnd_ 0x62).toNat % 4 = 3 ∧ (((run id).reg 0 0).opnd_ 0x62).toNat % 4 ≠ 3 := by decide +kernel

theorem witness_FenceRows :
    (run id).ready 0 0 = true ∧ (run id).calm 0 0 = true ∧ ((run id).arrivals 0 0).loadsDone 0 0 = true ∧
    ((run id).arrivals 0 0).storesDone 0 0 = true ∧ ((run id).arrivals 0 0).descDone 0 0 = true ∧ ((run id).reg 0 0).fails = [] ∧
    ((run fun c => { c with fails := [{ order := 0, va := 0, acc := false }] }).reg 0 0).fails ≠ [] ∧
    ((run fun c => { c with pend := [{ port := .lsuRes, due := 4, id := 1, await := .access }] }).arrivals 0 0).loadsDone 0 0 = false := by
  decide +kernel

theorem witness_CacheMaintenance :
    (run id).ready 0 0 = true ∧ (run id).calm 0 0 = true ∧
    (0x800000000 : Word).getLsbD 35 = true ∧ (0x800000000 : Word).getLsbD 34 = false ∧
    tabFind (((run id).arrivals 0 0).core 0).dcache 0 = none ∧
    (∀ d : Fin 2, let l : Line := { addr := 7, data := 0, dirty := BitVec.ofNat 8 d.val }
     let s := runs id fun c => { c with dcache := [(0, l)] }
     s.ready 0 0 = true ∧ s.calm 0 0 = true ∧ tabFind ((s.arrivals 0 0).core 0).dcache 0 = some l ∧
       ((s.arrivals 0 0).core 0).hit false l.addr = some (0, l) ∧ l.filling = false ∧ l.parBad = 0 ∧ l.tagBad = false ∧
       ((s.arrivals 0 0).core 0).sbuf = [] ∧ (l.dirty = 0 ↔ d = 0)) ∧
    (∀ d : Fin 2, let l : Line := { addr := (2 ^ 40 + 0x40) / 64, data := 0, dirty := BitVec.ofNat 8 d.val }
     let s := cached fun c => { c with dcache := [(4, l)] }
     let b := s.arrivals 0 0
     s.ready 0 0 = true ∧ s.calm 0 0 = true ∧ (s.reg 0 0).keyDue = false ∧ (b.core 0).sbuf = [] ∧ (b.core 0).dcache = [(4, l)] ∧
       (b.core 0).filling false ((cpg 0x40).pa / 64) = false ∧ (b.core 0).hit false ((cpg 0x40).pa / 64) = some (4, l) ∧
       l.parBad = 0 ∧ (cpg 0x40).type ≠ .device ∧ b.xlate 0 (s.reg 0 0) 0x40 .read true = .ok (cpg 0x40) ∧
       b.xlate 0 (s.reg 0 0) 0x40 .write true = .ok (cpg 0x40)) ∧
    (let b := (run id).arrivals 0 0
     (0x40 : Word).getLsbD 35 = false ∧ (0x40 : Word).getLsbD 34 = false ∧ ((run id).reg 0 0).keyDue = false ∧ (b.core 0).sbuf = [] ∧
       (b.core 0).dcache = [] ∧ (b.core 0).evicts = [] ∧ (b.core 0).filling false ((pg 0x40).pa / 64) = false ∧
       b.xlate 0 ((run id).reg 0 0) 0x40 .read true = .ok (pg 0x40) ∧ b.xlate 0 ((run id).reg 0 0) 0x40 .write true = .ok (pg 0x40)) ∧
    (let v : Word := 0xC00000003
     let l : Line := { addr := 3, data := 0 }
     let s := runs id fun c => { c with icache := [(12, l)] }
     s.ready 0 0 = true ∧ s.calm 0 0 = true ∧ v.getLsbD 35 = true ∧ v.getLsbD 34 = true ∧ v.toNat % 128 ≤ 63 ∧
       tabFind ((s.arrivals 0 0).core 0).icache (v.toNat % 128 * 4 + v.toNat / 256 % 4) = some l ∧ l.filling = false ∧
       ((s.arrivals 0 0).core 0).sbuf = [] ∧
       ((s.arrivals 0 0).core 0).icache.all (fun p => !p.2.tagBad) = true ∧ 63 < (0xC00000040 : Word).toNat % 128) := by decide +kernel

theorem witness_ExtentRegisters :
    (run id).ready 0 0 = true ∧ ((run id).reg 0 0).call = none ∧
    ((run fun c => { c with opnd := [(0x483, 0x103)] }).reg 0 0).opnd_ 0x483 = 0x103 ∧ 5 ≤ (5 : Word).toNat % 8 ∧ (4 : Word).toNat % 8 < 5 ∧
    (let v : Word := 0x20003; v.toNat / 2 ^ 16 % 2 ^ 16 ≠ 0 ∧ v.toNat / 2 ^ 16 % 2 ^ 16 ≤ v.toNat % 2 ^ 16) ∧
    (let v : Word := 0x20001; v.toNat % 2 ^ 16 < v.toNat / 2 ^ 16 % 2 ^ 16) ∧
    keyType (((run id).reg 0 0).key ((0x0010000000000000 : Word).toNat / 2 ^ 56 % 16)) ≠ 2 ∧ ((run id).reg 0 0).kBad = 0 ∧
    ((run fun c => { c with kBad := 1 }).reg 0 0).kBad.getLsbD 0 = true ∧
    (let s := run fun c => { c with k := [(1, mkKey 0x10000 1 0x10000 2 0)] }
     let v : Word := 0x0110000000010000
     let key := (s.reg 0 0).key (v.toNat / 2 ^ 56 % 16)
     s.ready 0 0 = true ∧ v.getLsbD 52 = true ∧ (s.reg 0 0).kBad.getLsbD (v.toNat / 2 ^ 56 % 16) = false ∧ keyType key = 2 ∧
       keyJob key = ((s.arrivals 0 0).jobOf 0 ((s.arrivals 0 0).whoIs 0 0)).toNat ∧
       keyBase key ≤ v.toNat / 2 ^ 16 % 2 ^ 36 * 65536 ∧ v.toNat / 2 ^ 16 % 2 ^ 36 * 65536 + 65536 ≤ keyBase key + keyLen key) ∧
    ((run id).arrivals 0 0).reportsOwed 0 0 = false ∧
    ((runs id fun c => { c with vxuOps := [{ case := 0, chained := true }] }).arrivals 0 0).reportsOwed 0 0 = true ∧
    (let s := run fun c => { c with call := some { wicket := 0, at_ := 0, ret := 4, k15 := 0, x15 := {} }, opnd := [(0x483, 60)] }
     s.ready 0 0 = true ∧ (s.reg 0 0).call ≠ none ∧ 60 ≤ ((s.reg 0 0).opnd_ 0x483).toNat) ∧
    (let s := { (run fun c => { c with opnd := [(0x483, 0x101)] }) with rel10 := true }
     s.ready 0 0 = true ∧ ((s.reg 0 0).opnd_ 0x483).toNat % 2 ^ 16 = 0x101) := by decide +kernel

theorem witness_TlbiRows :
    (run id).ready 0 0 = true ∧ (run id).calm 0 0 = true ∧ (0 : Word).toNat / 4 % 4 < 3 ∧ (12 : Word).toNat / 4 % 4 = 3 ∧
    (((run id).arrivals 0 0).core 0).tlbiQ.length < 8 ∧
    (let s := runs id fun c => { c with tlbiQ := (List.range 8).map fun i => { num := i, kind := 1, scope := 0, tag := i, ia := 0 } }
     s.ready 0 0 = true ∧ s.calm 0 0 = true ∧ ((s.arrivals 0 0).core 0).tlbiQ.length = 8) := by decide +kernel

theorem witness_WicketCalls :
    (let w : Wicket := { entry := 0x200, key := 0, ext := {} }
     let s := runs id fun c => { c with wickets := [(3, w)] }
     s.ready 0 0 = true ∧ s.calm 0 0 = true ∧ tabFind ((s.arrivals 0 0).core 0).wickets ((3 : Word).toNat % 16) = some w ∧
       (s.reg 0 0).serialise.call = none ∧ (s.reg 0 0).serialise.keyDue = false ∧ (s.reg 0 0).serialise.kBad = 0) ∧
    tabFind (((run id).arrivals 0 0).core 0).wickets 3 = none ∧
    (let w : Call := { wicket := 3, at_ := 0x80, ret := 0x84, k15 := 0, x15 := {} }
     let s := run fun c => { c with call := some w }
     s.ready 0 0 = true ∧ s.calm 0 0 = true ∧ (s.reg 0 0).serialise.call = some w ∧ (s.reg 0 0).serialise.keyDue = false) := by decide +kernel

/-- An access that translates at once, to x. -/
def findsNow (r : State × NowRes) (x : Xl) : Bool := r.2 == .ok x

/-- A translation at once ends in a fault. -/
def faultsNow (r : State × NowRes) : Bool := match r.2 with | .fault _ => true | _ => false

theorem witness_FrameReturnRow :
    (((run id).reg 0 0).tsbp.toNat / 2 ^ 48 % 256 = 0 ∧ (run id).ready 0 0 = true ∧ (run id).calm 0 0 = true) ∧
    (let s := runs (fun c => { c with tsbp := 0x0001000000000200 }) fun c => { c with sbuf := [entry] }
     s.ready 0 0 = true ∧ s.calm 0 0 = true ∧ (s.reg 0 0).tsbp.toNat / 2 ^ 48 % 256 ≠ 0 ∧ (s.reg 0 0).call = none ∧
       (s.arrivals 0 0).storesDone 0 0 = false) ∧
    (let s := run fun c => { c with tsbp := 0x0001000000040200 }
     let b := s.arrivals 0 0
     let s1 := b.onCase 0 0 Casement.serialise
     s.ready 0 0 = true ∧ s.calm 0 0 = true ∧ (s.reg 0 0).tsbp.toNat / 2 ^ 48 % 256 ≠ 0 ∧ (s.reg 0 0).call = none ∧
       b.storesDone 0 0 = true ∧ (match s1.xlate 0 (s1.case 0 0) 0x40000 .read false with | .fault _ => true | _ => false) = true) ∧
    (let s : State := { (run fun c => { c with tsbp := 0x0001000000000200 }) with poison := [2 ^ 40 / 64 + 3] }
     let b := s.arrivals 0 0
     let s1 := b.onCase 0 0 Casement.serialise
     s.ready 0 0 = true ∧ s.calm 0 0 = true ∧ (s.reg 0 0).tsbp.toNat / 2 ^ 48 % 256 ≠ 0 ∧ (s.reg 0 0).call = none ∧
       b.storesDone 0 0 = true ∧ s1.xlate 0 (s1.case 0 0) 0 .read false = .ok (pg 0) ∧ b.place (pg 0).pa = .bank 0 0 ∧
       b.inSpill 0 0 512 = false ∧ b.eccBad = [] ∧ b.eccCorr = [] ∧ (b.core 0).badBond = false ∧
       (pg 0).pa / 64 + 3 ∈ b.poison) ∧
    (let s : State := { (run fun c => { c with tsbp := 0x0001000000000200 }) with frames := [(0, { check := List.replicate 40 0 })] }
     let b := s.arrivals 0 0
     let s1 := b.onCase 0 0 Casement.serialise
     s.ready 0 0 = true ∧ s.calm 0 0 = true ∧ (s.reg 0 0).tsbp.toNat / 2 ^ 48 % 256 ≠ 0 ∧ (s.reg 0 0).call = none ∧
       b.storesDone 0 0 = true ∧ s1.xlate 0 (s1.case 0 0) 0 .read false = .ok (pg 0) ∧ b.place (pg 0).pa = .bank 0 0 ∧
       b.inSpill 0 0 512 = false ∧ b.eccBad = [] ∧ b.eccCorr = [] ∧ (b.core 0).badBond = false ∧
       (∀ j, j < 8 → (pg 0).pa / 64 + j ∉ b.poison) ∧ (BitVec.ofNat 64 (leToNat (s1.bytes ((pg 0).pa + 8) 8))).toNat % 4 = 0 ∧
       tabFind s1.frames (leToNat (s1.bytes ((pg 0).pa + 0x0C0) 8)) = some { check := List.replicate 40 0 } ∧
       (List.range 40).map (fun i => BitVec.ofNat 64 (leToNat (s1.bytes ((pg 0).pa + (0x0C0 + 8 * i)) 8))) = List.replicate 40 0) := by
  decide +kernel

theorem witness_FrameEntryRow :
    (∀ m ∈ [[], [(2 ^ 40, (2 : Byte))]],
     let s : State := { (run fun c => { c with raised := some { cls := 1 }, tsbp := 0xFF00000000000000 }) with mem := m }
     let r := s.xlateNow 0 (.word 0) (s.case 0 0) 0 .read
     let q := r.1.xlateNow 0 (.word 0) (s.case 0 0) 0 .write
     s.coreOn 0 = true ∧ (s.core 0).lockCause = 0 ∧ (s.core 0).underTest = false ∧ s.drain.st = .run ∧ (s.core 0).running = some 0 ∧
       (s.case 0 0).raised = some { cls := 1 } ∧ (s.case 0 0).frame = none ∧
       (s.case 0 0).tsbp.toNat / 2 ^ 48 % 256 ≠ (s.case 0 0).tsbp.toNat / 2 ^ 56 ∧ (s.case 0 0).pend = [] ∧
       findsNow r (pg 0) = true ∧ findsNow q (pg 0) = true ∧ (pg 0).pa % 512 = 0 ∧ q.1.frameBusy 0 0 (pg 0).pa = false ∧
       (s.case 0 0).frameBad = false ∧ (leToNat (s.bytes (pg 0).pa 8) % 4 = 0 ↔ m = [])) ∧
    (let s := run fun c => { c with raised := some { cls := 1 }, tsbp := 0xFF00000000040000 }
     (s.case 0 0).tsbp.toNat / 2 ^ 48 % 256 ≠ (s.case 0 0).tsbp.toNat / 2 ^ 56 ∧ (s.case 0 0).pend = [] ∧
       faultsNow (s.xlateNow 0 (.word 0) (s.case 0 0) 0x40000 .read) = true) ∧
    (let s := run fun c => { c with raised := some { cls := 1 } }
     (s.case 0 0).tsbp.toNat / 2 ^ 48 % 256 = (s.case 0 0).tsbp.toNat / 2 ^ 56) := by decide +kernel

/-- The lines of a frame at the bottom of bank 0 are sound. -/
theorem witness_FrameEntryRow_sound :
    ∀ j, j < 8 → (run fun c => { c with raised := some { cls := 1 } }).sound 0 ((pg 0).pa + 64 * j) 64 := by
  intro j h
  exact ⟨⟨64 * j, by
    have : j = 0 ∨ j = 1 ∨ j = 2 ∨ j = 3 ∨ j = 4 ∨ j = 5 ∨ j = 6 ∨ j = 7 := by omega
    rcases this with rfl | rfl | rfl | rfl | rfl | rfl | rfl | rfl <;> decide +kernel⟩,
    by decide +kernel, by decide, by simp [pg], by decide +kernel, by decide +kernel, by simp [run, runs, block, State.reset],
    by decide +kernel⟩

theorem witness_WaitForEvents :
    (run id).ready 0 0 = true ∧ (0 : Nat) ≠ 8 ∧ ((run id).arrivals 0 0).whoIs 0 0 = some 0 ∧
    (∀ j, j < 8 → ((run id).reg 0 0).bit (3064 + j) = false) ∧ ((run id).reg 0 0).gBad.getLsbD 47 = false ∧
    ((run fun c => c.setBit 3064 true).reg 0 0).bit 3064 = true ∧ (1 : Word).getLsbD 0 = true ∧
    ((run fun c => { c with gBad := 2 ^ 47 }).reg 0 0).gBad.getLsbD 47 = true ∧
    (let s := runs id fun c => { c with running := some 8 }
     s.ready 0 8 = true ∧ s.calm 0 8 = true ∧ (s.core 0).readyQ = [] ∧ (s.core 0).woken = [] ∧
       (runs id fun c => { c with tasks := [] }).task 0 ((s.core 0).scause.toNat / 2 ^ 16 % 64) = none) ∧
    (let y : Task := { task0 with st := .ready }
     let s := runs id fun c => { c with running := some 8, tasks := [(0, y)] }
     s.task 0 ((s.core 0).scause.toNat / 2 ^ 16 % 64) = some y ∧ y.st = .ready ∧ y.loc = some 0) ∧
    ((run id).calm 0 0 = true ∧ (((run id).arrivals 0 0).core 0).tmrOwner = .none ∧
      (((runs id fun c => { c with tmrOwner := .task 0 }).arrivals 0 0).core 0).tmrOwner = .task 0 ∧
      (((runs id fun c => { c with tmrOwner := .task 1 }).arrivals 0 0).core 0).tmrOwner = .task 1) := by decide +kernel

theorem witness_Yield :
    (run id).ready 0 0 = true ∧ ((run id).arrivals 0 0).whoIs 0 0 = some 0 ∧ (((run id).arrivals 0 0).core 0).readyQ = [] ∧
    (let s := runs id fun c => { c with readyQ := [1], tasks := [(0, task0), (1, { task1 with loc := some 1 })] }
     s.ready 0 0 = true ∧ (s.arrivals 0 0).whoIs 0 0 = some 0 ∧ ((s.arrivals 0 0).core 0).readyQ ≠ []) ∧
    (((run id).arrivals 0 0).core 0).woken = [] ∧ (((run id).arrivals 0 0).core 0).taskFill = none ∧
    (∀ x ∈ [([1], none), ([], some (1, 1))],
     let s := runs id fun c => { c with woken := x.1, taskFill := x.2, tasks := [(0, task0), (1, task1)] }
     s.ready 0 0 = true ∧ (s.arrivals 0 0).whoIs 0 0 = some 0 ∧ ((s.arrivals 0 0).core 0).readyQ = [] ∧
       (((s.arrivals 0 0).core 0).woken ≠ [] ∨ ((s.arrivals 0 0).core 0).taskFill ≠ none)) := by decide +kernel

/-- Generators at 0x40 and 0x20040 of the bank, a window of one tap that writes back to 0x80. -/
def dfmRun : State := run fun c => { c with gen := [(0, 0x40), (4, 0x20040)], dfmFmt := 0x0000008000000104 }

theorem witness_DfmRows :
    (dfmRun.ready 0 0 = true ∧ (dfmRun.arrivals 0 0).braked = false ∧ (dfmRun.reg 0 0).dfmFmt.toNat % 4 ≠ 3 ∧ (dfmRun.reg 0 0).keyDue = false ∧
      ((dfmRun.arrivals 0 0).core 0).badDfm = false ∧
      ((run fun c => { c with dfmFmt := 3 }).reg 0 0).dfmFmt.toNat % 4 = 3) ∧
    (dfmRun.arrivals 0 0).dfmFinds 0 0 0x40 0 0x20000 .read (pg 0x40) ∧
    (dfmRun.arrivals 0 0).dfmFinds 0 0 0x20040 0x20000 0x40000 .read (pg 0x20040) ∧
    (dfmRun.arrivals 0 0).dfmFinds 0 0 0x80 0 0x40000 .write (pg 0x80) :=
  ⟨by decide +kernel,
   ⟨by decide, by decide +kernel, by decide, ⟨0x40, by decide +kernel⟩, by decide +kernel, by decide +kernel, by decide +kernel, by decide +kernel⟩,
   ⟨by decide, by decide +kernel, by decide, ⟨0x20040, by decide +kernel⟩, by decide +kernel, by decide +kernel, by decide +kernel, by decide +kernel⟩,
   ⟨by decide, by decide +kernel, by decide, ⟨0x80, by decide +kernel⟩, by decide +kernel, by decide +kernel, by decide +kernel, by decide +kernel⟩⟩

/-- A task with LEN = 4. -/
def vrun : State := run fun c => { c with vlen := 4, opnd := [(0x182, 8)] }

theorem witness_VxuElementRows :
    vrun.ready 0 0 = true ∧
    (∀ o ∈ [0x00, 0x01, 0x02, 0x03, 0x04, 0x05, 0x06, 0x07, 0x08, 0x09, 0x0A, 0x0B, 0x0C],
      (vrun.arrivals 0 0).vxuTakes 0 0 (vcmdOf (setFld 0 0 6 o)) 64) ∧
    (∀ o ∈ [0x10, 0x11, 0x12, 0x13, 0x14, 0x15], (vrun.arrivals 0 0).vxuTakes 0 0 (vcmdOf (setFld 0x2C000000 0 6 o)) 64) := by
  unfold State.vxuTakes; decide +kernel

theorem witness_VxuMoveRows :
    vrun.ready 0 0 = true ∧
    (∀ o ∈ [0x38, 0x39, 0x3A, 0x3B, 0x3C, 0x3D, 0x3E, 0x3F], (vrun.arrivals 0 0).vxuTakes 0 0 (vcmdOf (setFld 0x2C000000 0 6 o)) 64) ∧
    (vrun.arrivals 0 0).vxuTakes 0 0 (vcmdOf (setFld 0x100000000 0 6 0x30)) 64 ∧
    (vfmt (vcmdOf (setFld 0x100000000 0 6 0x30)).df).isSome = true ∧
    (∀ o ∈ [0x18, 0x19], (vrun.arrivals 0 0).vxuTakes 0 0 (vcmdOf (setFld 0x40000 0 6 o)) 64) ∧
    (vrun.arrivals 0 0).vxuFree 0 0 = true ∧ (vrun.arrivals 0 0).vecBusy 0 0 [0] = false ∧
    (vrun.arrivals 0 0).slotFault 0 0 [(0, 0)] = none ∧ 0 * 64 < 2048 ∧ 2048 ≤ 255 * 64 := by
  unfold State.vxuTakes; decide +kernel

theorem witness_VxuMaskRows :
    vrun.ready 0 0 = true ∧ (vrun.arrivals 0 0).vxuFree 0 0 = true ∧
    (∀ o ∈ [0x20, 0x21, 0x22, 0x23, 0x24], (vrun.arrivals 0 0).vxuTakes 0 0 (vcmdOf (setFld 0 0 6 o)) 64) ∧
    (vcmdOf (setFld 0 0 6 0x28)).vd < 4 := by
  unfold State.vxuTakes; decide +kernel

theorem witness_VxuReductionRows :
    vrun.ready 0 0 = true ∧ (vrun.arrivals 0 0).vxuFree 0 0 = true ∧ vfmt 0 = some (.flt .fp64) ∧ vfmt 0xB = some (.int 64 true) ∧
    (vrun.reg 0 0).vlen.toNat * 64 ≤ 2048 ∧ (vrun.arrivals 0 0).vecBusy 0 0 [0] = false ∧
    (vrun.arrivals 0 0).slotFault 0 0 ((List.range 4).map fun j => (0, j * 64 / 64)) = none ∧ ((vrun.arrivals 0 0).core 0).badVxu = false ∧
    (([(0, 1)] : List (Nat × Nat)) ≠ [] ∧ ∀ x ∈ ([(0, 1)] : List (Nat × Nat)), x.2 < 2 ^ 8) := by decide +kernel

theorem witness_VectorMemoryRows_vxu :
    vrun.ready 0 0 = true ∧ (vrun.arrivals 0 0).vxuFree 0 0 = true ∧ (vrun.reg 0 0).vlen.toNat * 64 ≤ 2048 ∧
    ((vrun.arrivals 0 0).core 0).vecOps.length < 4 ∧ (vrun.arrivals 0 0).vecBusy 0 0 [0] = false ∧ (vrun.reg 0 0).keyDue = false ∧
    ((vrun.arrivals 0 0).core 0).vxuOps = [] ∧
    (∀ j, j < 4 → ∀ a ∈ [Acc.read, Acc.write], (8 * j) % 8 = 0 ∧ (vrun.arrivals 0 0).xlate 0 (vrun.reg 0 0) (8 * j) a false = .ok (pg (8 * j)) ∧
      (vrun.arrivals 0 0).storesTo 0 ((vrun.arrivals 0 0).whoIs 0 0) ((pg (8 * j)).pa / 64) = false ∧
      (vrun.arrivals 0 0).bypassBusy 0 ((vrun.arrivals 0 0).whoIs 0 0) ((pg (8 * j)).pa / 64) = false ∧
      (pg (8 * j)).pa % 64 = 8 * j % 64 ∧ soundAt (vrun.arrivals 0 0) 0 ((pg (8 * j)).pa / 64 * 64) 0 64 = true) := by decide +kernel

/-- A task with a shape of one row of one FP64 element. -/
def trun : State := run fun c => { c with opnd := [(0x280, 0x10)] }

/-- A full task whose vector unit and array are at rest. -/
theorem witness_VectorCompletes :
    vrun.ready 0 0 = true ∧ vrun.calm 0 0 = true ∧ (vrun.arrivals 0 0).whoIs 0 0 = some 0 ∧
    (vrun.arrivals 0 0).task 0 0 = some task0 ∧ task0.prof ≠ 0 ∧ (vrun.arrivals 0 0).power.shut = false ∧
    200000 ≤ ({ vrun with power := { lift := 375000 } } : State).power.lift ∧ ((vrun.arrivals 0 0).core 0).vxuLeft = 0 ∧
    ((vrun.arrivals 0 0).core 0).vecOps = [] ∧ ((vrun.arrivals 0 0).core 0).vxuOps = [] ∧ (vrun.reg 0 0).vlen.toNat * 64 ≤ 2048 ∧
    (vrun.reg 0 0).vlen.toNat % 2 = 0 := by decide +kernel

theorem witness_VectorMemoryRows_tmu :
    (trun.ready 0 0 = true ∧ (trun.arrivals 0 0).noTile 0 0 = false ∧ (shapeOf ((trun.reg 0 0).opnd_ 0x280)).ok = true ∧
      ((trun.arrivals 0 0).core 0).tileOps.length < 4 ∧ (trun.reg 0 0).keyDue = false ∧ (trun.reg 0 0).tstart.toNat % 256 < 1 ∧
      (trun.arrivals 0 0).tileBusy 0 0 true [] [0] = false ∧ (trun.arrivals 0 0).tileBusy 0 0 true [0] [] = false ∧
      (trun.arrivals 0 0).storesTo 0 ((trun.arrivals 0 0).whoIs 0 0) ((pg 0).pa / 64) = false ∧
      (trun.arrivals 0 0).bypassBusy 0 ((trun.arrivals 0 0).whoIs 0 0) ((pg 0).pa / 64) = false ∧ (trun.reg 0 0).rowNext = none ∧
      ((trun.reg 0 0).opnd_ 0x283).getLsbD 0 = false ∧ ((trun.reg 0 0).opnd_ 0x284).getLsbD 0 = false ∧
      (∀ o, o < 8 → ∀ a ∈ [Acc.read, Acc.write], (trun.arrivals 0 0).xlate 0 (trun.reg 0 0) o a false = .ok (pg o)) ∧
      soundAt (trun.arrivals 0 0) 0 ((pg 0).pa / 64 * 64) 0 64 = true) ∧
    (trun.arrivals 0 0).rowsCheck 0 0 8 8 .read [(0, 0)] = ([{ row := 0, va := 0, parts := [(0, 8, pg 0)] }], none) ∧
    (trun.arrivals 0 0).rowsCheck 0 0 8 8 .write [(0, 0)] = ([{ row := 0, va := 0, parts := [(0, 8, pg 0)] }], none) :=
  ⟨by decide +kernel, rfl, rfl⟩

/-- Shapes of the matrix operations: 16-bit elements into FP32, FP64, FP32 by passes. -/
theorem witness_TileCompletes :
    (trun.ready 0 0 = true ∧ trun.calm 0 0 = true ∧ (trun.arrivals 0 0).whoIs 0 0 = some 0 ∧
      (trun.arrivals 0 0).task 0 0 = some task0 ∧ task0.prof = 2 ∧ (trun.reg 0 0).tstart.toNat % 256 = 0 ∧
      ((trun.arrivals 0 0).core 0).arrayQ = [] ∧ ((trun.arrivals 0 0).core 0).tileOps = [] ∧ (trun.arrivals 0 0).arrayHeld 0 = false) ∧
    (∀ x ∈ [(0x1210, 2, 1), (0x10, 0, 0), (0x11110, 1, 1)],
      let h := (((run fun c => { c with opnd := [(0x280, BitVec.ofNat 64 x.1)] }).reg 0 0).opnd_ 0x280).toNat
      h / 2 ^ 8 % 16 = x.2.1 ∧ h / 2 ^ 12 % 16 = x.2.2 ∧ (h / 2 ^ 4 % 16 + 1) * 32 = 64) ∧
    (0 : Nat) ≠ 1 ∧ ((0 : Word).getLsbD 10 = false) := by decide +kernel

theorem witness_TmuArrayRows :
    trun.ready 0 0 = true ∧ (trun.arrivals 0 0).arrayHeld 0 = false ∧
    (trun.arrivals 0 0).arrayTakes 0 0 (.mma 0 1 2 true false false 0) 8 ∧
    (trun.arrivals 0 0).arrayTakes 0 0 (.zero 0) 1 ∧ (∀ op, op < 8 → (trun.arrivals 0 0).arrayTakes 0 0 (.ew 0 1 2 op) 1) ∧
    (trun.arrivals 0 0).arrayTakes 0 0 (.cvt 0 1) 1 ∧ (∀ op, op < 3 → (trun.arrivals 0 0).arrayTakes 0 0 (.red 0 1 0 op) 9) ∧
    (let o : ArrOp := { case := 0, kind := .zero 1, shape := 0x10, rm := 0, filled := true, computing := true }
     ((runs id fun c => { c with arrayQ := [o] }).core 0).arrayQ = [o]) := by
  unfold State.arrayTakes; decide +kernel

/-- Shapes whose results the statement gives: FP64 into FP64, W16 into FP32, INT8 into INT32. -/
theorem witness_TmuArrayRows_shapes :
    (∀ x ∈ [0x10, 0x1210, 0xA810], let h := shapeOf (BitVec.ofNat 64 x)
     h.ok = true ∧ h.elems * h.acc.width ≤ 512 ∧ h.n * h.acc.width ≤ 512) ∧
    (shapeOf 0x1210).fmt.isFlt = true ∧ (shapeOf 0x1210).fmt.width = 16 ∧ (shapeOf 0xA810).fmt.isFlt = false ∧
    (shapeOf 0xA810).fmt.width = 8 ∧ (shapeOf 0xA810).acc.isFlt = false ∧ (shapeOf 0xA810).acc.width = 32 := by decide +kernel

theorem witness_XmuRows :
    ((run id).ready 0 0 = true ∧ ((run id).arrivals 0 0).whoIs 0 0 = some 0 ∧ ((run id).arrivals 0 0).task 0 0 = some task0 ∧
      (33 : Word).toNat % 32 ≠ 0 ∧ (64 : Word).toNat % 32 = 0) ∧
    (let s := runs id fun c => { c with tasks := [(0, { task0 with xq := [(1, { halt := true })] })] }
     s.ready 0 0 = true ∧ (match (s.arrivals 0 0).task 0 0 with | some y => (tabGet ({} : XQueue) y.xq 1).halt | none => false) = true) ∧
    (let e : XItem := { id := 1, seq := 1, addr := 0, order := 0, strict := false, rank := 0, size := 0 }
     let s := runs id fun c => { c with tasks := [(0, { task0 with xq := [(1, { items := List.replicate 8 e })] })] }
     s.ready 0 0 = true ∧ (match (s.arrivals 0 0).task 0 0 with
       | some y => 8 ≤ (tabGet ({} : XQueue) y.xq 1).items.length | none => false) = true) := by decide +kernel

/-- Keys: 2 authorises wickets on core 0, 3 is a memory key, 4 one without ST. -/
def kregs (c : Casement) : Casement :=
  { c with
    opnd := [(0x401, 0x10)]
    k := [(0, mkKey 0 1 0x40000 1 0x3F), (2, mkKey 0 1 1 4 2), (3, mkKey 0 1 0x100 1 0x3F), (4, mkKey 0 1 0x100 1 0x2F)] }

def krun : State := { (run kregs) with tags := [(2 ^ 40 + 0x10) / 16] }

theorem witness_KyuRows :
    (krun.ready 0 0 = true ∧ (krun.reg 0 0).kBad = 0 ∧ (krun.reg 0 0).call = none ∧ keyType ((krun.reg 0 0).key 2) = 4 ∧
      keyHas ((krun.reg 0 0).key 2) 2 = true ∧ keyCovers ((krun.reg 0 0).key 2) 0 1 = true ∧ keyType ((krun.reg 0 0).key 3) ≠ 0 ∧
      keyHas ((krun.reg 0 0).key 3) 32 = true ∧ keyHas ((krun.reg 0 0).key 3) 16 = true ∧ (krun.reg 0 0).lentKey 3 = false ∧
      (krun.reg 0 0).keyDue = false ∧ keyCovers ((krun.reg 0 0).key 3) 0 16 = true ∧ ((krun.reg 0 0).opnd_ 0x401).toNat = 16 ∧
      ((run id).reg 0 0).key 5 = 0 ∧ ((run id).reg 0 0).opnd_ 0x401 = 0 ∧ (0xF : Word).toNat % 16 = 15 ∧ (0xF0 : Word).toNat / 16 % 16 = 15 ∧
      keyHas ((krun.reg 0 0).key 4) 16 = false ∧ (krun.reg 0 0).key 4 ≠ 0 ∧ (krun.reg 0 0).key 5 = 0 ∧
      (pg 0x10).pa / 16 ∈ (krun.arrivals 0 0).tags ∧
      (let s := run fun c => { c with call := some { wicket := 0, at_ := 0, ret := 4, k15 := 0, x15 := {} } }
       s.ready 0 0 = true ∧ (s.reg 0 0).kBad = 0 ∧ (s.reg 0 0).keyDue = false ∧ (s.reg 0 0).call ≠ none)) ∧
    (krun.arrivals 0 0).kyuFinds 0 0 .read (pg 0x10) ∧ (krun.arrivals 0 0).kyuFinds 0 0 .write (pg 0x10) :=
  ⟨by decide +kernel,
   ⟨by decide +kernel, by decide +kernel, by decide +kernel, by decide, by decide +kernel, by decide +kernel,
    ⟨⟨0x10, by decide +kernel⟩, by decide +kernel, by decide, by decide, by decide +kernel, by decide +kernel, by decide +kernel⟩⟩,
   ⟨by decide +kernel, by decide +kernel, by decide +kernel, by decide, by decide +kernel, by decide +kernel,
    ⟨⟨0x10, by decide +kernel⟩, by decide +kernel, by decide, by decide, by decide +kernel, by decide +kernel, by decide +kernel⟩⟩⟩

/-- A word's translation, to x. -/
def wordAt (r : Xl ⊕ Trig) (x : Xl) : Bool := match r with | .inl y => y == x | .inr _ => false

theorem witness_IssueRows :
    ((run id).issuer 0 = some 0 ∧ ((run id).case 0 0).waiting = none ∧ ((run id).case 0 0).skip = false ∧
      ((run id).case 0 0).pc.toNat % 4 = 0 ∧ wordAt ((run id).xlateWord 0 0 0x100 .fetch) (pg 0x100) = true ∧
      (pg 0x100).type ≠ .cached ∧ leToNat ((run id).bytes (pg 0x100).pa 4) = 0 ∧ wordBytes 0 = 4 ∧ (run id).calm 0 0 = true ∧
      ((run id).reg 0 0).asyncNow = false ∧ ((run id).reg 0 0).otherBad = false ∧ ((run id).reg 0 0).dBad = 0 ∧ (run id).ready 0 0 = true ∧ (31 : BitVec 12).toNat < 32 ∧
      ((run id).case 0 0).xfer = none ∧ ((run id).case 0 0).inBody = false ∧ ((run id).core 0).tlbiOpen = [] ∧
      (let s := run fun c => { c with xfer := some { target := 8, slots := 0, call := false } }
       s.issuer 0 = some 0 ∧ (s.case 0 0).xfer = some { target := 8, slots := 0, call := false }) ∧
      (let s := run fun c => { c with rptc := 0x200000002 }
       s.issuer 0 = some 0 ∧ (s.case 0 0).inBody = true) ∧
      (∀ k ∈ [WaitKind.read, .trigger, .busy], let s := run fun c => { c with waiting := some { kind := k, word := .move 0x28 1 } }
       s.issuer 0 = some 0 ∧ (s.case 0 0).waiting = some { kind := k, word := .move 0x28 1 })) ∧
    (run id).sound 0 (pg 0x100).pa 4 :=
  ⟨by decide +kernel, sound_of (off := 0x100) (by decide +kernel)⟩

def adder (sz rk : Nat) : Addend :=
  { id := 1, pa := 2 ^ 40 + 0x40, af := 0, rank := rk, size := sz, strict := false, val := 1, ret := .none }

theorem witness_AccessEnds :
    (∀ e ∈ [entry, { entry with cacheable := true }, { entry with addend := some (adder 0 0) }],
      let s := runs id fun c => { c with sbuf := [e] }
      s.hasPower 0 = true ∧ (s.core 0).sbuf[0]? = some e ∧ e.leaving = false ∧ e.device = false ∧ e.poison = false ∧ e.bad = none ∧
        e.clean = false ∧ e.open_ = 0 ∧ e.key = none ∧ s.casBusy 0 e.task e.line = false) ∧
    (runs id fun c => { c with sbuf := [entry] }).sound 0 (entry.line * 64) 64 ∧
    (let l : Line := { addr := entry.line, data := 0 }
     let s := runs id fun c => { c with sbuf := [{ entry with cacheable := true }], dcache := [(0, l)] }
     (s.core 0).hit false entry.line = some (0, l) ∧ tabFind (s.core 0).dcache 0 = some l ∧ l.parBad = 0 ∧ l.poison = false ∧
       ((s.core 0).dcache.all fun p => !p.2.tagBad) = true) ∧
    (adder 0 0).pa < 2 ^ 51 ∧
    (let e : Tlbi := { num := 0, kind := 2, scope := 0, tag := 0, ia := 0 }
     let s := runs id fun c => { c with tlbiQ := [e] }
     (s.core 0).tlbiQ = [e] ∧ (s.core 0).tlbiOpen = []) ∧
    (∀ r ∈ [WalkRes.leaf page, .fault clsS2T 1 false],
     let w : Walk := { use := .word 0, tag := 0, root := 2 ^ 40 / 65536, ia := 0 }
     let j : WalkJob := { id := 1, core := 0, tag := 0, root := 2 ^ 40 / 65536, ia := 0, mode := true, res := some r }
     let s : State := { (runs id fun c => { c with walks := [w] }) with clusters := [(0, { dst := .on, walker := [j] })] }
     s.hasPower 0 = true ∧ (s.core 0).walks[0]? = some w ∧ w.fault = none ∧
       (s.cluster 0).walker.find? (·.page == w.page) = some j ∧ s.cores.all (fun x => s.xmuWorking x.1 == []) = true) ∧
    (let l : Line := { addr := entry.line, data := 0, filling := true }
     let s := runs id fun c => { c with dcache := [(0, l)] }
     (s.core 0).fills[0]? = some (false, 0, entry.line) ∧ (s.core 0).evicts = [] ∧ (s.core 0).sbuf = [] ∧
       (tabFind (s.core 0).dcache 0).bind (·.victim) = none) ∧
    (let v : Evict := { addr := entry.line, dirty := 1, data := 0, poison := false }
     let s := runs id fun c => { c with evicts := [v] }
     (s.core 0).evicts[0]? = some v ∧ v.left = false ∧ v.adopted = [] ∧ v.poison = false ∧ v.bad = none) ∧
    (let s := { (run id) with lost := [entry.line] }
     s.live = true ∧ s.lost[0]? = some entry.line ∧ entry.line * 64 < 2 ^ 51) :=
  ⟨by decide +kernel, sound_of (off := 0x40) (by decide +kernel), by decide +kernel⟩

/-- The response of a walk's read: the core's walk of the page at 0, at a level, on an entry. -/
def walking (level : Nat) (entry : Option Nat) (stat : RStat) (bs : List Byte) : State :=
  let j : WalkJob := { id := 1, core := 0, tag := 0, root := 2 ^ 40 / 65536, ia := 0, mode := false, level := level, table := 2 ^ 40, entry := entry }
  { (run id) with
    responses := [{ src := .bank 0, dst := .core 0, ret := .walk 0 1, stat := stat, data := bs }]
    clusters := [(0, { dst := .on, walker := [j] })] }

theorem witness_AccessEnds_walk :
    (∀ x ∈ [(1, none, .ok, [3]), (2, none, .ok, [3]), (2, none, .ok, [1]), (3, none, .ok, [3]), (3, none, .ok, [0x83]), (3, none, .ok, [0]),
        (1, none, .busErr, []), (3, some 0x83, .ok, List.replicate 256 3), (3, some 0x83, .busErr, [])],
      let s := walking x.1 x.2.1 x.2.2.1 (x.2.2.2 : List Byte)
      s.live = true ∧ s.dropsBack (.walk 0 1) = false ∧ (s.responses.map (·.flit)) = [.none] ∧
        ((s.cluster 0).walker.find? (·.id == 1)).map (·.entry) = some x.2.1) ∧
    entInvalid 3 1 = false ∧ entInvalid 3 2 = false ∧ entInvalid 1 2 = false ∧ entInvalid 3 3 = false ∧ entInvalid 0x83 3 = false ∧
    entInvalid 0 3 = true ∧ ctlRange (2 ^ 40) = false := by decide +kernel

theorem witness_VectorAndTileEnds :
    (let o : VxuOp := { case := 0, vregs := [(3, 5, 0, 0)] }
     let s := runs id fun c => { c with vxuOps := [o] }
     s.hasPower 0 = true ∧ (s.core 0).vxuOps = [o] ∧ o.vregs = [(3, 5, 0, 0)]) ∧
    (let o : VxuOp := { case := 0, mreg := some (2, 5) }
     let s := runs id fun c => { c with vxuOps := [o] }
     s.hasPower 0 = true ∧ (s.core 0).vxuOps = [o] ∧ o.mreg = some (2, 5)) ∧
    (let o : VecOp := { op := 1, case := 0, reg := 2, load := true, width := 64, open_ := [], got := [(0, .ok, [1, 2, 3, 4, 5, 6, 7, 8])],
                        dest := [(0, [(31, 0)])] }
     let s := runs id fun c => { c with vecOps := [o] }
     s.hasPower 0 = true ∧ (s.core 0).vecOps[0]? = some o ∧ tabFind o.dest 0 = some [(31, 0)] ∧ (31 : Nat) < 2048 / o.width) ∧
    (let o : VecOp := { op := 1, case := 0, reg := 2, load := false, width := 64, open_ := [], got := [(0, .ok, [])] }
     let s := runs id fun c => { c with vecOps := [o] }
     (s.core 0).vecOps[0]? = some o ∧ (∀ x ∈ o.got, x.2.1 = .ok ∨ x.2.1 = .poisoned)) ∧
    (let o : TileOp := { op := 1, case := 0, tile := 2, load := true, transposed := false, shape := 0x10, lo := 0, hi := 1, final := true,
                         open_ := [], got := [(0, .ok, [1, 2, 3, 4, 5, 6, 7, 8])], dest := [(0, [(0, 0)])] }
     let s := runs id fun c => { c with tileOps := [o] }
     (s.core 0).tileOps[0]? = some o ∧ (s.case 0 o.case).rowNext = none ∧ (shapeOf o.shape).ok = true ∧ o.hi = (shapeOf o.shape).rows ∧ (shapeOf o.shape).bytes = 8 ∧
       o.got = (List.range o.hi).map (fun r => (r, RStat.ok, [1, 2, 3, 4, 5, 6, 7, 8])) ∧
       o.dest = (List.range o.hi).map (fun r => (r, [(r, 0)]))) ∧
    (∀ f : Bool, ∀ g : Bool, let o : ArrOp := { case := 0, kind := .zero 1, shape := 0x10, rm := 0, filled := f, computing := g }
     let s := runs id fun c => { c with arrayQ := [o] }
     s.hasPower 0 = true ∧ (s.core 0).arrayQ = [o] ∧ o.filled = f ∧ o.computing = g ∧ (s.core 0).badArray = false ∧
       (s.case 0 o.case).tErr = [] ∧ (s.case 0 o.case).tCorr = [] ∧ o.kind.writes.Nodup) := by decide +kernel

/-- Core 0 with one descriptor of task 0 in queue 1. -/
def xrun (i : XItem) : State := runs id fun c => { c with tasks := [(0, { task0 with xq := [(1, { items := [i] })] })] }

def desc (op : Word) (len src dst : Word) : XItem :=
  { id := 1, seq := 1, addr := 0x80, order := 0, strict := false, rank := 0, size := 0, phase := .read
    words := some (op + len * 0x100000000, src, dst) }

/-- The descriptor is the next one. -/
def isNext (i : XItem) : Bool :=
  let s := xrun i
  s.coreOn 0 && (s.core 0).lockCause == 0 && s.drain.st == .run && !i.malformed && !i.misaligned && i.bad == none && !i.poisoned &&
    i.open_ == [] && i.todo == [] && i.next == 0 && s.xmuWorking 0 == [] && !s.accWaits 0 i &&
    (match s.xmuNext 0 with | some (_, j) => j == i | none => false) && (match s.item 0 1 with | some (_, j) => j == i | none => false)

theorem witness_DescriptorRows :
    (isNext (desc 2 8 7 0x40) = true ∧ isNext (desc 1 8 0x40 0x80) = true ∧ isNext (desc 3 8 0x40 0x80) = true ∧
      isNext (desc 4 0 1 0x300000000) = true ∧ (0x300000000 : Word).getLsbD 44 = false ∧ 8 = afBytes 0 ∧
      (match (xrun (desc 2 8 7 0x40)).xmuNext 0 with
        | some (o, _) => findsNow ((xrun (desc 2 8 7 0x40)).xlateNow 0 .xmu o.ctx 0x40 .write) (pg 0x40) &&
          findsNow ((xrun (desc 2 8 7 0x40)).xlateNow 0 .xmu o.ctx 0x80 .accum) (pg 0x80)
        | none => false) = true ∧
      (let i : XItem := { desc 2 8 7 0x40 with phase := .ended, outcome := some { code := 0, bytes := 8 } }
       let s := xrun i
       s.hasPower 0 = true ∧ s.drain.st = .run ∧ i.unread = false ∧ i.words.isSome = true ∧
         (match (s.xmuHeads 0 0 1).head? with
          | some (o, j) => j == i && o.who == some 0 && !o.dead && findsNow (s.xlateNow 0 .xmu o.ctx (0x80 + 24) .write) (pg 0x98)
          | none => false) = true)) ∧
    (xrun (desc 2 8 7 0x40)).sound 0 (pg 0x40).pa 8 ∧ (xrun (desc 2 8 7 0x40)).sound 0 (pg 0x98).pa 8 :=
  ⟨by decide +kernel, sound_of (off := 0x40) (by decide +kernel), sound_of (off := 0x98) (by decide +kernel)⟩

theorem witness_EventRows :
    (run id).task 0 0 = some task0 ∧ task0.loc ≠ some 8 ∧ (run id).coreOn 0 = true ∧ (3071 : Nat) < 3072 ∧ 3072 ≤ (3072 : BitVec 12).toNat ∧
    ((runs (fun c => { c with watches := [3072] }) id).ctx 0 (some 0)).watches = [3072] ∧
    (let s := runs id fun c => { c with tmrOwner := .task 0 }
     s.hasPower 0 = true ∧ (s.core 0).lockCause = 0 ∧ (s.core 0).tmrOwner = .task 0) ∧
    (let y : Task := { task0 with st := .waiting, mask := 8 }
     let s := runs (fun c => { c with fails := [{ order := 0, va := 0, acc := false }] }) fun c => { c with running := none, tasks := [(0, y)] }
     s.task 0 0 = some y ∧ y.st = .waiting ∧ y.stopped = false ∧ y.mask.getLsbD (3067 - 3064) = true ∧ (s.ctx 0 (some 0)).fails ≠ []) := by
  decide +kernel

/-- Core 0 with a spill area, one command of its keeper in the queue, task 1 spilled, and a start record at 0x100. -/
def tcmd (w : Word) : State :=
  { (runs id fun c => { c with
      spa := 0x4080, tcmdQ := [{ word := w, fromKeeper := true, ret := .none }], tasks := [(0, task0), (1, task1)] }) with
    mem := [(2 ^ 40 + 0x146, 0x10)], tags := [(2 ^ 40 + 0x140) / 16] }

theorem witness_TaskCommands :
    (let s := tcmd 0x1200000500
     let bs := s.bytes (bankPa 0 0x100) 256
     let tags := (List.range 4).map fun j => s.tags.contains (bankPa 0 0x100 / 16 + 4 + j)
     s.hasPower 0 = true ∧ s.task 0 5 = none ∧ (s.core 0).slotOk 512 0 = true ∧ recKeysBad bs tags false = false ∧
       recKeysBad bs tags true = false ∧ (s.core 0).ken = false ∧
       s2Allowed (recCase bs) (BitVec.ofNat 12 (keyJob (recKey bs 0))) (recCase bs).s2ctl = true) ∧
    ((tcmd 1).task 0 0 ≠ none ∧ (tcmd 0x501).task 0 5 = none) ∧
    (let s := tcmd 2
     (s.case 0 0).task = some 0 ∧ s.task 0 0 = some task0 ∧ task0.loc = some 0 ∧ (s.core 0).caseBusy 0 = false ∧
       (s.case 0 0).tErr = [] ∧ (s.case 0 0).tCorr = [] ∧
       task0.slot * 256 + slotSize task0.prof ≤ 0x40000) ∧
    (let s := tcmd 0x10103
     s.task 0 1 = some task1 ∧ task1.loc = none ∧ (s.core 0).caseFree 1 = true ∧ task1.slot * 256 + slotSize task1.prof ≤ 0x40000 ∧
       s.slotBad 0 task1 = (s, false)) ∧
    (∀ j, j < 4 → soundAt (tcmd 0x1200000500) 0 (bankPa 0 0x100 + 64 * j) (0x100 + 64 * j) 64 = true) := by decide +kernel

theorem witness_SchedulerRows :
    (let s := runs id fun c => { c with running := none, cases := [], tasks := [(1, task1)], taskFill := some (1, 0) }
     s.coreOn 0 = true ∧ (s.core 0).lockCause = 0 ∧ s.drain.st = .run ∧ s.wakesBarred 0 = false ∧ (s.core 0).taskFill = some (1, 0) ∧ s.task 0 1 = some task1 ∧ s.slotBad 0 task1 = (s, false)) ∧
    (let s := runs id fun c => { c with running := some 8, keeperIssues := 4097 }
     s.coreOn 0 = true ∧ (s.core 0).running = some 8 ∧ 4096 < (s.core 0).keeperIssues ∧ (s.core 0).lockCause = 0) ∧
    ((run id).core 0).keeperIssues ≤ 4096 ∧
    (let s := runs id fun c => { c with running := none, tmrOwner := .detector }
     s.coreOn 0 = true ∧ (s.core 0).isIdle = true ∧ (s.core 0).tmrOwner = .detector) ∧
    (let s : State := { (runs id fun c => { c with running := none, eligible := true }) with clusters := [(0, { dst := .on, testList := [(0, 2)] })] }
     s.live = true ∧ (s.cluster 0).dst = .on ∧ (s.cluster 0).slot = none ∧ s.drain.st = .run ∧
       (s.cluster 0).testList.find? (fun p => s.grantable 0 p.1) = some (0, 2)) ∧
    (let s : State := { (run id) with clusters := [(0, { dst := .on, slot := some 0, slotSeg := 2 })] }
     s.live = true ∧ (s.cluster 0).dst = .on ∧ (s.cluster 0).slot = some 0 ∧ (s.cluster 0).slotSeg = 2 ∧ (s.core 0).evicts = [] ∧
       ((runs id fun c => { c with evicts := [{ addr := 1, dirty := 1, data := 0, poison := false }] }).core 0).evicts ≠ []) ∧
    (let r : JobReport := { job := 1, cls := 8, core := 0, task := 0, pc := 0, addr := 0 }
     let s := { (run id) with jobs := { reports := [r] } }
     s.live = true ∧ s.jobs.reports = [r]) := by decide +kernel

def packet (dst : Agent) (op : MemOp) : Packet := { id := 1, src := .core 0, dst := dst, op := op, ret := .none }

/-- Stack port 1 in a state, with a queue. -/
def ported (st : StackSt) (q : List Packet) : State := { (run id) with ports := [(1, { st := st, queue := q })] }

theorem witness_MeshRows :
    (let p := packet (.bank 0) (.read (2 ^ 40 + 0x40) 8)
     let s := { (run id) with packets := [p] }
     s.live = true ∧ s.packets[0]? = some p ∧ s.meshFirst p.src p.dst p.id = true ∧ s.addendFirst p.src p.dst p.id = true ∧
       s.bankFirst p = true ∧ p.flit = .none ∧ ({ p with flit := .header } : Packet).flit = .header ∧
       soundAt s 0 (2 ^ 40 + 0x40) 0x40 8 = true) ∧
    (let p := packet (.bank 0) (.write (2 ^ 40 + 0x40) [1, 2] false)
     let s := { (run id) with packets := [p] }
     s.packets[0]? = some p ∧ soundAt s 0 (2 ^ 40 + 0x40) 0x40 2 = true) ∧
    (({ (ported .up []) with cap := 8 } : State).locate (2 ^ 37) 8).2 = .ok ∧
    (({ (ported .failed []) with cap := 8 } : State).locate (2 ^ 37) 8).2 ≠ .ok ∧
    (packet (.stack 1) (.read (2 ^ 37) 8)).op.span = some (2 ^ 37, 8) ∧
    (let r : Response := { src := .bank 1, dst := .core 0, ret := .load 0 (some 0) 3, stat := .ok, data := [1] }
     let s := { (run id) with responses := [r] }
     s.responses[0]? = some r ∧ r.flit = .none ∧ s.dropsBack r.ret = false ∧ s.task 0 0 = some task0 ∧ task0.loc = some 0 ∧
       (s.case 0 0).task = some 0) := by decide +kernel

theorem witness_StackPortRows :
    (let p := packet (.stack 1) (.read 0x40 8)
     let s := ported .up [p]
     s.live = true ∧ (s.port 1).queue[0]? = some p ∧ (s.port 1).st = .up ∧ s.portFirst 1 0 p = true ∧ s.eccBad = [] ∧ s.eccCorr = [] ∧
       s.poison = [] ∧ (s.port 1).recent = [] ∧ (s.port 1).eng.ready = [] ∧ (s.port 1).eng.held = []) ∧
    (let p := packet (.stack 1) (.write 0x40 [1] false)
     (ported .up [p]).portFirst 1 0 p = true) ∧
    ((ported .retrain []).port 1).st = .retrain ∧ (1 : BitVec 2) ≠ 0 ∧
    (let s : State := { (run id) with ports := [(1, { st := .up, recent := List.replicate 8 0 })] }
     8 ≤ ((s.port 1).recent.filter fun b => s.beat.count.toNat < b + 1000).length) ∧
    (run id).digest.marks + 1 < (run id).digest.interval.toNat ∧
    (let s : State := { (run id) with digest := { interval := 1, regions := [{ base := 0, length := 64 }] } }
     s.digest.busy = false ∧ s.digest.interval ≠ 0 ∧ s.digest.interval.toNat ≤ s.digest.marks + 1 ∧ s.digest.regions ≠ []) ∧
    (let s : State := { (run id) with digest := { busy := true, regions := [{ base := 0, length := 64 }] } }
     s.digest.busy = true ∧ s.digest.marks < s.digest.interval.toNat ∧ s.ports = []) := by decide +kernel

/-- One addend on its way to bank 0, whose engine has the rounds given. -/
def adding (a : Addend) (r : List Round) : State := { (run id) with addends := [a], engines := [(0, { rounds := r })] }

theorem witness_EngineRows :
    (∀ a ∈ [adder 0 0, adder 4 0, adder 4 1], let s := adding a []
     s.live = true ∧ s.addends[0]? = some a ∧ a.void = false ∧ a.flit = .none ∧ s.meshFirst a.agent (s.addendDst a) a.id = true ∧
       s.addendFirst a.agent (s.addendDst a) a.id = true ∧ (match s.engineFor a.pa with | .inl k => k == .bank 0 | .inr _ => false) = true ∧
       s.notice = false ∧ ((s.getEng (.bank 0)).round (a.pa / 8 * 8, 8)).next = 0 ∧
       (s.getEng (.bank 0)).overlaps (a.pa / 8 * 8, 8) = false ∧ ((s.getEng (.bank 0)).round (a.pa / 8 * 8, 8)).late = [] ∧
       (s.getEng (.bank 0)).fits a = true ∧ (s.getEng (.bank 0)).tableLines.length < (EngAt.bank 0).tableCap ∧ (s.getEng (.bank 0)).held.length < (EngAt.bank 0).holdCap) ∧
    (let r : Round := { pa := 2 ^ 40 + 0x40, bytes := 8, next := 2, size := 4 }
     let s := adding (adder 4 1) [r]
     (adder 4 1).rank < ((s.getEng (.bank 0)).round ((adder 4 1).pa / 8 * 8, 8)).next ∧
       ((s.getEng (.bank 0)).round ((adder 4 1).pa / 8 * 8, 8)).late = []) ∧
    (let s := adding (adder 4 1) [{ pa := 2 ^ 40 + 0x40, bytes := 8, next := 1, size := 3 }]
     (s.getEng (.bank 0)).fits (adder 4 1) = false ∧ (s.getEng (.bank 0)).overlaps ((adder 4 1).pa / 8 * 8, 8) = false ∧
       ((s.getEng (.bank 0)).round ((adder 4 1).pa / 8 * 8, 8)).late = []) ∧
    (let s := adding (adder 4 0) [{ pa := 2 ^ 40 + 0x44, bytes := 4, next := 1, size := 4 }]
     (s.getEng (.bank 0)).overlaps ((adder 4 0).pa / 8 * 8, 8) = true ∧ (adder 4 0).af ≤ 2 ∧
       ((s.getEng (.bank 0)).round ((adder 4 0).pa / 8 * 8, 8)).late = []) ∧
    (let s : State := { (run id) with refused := [adder 4 1] }
     s.live = true ∧ s.refused[0]? = some (adder 4 1)) ∧
    (∀ f, f < 9 → let a := { adder 0 0 with af := f }
     let s : State := { (run id) with engines := [(0, { ready := [a] })] }
     s.hasPower 0 = true ∧ (s.engine 0).ready = [a] ∧ (s.engine 0).held = [] ∧ a.ret = .none ∧ a.void = false ∧ a.poison = false ∧
       soundAt s 0 (2 ^ 40 + 0x40) 0x40 8 = true) ∧
    (run id).coreOn 0 = true := by decide +kernel

/-- Link module 0 up in a role, with requests outstanding. -/
def linked (role : BitVec 2) (reqs : List LinkReq) : State :=
  { (run id) with links := [(0, { st := .up, role := role, reqs := reqs })], start := { phase := 7, winBase := 0x1000, winLen := 0x1000 } }

def toBank (ty : Nat) (pay : List Byte) : Msg := { msg ty pay with offset := 0x10000000040 }

theorem witness_LinkMessages :
    (∀ m ∈ [toBank 1 [1], { toBank 2 [] with len := 8 }, toBank 3 [1, 2, 3, 4, 5, 6, 7, 8], { msg 4 [] with arg := 0x300000000 },
        { msg 5 [1] with ch := 4 }, { msg 6 [] with ch := 4 }, toBank 7 []],
      let s := linked 1 []
      s.live = true ∧ (s.link 0).st = .up ∧ m.corrupt = false ∧ m.seq = (s.link 0).rxSeq ∧ m.type ≠ 0 ∧ m.type ≠ 15 ∧
        msgFieldsOk m m.type.toNat ((s.link 0).role == 2) = true) ∧
    (∀ m ∈ [{ msg 11 [] with ch := 6 }, { msg 13 [] with ch := 6 }, { msg 14 (List.replicate 16 7) with ch := 7, offset := 0x10 }],
      msgFieldsOk m m.type.toNat (((linked 2 []).link 0).role == 2) = true) ∧
    (let s := { (linked 1 []) with rel10 := true }
     s.live = true ∧ (s.link 0).st = .up) ∧
    (linked 1 []).inboundOk (2 ^ 40 + 0x40) 8 = true ∧ (2 ^ 40 + 0x40) % 4096 + 8 ≤ 4096 ∧ (8 : Nat) = afBytes 0 ∧
    ((linked 1 []).link 0).signalWaits { msg 4 [] with arg := 0x300000000 } = false ∧ ((linked 1 []).link 0).held = [] ∧
    (linked 1 []).clusterOn 0 = true ∧ (linked 1 []).task 0 0 = some task0 ∧ (0x300000000 : Word).toNat / 2 ^ 22 % 2 ^ 12 = 3072 ∧
    (let r : LinkReq := { id := 1, msg := { toBank 2 [] with len := 8 }, ret := .none, sent := true }
     ((linked 1 [r]).link 0).reqs = [r] ∧ r.msg.rtag = (msg 5 [1]).rtag ∧ r.msg.type = 2) ∧
    (let r : LinkReq := { id := 1, msg := toBank 1 [1], ret := .none, sent := true }
     ((linked 1 [r]).link 0).reqs = [r] ∧ r.msg.type = 1) ∧
    ((linked 2 []).link 0).hostHeld = [] ∧ (linked 2 []).hostBusy 0 = false ∧ ((linked 2 []).link 0).inbound = [] ∧
    (∀ p ∈ [[], [1, 2, 3, 4, 5, 6, 7, 8]], let m := { msg 11 p with ch := 6, offset := 0x1400, len := 8 }
     msgFieldsOk m 11 true = true ∧ 0x1400 % hreqSize m = 0 ∧ (linked 2 []).start.winBase ≤ 0x1400 ∧
       0x1400 + hreqSize m ≤ (linked 2 []).start.winBase + (linked 2 []).start.winLen) ∧
    (0 : Nat) < (linked 2 []).start.winBase ∧ ((linked 2 []).box 0).st = .idle := by decide +kernel

theorem witness_LinkControl :
    ((linked 1 []).live = true ∧ ((linked 1 []).link 0).st = .up ∧ ((linked 1 []).link 0).waiting = [] ∧ ((linked 1 []).link 0).stalls < 8 ∧
      ((linked 1 []).link 0).owed = [] ∧ chOk 1 (((linked 1 []).link 0).role == 2) = true ∧ chOk 5 (((linked 1 []).link 0).role == 2) = false) ∧
    (let s := { (run id) with links := [(0, { st := .up, replay := [msg 1 [1]] })] }
     (s.link 0).replay.filter (fun y => (y.seq - 0).toNat < 2 ^ 23) = [msg 1 [1]] ∧ (s.link 0).replay.head?.map (·.seq) = some 0) ∧
    (let s := { (run id) with links := [(0, { st := .up, replay := [msg 1 [1]], stalls := 8 })] }
     8 ≤ (s.link 0).stalls ∧ (s.link 0).replay.head? = some (msg 1 [1]) ∧ (s.link 0).reqs = []) ∧
    (let s := { (run id) with links := [(0, { st := .up, rxSeq := 1 })] }
     (s.link 0).lacked ≠ (s.link 0).rxSeq) ∧
    (let r : LinkReq := { id := 1, msg := toBank 1 [1], ret := .none, sent := true }
     let s := linked 1 [r]
     (s.link 0).reqs[0]? = some r ∧ r.sent = true ∧ r.msg.strict = false) ∧
    (∀ x ∈ [LinkSt.resetting, .training], let s := { (run id) with links := [(0, { st := x })] }
     (s.link 0).st = x ∧ (s.link 0).inbound = [] ∧ (s.link 0).owed = [] ∧ (5 : BitVec 3).toNat < 6) ∧
    (let s : State := { (run id) with routeNext := [(2, 1)] }
     s.routeNext[0]? = some (2, 1) ∧ s.routeClear 2 ((tabGet 0 s.routes 2).toNat % 2 ^ 16) = true) ∧
    (let m := toBank 1 [1]
     msgFieldsOk { m with type := 1 } 1 false = true ∧ msgFieldsOk { m with len := 2 } 1 false = false ∧
       1 ≤ ((1 : BitVec 24) - m.seq).toNat ∧ ((1 : BitVec 24) - m.seq).toNat < 2 ^ 23 ∧ 2 ^ 23 ≤ ((0 : BitVec 24) - (1 : BitVec 24)).toNat) ∧
    (let s := { (run id) with links := [(0, { st := .up, gap := true })] }
     (s.link 0).gap = true ∧ (s.link 0).replay = [] ∧ s.pending = [] ∧ (s.link 0).nakAt + 1000 * (s.link 0).rto.toNat ≤ s.now + 1) ∧
    ((msg 0 []).type = 0 ∧ (msg 15 []).type = 15) := by decide +kernel

/-- A block that drains. -/
def draining (d pin : Bool) : State :=
  { (run id) with drain := { st := .draining, discarded := d }, power := { pinLow := pin, shut := pin } }

theorem witness_DrainRows :
    ((run id).live = true ∧ (run id).drain.st = .run ∧ (draining true true).start.classified = true) ∧
    ((draining false false).drain.st = .draining ∧ (draining false false).drain.discarded = false ∧
      (draining false false).drainedBut (draining false false).heldAddends = true ∧ (draining false false).heldAddends = [] ∧
      (draining false false).power.pinLow = false) ∧
    (let s : State := { (draining true false) with drain := { st := .draining, firstUnit := 5 } }
     s.drain.at_ = s.now ∧ (3 : BitVec 16) < s.drain.firstUnit) ∧
    (let h : HistRec := { unit := 1, kind := 1, seg := 0, session := 1, beat := 0, powered := 0, failedTest := false, flushed := false }
     let s : State := { (draining true true) with history := [h] }
     s.serving 3 = true ∧ s.start.classified = true ∧ (∃ h ∈ s.history, h.flushed = false)) ∧
    ((draining true true).drain.discarded = true ∧ (draining true true).drainedBut [] = true ∧ (draining true true).power.pinLow = true) ∧
    (let s : State := { (run id) with clusters := [(0, { dst := .fencing })] }
     (s.cluster 0).dst = .fencing ∧ s.fenceIdle 0 s.heldAddends = true ∧ s.fenceIdle 0 [] = true ∧ (s.engine 0).held = []) ∧
    (let s : State := { (run id) with clusters := [(0, { dst := .waking })] }
     (s.cluster 0).dst = .waking) ∧
    ((run id).cluster 0).dst = .on := by decide +kernel

theorem witness_BeatAndProcessors :
    (run id).live = true ∧ 2 ≤ (run id).start.phase.toNat ∧ (run id).start.phase ≠ 9 ∧ ((run id).mp 1).st = 0 ∧
    (({ (run id) with mps := [(1, { st := 1 })] } : State).mp 1).st ≠ 0 ∧ (run id).beat.running = true ∧
    (run id).coreOn 0 = true ∧ (run id).task 0 0 = some task0 ∧
    (let s : State := { (run id) with beat := { running := true, en := true } }
     s.live = true ∧ s.beat.running = true ∧ s.beat.en = true ∧ s.beat.captured = false ∧ (62500 : Int).natAbs ≤ 62500 ∧
       62500 < (62501 : Int).natAbs) ∧
    (let s : State := { (run id) with beat := { running := true, en := true, captured := true, run := 7 } }
     s.beat.captured = true ∧ 7 ≤ s.beat.run ∧ (500 : Int).natAbs ≤ 500) := by decide +kernel

theorem witness_PowerEvents :
    (run id).live = true ∧ ((run id).cluster 0).dst = .on ∧ 2 ≤ (run id).start.phase.toNat ∧ (run id).power.avsRetry < 3 ∧
    3 ≤ ({ (run id) with power := { avsRetry := 3 } } : State).power.avsRetry ∧ 3 ≤ (run id).start.phase.toNat ∧
    (let s : State := { (run id) with power := { vtgt := 750 } }
     650 ≤ s.power.vtgt.toNat ∧ s.power.vtgt.toNat ≤ 850 ∧ s.power.vtgt.toNat % 5 = 0) := by decide +kernel

/-- Mailbox 0 in a state. -/
def boxed (st : MbSt) : State := { (run id) with mail := { boxes := [(0, { st := st, bell := true })] } }

/-- Mailbox 0 holds a request that may start. -/
def asked (owner : MpId) (op : Nat) (len : Nat) (pay : List Byte) : State :=
  { (run id) with mail := {
      boxes := [(0, { st := .taken, opcode := BitVec.ofNat 16 op, len := BitVec.ofNat 16 len, payload := pay.zipIdx.map fun (b, i) => (i, b) })]
      work := [(0, { owner := owner, op := BitVec.ofNat 16 op, arg := 0 })] } }

/-- MP_RESTART of MP2 is about to complete in mailbox 0, with the records given. -/
def restart2 (r : List (Nat × MbRecord)) : State :=
  { (run id) with mail := {
      boxes := [(0, { st := .taken, opcode := 0xA3, seq := 7, len := 1, payload := [(0, 2)] })]
      work := [(0, { owner := 2, op := 0xA3, arg := 2, result := some (0, []) })], records := r } }

theorem witness_MailboxRows :
    (∀ x ∈ [MbSt.idle, .posted, .taken, .done, .timeout, .error], ((boxed x).box 0).st = x ∧ (boxed x).live = true) ∧
    ((boxed .taken).box 0).progAt ≠ some ((boxed .taken).now / 4) ∧
    (({ (run id) with mail := { boxes := [(0, { st := .taken, progAt := some 0 })] } } : State).box 0).progAt = some ((run id).now / 4) ∧
    (run id).serving 2 = true ∧ (boxed .posted).nextTake = some 0 ∧
    (let s := asked 2 1 0 []
     (s.mail.work.any fun w => w.1 == 0) = true ∧ (({ (boxed .taken) with mail := { boxes := [(0, { st := .taken, cls := 2 })] } } : State).box 0).cls = 2) ∧
    (let w : Work := { owner := 2, op := 1, arg := 0, result := some (0, [1, 2]) }
     let s := { (boxed .taken) with mail := { boxes := [(0, { st := .taken, opcode := 1 })], work := [(0, w)] } }
     s.mail.work.find? (fun w => w.1 == 0) = some (0, w) ∧ (s.box 0).st = .taken ∧ (s.box 0).opcode ≠ 0xA3) ∧
    (let s := restart2 []
     s.serving 2 = true ∧ (s.box 0).st = .taken ∧ (s.box 0).opcode = 0xA3 ∧ (s.box 0).req 0 1 = 2 ∧ (s.known 0).isSome = false) := by
  decide +kernel

theorem witness_ReportCommands :
    (∀ x ∈ [(0x01, 2), (0x02, 2), (0x11, 1), (0x41, 0), (0x50, 2), (0x60, 3), (0x61, 3), (0x71, 3), (0x81, 3), (0x90, 0)],
      (asked (Fin.ofNat 4 x.2) x.1 8 []).startable 0 x.1 = true) ∧
    ((asked 0 0x41 8 [15]).box 0).req 0 1 ≤ 15 ∧ 15 < ((asked 0 0x41 8 [16]).box 0).req 0 1 ∧
    (let b := (asked 2 0x50 8 [0x90, 0x03, 0xE0, 0x01]).box 0
     b.req 0 2 % 2 = 0 ∧ b.req 2 2 % 2 = 0 ∧ b.req 0 2 + b.req 2 2 ≤ 0x570 ∧ b.req 2 2 ≤ 480) ∧
    480 < ((asked 2 0x50 8 [0, 0, 0xE2, 0x01]).box 0).req 2 2 ∧
    (let r : LogRec := { index := 0, beat := 0, kind := 1, unit := 0, detail := 0, pc := 0, addr := 0 }
     let s := { (asked 3 0x60 8 []) with log := [r], logNext := 1 }
     s.startable 0 0x60 = true ∧ s.log = [r] ∧ (s.box 0).req 0 8 ≤ r.index) ∧
    (asked 3 0x60 8 []).log = [] ∧ knownUnit 0x289F = true ∧ knownUnit 0x28A8 = false ∧
    (let b := (asked 3 0x71 8 [0xC4, 0x27, 60, 0]).box 0
     b.req 2 2 ≤ 60 ∧ b.req 0 2 + b.req 2 2 ≤ 10240) ∧
    60 < ((asked 3 0x71 8 [0, 0, 61, 0]).box 0).req 2 2 ∧
    (let s := { (asked 3 0x81 8 []) with digest := { regions := [{ base := 0, length := 64 }], number := 1 } }
     s.startable 0 0x81 = true ∧ (s.box 0).req 0 1 < s.digest.regions.length ∧ s.digest.since < s.digest.number) ∧
    (asked 3 0x81 8 []).digest.regions.length ≤ 0 ∧
    (let s := { (asked 0 0x90 8 [1]) with start := { phase := 7, settings := [(1, [1])] } }
     s.startable 0 0x90 = true ∧ s.start.settings.find? (fun r => r.1 == (s.box 0).req 0 2) = some ((s.box 0).req 0 2, [1])) ∧
    (asked 0 0x90 8 [0xE]).start.settings = [] ∧ ((asked 0 0x90 8 [0xE]).box 0).req 0 2 = 0xE := by decide +kernel

theorem witness_ControlCommands :
    (∀ x ∈ [(0x10, 1), (0x12, 1), (0x20, 1), (0x30, 3), (0x31, 3), (0x40, 0), (0x70, 3), (0x80, 3), (0xA3, 2), (0xB0, 2), (0xB1, 2)],
      (asked (Fin.ofNat 4 x.2) x.1 8 []).startable 0 x.1 = true) ∧
    (280 ≤ ((asked 1 0x10 8 [0x18, 1]).box 0).req 0 2 ∧ ((asked 1 0x10 8 [0x17, 1]).box 0).req 0 2 < 280 ∧
      1400 < ((asked 1 0x10 8 [0x79, 5]).box 0).req 0 2) ∧
    (let s : State := { (asked 1 0x12 8 [1]) with clusters := [(0, { dst := .on }), (1, { dst := .on })] }
     s.startable 0 0x12 = true ∧ (s.box 0).req 2 1 = 0 ∧ (s.box 0).req 0 2 = 1 ∧ (s.cluster 1).dst = .on ∧ s.drain.st = .run ∧
       (s.cluster 1).slot = none ∧ (∀ x ∈ s.cores, x.1 / 64 ≠ 1)) ∧
    (let s : State := { (asked 1 0x12 8 [0xA1]) with ports := [(1, { st := .up })] }
     (s.box 0).req 2 1 = 0 ∧ (s.box 0).req 0 2 = 161 ∧ (s.port 1).st = .up) ∧
    (let s := asked 1 0x12 8 [1, 0, 1]
     (s.box 0).req 2 1 = 1 ∧ (s.cluster 1).dst = .off) ∧
    (let s := asked 1 0x12 8 [0xA1, 0, 1]
     (s.box 0).req 2 1 = 1 ∧ (s.box 0).req 0 2 = 161 ∧ (s.port 1).st = .off ∧ (s.port 1).fenced = false) ∧
    184 ≤ ((asked 1 0x12 8 [184]).box 0).req 0 2 ∧ ((asked 1 0x20 8 [1]).box 0).req 0 1 = 1 ∧ 1 < ((asked 1 0x20 8 [2]).box 0).req 0 1 ∧
    (asked 3 0x31 8 []).drain.st ≠ .drained ∧
    (let s : State := { (asked 3 0x31 8 []) with drain := { st := .drained, cause := 1 } }
     s.startable 0 0x31 = true ∧ s.drain.st = .drained ∧ s.drain.cause = 1) ∧
    (let b := (asked 0 0x40 8 [15, 1, 3, 100, 8, 0, 0, 0]).box 0
     b.req 6 2 = 0 ∧ b.req 0 1 ≤ 15 ∧ b.req 1 1 ≤ 1 ∧ b.req 2 1 ≤ 3 ∧ 0 < b.req 3 1 ∧ 8 * b.req 3 1 ≤ b.req 4 2 * 100) ∧
    (let b := (asked 0 0x40 8 [16]).box 0
     15 < b.req 0 1 ∧ b.req 0 1 ≠ 0xFF) ∧
    ({ (asked 3 0x80 8 []) with digest := { busy := true } } : State).digest.busy = true ∧ ((asked 3 0x80 8 []).box 0).req 2 2 = 0 ∧
    3 < ((asked 2 0xA3 8 [4]).box 0).req 0 1 ∧ ((asked 2 0xA3 8 [3]).box 0).req 0 1 ≤ 3 ∧
    (let s := asked 2 0xB0 0x51 [1, 0, 0, 0, 0, 0, 0, 0, 0x40, 0, 0, 0, 0, 1, 0, 0]
     s.startable 0 0xB0 = true ∧ s.jobs.open_ = [] ∧ s.jobFields (s.box 0) = true ∧ s.jobs.issued < 4095 ∧
       soundAt s 0 ((s.box 0).req 8 8) 0x40 64 = true) ∧
    (let s := { (asked 2 0xB1 8 [1]) with jobs := { issued := 1, open_ := [(1, 7)] } }
     s.startable 0 0xB1 = true ∧ (∃ j ∈ s.jobs.open_, j.1.toNat = (s.box 0).req 0 2)) ∧
    (let s : State := { (run id) with ports := [(1, { st := .up, fenced := true })] }
     s.live = true ∧ (s.port 1).fenced = true ∧ (s.port 1).queue = [] ∧ (s.port 1).eng.ready = [] ∧ (s.port 1).eng.held = []) := by
  decide +kernel

theorem witness_FlashRows :
    (∀ x ∈ [(0x91, 0), (0xA0, 0), (0xA1, 0), (0xA2, 0)], let s := asked (Fin.ofNat 4 x.2) x.1 8 []
      s.startable 0 x.1 = true ∧ s.flashPort.job = none ∧ s.flashPort.updateIdle = true ∧ s.start.session_ = none ∧ s.start.commits = []) ∧
    (let b := (asked 0 0x91 9 [1, 0, 1, 0, 0, 0, 0, 0, 1]).box 0
     b.req 0 2 = 1 ∧ b.req 2 2 = 1 ∧ b.req 8 1 ≤ 1 ∧ recordsLength (settingPut [] 1 [(b.bytes 24 1).getD 0 0]) ≤ 262112) ∧
    0xF ≤ ((asked 0 0x91 9 [0xF]).box 0).req 0 2 ∧ 480 < ((asked 0 0x91 9 [1, 0, 0xE1, 1]).box 0).req 2 2 ∧
    (let b := (asked 0 0xA0 8 [0, 0x10, 0x0C]).box 0
     b.req 0 4 = 790528) ∧
    (let s : State := { (asked 0 0xA1 488 []) with start := { phase := 7, session_ := some (0, 0, [0]) } }
     s.startable 0 0xA1 = true ∧ s.start.session_ = some (0, 0, [0]) ∧ (s.box 0).req 0 4 % 16 = 0 ∧ 8 < (s.box 0).len.toNat ∧
       (s.box 0).len.toNat ≤ 488 ∧ (s.box 0).req 0 4 + ((s.box 0).len.toNat - 8) ≤ 790528) ∧
    (∀ o ∈ [FlashOp.program 0 [1], .erase 65536, .read], ∀ u ∈ [FlashUser.update, .fault],
      let s : State := { (run id) with flashPort := { busy := some (u, o) } }
      s.live = true ∧ s.flashPort.busy = some (u, o) ∧ s.flashPort.job = none) ∧
    (run id).flashPort.busy = none ∧
    (let s : State := { (run id) with flashPort := { busy := some (.fault, .read), histLeft := 1 } }
     s.live = true ∧ s.flashPort.histLeft = 1 ∧ s.history = [] ∧ s.permanent = [] ∧
       permanentIn ((historyIn s.flash).map (·.2)) = []) ∧
    (let s : State := { (run id) with flashPort := { busy := some (.pattern, .read), fetchLeft := 1 } }
     s.live = true ∧ s.flashPort.busy = some (.pattern, .read) ∧ 0 < s.flashPort.fetchLeft) := by decide +kernel

theorem witness_StartupRows :
    (State.reset.start.phase = 0 ∧ State.reset.supplyHold = false ∧ State.reset.clkLoss = false ∧ env.sfdpOk = true ∧
      State.reset.start.classified = false ∧ env.ready.getD 3 true = true ∧ ({ env with sfdpOk := false } : StartupEnv).sfdpOk = false) ∧
    (let s : State := { (run id) with start := { phase := 6, filled := true, classified := true }, domstat := 2 ^ 184 - 1 }
     s.live = true ∧ s.start.phase = 6 ∧ s.readyToServe = true) ∧
    (let s : State := { (run id) with start := { phase := 6 } }
     s.readyToServe = false) ∧
    (let s : State := { (run id) with start := { phase := 7, filled := true } }
     s.serving 3 = true ∧ s.start.filled = true ∧ s.start.libReady = false ∧ s.start.libBad = false ∧ s.flashPort.fetchLeft = 0) ∧
    (let s : State := { (run id) with start := { phase := 7, cleanBeats := 1000, rollVer := 2 } }
     s.serving 0 = true ∧ (∀ i, i < 4 → (s.mp i).image = s.start.imageNo) ∧ 1000 ≤ s.start.cleanBeats) ∧
    (run id).start.cleanBeats < 1000 ∧
    (let s : State := { (run id) with start := { phase := 2, left := some ([], []) }, mps := [(1, { st := 2 })] }
     s.live = true ∧ (s.mp 1).st ≠ 0 ∧ s.start.phase = 2 ∧ s.start.left = some ([], []) ∧ (∀ j, j < 4 → j ≠ 1 → (s.mp j).st = 0)) ∧
    ((ported .training []).port 1).trained = false ∧
    (let s : State := { (run id) with ports := [(0, { st := .training })] }
     (s.port 0).st = .training ∧ (s.port 0).trained = false ∧ s.serving 3 = true) ∧
    (((ported .training []).port 1).st = .training ∧ 1 ≤ (8 : BitVec 4).toNat ∧ (8 : BitVec 4).toNat ≤ 8 ∧ (1 : BitVec 2) ≠ 0 ∧
      ((ported .training []).port 1).queue = [] ∧ ((ported .training []).port 1).eng.ready = []) ∧
    (run id).resetLow = false ∧ ({ State.reset with supplyHold := true } : State).supplyHold = true := by decide +kernel

theorem witness_PortRows :
    (let s : State := { State.reset with resetLow := true, resetPin := true }
     s.resetPin = true ∧ s.unpowered = false ∧ scanCells[4]? = some .faultN ∧ cellOf .faultN = some 4 ∧ Signal.faultN.isInput = false ∧
       scanCells[6]? = some .blkReady ∧ scanCells[0]? = some .resetN ∧ Signal.resetN.isInput = true) ∧
    ({ State.reset with unpowered := true } : State).unpowered = true ∧ (run id).resetPin = false ∧
    ((run id).resetLow = false ∧ (run id).i3cServes = true ∧ (run id).i3c.offset.toNat < 0x400 ∧ (0x210 : BitVec 16).toNat < 0x400 ∧
      16 ≤ (0x210 : BitVec 16).toNat % 512 ∧ (0x210 : BitVec 16).toNat % 512 + ([1, 2, 3, 4] : List Byte).length ≤ 512 ∧
      ([1, 2, 3] : List Byte) ≠ [] ∧ ([1, 2, 3] : List Byte).length < 4 ∧ ((run id).box 33).st = .idle) ∧
    (({ (run id) with mail := { boxes := [(33, { st := .posted })] } } : State).box 33).st ≠ .idle ∧
    ((run id).live = true ∧ (4 : BitVec 26).toNat % 8 ≠ 0 ∧ (2 : BitVec 26).toNat % 4 ≠ 0) ∧
    (let s := runs id fun c => { c with tasks := [] }
     s.coreOn 0 = true ∧ (s.core 0).tasks = [] ∧ (0x10000 : Word).toNat % 256 + (0x10000 : Word).toNat / 256 % 512 ≤ 256) := by decide +kernel

/-! ### Single steps against the spec's figures -/

/-- The last pending result of the task. -/
def due (s : State) : Option (Port × Nat × Word) := (s.case 0 0).pend.getLast?.map fun p => (p.port, p.due, p.data.val)

/-- Table 03-1: all ones plus 1 carries and is zero; FLG = C, Z. -/
theorem test_add_carry :
    let t := after (exec (.aluAdd 0 1) (run fun c => { c with opnd := [(0x20, 0xFFFFFFFFFFFFFFFF)] }))
    due t = some (.aluRes, 1, 0) ∧ (t.case 0 0).flg = 5 ∧ (t.case 0 0).pc = 0x104 := by decide +kernel

/-- Table 03-1: 1 − 2 borrows and is negative. -/
theorem test_sub_borrow :
    let t := after (exec (.aluSub 0 2) (run fun c => { c with opnd := [(0x20, 1)] }))
    due t = some (.aluRes, 1, 0xFFFFFFFFFFFFFFFF) ∧ (t.case 0 0).flg = 6 := by decide +kernel

/-- Table 03-2: −7 rem 2 = −1, −7 div 2 = −3. -/
theorem test_div_signs :
    let s := run fun c => { c with opnd := [(0x20, 0xFFFFFFFFFFFFFFF9)] }
    due (after (exec (.aluDiv 0 2) s)) = some (.aluDres, 20, 0xFFFFFFFFFFFFFFFD) ∧
    due (after (exec (.aluRem 0 2) s)) = some (.aluDres, 20, 0xFFFFFFFFFFFFFFFF) := by decide +kernel

/-- R67: b0 keeps its 1. -/
theorem test_bit_clr_b0 : ((after (exec (.bitClr 0 0) (run id))).case 0 0).bit 0 = true := by decide +kernel

/-- Table 03-6: LSB 4, LEN 8, sign-extended. -/
theorem test_bit_ext :
    due (after (exec (.bitExt 0 0x2204) (run fun c => { c with opnd := [(0x80, 0xF80)] }))) = some (.bitRes, 1, 0xFFFFFFFFFFFFFFF8) := by
  decide +kernel

/-- R48: a taken branch has two delay slots. -/
theorem test_jmp : ((after (exec (.bruJmp 0 0x200) (run id))).case 0 0).xfer = some { target := 0x200, slots := 2, call := false } := by
  decide +kernel

/-- Table 03-4: a byte load sign-extends; memory holds 0x80 at 0x40. -/
theorem test_ld8s :
    due (after (exec (.lsuLd8s 0 0x40) { (run id) with mem := [(2 ^ 40 + 0x40, 0x80)] })) = some (.lsuRes, 4, 0xFFFFFFFFFFFFFF80) := by
  decide +kernel

/-- R64: a store stays in the store buffer, then writes its bytes. -/
theorem test_store :
    let t := after (exec (.lsuSt16 0 0x42) (run fun c => { c with opnd := [(0x61, 0x12345)] }))
    let u := after (exec (.storePerformed 0 0) t)
    t.mem = [] ∧ (u.byte (2 ^ 40 + 0x42), u.byte (2 ^ 40 + 0x43), u.byte (2 ^ 40 + 0x44)) = (0x45, 0x23, 0) := by decide +kernel

/-- R59: an unaligned access raises ALIGN at the word. -/
theorem test_ld_align : (((after (exec (.lsuLd32u 0 0x42) (run id))).case 0 0).raised.map (·.cls)) = some clsALIGN := by decide +kernel

/-- Table 03-14: 2.0 × 3.0 + 1.0 = 7.0. -/
theorem test_dfm_mac :
    let s := { (run fun c => { c with gen := [(0, 0x40), (4, 0x20040)], acc := { val := 0x3FF0000000000000 } }) with
      mem := [(2 ^ 40 + 0x47, 0x40), (2 ^ 40 + 0x20046, 0x08), (2 ^ 40 + 0x20047, 0x40)] }
    due (after (exec (.dfmMac 0 0) s)) = some (.dfmAcc, 4, 0x401C000000000000) := by decide +kernel

/-- Table 07-3: elements of 8 bits wrap; elements from LEN on are kept. -/
theorem test_vxu_add :
    let s := run fun c => { c with vlen := 2, v := [(1, 0xF0FFFF), (2, 0x110102)] }
    ((after (exec (.vxuOpComplete 0) (after (exec (.vxuAdd 0 0x20008440) s)))).case 0 0).vreg 1 = 0xF00001 := by decide +kernel

/-- R142: tmu.zero clears the tile. -/
theorem test_tmu_zero :
    let s := run fun c => { c with opnd := [(0x280, 0x10)], t := [(3, 1)] }
    let t := after (exec (.arrayOpComplete 0) (after (exec (.arrayComputeStart 0) (after (exec (.tmuZero 0 3) s)))))
    (t.case 0 0).tile 3 = 0 ∧ (t.case 0 0).ticket = 1 := by decide +kernel

/-- R195: FILL writes its pattern. -/
theorem test_xmu_fill :
    ((after (exec (.xmuFill 0) (xrun (desc 2 8 0x0807060504030201 0x40)))).bytes (2 ^ 40 + 0x40) 8) = [1, 2, 3, 4, 5, 6, 7, 8] := by decide +kernel

/-- Table 12-4: kyu.chk of a range inside the key, with permission R. -/
theorem test_kyu_chk : due (after (exec (.kyuChk 0 0x13) krun)) = some (.kyuRes, 2, 1) := by decide +kernel

/-- R287: a wicket is entered at its ENTRY. -/
theorem test_wicket :
    let s := runs id fun c => { c with wickets := [(3, { entry := 0x200, key := 0, ext := {} })] }
    ((after (exec (.sysWkt 0 3) s)).case 0 0).pc = 0x200 := by decide +kernel

/-- R266: KILL of a task that is not there ends with CODE 0x82. -/
theorem test_kill_none : ((after (exec (.kill 0) (tcmd 0x501))).core 0).tsCode = 0x82 := by decide +kernel

/-- R187: an addend of a later rank is held. -/
theorem test_addend_held : ((after (exec (.addendArrival 0) (adding (adder 4 1) []))).engine 0).held.length = 1 := by decide +kernel

/-- R380: a DBELL rings mailbox ADDR mod 32. -/
theorem test_dbell :
    ((after (exec (.linkDbell 0 { msg 13 [] with ch := 6, offset := 35 }) (linked 2 []))).box 3).bell = true := by decide +kernel

/-- R312: a message past the expected SEQ is discarded and answered with NAK. -/
theorem test_link_gap :
    let t := after (exec (.linkPut 0 { toBank 1 [1] with seq := 1 }) (linked 1 []))
    (t.link 0).gap = true ∧ (t.link 0).rxSeq = 0 ∧ t.packets = [] := by decide +kernel

/-- R348: a lockup starts the drain and drives FAULT_N low. -/
theorem test_drain_trigger :
    let t := after (exec (.drainTrigger .lockup 5) (run id))
    t.drain.st = .draining ∧ t.drain.cause = 4 ∧ t.drain.firstUnit = 5 ∧ t.drain.faultN = true := by decide +kernel

/-- R358: an edge 30,000 cycles late moves the boundaries by 25,000. -/
theorem test_beat_edge :
    (after (exec (.beatInEdge 30000) { (run id) with beat := { running := true, en := true } })).beat.shift = 25000 := by decide +kernel

/-- Table 17-2: a post from IDLE; from another state it is rejected. -/
theorem test_mailbox_post :
    ((after (exec (.mailboxPost 0 0) (boxed .idle))).box 0).st = .posted ∧
    (after (exec (.mailboxPost 0 0) (boxed .done))).mail.rej = 1 := by decide +kernel

/-- R379: a repeated request is answered from its record and not carried out again. -/
theorem test_mp_restart_repeat :
    ((after (exec (.mailboxComplete 0) (restart2 []))).mp 2).st = 1 ∧
    ((after (exec (.mailboxComplete 0) (restart2 [(0, { seq := 7, opcode := 0xA3, status := 0, reply := [] })]))).mp 2).st = 0 := by
  decide +kernel

/-- Table 17-4: POWER_LIMIT_SET of 279 W is a bad field, of 280 W is taken. -/
theorem test_power_limit :
    (after (exec (.powerLimitSet 0) (asked 1 0x10 8 [0x17, 1]))).power.plimNext = none ∧
    (after (exec (.powerLimitSet 0) (asked 1 0x10 8 [0x18, 1]))).power.plimNext = some 280 := by decide +kernel

/-- R403: a program only clears bits. -/
theorem test_flash_program :
    let s : State := { (run id) with flash := [(0, 0x0F)], flashPort := { busy := some (.update, .program 0 [0x3C, 0x55]) } }
    let t := after (exec (.flashOperationComplete true) s)
    (flashByte t.flash 0, flashByte t.flash 1) = (0x0C, 0x55) := by decide +kernel

/-- R394: a flash without SFDP ends start-up in phase 9. -/
theorem test_startup_no_sfdp :
    (after (exec (.startupSequence { env with sfdpOk := false }) State.reset)).start.phase = 9 := by decide +kernel

/-- R156: on release 1.0 sys.xsel 0x101 selects no register. -/
theorem test_rdc_release_1_0 :
    let s : State := { (run fun c => { c with opnd := [(0x483, 0x101)] }) with rel10 := true }
    ((after (exec (.sysXwr 0 1) s)).case 0 0).rdc = 0 ∧ s.blkId = 0x0C3E570101000000 := by decide +kernel

/-- Table 19-6. -/
theorem test_idcode : (after (exec .idcode State.reset)).tap.dr = 0x15701C3F := by decide +kernel

/-- R416: in service EXTEST is refused. -/
theorem test_extest_refused : (after (exec .extest (run id))).tap.ir = .bypass := by decide +kernel

/-- R329: the check value of the CRC. -/
theorem test_crc64 : crc64 [0x31, 0x32, 0x33, 0x34, 0x35, 0x36, 0x37, 0x38, 0x39] = 0x6C40DF5F0B497347 := by decide +kernel

/-- FIPS 180-4: the SHA-384 of "abc". -/
theorem test_sha384 : beToNat (shaBytes [0x61, 0x62, 0x63]) =
    0xcb00753f45a35e8bb5a03d699ac65007272c32ab0eded1631a8b605a43ff5bed8086072ba1e7cc2358baeca134c825a7 := by decide +kernel

/-! ### Code words (Table 02-16) -/

theorem test_decode_word :
    decodeWord 0x040201B8 0 = some [{ src := .imm 8, dst := 0x6E }] ∧ decodeWord 0x0000001E 0 = none := by decide +kernel

/-- No row of the command table has bits. -/
theorem test_decode_table : decodeTableWord 32 0 = none := by decide

end Sys2Proof.Tests
end

section
/-! PROOF. Words of one long move to the BIT and BRU trigger ports (R31): what their issue answers, and the settling of the
bit writes (R39, R66, R67, R71) and of bru.rpt and bru.rptu (R49, R50). -/

namespace Sys2Proof.Machine

/-! ### Issuing a move -/

/-- A word whose trigger faults without a part of its effect that stays raises the fault in the state of arrivals. -/
theorem issueMove_fault {s : State} {n k sock : Nat} {v : Word} {u : Unit_} {f : Flt} (h : s.ready n k = true)
    (hs : sock < 4096) (hu : sockOf sock = some (.trig u)) (hc : isControl sock = false ∨ s.free_ n k = true)
    (hf : (s.arrivals n k).fire n k 4 sock v = .fault none f) :
    (.next (s.issueMove n sock v) : Out) = .next ((s.arrivals n k).raise n k f (f.cls == clsASYNC)) := by
  rw [issueMove_ready h hs hu hc, hf]; rfl

/-- A trigger of the BIT unit is fired by `trigBit`. -/
theorem fire_bit {sock : Nat} (hu : sockOf sock = some (.trig .bit)) (s : State) (n k len : Nat) (v : Word) :
    s.fire n k len sock v = trigBit s n k sock v := by
  simp [State.fire, trigUnit, hu]

/-- A trigger of the BRU is fired by `trigBru`. -/
theorem fire_bru {sock : Nat} (hu : sockOf sock = some (.trig .bru)) (s : State) (n k len : Nat) (v : Word) :
    s.fire n k len sock v = trigBru s n k sock v := by
  simp [State.fire, trigUnit, hu]

/-! ### Bit variables (R39, R66, R67) -/

/-- A word with bit `i` set. -/
theorem getLsbD_or_bitMask (w : Word) (i : Nat) {j : Nat} (hj : j < 64) :
    (w ||| BitVec.ofNat 64 (2 ^ i)).getLsbD j = (decide (j = i) || w.getLsbD j) := by
  rw [BitVec.getLsbD_or, BitVec.getLsbD_ofNat, Nat.testBit_two_pow, decide_eq_true hj, Bool.true_and, Bool.or_comm]
  simp only [eq_comm]

/-- A word with bit `i` cleared. -/
theorem getLsbD_and_not_bitMask (w : Word) (i : Nat) {j : Nat} (hj : j < 64) :
    (w &&& ~~~BitVec.ofNat 64 (2 ^ i)).getLsbD j = (!decide (j = i) && w.getLsbD j) := by
  rw [BitVec.getLsbD_and, BitVec.getLsbD_not, BitVec.getLsbD_ofNat, Nat.testBit_two_pow, decide_eq_true hj, Bool.true_and,
    Bool.true_and, Bool.and_comm]
  simp only [eq_comm]

/-- b0 reads 1; every other bit variable reads as it is stored. -/
theorem Casement.bit_eq (c : Casement) (j : Nat) :
    c.bit j = if j = 0 then true else (tabGet 0 c.bits (j / 64)).getLsbD (j % 64) := by
  have set_b0 (w : Word) : (w ||| 1).getLsbD (j % 64) = (decide (j % 64 = 0) || w.getLsbD (j % 64)) :=
    getLsbD_or_bitMask w 0 (Nat.mod_lt _ (by decide))
  simp only [Casement.bit, Casement.group, beq_iff_eq]
  by_cases hg : j / 64 = 0
  · have low : j % 64 = 0 ↔ j = 0 := by omega
    rw [if_pos hg, set_b0]
    by_cases hj : j = 0 <;> simp [low, hj]
  · have hj : j ≠ 0 := by rintro rfl; exact hg rfl
    rw [if_neg hg, if_neg hj]

/-- R39: b0 always reads 1. -/
@[simp] theorem Casement.bit_zero (c : Casement) : c.bit 0 = true := by
  rw [Casement.bit_eq, if_pos rfl]

/-- What the bit variables read after a write of a group. -/
theorem Casement.bit_setGroup (c : Casement) (g j : Nat) (w : Word) :
    (c.setGroup g w).bit j = if j = 0 then true else if j / 64 = g then w.getLsbD (j % 64) else c.bit j := by
  have clear_b0 : (w &&& ~~~1).getLsbD (j % 64) = (!decide (j % 64 = 0) && w.getLsbD (j % 64)) :=
    getLsbD_and_not_bitMask w 0 (Nat.mod_lt _ (by decide))
  simp only [Casement.bit_eq, Casement.setGroup, Casement.touch, tabGet_tabSet, beq_iff_eq]
  by_cases hj : j = 0
  · rw [if_pos hj, if_pos hj]
  by_cases hg : j / 64 = g
  · by_cases h0 : g = 0
    · have hlow : j % 64 ≠ 0 := by omega
      rw [if_pos hg, if_pos h0, clear_b0, if_pos hg, decide_eq_false hlow, Bool.not_false, Bool.true_and]
    · rw [if_pos hg, if_neg h0, if_pos hg]
  · simp only [if_neg hj, if_neg hg]

/-- What a group reads after it is written. -/
theorem Casement.group_setGroup (c : Casement) (g : Nat) (w : Word) :
    (c.setGroup g w).group g = if g = 0 then w ||| 1 else w := by
  have keep_b0 : w &&& ~~~1 ||| 1 = w ||| 1 := by
    refine BitVec.eq_of_getLsbD_eq fun i hi => ?_
    rw [show (1 : Word) = BitVec.ofNat 64 (2 ^ 0) from rfl, getLsbD_or_bitMask _ _ hi, getLsbD_or_bitMask _ _ hi,
      getLsbD_and_not_bitMask _ _ hi]
    cases decide (i = 0) <;> rfl
  simp only [Casement.group, Casement.setGroup, Casement.touch, tabGet_tabSet, beq_iff_eq, if_true]
  by_cases hg : g = 0
  · rw [if_pos hg, if_pos hg, if_pos hg, keep_b0]
  · rw [if_neg hg, if_neg hg, if_neg hg]

/-- What the bit variables read after a write of one of them. -/
theorem Casement.bit_setBit (c : Casement) (i j : Nat) (x : Bool) :
    (c.setBit i x).bit j = if j = 0 then true else if j = i then x else c.bit j := by
  have written : (c.setBit i x).bit j = (c.setGroup (i / 64)
      (if x then c.group (i / 64) ||| BitVec.ofNat 64 (2 ^ (i % 64))
        else c.group (i / 64) &&& ~~~BitVec.ofNat 64 (2 ^ (i % 64)))).bit j := rfl
  have hlt : j % 64 < 64 := Nat.mod_lt _ (by decide)
  rw [written, Casement.bit_setGroup]
  by_cases hg : j / 64 = i / 64
  · have place : j % 64 = i % 64 ↔ j = i := by omega
    have old : (c.group (i / 64)).getLsbD (j % 64) = c.bit j := by rw [← hg]; rfl
    rw [if_pos hg, apply_ite (BitVec.getLsbD · (j % 64)), getLsbD_or_bitMask _ _ hlt, getLsbD_and_not_bitMask _ _ hlt, old]
    simp only [place]
    by_cases hji : j = i <;> cases x <;> simp [hji]
  · have hji : j ≠ i := fun h => hg (by rw [h])
    rw [if_neg hg, if_neg hji]

/-! ### Short guards (R32, R39) -/

/-- A short move of a decoded word is guarded by b0 to b3: its guard field has two bits. -/
theorem decodeWord_short_guard {w ext : BitVec 32} {ms : List Move} (hd : decodeWord w ext = some ms) {m : Move}
    (hm : m ∈ ms) (hshort : m.long = false) : m.guard < 4 := by
  have two_bits (lo : Nat) : bitsOf w.toNat lo 2 < 4 := Nat.mod_lt _ (by decide)
  simp only [decodeWord] at hd
  split at hd
  case isTrue long_word =>
    obtain ⟨-, -, -, rfl⟩ : _ ∧ _ ∧ _ ∧ _ = ms := by
      simpa only [Option.ite_none_left_eq_some, Option.some.injEq] using hd
    rw [List.mem_singleton.mp hm] at hshort
    cases hshort
  case isFalse paired_word =>
    rw [Option.ite_none_left_eq_some] at hd
    obtain ⟨-, hd⟩ := hd
    split at hd
    case h_1 s1 s2 _ _ =>
      obtain ⟨-, -, -, -, rfl⟩ : _ ∧ _ ∧ _ ∧ _ ∧ _ = ms := by
        simpa only [Option.ite_none_left_eq_some, Option.some.injEq] using hd
      obtain rfl | rfl : m = _ ∨ m = _ := by simpa only [List.mem_cons, List.not_mem_nil, or_false] using hm
      · exact two_bits 29
      · exact two_bits 14
    case h_2 => cases hd

/-- R39: a short guard holds where its bit variable is 1. -/
theorem Casement.guardTrue_short (c : Casement) {m : Move} (hshort : m.long = false) :
    c.guardTrue m = some (c.bit m.guard) := by
  rw [Casement.guardTrue, if_pos (by rw [hshort]; rfl)]

/-! ### BIT triggers that write (R67, R71) -/

/-- Table 15-1: where no group has a parity error, reading one leaves the trigger's outcome as it is. -/
theorem State.groupRead_sound {s : State} {n k : Nat} (hg : (s.case n k).gBad = 0) (g : Nat) (t : Trig) :
    s.groupRead n k g t = t := by
  simp [State.groupRead, hg]

/-- A ready word of one move to a BIT trigger that changes the casement alone answers that change. -/
theorem issueMove_bitWrite {s : State} {n k sock : Nat} {v : Word} {f : Casement → Casement} (h : s.ready n k = true)
    (hs : sock < 4096) (hu : sockOf sock = some (.trig .bit)) (hc : isControl sock = false)
    (ht : trigBit (s.arrivals n k) n k sock v = (s.arrivals n k).bitWrite n k f) :
    (.next (s.issueMove n sock v) : Out) = s.changes n k sock v f :=
  issueMove_done h hs hu (.inl hc) (by rw [fire_bit hu, ht]; rfl)

/-! ### Repeats (R49, R50) -/

/-- A repeat of COUNT 0 is passed over. -/
theorem State.repeat_zero (s : State) (n k : Nat) (unint : Bool) :
    s.repeat_ n k 0 unint = .done (s.onCase n k fun c => Casement.touch { c with skip := true } 0) := rfl

/-- A repeat of another COUNT is entered in RPTC, with ACT and, where it is uninterruptible, UNINT. -/
theorem State.repeat_pos (s : State) (n k : Nat) {count : Nat} (unint : Bool) (hcount : count ≠ 0) :
    s.repeat_ n k count unint =
      .done (s.onCase n k fun c => Casement.touch { c with rptc := BitVec.ofNat 64 (2 ^ 33 + b2n unint * 2 ^ 32 + count) } 0) := by
  have order : count + b2n unint * 2 ^ 32 + 2 ^ 33 = 2 ^ 33 + b2n unint * 2 ^ 32 + count := by omega
  simp only [State.repeat_, beq_iff_eq, hcount, if_false, order]

/-- A ready word of one move to bru.rpt or bru.rptu answers what the repeat changes. -/
theorem issueMove_repeat {s : State} {n k sock count : Nat} {v : Word} {unint : Bool} {f : Casement → Casement}
    (h : s.ready n k = true) (hfree : s.free_ n k = true) (hs : sock < 4096) (hu : sockOf sock = some (.trig .bru))
    (ht : trigBru (s.arrivals n k) n k sock v = (s.arrivals n k).repeat_ n k count unint)
    (hf : (s.arrivals n k).repeat_ n k count unint = .done ((s.arrivals n k).onCase n k f)) :
    (.next (s.issueMove n sock v) : Out) = s.changes n k sock v f :=
  issueMove_done h hs hu (.inr hfree) (by rw [fire_bru hu, ht, hf])

/-- R50: a COUNT above 64 faults at bru.rptu; up to 64 it repeats. -/
theorem trigBru_rptu (s : State) (n k : Nat) (v : Word) :
    trigBru s n k 0xCE v = if 64 < v.toNat then .fault none fltIllegal else s.repeat_ n k v.toNat true := rfl

/-- R50: a word that is passed over moves the program counter past itself. -/
theorem issueMove_skipped {u : State} {n k : Nat} (sock : Nat) (w : Word) (hissuer : u.issuer n = some k)
    (hwait : (u.case n k).waiting = none) (hskip : (u.case n k).skip = true) : u.issueMove n sock w = u.passOver n k 4 := by
  simp [State.issueMove, hissuer, hwait, hskip]

/-- The casement after a word is passed over: it is past the word and waits for nothing, and no register has changed. -/
theorem State.case_passOver (s : State) (n k len : Nat) :
    (s.passOver n k len).case n k =
      { s.case n k with skip := false, waiting := none, pc := (s.case n k).pc + BitVec.ofNat 48 len } := by
  simp [State.passOver]

end Sys2Proof.Machine

open Sys2Proof Sys2Proof.Machine

/-- Settles O13: each trigger that writes answers its change of the casement, and what a bit variable reads afterwards is
`Casement.bit_setBit` and `Casement.bit_setGroup`. -/
theorem bitWriteRows : Obligations.BitWriteRows := by
  refine ⟨⟨fun core v s k h hg => ?triggers,
      fun c i j g x w _ _ _ => ⟨c.bit_setBit i j x, c.bit_setGroup g j w, c.group_setGroup g w⟩⟩, fun c m hshort => ?guards⟩
  case triggers =>
    intro n a i g
    have sound := State.groupRead_sound (s := s.arrivals n k) hg
    refine ⟨?_, ?_, ?_, ?_, ?_, fun hsignal => ?_, fun hother => ?_⟩
    · exact issueMove_bitWrite h (by decide) rfl rfl (sound _ _)
    · exact issueMove_bitWrite h (by decide) rfl rfl (sound _ _)
    · exact issueMove_bitWrite h (by decide) rfl rfl (sound _ _)
    · exact issueMove_bitWrite h (by decide) rfl rfl (sound _ _)
    · exact issueMove_bitWrite h (by decide) rfl rfl rfl
    · exact issueMove_bitWrite h (by decide) rfl rfl (if_neg (Nat.not_lt.mpr hsignal))
    · exact issueMove_fault h (by decide) rfl (.inl rfl) ((fire_bit rfl _ n k 4 v).trans (if_pos hother))
  case guards =>
    refine ⟨c.guardTrue_short hshort, fun h0 => ?_, c.bit_zero, fun w => Casement.bit_zero _, fun x j => ?_,
      fun w e ms hd hm => decodeWord_short_guard hd hm hshort⟩
    · rw [c.guardTrue_short hshort, h0, c.bit_zero]
    · rw [c.bit_setBit]
      by_cases hj : j = 0
      · rw [if_pos hj, hj, c.bit_zero]
      · rw [if_neg hj, if_neg hj]

/-- Settles O16: a COUNT other than 0 stands in RPTC, COUNT 0 passes the body over, and bru.rptu takes none above 64. -/
theorem repeatRows : Obligations.RepeatRows := by
  intro core v s k h hfree n sets passes
  have rptu_small (hle : v.toNat ≤ 64) := (trigBru_rptu (s.arrivals n k) n k v).trans (if_neg (Nat.not_lt.mpr hle))
  refine ⟨fun hcount => ?_, fun hcount => ?_, fun hpos hle => ?_, fun hzero => ?_, fun hbig => ?_,
    fun u sock w hissuer hwait hskip => ?_⟩
  · exact issueMove_repeat h hfree (by decide) rfl rfl (State.repeat_pos _ n k false hcount)
  · exact issueMove_repeat h hfree (by decide) rfl (congrArg (State.repeat_ _ n k · false) hcount) (State.repeat_zero _ n k false)
  · exact issueMove_repeat h hfree (by decide) rfl (rptu_small hle) (State.repeat_pos _ n k true (Nat.pos_iff_ne_zero.mp hpos))
  · subst hzero
    exact issueMove_repeat h hfree (by decide) rfl (rptu_small (by decide)) (State.repeat_zero _ n k true)
  · exact issueMove_fault h (by decide) rfl (.inr hfree)
      ((fire_bru rfl _ n k 4 v).trans ((trigBru_rptu _ n k v).trans (if_pos hbig)))
  · rw [issueMove_skipped sock w hissuer hwait hskip, State.case_passOver]
    exact ⟨rfl, rfl, rfl, rfl⟩
end

section
/-! PROOF. Words of one long move to the division triggers (Table 03-2, R57, R58): what their issue answers, the signed and
unsigned quotients and remainders, and the settling of the division's edge cases. -/

namespace Sys2Proof.Machine

/-! ### Issuing a division (R58) -/

/-- A word whose trigger waits is held in the state of arrivals. -/
theorem issueMove_wait {s : State} {n k sock : Nat} {v : Word} {u : Unit_} {kind : WaitKind} {reqs : List Req}
    (h : s.ready n k = true) (hs : sock < 4096) (hu : sockOf sock = some (.trig u))
    (hc : isControl sock = false ∨ s.free_ n k = true) (hf : (s.arrivals n k).fire n k 4 sock v = .wait kind reqs) :
    (.next (s.issueMove n sock v) : Out) =
      .next ((s.arrivals n k).hold n k kind (.move (BitVec.ofNat 12 sock) v) reqs) := by
  rw [issueMove_ready h hs hu hc, hf]; rfl

/-- A trigger of the ALU is fired by `trigAlu`. -/
theorem fire_alu {sock : Nat} (hu : sockOf sock = some (.trig .alu)) (s : State) (n k len : Nat) (v : Word) :
    s.fire n k len sock v = trigAlu s n k sock v := by
  simp [State.fire, trigUnit, hu]

section
variable {s : State} {n k sock : Nat} {v r : Word} (h : s.ready n k = true) (hs : sock < 4096)
  (hu : sockOf sock = some (.trig .alu)) (hc : isControl sock = false)
  (ht : trigAlu (s.arrivals n k) n k sock v = (s.arrivals n k).divide n k r)
include h hs hu hc ht

/-- A division finds the divider free: it takes it for 20 cycles, and its result is due after 20 issue cycles. -/
theorem issueMove_divide_free (hfree : ((s.arrivals n k).core n).divLeft = 0) :
    (.next (s.issueMove n sock v) : Out) = s.issues n k sock v
      (((s.arrivals n k).onCore n fun c => { c with divLeft := 20 }).onCase n k fun c => c.addPend .aluDres 20 r) :=
  issueMove_done h hs hu (.inl hc) (by rw [fire_alu hu, ht, State.divide, if_neg (by omega)])

/-- A division finds the divider occupied: its word waits. -/
theorem issueMove_divide_busy (hbusy : 0 < ((s.arrivals n k).core n).divLeft) :
    (.next (s.issueMove n sock v) : Out) =
      .next ((s.arrivals n k).hold n k .busy (.move (BitVec.ofNat 12 sock) v) []) :=
  issueMove_wait h hs hu (.inl hc) (by rw [fire_alu hu, ht, State.divide, if_pos hbusy])

end

/-! ### Quotients and remainders (R57, Table 03-2) -/

/-- By zero: quotients of all ones, and o1 as the remainder. -/
theorem divS_zero (a : Word) : divS a 0 = 0xFFFFFFFFFFFFFFFF := rfl
theorem divU_zero (a : Word) : divU a 0 = 0xFFFFFFFFFFFFFFFF := rfl
theorem remS_zero (a : Word) : remS a 0 = a := rfl
theorem remU_zero (a : Word) : remU a 0 = a := rfl

/-- The signed quotient is truncated toward zero, −2⁶³ ÷ −1 among the rest. -/
theorem divS_eq_sdiv (a : Word) {v : Word} (hv : v ≠ 0) : divS a v = a.sdiv v := by
  rw [divS, if_neg (by simpa using hv)]
  exact BitVec.eq_of_toInt_eq (by rw [BitVec.toInt_ofInt, BitVec.toInt_sdiv])

theorem divU_eq_udiv (a : Word) {v : Word} (hv : v ≠ 0) : divU a v = a / v := by
  rw [divU, if_neg (by simpa using hv), BitVec.udiv_def]

/-- The signed remainder has the sign of o1. -/
theorem remS_eq_srem (a : Word) {v : Word} (hv : v ≠ 0) : remS a v = a.srem v := by
  rw [remS, if_neg (by simpa using hv), ← BitVec.toInt_srem, BitVec.ofInt_toInt]

theorem remU_eq_umod (a : Word) {v : Word} (hv : v ≠ 0) : remU a v = a % v := by
  rw [remU, if_neg (by simpa using hv), BitVec.umod_def]

/-- R57: −2⁶³ ÷ −1 gives −2⁶³ and remainder 0. -/
theorem divS_overflow : divS 0x8000000000000000 0xFFFFFFFFFFFFFFFF = 0x8000000000000000 := by decide
theorem remS_overflow : remS 0x8000000000000000 0xFFFFFFFFFFFFFFFF = 0 := by decide

end Sys2Proof.Machine

open Sys2Proof Sys2Proof.Machine

/-- Settles O12: with the divider free each division puts its quotient or remainder, whose edge cases and sign rules are
the lemmas on `divS`, `divU`, `remS` and `remU`; with the divider occupied it waits. -/
theorem divisionEdges : Obligations.DivisionEdges := by
  refine ⟨?edges, ?rows⟩
  case edges =>
    intro core v s k h n b a put hfree
    have div : exec (.aluDiv core v) s = put 0x48 (divS a v) := issueMove_divide_free h (by decide) rfl rfl rfl hfree
    have divu : exec (.aluDivu core v) s = put 0x49 (divU a v) := issueMove_divide_free h (by decide) rfl rfl rfl hfree
    have rem : exec (.aluRem core v) s = put 0x4A (remS a v) := issueMove_divide_free h (by decide) rfl rfl rfl hfree
    have remu : exec (.aluRemu core v) s = put 0x4B (remU a v) := issueMove_divide_free h (by decide) rfl rfl rfl hfree
    refine ⟨⟨⟨_, div⟩, ⟨_, divu⟩, ⟨_, rem⟩, ⟨_, remu⟩⟩, fun hzero => ?_, fun hmin hneg => ?_⟩
    · rw [div, divu, rem, remu, hzero, divS_zero, divU_zero, remS_zero, remU_zero]
      exact ⟨rfl, rfl, rfl, rfl⟩
    · rw [div, rem, hmin, hneg, divS_overflow, remS_overflow]
      exact ⟨rfl, rfl⟩
  case rows =>
    intro core v s k h n b a put waits
    refine ⟨fun hfree hv => ?_, fun hbusy => ?_⟩
    · rw [← divS_eq_sdiv a hv, ← divU_eq_udiv a hv, ← remS_eq_srem a hv, ← remU_eq_umod a hv]
      exact ⟨issueMove_divide_free h (by decide) rfl rfl rfl hfree, issueMove_divide_free h (by decide) rfl rfl rfl hfree,
        issueMove_divide_free h (by decide) rfl rfl rfl hfree, issueMove_divide_free h (by decide) rfl rfl rfl hfree⟩
    · exact ⟨issueMove_divide_busy h (by decide) rfl rfl rfl hbusy, issueMove_divide_busy h (by decide) rfl rfl rfl hbusy,
        issueMove_divide_busy h (by decide) rfl rfl rfl hbusy, issueMove_divide_busy h (by decide) rfl rfl rfl hbusy⟩
end

section
/-! PROOF. Words of one long move to the BIT triggers whose result goes on bit.res (Table 03-6, R68, R69): the bits of fields,
counts and reversals, and the settling of what each trigger answers. -/

namespace Sys2Proof.Machine

/-! ### Bits of fields and of packed elements -/

/-- A field of a word as a quotient and a remainder. -/
theorem fld_eq_div_mod (w : Word) (lo n : Nat) : fld w lo n = w.toNat / 2 ^ lo % 2 ^ n := by
  rw [fld, bitsOf, Nat.shiftRight_eq_div_pow]

/-- Bits of a field: those of the number from `lo` on, then zeros. -/
theorem testBit_bitsOf (x lo n i : Nat) : (bitsOf x lo n).testBit i = (decide (i < n) && x.testBit (lo + i)) := by
  rw [bitsOf, Nat.testBit_mod_two_pow, Nat.testBit_shiftRight]

/-- A replaced field shows the new value; the bits below and above it stay. -/
theorem testBit_setBitsOf (x lo n v i : Nat) :
    (setBitsOf x lo n v).testBit i = if lo ≤ i ∧ i < lo + n then v.testBit (i - lo) else x.testBit i := by
  have split_top : setBitsOf x lo n v = 2 ^ lo * (2 ^ n * (x >>> (lo + n)) + v % 2 ^ n) + x % 2 ^ lo := by
    simp only [setBitsOf, pow_add]; ring
  rw [split_top, Nat.testBit_two_pow_mul_add _ (Nat.mod_lt _ (Nat.two_pow_pos lo)),
    Nat.testBit_two_pow_mul_add _ (Nat.mod_lt _ (Nat.two_pow_pos n)), Nat.testBit_mod_two_pow, Nat.testBit_mod_two_pow,
    Nat.testBit_shiftRight]
  by_cases below : i < lo
  · rw [if_pos below, if_neg (by omega), decide_eq_true below, Bool.true_and]
  by_cases inside : i - lo < n
  · rw [if_neg below, if_pos inside, if_pos (by omega), decide_eq_true inside, Bool.true_and]
  · rw [if_neg below, if_neg inside, if_neg (by omega), show lo + n + (i - lo - n) = i by omega]

/-- Bit `i` of packed elements of width `w` is bit `i % w` of element `i / w`. -/
theorem testBit_packElems {w : Nat} (hw : 0 < w) (l : List Nat) (i : Nat) :
    (packElems w l).testBit i = (l.getD (i / w) 0).testBit (i % w) := by
  induction l generalizing i with
  | nil => simp [packElems]
  | cons a t ih =>
    rw [packElems, Nat.add_comm, Nat.testBit_two_pow_mul_add _ (Nat.mod_lt _ (Nat.two_pow_pos w))]
    by_cases first : i < w
    · rw [if_pos first, Nat.testBit_mod_two_pow, Nat.div_eq_of_lt first, Nat.mod_eq_of_lt first, decide_eq_true first,
        Bool.true_and, List.getD_cons_zero]
    · rw [if_neg first, ih, Nat.div_eq_sub_div hw (Nat.le_of_not_lt first), List.getD_cons_succ,
        Nat.mod_eq_sub_mod (Nat.le_of_not_lt first)]

/-- Bytes are packed as elements of width 8. -/
theorem leToNat_eq_packElems (l : List Byte) : leToNat l = packElems 8 (l.map BitVec.toNat) := by
  induction l with
  | nil => rfl
  | cons b t ih => rw [leToNat, List.map_cons, packElems, ih, Nat.mod_eq_of_lt b.isLt]; rfl

/-- `natToLe` gives as many bytes as it is asked for. -/
theorem length_natToLe (x n : Nat) : (natToLe x n).length = n := by
  induction n generalizing x with
  | zero => rfl
  | succ n ih => rw [natToLe, List.length_cons, ih]

/-- Byte `j` of a number. -/
theorem getElem?_natToLe (x : Nat) {n j : Nat} (hj : j < n) :
    (natToLe x n)[j]? = some (BitVec.ofNat 8 (x >>> (8 * j))) := by
  induction n generalizing x j with
  | zero => omega
  | succ n ih =>
    cases j with
    | zero => rw [natToLe, List.getElem?_cons_zero]; exact congrArg some (BitVec.eq_of_toNat_eq (by simp))
    | succ j =>
      rw [natToLe, List.getElem?_cons_succ, ih _ (Nat.lt_of_succ_lt_succ hj), show 8 * (j + 1) = 8 + 8 * j by omega,
        Nat.shiftRight_add, Nat.shiftRight_eq_div_pow x 8]

/-- Sign extension of the low `n` bits is that of an n-bit word. -/
theorem sext_eq_signExtend (x n : Nat) : sext x n = (BitVec.ofNat n x).signExtend 64 := by
  have signed : signedOf x n = (BitVec.ofNat n x).toInt := by
    rw [BitVec.toInt_eq_toNat_cond, BitVec.toNat_ofNat, signedOf]
    cases n with
    | zero => simp [Nat.mod_one]
    | succ n =>
      have half : x % 2 ^ (n + 1) < 2 ^ (n + 1 - 1) ↔ 2 * (x % 2 ^ (n + 1)) < 2 ^ (n + 1) := by
        rw [Nat.add_sub_cancel, pow_succ]; omega
      simp only [half]; rfl
  rw [sext, signed, BitVec.signExtend]
  refine BitVec.eq_of_toNat_eq ?_
  rw [BitVec.toNat_ofNat, ofInt, BitVec.toNat_ofInt]
  exact Nat.mod_eq_of_lt (by omega)

/-- Bits of a sign-extended number: its own below `n`, then copies of bit `n - 1`. -/
theorem getLsbD_sext (x : Nat) {n i : Nat} (hn : 0 < n) (hi : i < 64) :
    (sext x n).getLsbD i = x.testBit (if i < n then i else n - 1) := by
  rw [sext_eq_signExtend, BitVec.getLsbD_signExtend, BitVec.msb_eq_getLsbD_last, BitVec.getLsbD_ofNat, BitVec.getLsbD_ofNat,
    decide_eq_true hi, decide_eq_true (Nat.sub_one_lt_of_lt hn), Bool.true_and, Bool.true_and]
  by_cases inside : i < n
  · rw [if_pos inside, if_pos inside, decide_eq_true inside, Bool.true_and]
  · rw [if_neg inside, if_neg inside]

/-- A bit, zero-extended to a word. -/
theorem setWidth_ofBool (b : Bool) : BitVec.setWidth 64 (BitVec.ofBool b) = (if b then 1 else 0 : Word) := by
  cases b <;> rfl

/-! ### Counts of bits (Table 03-6) -/

/-- The count of one bits counts the positions that hold one. -/
theorem popCount_eq_length_filter (x n : Nat) : popCount x n = ((List.range n).filter x.testBit).length := by
  induction n with
  | zero => rfl
  | succ n ih =>
    rw [popCount, ih, List.range_succ, List.filter_append, List.length_append, List.filter_singleton]
    cases x.testBit n <;> rfl

/-- Table 03-6: what popc counts. -/
theorem popCount_word (v : Word) : popCount v.toNat 64 = ((List.range 64).filter v.getLsbD).length :=
  popCount_eq_length_filter _ _

/-- Table 03-6: what par answers. -/
theorem ofNat_popCount_mod_two (v : Word) :
    BitVec.ofNat 64 (popCount v.toNat 64 % 2) = if ((List.range 64).filter v.getLsbD).length % 2 = 1 then 1 else 0 := by
  rw [popCount_word]
  obtain even | odd := Nat.mod_two_eq_zero_or_one ((List.range 64).filter v.getLsbD).length
  · rw [even]; rfl
  · rw [odd]; rfl

/-- A number below 2ⁿ has at most n bits. -/
theorem bitLen_le_of_lt {x n : Nat} (h : x < 2 ^ n) : bitLen x ≤ n := by
  rw [bitLen]
  split
  · exact Nat.zero_le n
  case isFalse hx => exact (Nat.log2_lt hx).mpr h

/-- Every bit from the length on is 0. -/
theorem testBit_of_bitLen_le {x i : Nat} (h : bitLen x ≤ i) : x.testBit i = false := by
  rw [bitLen] at h
  split at h
  case isTrue hx => rw [hx, Nat.zero_testBit]
  case isFalse hx => exact Nat.testBit_lt_two_pow (Nat.lt_of_lt_of_le Nat.lt_log2_self (Nat.pow_le_pow_right (by decide) h))

/-- The highest bit of the length is 1. -/
theorem testBit_bitLen_pred {x : Nat} (h : 0 < bitLen x) : x.testBit (bitLen x - 1) = true := by
  rw [bitLen] at h ⊢
  split at h
  case isTrue => omega
  case isFalse hx => rw [if_neg hx, Nat.add_sub_cancel, Nat.testBit_log2 hx]

/-- Table 03-6: what clz counts: the zero bits above the highest one bit. -/
theorem clz64_spec (v : Word) : clz64 v ≤ 64 ∧ (∀ i, i < clz64 v → v.getMsbD i = false) ∧
    (clz64 v < 64 → v.getMsbD (clz64 v) = true) := by
  have bound : bitLen v.toNat ≤ 64 := bitLen_le_of_lt v.isLt
  refine ⟨Nat.sub_le _ _, fun i hi => ?_, fun hlt => ?_⟩ <;> rw [clz64] at *
  · rw [BitVec.getMsbD_eq_getLsbD, BitVec.getLsbD, testBit_of_bitLen_le (by omega), Bool.and_false]
  · rw [BitVec.getMsbD_eq_getLsbD, BitVec.getLsbD, show 64 - 1 - (64 - bitLen v.toNat) = bitLen v.toNat - 1 by omega,
      testBit_bitLen_pred (by omega), decide_eq_true hlt, Bool.true_and]

/-- What ctz counts from bit `i` on: the zero bits below the lowest one bit. -/
theorem ctzFrom_spec (v : Word) (i m : Nat) (him : i + m = 64) : ctzFrom v i m ≤ 64 ∧
    (∀ j, i ≤ j → j < ctzFrom v i m → v.getLsbD j = false) ∧ (ctzFrom v i m < 64 → v.getLsbD (ctzFrom v i m) = true) := by
  induction m generalizing i with
  | zero =>
    refine ⟨Nat.le_refl 64, fun j hij hj => ?_, fun h => absurd h (Nat.lt_irrefl 64)⟩
    rw [ctzFrom] at hj; omega
  | succ m ih =>
    rw [ctzFrom]
    by_cases one : v.getLsbD i
    · rw [if_pos one]
      exact ⟨by omega, fun j hij hj => by omega, fun _ => one⟩
    · rw [if_neg one]
      obtain ⟨bound, zeros, found⟩ := ih (i + 1) (by omega)
      refine ⟨bound, fun j hij hj => ?_, found⟩
      obtain rfl | above := Nat.eq_or_lt_of_le hij
      · exact Bool.not_eq_true _ ▸ one
      · exact zeros j above hj

/-- Table 03-6: what ctz counts. -/
theorem ctz64_spec (v : Word) : ctzFrom v 0 64 ≤ 64 ∧ (∀ i, i < ctzFrom v 0 64 → v.getLsbD i = false) ∧
    (ctzFrom v 0 64 < 64 → v.getLsbD (ctzFrom v 0 64) = true) := by
  obtain ⟨bound, zeros, found⟩ := ctzFrom_spec v 0 64 rfl
  exact ⟨bound, fun i hi => zeros i (Nat.zero_le i) hi, found⟩

/-! ### Reversals and fields (Table 03-6, R68) -/

/-- Table 03-6: bit.bswap answers byte 7 − j in place of byte j. -/
theorem getLsbD_bswap64 (v : Word) {i : Nat} (hi : i < 64) :
    (bswap64 v).getLsbD i = v.getLsbD (8 * (7 - i / 8) + i % 8) := by
  have byte_lt : i / 8 < (natToLe v.toNat 8).length := by rw [length_natToLe]; omega
  have byte : (natToLe v.toNat 8).reverse[i / 8]? = some (BitVec.ofNat 8 (v.toNat >>> (8 * (7 - i / 8)))) := by
    rw [List.getElem?_reverse byte_lt, length_natToLe, getElem?_natToLe _ (by omega)]
  rw [bswap64, BitVec.getLsbD_ofNat, leToNat_eq_packElems, testBit_packElems (by decide), decide_eq_true hi, Bool.true_and,
    List.getD_eq_getElem?_getD, List.getElem?_map, byte, Option.map_some, Option.getD_some, ← BitVec.getLsbD,
    BitVec.getLsbD_ofNat, Nat.testBit_shiftRight, decide_eq_true (Nat.mod_lt i (by decide)), Bool.true_and]
  rfl

/-- Table 03-6: bit.rev answers bit 63 − i in place of bit i. -/
theorem getLsbD_rev64 (v : Word) {i : Nat} (hi : i < 64) : (rev64 v).getLsbD i = v.getLsbD (63 - i) := by
  rw [rev64, BitVec.getLsbD_ofNat, testBit_packElems (by decide), decide_eq_true hi, Bool.true_and, Nat.div_one, Nat.mod_one,
    List.getD_eq_getElem?_getD, List.getElem?_map, List.getElem?_range hi, Option.map_some, Option.getD_some]
  cases v.getLsbD (63 - i) <;> rfl

/-- Table 03-6, R68: bit.ext shows the field of o1, then zeros or copies of the field's highest bit. -/
theorem getLsbD_bitExtract (a v : Word) {i : Nat} (hi : i < 64) (hlen : 1 ≤ v.toNat / 64 % 128) :
    let lsb := v.toNat % 64
    let m := min (v.toNat / 64 % 128) (64 - lsb)
    (bitExtract a v).getLsbD i = if i < m then a.getLsbD (lsb + i) else v.getLsbD 13 && a.getLsbD (lsb + m - 1) := by
  intro lsb m
  have pos : 0 < m := by omega
  have field : bitExtract a v =
      if v.getLsbD 13 then sext (a.toNat >>> lsb) m else BitVec.ofNat 64 (bitsOf a.toNat lsb m) := by
    rw [bitExtract, fld_eq_div_mod v 6 7]; rfl
  rw [field]
  cases v.getLsbD 13 with
  | false =>
    rw [if_neg (by decide), BitVec.getLsbD_ofNat, testBit_bitsOf, decide_eq_true hi, Bool.true_and, Bool.false_and]
    by_cases inside : i < m
    · rw [if_pos inside, decide_eq_true inside, Bool.true_and]; rfl
    · rw [if_neg inside, decide_eq_false inside, Bool.false_and]
  | true =>
    rw [if_pos rfl, getLsbD_sext _ pos hi, Nat.testBit_shiftRight, Bool.true_and]
    by_cases inside : i < m
    · rw [if_pos inside, if_pos inside]; rfl
    · rw [if_neg inside, if_neg inside, Nat.add_sub_assoc pos]; rfl

/-- Table 03-6, R68: bit.ins puts the low bits of o1 into the field and leaves the rest. -/
theorem getLsbD_bitInsert (r a v : Word) {i : Nat} (hi : i < 64) :
    let lsb := v.toNat % 64
    let m := min (v.toNat / 64 % 128) (64 - lsb)
    (bitInsert r a v).getLsbD i = if lsb ≤ i ∧ i < lsb + m then a.getLsbD (i - lsb) else r.getLsbD i := by
  intro lsb m
  have field : bitInsert r a v = BitVec.ofNat 64 (setBitsOf r.toNat lsb m a.toNat) := by
    rw [bitInsert, fld_eq_div_mod v 6 7]; rfl
  rw [field, BitVec.getLsbD_ofNat, testBit_setBitsOf, decide_eq_true hi, Bool.true_and]
  rfl

end Sys2Proof.Machine

open Sys2Proof Sys2Proof.Machine

/-- Settles O14: each trigger answers its result due on bit.res, and the lemmas on the counts, reversals and fields say what
its bits are. -/
theorem bitResultRows : Obligations.BitResultRows := by
  intro core v s k h hg n a old lsb len m out faults
  have sound := State.groupRead_sound (s := s.arrivals n k) hg
  have badLen : (fld v 6 7 == 0 || decide (fld v 6 7 > 64)) = true ↔ len = 0 ∨ 64 < len := by
    rw [fld_eq_div_mod v 6 7, Bool.or_eq_true, beq_iff_eq, decide_eq_true_eq]; rfl
  refine ⟨?get, ?ld64, ⟨_, ?popc, popCount_word v⟩, ⟨_, ?clz, clz64_spec v⟩, ⟨_, ?ctz, ctz64_spec v⟩,
    ⟨_, ?bswap, fun i hi => getLsbD_bswap64 v hi⟩, ⟨_, ?rev, fun i hi => getLsbD_rev64 v hi⟩,
    ⟨_, ?par, ofNat_popCount_mod_two v⟩, fun hpos hle => ?field, fun hbad => ?bad⟩
  case get =>
    rw [setWidth_ofBool]
    exact issueMove_bitWrite h (by decide) rfl rfl (sound _ _)
  case ld64 => exact issueMove_bitWrite h (by decide) rfl rfl (sound _ _)
  case popc | clz | ctz | bswap | rev | par => exact issueMove_bitWrite h (by decide) rfl rfl rfl
  case field =>
    have goodLen := badLen.not.mpr (by omega : ¬(len = 0 ∨ 64 < len))
    exact ⟨⟨_, issueMove_bitWrite h (by decide) rfl rfl (if_neg goodLen), fun i hi => getLsbD_bitExtract a v hi hpos⟩,
      ⟨_, issueMove_bitWrite h (by decide) rfl rfl (if_neg goodLen), fun i hi => getLsbD_bitInsert old a v hi⟩⟩
  case bad =>
    have raises {sock : Nat} := fire_bit (sock := sock) (s := s.arrivals n k) (n := n) (k := k) (len := 4) (v := v)
    exact ⟨issueMove_fault h (by decide) rfl (.inl rfl) ((raises rfl).trans (if_pos (badLen.mpr hbad))),
      issueMove_fault h (by decide) rfl (.inl rfl) ((raises rfl).trans (if_pos (badLen.mpr hbad)))⟩
end

section
/-! PROOF. A word of one long move to sys.yield (R259): what its trigger does with the task that holds the slot, and the
settling of the slot given up (R262). -/

namespace Sys2Proof.Machine

/-- A trigger of the SYS unit is fired by `trigSys`. -/
theorem fire_sys {sock : Nat} (hu : sockOf sock = some (.trig .sys)) (s : State) (n k len : Nat) (v : Word) :
    s.fire n k len sock v = trigSys s n k sock len v := by
  simp [State.fire, trigUnit, hu]

/-- A core that nothing runs on, with no woken task and no fill under way, selects its next task; another is left as it is. -/
theorem State.kick_eq (s : State) (n : Nat) :
    s.kick n =
      if (s.core n).running = none ∧ (s.core n).woken = [] ∧ (s.core n).taskFill = none then s.selectNext n else s := by
  simp only [State.kick, Bool.and_eq_true, Option.isNone_iff_eq_none, List.isEmpty_iff, and_assoc]

/-! ### The trigger sys.yield (R259) -/

/-- The task `t` that yields: its word counts as its last issue, and it is READY at the tail of the queue. -/
def State.readyAtTail (s : State) (n t : Nat) : State :=
  ((s.issuesNow n t).onTask n t fun x => { x with st := .ready }).onCore n fun c => { c with readyQ := c.readyQ ++ [t] }

section
variable {s : State} {n k t : Nat} (hwho : s.whoIs n k = some t)
include hwho

/-- No other task is READY: sys.yield has no effect. -/
theorem State.sysYield_alone (hqueue : (s.core n).readyQ = []) (hwoken : (s.core n).woken = [])
    (hfill : (s.core n).taskFill = none) : s.sysYield n k = .done s := by
  simp [State.sysYield, hwho, hqueue, hwoken, hfill]

/-- A task is in the ready queue: the one that yields joins the tail and leaves the slot. -/
theorem State.sysYield_queued (hqueue : (s.core n).readyQ ≠ []) :
    s.sysYield n k = .done ((s.readyAtTail n t).leaveSlot n) := by
  simp [State.sysYield, State.readyAtTail, hwho, hqueue]

/-- The only other READY tasks are woken and held, or being filled: the slot is freed for them, and the core selects a task
where none of them takes it. -/
theorem State.sysYield_held (hqueue : (s.core n).readyQ = [])
    (hheld : (s.core n).woken ≠ [] ∨ (s.core n).taskFill ≠ none) :
    s.sysYield n k =
      .done ((((s.readyAtTail n t).onCore n fun c => { c with running := none }).releaseHeld n).kick n) := by
  have notAlone : ¬((s.core n).woken = [] ∧ (s.core n).taskFill = none) := not_and_or.mpr hheld
  simp [State.sysYield, State.readyAtTail, hwho, hqueue, notAlone]

end

/-- A ready word of one move to sys.yield answers what the trigger does in the state of arrivals. -/
theorem issueMove_yield {s s1 : State} {n k : Nat} {v : Word} (h : s.ready n k = true)
    (hyield : (s.arrivals n k).sysYield n k = .done s1) :
    (.next (s.issueMove n 0x497 v) : Out) = s.issues n k 0x497 v s1 :=
  issueMove_done h (by decide) rfl (.inl rfl) ((fire_sys rfl _ _ _ _ _).trans hyield)

end Sys2Proof.Machine

open Sys2Proof Sys2Proof.Machine

/-- Settles O28, by which other task is READY when the word issues: none, one in the queue, or only ones that are woken and
held or being filled. -/
theorem yield : Obligations.Yield := by
  intro core v s k t h _ n b hwho s1
  refine ⟨fun hqueue hwoken hfill => ?alone, fun hqueue => ?queued, fun hqueue hheld => ?held⟩
  case alone => exact issueMove_yield h (State.sysYield_alone hwho hqueue hwoken hfill)
  case queued => exact issueMove_yield h (State.sysYield_queued hwho hqueue)
  case held =>
    intro u
    rw [← State.kick_eq]
    exact issueMove_yield h (State.sysYield_held hwho hqueue hheld)
end

section
/-! PROOF. Functions of the model that never write memory leave it as it was. -/

set_option Elab.async false

namespace Sys2Proof.Machine

/-- A fold of changes that leave memory as it was leaves it as it was. -/
@[simp] theorem foldl_mem {α : Type} {g : State → α → State} (h : ∀ s a, (g s a).mem = s.mem) (l : List α) (s : State) :
    (l.foldl g s).mem = s.mem := by
  induction l generalizing s with
  | nil => rfl
  | cons a l ih => rw [List.foldl_cons, ih, h]

/-- The memory of the first part of an answer. -/
theorem State.mem_of_fst {α : Type} {p : State × α} {t : State} {x : α} (h : p = (t, x)) : t.mem = p.1.mem := by
  rw [h]

@[simp] theorem State.recordCounts_mem (s : State) : s.recordCounts.mem = s.mem := by
  simp only [State.recordCounts]; exact foldl_mem (by simp) _ _
@[simp] theorem State.badHeader_mem (s : State) (unit : Nat) : (s.badHeader unit).mem = s.mem := by
  simp [State.badHeader]
@[simp] theorem State.noteFlit_mem (s : State) (unit : Nat) (f : FlitErr) : (s.noteFlit unit f).mem = s.mem := by
  unfold State.noteFlit; split <;> simp
@[simp] theorem State.metPoison_mem (s : State) : s.metPoison.mem = s.mem := rfl
@[simp] theorem State.mismatch_mem (s : State) (n seg : Nat) : (s.mismatch n seg).mem = s.mem := by
  simp [State.mismatch]
@[simp] theorem State.onTask_mem (s : State) (n t : Nat) (f : Task → Task) : (s.onTask n t f).mem = s.mem := by
  unfold State.onTask; split <;> simp
@[simp] theorem State.onCtx_mem (s : State) (n : Nat) (who : Option Nat) (f : Casement → Casement) : (s.onCtx n who f).mem = s.mem := by
  simp only [State.onCtx]; (repeat' split) <;> simp
@[simp] theorem State.fresh_mem (s : State) : (s.fresh).2.mem = s.mem := rfl
@[simp] theorem State.freeVal_mem (s : State) : (s.freeVal).2.mem = s.mem := rfl
@[simp] theorem State.send_mem (s : State) (src dst : Agent) (op : MemOp) (ret : Ret) (trans : Option (Nat × Nat)) : (s.send src dst op ret trans).mem = s.mem := rfl
@[simp] theorem State.pushAddend_mem (s : State) (a : Addend) : (s.pushAddend a).mem = s.mem := rfl
@[simp] theorem State.scrubRange_mem (s : State) (lo hi : Nat) : (s.scrubRange lo hi).mem = s.mem := by
  simp [State.scrubRange]
@[simp] theorem State.readPa_mem (s : State) (pa len : Nat) (own : Option Nat) : (s.readPa pa len own).1.mem = s.mem := by
  unfold State.readPa; split <;> simp
@[simp] theorem State.keyStore_mem (s : State) (a : Nat) : (s.keyStore a).1.mem = s.mem := by
  simp [State.keyStore]
@[simp] theorem State.readKey_mem (s : State) (pa : Nat) (own : Option Nat) : (s.readKey pa own).1.mem = s.mem := by
  unfold State.readKey; split <;> simp
@[simp] theorem State.scanTile_mem (s : State) (n k j : Nat) (rows : BitVec 16) : (s.scanTile n k j rows).mem = s.mem := by
  simp only [State.scanTile]; (repeat' split) <;> simp
@[simp] theorem State.scanTiles_mem (s : State) (n k : Nat) (js : List Nat) : (s.scanTiles n k js).mem = s.mem := by
  simp [State.scanTiles]
@[simp] theorem State.settle_mem (was : Bool) (s : State) (n : Nat) : (State.settle was s n).mem = s.mem := by
  simp only [State.settle]; (repeat' split) <;> simp
@[simp] theorem State.runTask_mem (s : State) (n t k : Nat) : (s.runTask n t k).mem = s.mem := by
  simp [State.runTask]
@[simp] theorem State.parkRunning_mem (s : State) (n : Nat) : (s.parkRunning n).mem = s.mem := by
  simp only [State.parkRunning]; (repeat' split) <;> simp
@[simp] theorem State.overflowTrap_mem (s : State) (n t : Nat) : (s.overflowTrap n t).mem = s.mem := by
  simp only [State.overflowTrap]
  split
  · rfl
  · split
    · rfl
    · simp only [State.onCase_mem, State.onCore_mem, State.parkRunning_mem]
@[simp] theorem State.startHwFill_mem (s : State) (n t : Nat) : (s.startHwFill n t).mem = s.mem := rfl
@[simp] theorem State.selectFrom_mem (s : State) (n : Nat) (l : List Nat) : (s.selectFrom n l).mem = s.mem := by
  induction l generalizing s with
  | nil => rfl
  | cons t rest ih => simp only [State.selectFrom]; (repeat' split) <;> simp [ih]
@[simp] theorem State.selectNext_mem (s : State) (n : Nat) : (s.selectNext n).mem = s.mem := by
  simp only [State.selectNext]; split <;> simp
@[simp] theorem State.kick_mem (s : State) (n : Nat) : (s.kick n).mem = s.mem := by
  unfold State.kick; split <;> simp
@[simp] theorem State.release_mem (s : State) (n : Nat) (l : List Nat) : (s.release n l).mem = s.mem := by
  cases l with
  | nil => rfl
  | cons t rest => simp only [State.release]; (repeat' split) <;> simp
@[simp] theorem State.wake_mem (s : State) (n : Nat) (ts : List Nat) : (s.wake n ts).mem = s.mem := by
  have woken (l : List Nat) (s : State) : (l.foldl (fun x t => x.onTask n t fun y => { y with st := .ready }) s).mem = s.mem :=
    foldl_mem (by simp) _ _
  simp only [State.wake]; (repeat' split) <;> simp [woken]
@[simp] theorem State.releaseHeld_mem (s : State) (n : Nat) : (s.releaseHeld n).mem = s.mem := by
  simp only [State.releaseHeld]; (repeat' split) <;> simp
@[simp] theorem State.releaseIdle_mem (s : State) (n : Nat) : (s.releaseIdle n).mem = s.mem := by
  unfold State.releaseIdle; split <;> simp
@[simp] theorem State.leaveSlot_mem (s : State) (n : Nat) : (s.leaveSlot n).mem = s.mem := by
  simp [State.leaveSlot]
@[simp] theorem State.setEvent_mem (s : State) (n t b : Nat) : (s.setEvent n t b).mem = s.mem := by
  simp only [State.setEvent]; (repeat' split) <;> simp
@[simp] theorem State.setEventAll_mem (s : State) (n b : Nat) : (s.setEventAll n b).mem = s.mem := by
  simp [State.setEventAll]
@[simp] theorem State.remoteBit_mem (s : State) (n t b : Nat) (v : Bool) : (s.remoteBit n t b v).mem = s.mem := by
  simp only [State.remoteBit]; (repeat' split) <;> simp
@[simp] theorem State.lockup_mem (s : State) (n : Nat) (cause : BitVec 4) : (s.lockup n cause).mem = s.mem := by
  unfold State.lockup; split <;> simp
@[simp] theorem State.stopTask_mem (s : State) (n k : Nat) (cls : BitVec 8) (va : Word) : (s.stopTask n k cls va).mem = s.mem := by
  simp only [State.stopTask]; (repeat' split) <;> simp
@[simp] theorem State.raise_mem (s : State) (n k : Nat) (f : Flt) (async : Bool) : (s.raise n k f async).mem = s.mem := by
  simp only [State.raise]; (repeat' split) <;> simp
@[simp] theorem State.leaf3_mem (s : State) (tag ia e : Nat) (ents : List Nat) : (s.leaf3 tag ia e ents).1.mem = s.mem := by
  simp only [State.leaf3]; (repeat' split) <;> simp
@[simp] theorem State.fillTlbs_mem (s : State) (n : Nat) (e : TlbEntry) : (s.fillTlbs n e).mem = s.mem := rfl
@[simp] theorem State.touchTlb_mem (s : State) (n tag ia : Nat) : (s.touchTlb n tag ia).mem = s.mem := by
  simp only [State.touchTlb]; (repeat' split) <;> simp
@[simp] theorem State.putWalk_mem (s : State) (cl : Nat) (j : WalkJob) : (s.putWalk cl j).mem = s.mem := rfl
@[simp] theorem State.walkAsk_mem (s : State) (cl : Nat) (j : WalkJob) : (s.walkAsk cl j).mem = s.mem := by
  unfold State.walkAsk; split <;> simp
@[simp] theorem State.walkBegin_mem (s : State) (cl : Nat) (j : WalkJob) : (s.walkBegin cl j).mem = s.mem := by
  simp [State.walkBegin]
@[simp] theorem State.startWalks_mem (s : State) (cl : Nat) : (s.startWalks cl).mem = s.mem := by
  simp only [State.startWalks]
  exact foldl_mem (fun s a => by split <;> simp) _ _
@[simp] theorem State.askWalk_mem (s : State) (n : Nat) (w : Walk) : (s.askWalk n w).mem = s.mem := by
  simp [State.askWalk]
@[simp] theorem State.xlateNow_mem (s : State) (n : Nat) (use : WalkFor) (c : Casement) (va : Nat) (acc : Acc) (device kyu : Bool) : (s.xlateNow n use c va acc device kyu).1.mem = s.mem := by
  simp only [State.xlateNow]; (repeat' split) <;> simp
@[simp] theorem State.request_mem (s : State) (src pa : Nat) (m : Msg) (ret : Ret) (trans : Option (Nat × Nat)) : (s.request src pa m ret trans).1.mem = s.mem := by
  simp only [State.request]; (repeat' split) <;> simp
@[simp] theorem State.reach_mem (s : State) (n pa : Nat) (m : Msg) (ret : Ret) (trans : Option (Nat × Nat)) : (s.reach n pa m ret trans).1.mem = s.mem := by
  unfold State.reach; split <;> simp
@[simp] theorem State.respond_mem (s : State) (k : Nat) (q : Msg) (st : RStat) (data : List Byte) (getr : Bool) (mask : Nat) : (s.respond k q st data getr mask).mem = s.mem := by
  simp only [State.respond]; (repeat' split) <;> simp
@[simp] theorem State.hrsp_mem (s : State) (k : Nat) (q : Msg) (st : RStat) (data : List Byte) : (s.hrsp k q st data).mem = s.mem := by
  unfold State.hrsp; split <;> simp
@[simp] theorem State.countPar_mem (s : State) (n : Nat) : (s.countPar n).mem = s.mem := rfl
@[simp] theorem State.wbParity_mem (s : State) (n : Nat) (l : Line) : (s.wbParity n l).1.mem = s.mem := by
  unfold State.wbParity; split <;> simp
@[simp] theorem State.reportTag_mem (s : State) (n : Nat) : (s.reportTag n).mem = s.mem := by
  simp [State.reportTag]
@[simp] theorem State.tagScan_mem (s : State) (n : Nat) (ic : Bool) (line : Nat) : (s.tagScan n ic line).mem = s.mem := by
  simp [State.tagScan]
@[simp] theorem State.evictLine_mem (s : State) (n : Nat) (l : Line) : (s.evictLine n l).mem = s.mem := by
  simp only [State.evictLine]; (repeat' split) <;> simp
@[simp] theorem State.startFill_mem (s : State) (n : Nat) (ic : Bool) (line : Nat) (job : BitVec 12) (trans : Option (Nat × Nat)) : (s.startFill n ic line job trans).1.mem = s.mem := by
  simp only [State.startFill]
  split
  · simp
  · split <;> split <;> try simp
    all_goals split <;> next h => simp [State.mem_of_fst h]
@[simp] theorem State.wantLine_mem (s : State) (n : Nat) (ic : Bool) (line : Nat) (job : BitVec 12) (trans : Option (Nat × Nat)) : (s.wantLine n ic line job trans).1.mem = s.mem := by
  simp only [State.wantLine]; (repeat' split) <;> simp
@[simp] theorem State.countWb_mem (s : State) (n : Nat) : (s.countWb n).mem = s.mem := rfl
@[simp] theorem State.failStore_mem (s : State) (n : Nat) (e : SbEntry) : (s.failStore n e).mem = s.mem := by
  unfold State.failStore; split <;> simp
@[simp] theorem State.failBuffered_mem (s : State) (n : Nat) (e : SbEntry) : (s.failBuffered n e).mem = s.mem := by
  unfold State.failBuffered; split <;> simp
@[simp] theorem State.entryDone_mem (s : State) (n eid : Nat) (st : RStat) : (s.entryDone n eid st).mem = s.mem := by
  simp only [State.entryDone]; (repeat' split) <;> simp
@[simp] theorem State.evictDone_mem (s : State) (n line : Nat) (st : RStat) : (s.evictDone n line st).mem = s.mem := by
  simp only [State.evictDone]; (repeat' split) <;> simp
@[simp] theorem State.writeLine_mem (s : State) (n key : Nat) (l : Line) (data : BitVec 512) (mask : BitVec 64) : (s.writeLine n key l data mask).mem = s.mem := rfl
@[simp] theorem State.parityDrop_mem (s : State) (n : Nat) (key : Nat) (l : Line) : (s.parityDrop n key l).mem = s.mem := by
  simp [State.parityDrop]
@[simp] theorem State.markLeaving_mem (s : State) (n eid k : Nat) (f : Option RStat) : (s.markLeaving n eid k f).mem = s.mem := rfl
@[simp] theorem State.askedBy_mem (s : State) (n eid : Nat) : (s.askedBy n eid).mem = s.mem := rfl
@[simp] theorem State.noteEntry_mem (s : State) (n : Nat) (e : SbEntry) : (s.noteEntry n e).mem = s.mem := by
  unfold State.noteEntry; split <;> simp
@[simp] theorem State.mapCtx_mem (s : State) (n : Nat) (f : Casement → Casement) : (s.mapCtx n f).mem = s.mem := rfl
@[simp] theorem State.wakeLoads_mem (s : State) (n line : Nat) (d : BitVec 512) (st : RStat) : (s.wakeLoads n line d st).mem = s.mem := rfl
@[simp] theorem State.failAsked_mem (s : State) (n line : Nat) (st : RStat) : (s.failAsked n line st).mem = s.mem := by
  simp [State.failAsked]
@[simp] theorem State.endFill_mem (s : State) (n i : Nat) : (s.endFill n i).mem = s.mem := by
  have near_or_come (t : State) (st : RStat) (d : List Byte) {c : Bool} {line : Nat}
      {o : Option (Bool × Nat × RStat × List Byte)} {f : Core → Core}
      (h : (if c then some (s.readPa line 64 (some n)) else match o with
        | none => none
        | some (_, _, st, d) => some (s.onCore n f, st, d)) = some (t, st, d)) : t.mem = s.mem := by
    split at h
    · have read := s.readPa_mem line 64 (some n)
      rw [Option.some.inj h] at read
      exact read
    · split at h
      · cases h
      · cases h; rfl
  simp only [State.endFill]
  split
  · rfl
  · split
    · rfl
    · split
      · rfl
      next h => (repeat' split) <;> simp [near_or_come _ _ _ h]
@[simp] theorem State.aheadWant_mem (s : State) (n : Nat) (ic : Bool) (line : Nat) (job : BitVec 12) (trans : Option (Nat × Nat)) : (s.aheadWant n ic line job trans).mem = s.mem := by
  simp only [State.aheadWant]; (repeat' split) <;> simp
@[simp] theorem State.prefetchLine_mem (s : State) (n : Nat) (c : Casement) (va : Nat) : (s.prefetchLine n c va).mem = s.mem := by
  simp only [State.prefetchLine]
  split
  case _ h => simp [State.mem_of_fst h]
  case _ h => split <;> simp [State.mem_of_fst h]
  case _ => rfl
@[simp] theorem State.walkGot_mem (s : State) (cl id : Nat) (st : RStat) (bs : List Byte) : (s.walkGot cl id st bs).mem = s.mem := by
  simp only [State.walkGot]; (repeat' split) <;> simp
@[simp] theorem State.walkFills_mem (s : State) (e : TlbEntry) (p : Nat × Nat) (m : Nat) : (s.walkFills e p m).mem = s.mem := by
  simp only [State.walkFills]
  rw [foldl_mem fun s w => by split <;> simp]
  split <;> simp
@[simp] theorem State.walkFails_mem (s : State) (f : BitVec 8 × Nat × Bool) (p : Nat × Nat) (m : Nat) : (s.walkFails f p m).mem = s.mem := rfl
@[simp] theorem State.endWalk_mem (s : State) (n i : Nat) : (s.endWalk n i).mem = s.mem := by
  simp only [State.endWalk]
  split
  · rfl
  · split
    · split
      · rfl
      · split
        · simp
        · rw [State.startWalks_mem]; exact foldl_mem (fun _ _ => by rfl) _ _
    · rfl
@[simp] theorem State.discardLoad_mem (s : State) (n pid : Nat) : (s.discardLoad n pid).mem = s.mem := rfl
@[simp] theorem State.arriveLoad_mem (s : State) (n : Nat) (who : Option Nat) (pid : Nat) (st : RStat) (bs : List Byte) : (s.arriveLoad n who pid st bs).mem = s.mem := by
  simp [State.arriveLoad]
@[simp] theorem State.arriveKey_mem (s : State) (n : Nat) (who : Option Nat) (pid : Nat) (st : RStat) (bs : List Byte) : (s.arriveKey n who pid st bs).mem = s.mem := by
  simp [State.arriveKey]
@[simp] theorem State.sendAddend_mem (s : State) (src : Nat) (job : BitVec 12) (a : Addend) (trans : Option (Nat × Nat)) : (s.sendAddend src job a trans).1.mem = s.mem := by
  unfold State.sendAddend; split <;> simp
@[simp] theorem State.mapQueues_mem (s : State) (n : Nat) (f : XQueue → XQueue) : (s.mapQueues n f).mem = s.mem := rfl
@[simp] theorem State.onItem_mem (s : State) (n id : Nat) (f : XItem → XItem) : (s.onItem n id f).mem = s.mem := rfl
@[simp] theorem State.xmuPart_mem (s : State) (n id off len : Nat) (st : RStat) : (s.xmuPart n id off len st).mem = s.mem := rfl
@[simp] theorem State.xmuAddend_mem (s : State) (n : Nat) (i : XItem) (job : BitVec 12) (off pa : Nat) (v : Word) (bad : Bool) (trans : Option (Nat × Nat)) : (s.xmuAddend n i job off pa v bad trans).mem = s.mem := by
  simp only [State.xmuAddend]
  split <;> next h => simp [State.mem_of_fst h]
@[simp] theorem State.xmuPiece_mem (s : State) (n : Nat) (o : XOwner) (i : XItem) : (s.xmuPiece n o i).1.mem = s.mem := by
  simp only [State.xmuPiece]
  split
  · split
    · next h => simp [State.mem_of_fst h]
    · next h => simp [State.mem_of_fst h]
    · next h => split <;> next g => simp [State.mem_of_fst g, State.mem_of_fst h]
  · split <;> next h => simp [State.mem_of_fst h]
@[simp] theorem State.xmuEnd_mem (s : State) (n id : Nat) (code : BitVec 8) (bytes : Nat) (unread : Bool) : (s.xmuEnd n id code bytes unread).mem = s.mem := rfl
@[simp] theorem State.xmuSettle_mem (s : State) (n id : Nat) : (s.xmuSettle n id).mem = s.mem := by
  simp only [State.xmuSettle]; (repeat' split) <;> simp
@[simp] theorem State.xmuWords_mem (s : State) (n id : Nat) (st : RStat) (bs : List Byte) : (s.xmuWords n id st bs).mem = s.mem := by
  unfold State.xmuWords; split <;> simp
@[simp] theorem State.applySignal_mem (s : State) (k : Nat) (m : Msg) : (s.applySignal k m).mem = s.mem := by
  simp only [State.applySignal]; (repeat' split) <;> simp
@[simp] theorem State.inboundNew_mem (s : State) (k : Nat) (m : Msg) (left : Nat) : (s.inboundNew k m left).2.mem = s.mem := rfl
@[simp] theorem State.takePut_mem (s : State) (k : Nat) (m : Msg) : (s.takePut k m).mem = s.mem := by
  simp only [State.takePut]
  split
  · simp
  · exact foldl_mem (fun _ _ => by rfl) _ _
@[simp] theorem State.takeGet_mem (s : State) (k : Nat) (m : Msg) : (s.takeGet k m).mem = s.mem := by
  simp only [State.takeGet]
  split
  · simp
  · exact foldl_mem (fun _ _ => by rfl) _ _
@[simp] theorem State.takeAccp_mem (s : State) (k : Nat) (m : Msg) : (s.takeAccp k m).mem = s.mem := by
  simp only [State.takeAccp]
  split
  · simp
  · rw [foldl_mem (by simp)]; simp
@[simp] theorem State.takeVoid_mem (s : State) (k : Nat) (m : Msg) : (s.takeVoid k m).mem = s.mem := by
  unfold State.takeVoid; split <;> simp
@[simp] theorem State.handOver_mem (s : State) (k : Nat) (m : Msg) : (s.handOver k m).mem = s.mem := by
  unfold State.handOver; split <;> simp
@[simp] theorem State.handOn_mem (s : State) (k : Nat) (l keep : List Msg) : (s.handOn k l keep).mem = s.mem := by
  induction l generalizing s keep with
  | nil => rfl
  | cons m t ih => simp only [State.handOn]; split <;> simp [ih]
@[simp] theorem State.releaseSignals_mem (s : State) (k : Nat) : (s.releaseSignals k).mem = s.mem := by
  simp only [State.releaseSignals]; split <;> simp
@[simp] theorem State.inboundDone_mem (s : State) (k id off : Nat) (st : RStat) (bs : List Byte) : (s.inboundDone k id off st bs).mem = s.mem := by
  simp only [State.inboundDone]; (repeat' split) <;> simp
@[simp] theorem State.writeSock_mem (s : State) (n k sock : Nat) (v : Word) : (s.writeSock n k sock v).mem = s.mem := by
  simp only [State.writeSock]; (repeat' split) <;> simp
@[simp] theorem State.writeAll_mem (s : State) (n k : Nat) (l : List (Nat × Word)) : (s.writeAll n k l).mem = s.mem := by
  induction l generalizing s with
  | nil => rfl
  | cons a t ih => simp [State.writeAll, ih]
@[simp] theorem State.tcmdArrive_mem (s : State) (n : Nat) (w : Word) (fromKeeper : Bool) (ret : Ret) : (s.tcmdArrive n w fromKeeper ret).1.mem = s.mem := by
  simp only [State.tcmdArrive]; (repeat' split) <;> simp
@[simp] theorem State.serialise_mem (s : State) (n k : Nat) : (s.serialise n k).mem = s.mem := rfl
@[simp] theorem State.queueTlbi_mem (s : State) (n : Nat) (who : Option Nat) (v : Word) : (s.queueTlbi n who v).mem = s.mem := by
  simp only [State.queueTlbi]; (repeat' split) <;> simp
@[simp] theorem State.barrierDone_mem (s : State) (n num : Nat) : (s.barrierDone n num).mem = s.mem := rfl
@[simp] theorem State.tlbiSweep_mem (s : State) (n : Nat) : (s.tlbiSweep n).mem = s.mem := by
  exact State.tlbiSweep_keeps (·.mem) (fun _ _ _ => rfl) s n
@[simp] theorem State.walkAgain_mem (s : State) (cl : Nat) (e : Tlbi) : (s.walkAgain cl e).mem = s.mem := by
  simp [State.walkAgain]
@[simp] theorem State.tlbiRun_mem (s : State) (n : Nat) : (s.tlbiRun n).mem = s.mem := by
  simp only [State.tlbiRun]
  split
  · rfl
  · split <;> simp <;> exact foldl_mem (fun s a => by split <;> simp) _ _
@[simp] theorem State.cleanLine_mem (s : State) (n k key : Nat) (l : Line) (va : Word) (trans : Option (Nat × Nat)) : (s.cleanLine n k key l va trans).1.mem = s.mem := by
  simp only [State.cleanLine]; (repeat' split) <;> simp
@[simp] theorem State.adoptEvict_mem (s : State) (n k line : Nat) (va : Word) (trans : Option (Nat × Nat)) : (s.adoptEvict n k line va trans).mem = s.mem := by
  unfold State.adoptEvict; split <;> simp
@[simp] theorem State.frameMark_mem (s : State) (n k : Nat) : (s.frameMark n k).1.mem = s.mem := by
  unfold State.frameMark; split <;> simp
@[simp] theorem State.keeperEnd_mem (s : State) (n : Nat) : (s.keeperEnd n).mem = s.mem := by
  simp only [State.keeperEnd]; (repeat' split) <;> simp
@[simp] theorem State.issuesNow_mem (s : State) (n t : Nat) : (s.issuesNow n t).mem = s.mem := by
  simp [State.issuesNow]
@[simp] theorem State.dfmRead_mem (s : State) (n : Nat) (y : Bool) (pa : Nat) : (s.dfmRead n y pa).1.mem = s.mem := by
  simp only [State.dfmRead]; (repeat' split) <;> simp
@[simp] theorem State.chain_mem (s : State) (n k : Nat) (vs ms : List Nat) : (s.chain n k vs ms).mem = s.mem := by
  simp only [State.chain]; (repeat' split) <;> simp
@[simp] theorem State.vxuStart_mem (s : State) (n k occ : Nat) (outs : List (Nat × Nat × List Elem)) (mreg : Option (Nat × BitVec 256)) (contrib : Contrib) (checked : Bool) : (s.vxuStart n k occ outs mreg contrib checked).mem = s.mem := by
  simp only [State.vxuStart]; (repeat' split) <;> simp
@[simp] theorem State.vxuMask_mem (s : State) (n k : Nat) (m : VCmd) : (s.vxuMask n k m).mem = s.mem := rfl
@[simp] theorem State.vxuCmp_mem (s : State) (n k : Nat) (m : VCmd) (occ : Nat) : (s.vxuCmp n k m occ).mem = s.mem := rfl
@[simp] theorem State.vxuPair_mem (s : State) (n k : Nat) (m : VCmd) (occ : Nat) : (s.vxuPair n k m occ).mem = s.mem := by
  simp [State.vxuPair]
@[simp] theorem State.vxuPermute_mem (s : State) (n k : Nat) (m : VCmd) (occ : Nat) : (s.vxuPermute n k m occ).mem = s.mem := rfl
@[simp] theorem State.vxuMake_mem (s : State) (n k : Nat) (m : VCmd) (occ : Nat) : (s.vxuMake n k m occ).mem = s.mem := rfl
@[simp] theorem State.vxuCvt_mem (s : State) (n k : Nat) (m : VCmd) (occ : Nat) : (s.vxuCvt n k m occ).mem = s.mem := by
  simp [State.vxuCvt]
@[simp] theorem State.vxuEach_mem (s : State) (n k : Nat) (m : VCmd) (occ : Nat) : (s.vxuEach n k m occ).mem = s.mem := by
  simp [State.vxuEach]
@[simp] theorem State.vxuFly_mem (s : State) (n k : Nat) (m : VCmd) (w : Nat) : (s.vxuFly n k m w).mem = s.mem := by
  simp only [State.vxuFly]; (repeat' split) <;> simp
@[simp] theorem State.vxuComplete_mem (s : State) (n : Nat) : (s.vxuComplete n).mem = s.mem := by
  unfold State.vxuComplete; split <;> simp
@[simp] theorem State.vecReads_mem (s : State) (n op : Nat) (job : BitVec 12) (l : List (Nat × Nat × Option (Nat × Nat))) :
    (s.vecReads n op job l).1.mem = s.mem := by
  induction l generalizing s with
  | nil => rfl
  | cons a t ih =>
    simp only [State.vecReads, ih]
    split
    · simp
    · split <;> next h => simp [State.mem_of_fst h]
@[simp] theorem State.failRuns_mem (s : State) (n k : Nat) (dest : List (Nat × List (Nat × Nat)))
    (got : List (Nat × RStat × List Byte)) : (s.failRuns n k dest got).mem = s.mem := by
  simp only [State.failRuns]
  exact foldl_mem (fun s a => by (repeat' split) <;> simp) _ _
@[simp] theorem State.vecComplete_mem (s : State) (n i : Nat) : (s.vecComplete n i).mem = s.mem := by
  simp only [State.vecComplete]; (repeat' split) <;> simp
@[simp] theorem State.tmuAccept_mem (s : State) (n k ahead cyc : Nat) : (s.tmuAccept n k ahead cyc).mem = s.mem := rfl
@[simp] theorem State.tileReads_mem (s : State) (n op : Nat) (job : BitVec 12) (l : List (Nat × Nat × Nat × Option (Nat × Nat))) :
    (s.tileReads n op job l).1.mem = s.mem := by
  induction l generalizing s with
  | nil => rfl
  | cons a t ih =>
    simp only [State.tileReads, ih]
    split
    · simp
    · split <;> next h => simp [State.mem_of_fst h]
@[simp] theorem State.setRow_mem (s : State) (n k r : Nat) : (s.setRow n k r).mem = s.mem := rfl
@[simp] theorem State.tileComplete_mem (s : State) (n i : Nat) : (s.tileComplete n i).mem = s.mem := by
  simp only [State.tileComplete]; (repeat' split) <;> simp
@[simp] theorem State.arrayFill_mem (s : State) (n : Nat) : (s.arrayFill n).mem = s.mem := by
  simp only [State.arrayFill]; (repeat' split) <;> simp
@[simp] theorem State.arrayStart_mem (s : State) (n : Nat) : (s.arrayStart n).mem = s.mem := rfl
@[simp] theorem State.arrayComplete_mem (s : State) (n : Nat) : (s.arrayComplete n).mem = s.mem := by
  simp only [State.arrayComplete]; (repeat' split) <;> simp
@[simp] theorem State.onQueue_mem (s : State) (n k q : Nat) (f : XQueue → XQueue) : (s.onQueue n k q f).mem = s.mem := by
  unfold State.onQueue; split <;> simp
@[simp] theorem State.xmuRead_mem (s : State) (n : Nat) (o : XOwner) (i : XItem) : (s.xmuRead n o i).mem = s.mem := by
  simp only [State.xmuRead]
  split
  · next h => simp [State.mem_of_fst h]
  · next h => split <;> simp [State.mem_of_fst h]
  · next h =>
    split
    · split <;> simp [State.mem_of_fst h]
    · split <;> next g => (repeat' split) <;> simp [State.mem_of_fst g, State.mem_of_fst h]
@[simp] theorem State.xmuBegin_mem (s : State) (n id : Nat) (f : XItem → XItem) : (s.xmuBegin n id f).mem = s.mem := rfl
/-- A SIGNAL of a descriptor leaves by a request to another block, or over the mesh. -/
theorem State.xmuSig_sends (s : State) (n : Nat) (o : XOwner) (i : XItem) :
    ∃ (t : State) (pa : Nat) (m : Msg) (ret : Ret) (op : MemOp),
      s.xmuSig n o i = (if bitAt i.w.2.2 44 then (match t.request n pa m ret with
        | (s, none) => s
        | (s, some st) => (s.xmuPart n i.id 0 0 st).xmuSettle n i.id)
        else t.send (.xmu n) (.bank (fld i.w.2.2 0 14)) op ret) ∧ t.mem = s.mem :=
  ⟨_, _, _, _, _, rfl, rfl⟩
@[simp] theorem State.xmuSig_mem (s : State) (n : Nat) (o : XOwner) (i : XItem) : (s.xmuSig n o i).mem = s.mem := by
  obtain ⟨t, pa, m, ret, op, h, ht⟩ := s.xmuSig_sends n o i
  rw [h]
  split
  · split <;> next h => simp [State.mem_of_fst h, ht]
  · simp [ht]
@[simp] theorem State.xmuWork_mem (s : State) (n op : Nat) (o : XOwner) (i : XItem) : (s.xmuWork n op o i).mem = s.mem := by
  simp only [State.xmuWork]; (repeat' split) <;> simp
@[simp] theorem State.xmuEvents_mem (s : State) (n : Nat) (o : XOwner) (i : XItem) : (s.xmuEvents n o i).mem = s.mem := by
  simp only [State.xmuEvents]; (repeat' split) <;> simp
@[simp] theorem State.xmuRetire_mem (s : State) (n id : Nat) : (s.xmuRetire n id).mem = s.mem := by
  simp only [State.xmuRetire]; (repeat' split) <;> simp
@[simp] theorem State.commit_mem (s b : State) (n k : Nat) (w : CodeWord) : (s.commit b n k w).mem = s.mem := by
  simp only [State.commit]; (repeat' split) <;> simp
@[simp] theorem State.dropBad_mem (s : State) (n : Nat) (ic : Bool) (line : Nat) : (s.dropBad n ic line).mem = s.mem := by
  simp only [State.dropBad]; (repeat' split) <;> simp
@[simp] theorem State.ask_mem (s : State) (n k : Nat) (l : List Req) : (s.ask n k l).mem = s.mem := by
  induction l generalizing s with
  | nil => rfl
  | cons r t ih =>
    simp only [State.ask, ih]
    split
    · simp
    · simp
    · split <;> next h => simp [State.mem_of_fst h]
@[simp] theorem State.hold_mem (s : State) (n k : Nat) (kind : WaitKind) (w : CodeWord) (reqs : List Req) : (s.hold n k kind w reqs).mem = s.mem := by
  simp only [State.hold]; split <;> simp
@[simp] theorem State.passOver_mem (s : State) (n k len : Nat) : (s.passOver n k len).mem = s.mem := rfl
@[simp] theorem State.clearBusy_mem (s : State) (n : Nat) : (s.clearBusy n).mem = s.mem := rfl
@[simp] theorem State.aheadLine_mem (s : State) (n k va : Nat) : (s.aheadLine n k va).mem = s.mem := by
  simp only [State.aheadLine]
  split
  case _ h => simp [State.mem_of_fst h]
  case _ h => split <;> simp [State.mem_of_fst h]
  case _ => rfl
@[simp] theorem State.startRecord_mem (s : State) (n off : Nat) (keeper : Bool) : (s.startRecord n off keeper).1.mem = s.mem := by
  simp only [State.startRecord]; (repeat' split) <;> simp
@[simp] theorem State.slotBad_mem (s : State) (n : Nat) (x : Task) : (s.slotBad n x).1.mem = s.mem := by
  simp [State.slotBad]
@[simp] theorem State.fillIn_mem (s : State) (n t k : Nat) : (s.fillIn n t k).mem = s.mem := by
  unfold State.fillIn; split <;> simp
@[simp] theorem State.killTask_mem (s : State) (n t : Nat) : (s.killTask n t).mem = s.mem := by
  simp only [State.killTask]; (repeat' split) <;> simp
@[simp] theorem State.endJob_mem (s : State) (job : BitVec 12) : (s.endJob job).mem = s.mem := by
  simp [State.endJob]
@[simp] theorem State.tcmdFill_mem (s : State) (n : Nat) (e : Tcmd) : (s.tcmdFill n e).1.mem = s.mem := by
  simp only [State.tcmdFill]
  (repeat' split) <;> try simp
  all_goals next h => simp [State.mem_of_fst h]
@[simp] theorem State.tcmdKstart_mem (s : State) (n : Nat) (w : Word) : (s.tcmdKstart n w).1.mem = s.mem := by
  simp only [State.tcmdKstart]
  split
  · rfl
  · split <;> next h => simp [State.mem_of_fst h]
@[simp] theorem State.hwFill_mem (s : State) (n : Nat) : (s.hwFill n).mem = s.mem := by
  simp only [State.hwFill]
  (repeat' split) <;> try simp
  all_goals next h => simp [State.mem_of_fst h]
@[simp] theorem State.emptyCaches_mem (s : State) (n : Nat) : (s.emptyCaches n).mem = s.mem := by
  simp [State.emptyCaches]
@[simp] theorem State.reject_mem (s : State) : s.reject.mem = s.mem := rfl
@[simp] theorem State.race_mem (s : State) : s.race.mem = s.mem := rfl
@[simp] theorem State.mailCas_mem (s : State) (n expect new : Nat) : (s.mailCas n expect new).mem = s.mem := by
  simp only [State.mailCas]; (repeat' split) <;> simp
@[simp] theorem State.mailCasWord_mem (s : State) (n : Nat) (v : Word) : (s.mailCasWord n v).mem = s.mem := by
  simp [State.mailCasWord]
@[simp] theorem State.mailWrite_mem (s : State) (n j : Nat) (bs : List Byte) : (s.mailWrite n j bs).mem = s.mem := by
  unfold State.mailWrite; split <;> simp
@[simp] theorem State.ring_mem (s : State) (n : Nat) : (s.ring n).mem = s.mem := rfl
@[simp] theorem State.ringAll_mem (s : State) (r : Nat) : (s.ringAll r).mem = s.mem := by
  exact foldl_mem (fun s a => by split <;> simp) _ _
@[simp] theorem State.mapPorts_mem (s : State) (f : Stack → Stack) : (s.mapPorts f).mem = s.mem := by
  exact foldl_mem (by simp) _ _
@[simp] theorem State.digestStart_mem (s : State) : s.digestStart.mem = s.mem := by
  unfold State.digestStart; split <;> simp
@[simp] theorem State.digestMark_mem (s : State) : s.digestMark.mem = s.mem := by
  simp [State.digestMark]
@[simp] theorem State.schedWrite_mem (s : State) (n o : Nat) (v : Word) : (s.schedWrite n o v).mem = s.mem := by
  simp only [State.schedWrite]; (repeat' split) <;> simp
@[simp] theorem State.keepTcmd_mem (s : State) (n : Nat) (v : Word) : (s.keepTcmd n v).mem = s.mem := rfl
@[simp] theorem State.tcmdStore_mem (s : State) (n : Nat) (v : Word) (fromKeeper : Bool) (ret : Ret) : (s.tcmdStore n v fromKeeper ret).1.mem = s.mem := by
  simp only [State.tcmdStore]
  split
  · simp
  · split <;> next h => simp [State.mem_of_fst h]
@[simp] theorem State.ctlWrite_mem (s : State) (o : Nat) (wide : Bool) (v : Word) (by_ : Requester) (ret : Ret) : (s.ctlWrite o wide v by_ ret).1.mem = s.mem := by
  simp only [State.ctlWrite]; (repeat' split) <;> simp
@[simp] theorem State.setEng_mem (s : State) (k : EngAt) (e : Engine) : (s.setEng k e).mem = s.mem := by
  unfold State.setEng; split <;> simp
@[simp] theorem State.countOrder_mem (s : State) (k : EngAt) (c : Nat) : (s.countOrder k c).mem = s.mem := by
  simp only [State.countOrder]; (repeat' split) <;> simp
@[simp] theorem State.wakeHeld_mem (s : State) (k : EngAt) (el : Nat × Nat) : (s.wakeHeld k el).mem = s.mem := by
  simp [State.wakeHeld]
@[simp] theorem State.noticeStart_mem (s : State) : s.noticeStart.mem = s.mem := by
  simp [State.noticeStart]
@[simp] theorem State.noticeEnd_mem (s : State) : s.noticeEnd.mem = s.mem := by
  simp [State.noticeEnd]
@[simp] theorem State.endNotice_mem (s : State) (k : Nat) : (s.endNotice k).mem = s.mem := by
  simp only [State.endNotice]; (repeat' split) <;> simp
@[simp] theorem State.engineNotice_mem (s : State) (k : EngAt) : (s.engineNotice k).mem = s.mem := by
  cases k <;> simp [State.engineNotice]
@[simp] theorem State.answer_mem (s : State) (p : Packet) (st : RStat) (bs : List Byte) : (s.answer p st bs).mem = s.mem := rfl
@[simp] theorem State.servePort_mem (s : State) (k : Nat) (p : Packet) : (s.servePort k p).mem = s.mem := by
  simp only [State.servePort]; (repeat' split) <;> simp
@[simp] theorem State.serveEscapement_mem (s : State) (p : Packet) : (s.serveEscapement p).mem = s.mem := by
  simp only [State.serveEscapement]
  split
  · simp
  · split <;> next h => simp [State.mem_of_fst h]
  · simp
@[simp] theorem State.retrain_mem (s : State) (k : Nat) : (s.retrain k).mem = s.mem := by
  simp [State.retrain]
@[simp] theorem State.digestErrors_mem (s : State) : s.digestErrors.mem = s.mem := by
  simp [State.digestErrors]
@[simp] theorem State.linkGap_mem (s : State) (k : Nat) : (s.linkGap k).mem = s.mem := by
  simp only [State.linkGap]; (repeat' split) <;> simp
@[simp] theorem State.linkTake_mem (s : State) (k : Nat) (m : Msg) : (s.linkTake k m).mem = s.mem := by
  simp only [State.linkTake]; (repeat' split) <;> simp
@[simp] theorem State.takeRequest_mem (s : State) (k : Nat) (m : Msg) : (s.takeRequest k m).mem = s.mem := by
  simp [State.takeRequest]
@[simp] theorem State.takeHreq_mem (s : State) (k : Nat) (m : Msg) : (s.takeHreq k m).mem = s.mem := by
  simp only [State.takeHreq]
  split
  · simp
  · split
    · simp
    · split <;> next h => simp [State.mem_of_fst h]
@[simp] theorem State.takeHost_mem (s : State) (k : Nat) (m : Msg) : (s.takeHost k m).mem = s.mem := by
  unfold State.takeHost; split <;> simp
@[simp] theorem State.hostOn_mem (s : State) (k : Nat) (l : List Msg) : (s.hostOn k l).mem = s.mem := by
  induction l generalizing s with
  | nil => rfl
  | cons m t ih => simp only [State.hostOn]; split <;> simp [ih, State.atOnce]
@[simp] theorem State.takeSixth_mem (s : State) (k : Nat) (m : Msg) : (s.takeSixth k m).mem = s.mem := by
  simp [State.takeSixth]
@[simp] theorem State.hostResume_mem (s : State) (ret : Ret) : (s.hostResume ret).mem = s.mem := by
  simp only [State.hostResume]; split <;> simp
@[simp] theorem State.takeEsc_mem (s : State) (m : Msg) : (s.takeEsc m).mem = s.mem := by
  simp only [State.takeEsc]; (repeat' split) <;> simp
@[simp] theorem State.logReport_mem (s : State) (r : JobReport) : (s.logReport r).mem = s.mem := rfl
@[simp] theorem State.flashPut_mem (s : State) (u : FlashUser) (ops : List FlashOp) : (s.flashPut u ops).mem = s.mem := rfl
@[simp] theorem State.flushHistory_mem (s : State) : s.flushHistory.mem = s.mem := by
  simp only [State.flushHistory]; (repeat' split) <;> simp
@[simp] theorem State.endDrain_mem (s : State) (timeout : Bool) : (s.endDrain timeout).mem = s.mem := by
  simp only [State.endDrain]; (repeat' split) <;> simp
@[simp] theorem State.forceCore_mem (s : State) (n : Nat) : (s.forceCore n).mem = s.mem := by
  simp only [State.forceCore]
  rw [foldl_mem fun s i => by split <;> simp, foldl_mem fun s v => by simp, foldl_mem fun s e => by simp, State.onCore_mem]
@[simp] theorem State.writeSettings_mem (s : State) (key : Nat) (v : List Byte) : (s.writeSettings key v).mem = s.mem := rfl
@[simp] theorem State.endSettings_mem (s : State) : (s.endSettings).1.mem = s.mem := by
  simp only [State.endSettings]; (repeat' split) <;> simp
@[simp] theorem State.flashApply_mem (s : State) (ok : Bool) : (s.flashApply ok).mem = s.mem := by
  simp only [State.flashApply]; (repeat' split) <;> simp
@[simp] theorem State.boxEnded_mem (s : State) (n : Nat) : (s.boxEnded n).mem = s.mem := by
  simp only [State.boxEnded]
  split
  · split <;> rfl
  · exact foldl_mem (fun s k => by split <;> simp) _ _
@[simp] theorem State.boxError_mem (s : State) (n : Nat) (status : BitVec 8) : (s.boxError n status).mem = s.mem := by
  simp [State.boxError]
@[simp] theorem State.failTaken_mem (s : State) : s.failTaken.mem = s.mem := by
  simp only [State.failTaken]
  exact foldl_mem (fun s k => by split <;> simp) _ _
@[simp] theorem State.recordRestart_mem (s : State) (i : Nat) (eighth : Bool) : (s.recordRestart i eighth).mem = s.mem := by
  unfold State.recordRestart; split <;> simp
@[simp] theorem State.holdStart_mem (s : State) (unit : Nat) : (s.holdStart unit).mem = s.mem := by
  simp [State.holdStart]
@[simp] theorem State.mpRestart_mem (s : State) (i : Nat) (cause : BitVec 2) (late : Bool) : (s.mpRestart i cause late).mem = s.mem := by
  simp only [State.mpRestart, apply_ite State.mem, State.holdStart_mem, State.failTaken_mem, State.recordRestart_mem, State.addLog_mem, State.onMp_mem, ite_self]
@[simp] theorem State.workDone_mem (s : State) (p : Work → Bool) : (s.workDone p).mem = s.mem := rfl
@[simp] theorem State.heldDone_mem (s : State) (opcode : BitVec 16) (n x : Nat) : (s.heldDone opcode n x).mem = s.mem := rfl
@[simp] theorem State.startFetch_mem (s : State) : s.startFetch.mem = s.mem := by
  unfold State.startFetch; split <;> simp
@[simp] theorem State.startReads_mem (s : State) : s.startReads.mem = s.mem := by
  simp only [State.startReads]; (repeat' split) <;> simp
@[simp] theorem State.takeSnapshot_mem (s : State) (x : SensorSample) : (s.takeSnapshot x).mem = s.mem := rfl
@[simp] theorem State.loadTests_mem (s : State) : s.loadTests.mem = s.mem := by
  exact foldl_mem (fun s k => by split <;> simp) _ _
@[simp] theorem State.ageTests_mem (s : State) : s.ageTests.mem = s.mem := rfl
@[simp] theorem State.beatBits_mem (s : State) : s.beatBits.mem = s.mem := by
  exact foldl_mem (fun s k => by split <;> simp) _ _
@[simp] theorem State.boundary_mem (s : State) (x : SensorSample) : (s.boundary x).mem = s.mem := by
  simp [State.boundary]
@[simp] theorem State.casIdle_mem (s : State) (n : Nat) (expect : BitVec 3) : (s.casIdle n expect).mem = s.mem := by
  simp [State.casIdle]
@[simp] theorem State.takeBox_mem (s : State) (n : Nat) : (s.takeBox n).mem = s.mem := rfl
@[simp] theorem State.keepRecord_mem (s : State) (n : Nat) (status : BitVec 8) (reply : List Byte) : (s.keepRecord n status reply).mem = s.mem := by
  unfold State.keepRecord; split <;> simp
@[simp] theorem State.dropUnstarted_mem (s : State) (n : Nat) : (s.dropUnstarted n).mem = s.mem := rfl
@[simp] theorem State.fenceCore_mem (s : State) (n : Nat) : (s.fenceCore n).mem = s.mem := by
  simp [State.fenceCore]
@[simp] theorem State.clusterOff_mem (s : State) (c : Nat) : (s.clusterOff c).1.mem = s.mem := by
  simp only [State.clusterOff]; (repeat' split) <;> simp
@[simp] theorem State.portOff_mem (s : State) (p : Nat) : (s.portOff p).1.mem = s.mem := by
  unfold State.portOff; split <;> simp
@[simp] theorem State.portOn_mem (s : State) (p : Nat) : (s.portOn p).1.mem = s.mem := by
  simp only [State.portOn]; (repeat' split) <;> simp
@[simp] theorem State.linkOn_mem (s : State) (m : Nat) : (s.linkOn m).1.mem = s.mem := by
  simp only [State.linkOn]; (repeat' split) <;> simp
@[simp] theorem State.restartCores_mem (s : State) : s.restartCores.mem = s.mem := by
  exact foldl_mem (fun s k => by simp; split <;> simp) _ _
@[simp] theorem State.toRun_mem (s : State) : s.toRun.mem = s.mem := rfl
@[simp] theorem State.putRoute_mem (s : State) (b : Nat) (v : Word) : (s.putRoute b v).mem = s.mem := by
  unfold State.putRoute; split <;> simp
@[simp] theorem State.loadImages_mem (s : State) (c : BitVec 1) : (s.loadImages c).mem = s.mem := rfl
@[simp] theorem State.commitVerify_mem (s : State) (n : Nat) (t : BitVec 1) : (s.commitVerify n t).1.mem = s.mem := by
  simp only [State.commitVerify]; (repeat' split) <;> simp
@[simp] theorem State.settingsEnd_mem (s : State) : (s.settingsEnd).1.mem = s.mem := by
  unfold State.settingsEnd; split <;> simp
@[simp] theorem State.commitEnd_mem (s : State) (n : Nat) : (s.commitEnd n).1.mem = s.mem := by
  simp only [State.commitEnd]
  split <;> next h => simp [State.mem_of_fst h]
@[simp] theorem State.flashNext_mem (s : State) (n op : Nat) : (s.flashNext n op).1.mem = s.mem := by
  simp only [State.flashNext]; (repeat' split) <;> simp
@[simp] theorem State.flashEnd_mem (s : State) : s.flashEnd.mem = s.mem := by
  simp only [State.flashEnd]
  split
  · rfl
  · split
    · rfl
    · split <;> next h => (repeat' split) <;> simp [State.mem_of_fst h]
@[simp] theorem State.classify_mem (s : State) : s.classify.mem = s.mem := by
  simp only [State.classify]; (repeat' split) <;> simp
@[simp] theorem State.faultEnd_mem (s : State) (op : FlashOp) (ok : Bool) : (s.faultEnd op ok).mem = s.mem := by
  simp only [State.faultEnd]; (repeat' split) <;> simp
@[simp] theorem State.patternEnd_mem (s : State) (ok : Bool) : (s.patternEnd ok).mem = s.mem := by
  simp only [State.patternEnd]; (repeat' split) <;> simp
@[simp] theorem State.readSettings_mem (s : State) : s.readSettings.mem = s.mem := by
  unfold State.readSettings; split <;> simp
@[simp] theorem State.loadSettings_mem (s : State) : s.loadSettings.mem = s.mem := by
  simp only [State.loadSettings]; (repeat' split) <;> simp
@[simp] theorem State.bootFrom_mem (s : State) (c : BitVec 1) (fallback : Bool) (ready : List Bool) : (s.bootFrom c fallback ready).mem = s.mem := rfl
@[simp] theorem State.noteFallback_mem (s : State) : s.noteFallback.mem = s.mem := by
  unfold State.noteFallback; split <;> simp
@[simp] theorem State.startClusters_mem (s : State) : s.startClusters.mem = s.mem := by
  exact foldl_mem (fun s k => by split <;> simp) _ _
@[simp] theorem State.startFailed_mem (s : State) (p : Nat) : (s.startFailed p).mem = s.mem := by
  simp [State.startFailed]
@[simp] theorem State.startPorts_mem (s : State) (ts : List Training) : (s.startPorts ts).mem = s.mem := by
  simp only [State.startPorts]
  exact foldl_mem (fun s k => by (repeat' split) <;> simp) _ _
@[simp] theorem State.startLinks_mem (s : State) (rates : List (Option (BitVec 3))) : (s.startLinks rates).mem = s.mem := by
  simp only [State.startLinks]
  exact foldl_mem (fun s k => by (repeat' split) <;> simp) _ _
@[simp] theorem State.startRoutes_mem (s : State) : s.startRoutes.mem = s.mem := by
  simp only [State.startRoutes]
  exact foldl_mem (fun s k => by split <;> simp) _ _
@[simp] theorem State.bootFail_mem (s : State) : s.bootFail.mem = s.mem := rfl
@[simp] theorem State.startRest_mem (s : State) : s.startRest.mem = s.mem := by
  simp only [State.startRest]
  split
  · rfl
  · split
    · rfl
    · simp only [State.startReads_mem, State.startLinks_mem, State.startRoutes_mem, State.startPorts_mem,
        State.startClusters_mem, State.loadSettings_mem]
@[simp] theorem State.startup_mem (s : State) (env : StartupEnv) : (s.startup env).mem = s.mem := by
  simp only [State.startup]; (repeat' split) <;> simp
@[simp] theorem State.portUp_mem (s : State) (p : Nat) : (s.portUp p).mem = s.mem := rfl
@[simp] theorem State.loadLibrary_mem (s : State) : s.loadLibrary.mem = s.mem := by
  simp only [State.loadLibrary]; (repeat' split) <;> simp
@[simp] theorem State.blowFuse_mem (s : State) : s.blowFuse.mem = s.mem := rfl
@[simp] theorem State.blowFuses_mem (s : State) (n : Nat) : (s.blowFuses n).mem = s.mem := by
  induction n generalizing s with
  | zero => rfl
  | succ n ih => simp [State.blowFuses, ih]
@[simp] theorem State.portTrained_mem (s : State) (p : Nat) (t : Training) : (s.portTrained p t).mem = s.mem := by
  simp only [State.portTrained]; (repeat' split) <;> simp
@[simp] theorem State.i3cWrite_mem (s : State) (n j : Nat) (data : List Byte) : (s.i3cWrite n j data).mem = s.mem := by
  simp only [State.i3cWrite]; (repeat' split) <;> simp
@[simp] theorem State.tick_mem (s : State) : s.tick.mem = s.mem := by
  unfold State.tick; split <;> simp
@[simp] theorem State.withFetchWord_mem (s : State) (nbits w : Nat) : (s.withFetchWord nbits w).mem = s.mem := rfl
@[simp] theorem State.readyAtTail_mem (s : State) (n t : Nat) : (s.readyAtTail n t).mem = s.mem := by
  simp [State.readyAtTail]

end Sys2Proof.Machine

end

section
/-! PROOF. Functions that write memory keep its canonical form. -/

set_option Elab.async false

namespace Sys2Proof.Machine

/-- A fold of changes that keep the canonical form keeps it. -/
theorem foldl_memWf {α : Type} {g : State → α → State} (hg : ∀ s a, memWf s.mem = true → memWf (g s a).mem = true)
    (l : List α) {s : State} (h : memWf s.mem = true) : memWf (l.foldl g s).mem = true := by
  induction l generalizing s with
  | nil => exact h
  | cons a l ih => exact ih (hg s a h)

section
variable {s : State} (h : memWf s.mem = true)
include h

/-! ### Keys, runs and slots -/

@[simp] theorem State.putKey_memWf (a : Nat) (key : Key) (bad : Bool) : memWf (s.putKey a key bad).mem = true := by
  simp only [State.putKey]; split
  · exact State.writeStore_memWf _ _ _ h
  · exact State.writeStore_memWf _ _ _ h

@[simp] theorem State.writeKey_memWf (pa : Nat) (key : Key) (bad : Bool) (own : Option Nat) :
    memWf (s.writeKey pa key bad own).1.mem = true := by
  simp only [State.writeKey]; split <;> simp [h]

@[simp] theorem State.writeKeys_memWf (pa : Nat) (l : List Key) : memWf (s.writeKeys pa l).1.mem = true := by
  induction l generalizing s pa with
  | nil => exact h
  | cons k t ih =>
    have key := State.writeKey_memWf h pa k false none
    simp only [State.writeKeys]
    split <;> next e => rw [e] at key; first | exact ih key _ | exact key

@[simp] theorem State.putGroup_memWf (n off : Nat) (c : Casement) (g : Nat) : memWf (s.putGroup n off c g).mem = true := by
  simp only [State.putGroup]; (repeat' split) <;> exact State.writeStore_memWf _ _ _ h

@[simp] theorem State.putGroups_memWf (n off : Nat) (c : Casement) (gs : List Nat) :
    memWf (s.putGroups n off c gs).mem = true := foldl_memWf (fun _ g hs => State.putGroup_memWf hs n off c g) gs h

@[simp] theorem State.sendRuns_memWf (n line : Nat) (data : BitVec 512) (bad : Bool) (job : BitVec 12) (ret : Ret)
    (trans : Option (Nat × Nat)) (l : List (Nat × Nat)) : memWf (s.sendRuns n line data bad job ret trans l).1.mem = true := by
  induction l generalizing s with
  | nil => exact h
  | cons a t ih =>
    simp only [State.sendRuns]
    refine ih ?_
    split <;> split <;> next e => simp [State.mem_of_fst e, h, State.writePa_memWf]

@[simp] theorem State.sendEvict_memWf (n i : Nat) : memWf (s.sendEvict n i).mem = true := by
  simp only [State.sendEvict]; (repeat' split) <;> simp [h]

@[simp] theorem State.entryToMem_memWf (n : Nat) (e : SbEntry) : memWf (s.entryToMem n e).mem = true := by
  simp only [State.entryToMem]; split <;> simp [h]

@[simp] theorem State.sendDevice_memWf (n : Nat) (e : SbEntry) : memWf (s.sendDevice n e).mem = true := by
  simp only [State.sendDevice]; (repeat' split) <;> simp [h]

@[simp] theorem State.performEntry_memWf (n i : Nat) : memWf (s.performEntry n i).mem = true := by
  simp only [State.performEntry]; (repeat' split) <;> try simp [h]
  all_goals next e => simp [State.mem_of_fst e, h]

/-! ### Descriptors -/

@[simp] theorem State.xmuAddends_memWf (n : Nat) (i : XItem) (job : BitVec 12) (off pa : Nat) (bad : Bool)
    (trans : Option (Nat × Nat)) (fuel : Nat) (bs : List Byte) : memWf (s.xmuAddends n i job off pa bad trans fuel bs).mem = true := by
  induction fuel generalizing s off pa bs with
  | zero => exact h
  | succ fuel ih => simp only [State.xmuAddends]; split <;> simp [ih, h]

@[simp] theorem State.xmuWrite_memWf (n id : Nat) (job : BitVec 12) (off pa : Nat) (bs : List Byte) (bad : Bool)
    (trans : Option (Nat × Nat)) : memWf (s.xmuWrite n id job off pa bs bad trans).mem = true := by
  simp only [State.xmuWrite]
  split
  · simp [h, State.writePa_memWf]
  · split <;> next e => simp [State.mem_of_fst e, h, State.writePa_memWf]

@[simp] theorem State.xmuData_memWf (n id off len dst : Nat) (st : RStat) (bs : List Byte) :
    memWf (s.xmuData n id off len dst st bs).mem = true := by
  simp only [State.xmuData]; (repeat' split) <;> simp [h]

@[simp] theorem State.xmuStep_memWf (n : Nat) (o : XOwner) (i : XItem) (p : XPiece) : memWf (s.xmuStep n o i p).mem = true := by
  simp only [State.xmuStep]
  generalize (if i.op == 3 then p.off + 2 ^ 32 else p.off) = key
  split
  · simp [h]
  · split
    · simp [h]
    · split <;> next e => simp [State.mem_of_fst e, h]

@[simp] theorem State.xmuGo_memWf (n id fuel : Nat) : memWf (s.xmuGo n id fuel).mem = true := by
  induction fuel generalizing s with
  | zero => exact h
  | succ fuel ih =>
    simp only [State.xmuGo]
    split
    · exact h
    · split
      · split <;> next e => (repeat' split) <;> simp [State.mem_of_fst e, ih, h]
      · (repeat' split) <;> simp [ih, h]

@[simp] theorem State.xmuResume_memWf (n : Nat) : memWf (s.xmuResume n).mem = true := by
  refine foldl_memWf (fun s id hs => ?_) _ h
  split <;> simp [hs]

@[simp] theorem State.xmuResumeAll_memWf (cl : Nat) : memWf (s.xmuResumeAll cl).mem = true :=
  foldl_memWf (fun _ n hs => State.xmuResume_memWf hs n) _ h

@[simp] theorem State.xmuArrive_memWf (n id off len : Nat) (dst : Option Nat) (st : RStat) (bs : List Byte) :
    memWf (s.xmuArrive n id off len dst st bs).mem = true := by
  simp only [State.xmuArrive]; (repeat' split) <;> simp [h]

@[simp] theorem State.xmuStart_memWf (n op : Nat) : memWf (s.xmuStart n op).mem = true := by
  simp only [State.xmuStart]; (repeat' split) <;> simp [h]

@[simp] theorem State.xmuStatus_memWf (n : Nat) (o : XOwner) (i : XItem) : memWf (s.xmuStatus n o i).mem = true := by
  simp only [State.xmuStatus]
  split
  · simp [h, State.writePa_memWf]
  · split
    · next e => simp [State.mem_of_fst e, h, State.writePa_memWf]
    · next e => simp [State.mem_of_fst e, h, State.writePa_memWf]
    · next e =>
      split
      · simp [State.mem_of_fst e, h, State.writePa_memWf]
      · split <;> next g => simp [State.mem_of_fst g, State.mem_of_fst e, h, State.writePa_memWf]

@[simp] theorem State.xmuComplete_memWf (n t q : Nat) : memWf (s.xmuComplete n t q).mem = true := by
  simp only [State.xmuComplete]; (repeat' split) <;> simp [h]

/-! ### The outcome of an access -/

@[simp] theorem State.finish_memWf (ret : Ret) (st : RStat) (bs : List Byte) : memWf (s.finish ret st bs).mem = true := by
  cases ret <;> simp only [State.finish] <;> (try split) <;> simp [h]

@[simp] theorem State.comesBack_memWf (ret : Ret) (st : RStat) (bs : List Byte) : memWf (s.comesBack ret st bs).mem = true := by
  simp only [State.comesBack]; split <;> simp [h]

/-! ### Frames, vectors, tiles -/

@[simp] theorem State.frameIo_memWf (n k : Nat) (write : Bool) (trans : Option (Nat × Nat)) (l : List (Nat × List Byte)) :
    memWf (s.frameIo n k write trans l).1.mem = true := by
  induction l generalizing s with
  | nil => exact h
  | cons a t ih =>
    simp only [State.frameIo]
    split <;> next e =>
      simp only [State.mem_of_fst e]
      refine ih ?_
      split
      · split
        · simp [h, State.writePa_memWf]
        · simp [h]
      · split
        · exact h
        · exact h
        · split <;> next e => simp [State.mem_of_fst e, h]

@[simp] theorem State.enterFrame_memWf (n k : Nat) (r : Raised) : memWf (s.enterFrame n k r).mem = true := by
  simp only [State.enterFrame]
  split
  · simp [h]
  split
  · exact h
  split
  · next e => simp [State.mem_of_fst e, h]
  · next e => simp [State.mem_of_fst e, h]
  next e₁ =>
  split
  · next e₂ => simp [State.mem_of_fst e₂, State.mem_of_fst e₁, h]
  · next e₂ => simp [State.mem_of_fst e₂, State.mem_of_fst e₁, h]
  next e₂ =>
  split
  · simp [State.mem_of_fst e₂, State.mem_of_fst e₁, h]
  split
  · next e₃ => simp [State.mem_of_fst e₃, State.mem_of_fst e₂, State.mem_of_fst e₁, h]
  next e₃ =>
  split
  · simp [State.mem_of_fst e₃, State.mem_of_fst e₂, State.mem_of_fst e₁, h]
  split
  · next e₄ => simp [State.mem_of_fst e₄, State.mem_of_fst e₃, State.mem_of_fst e₂, State.mem_of_fst e₁, h]
  next e₄ =>
  split <;> simp [State.mem_of_fst e₄, State.mem_of_fst e₃, State.mem_of_fst e₂, State.mem_of_fst e₁, h]

@[simp] theorem State.vecWrites_memWf (n op : Nat) (job : BitVec 12)
    (l : List (Nat × Nat × List Byte × Bool × Option (Nat × Nat))) : memWf (s.vecWrites n op job l).1.mem = true := by
  induction l generalizing s with
  | nil => exact h
  | cons a t ih =>
    simp only [State.vecWrites]
    refine ih ?_
    split
    · simp [h, State.writePa_memWf]
    · split <;> next e => simp [State.mem_of_fst e, h, State.writePa_memWf]

@[simp] theorem State.tileWrites_memWf (n op : Nat) (job : BitVec 12)
    (l : List (Nat × Nat × List Byte × Bool × Option (Nat × Nat))) : memWf (s.tileWrites n op job l).1.mem = true := by
  induction l generalizing s with
  | nil => exact h
  | cons a t ih =>
    simp only [State.tileWrites]
    refine ih ?_
    split
    · simp [h, State.writePa_memWf]
    · split <;> next e => simp [State.mem_of_fst e, h, State.writePa_memWf]

@[simp] theorem State.tileIssue_memWf (n k : Nat) (c : Casement) (own : Option Nat) (load transposed final : Bool)
    (tile lo hi : Nat) (rows : List TileRow) : memWf (s.tileIssue n k c own load transposed final tile lo hi rows).mem = true := by
  have touched : memWf (rows.foldl (fun s r => r.parts.foldl (fun s (_, _, x) => s.touchTlb n x.tag x.ia) s) s).mem = true :=
    foldl_memWf (fun s r hs => foldl_memWf (fun s x hs => by simp [hs]) _ hs) _ h
  simp only [State.tileIssue, State.onCore_mem, State.onCase_mem]
  generalize rows.foldl _ s = t at touched ⊢
  generalize (t.core n).tileOps.find? _ = begun
  cases begun <;> cases load <;> simp [touched]

/-! ### Scheduler -/

@[simp] theorem State.tcmdDone_memWf (n : Nat) (e : Tcmd) (code : BitVec 8) : memWf (s.tcmdDone n e code).mem = true := by
  simp [State.tcmdDone, h]

@[simp] theorem State.tcmdCreate_memWf (n : Nat) (w : Word) : memWf (s.tcmdCreate n w).1.mem = true := by
  simp only [State.tcmdCreate]
  split
  · exact h
  · split
    · exact h
    · split
      · exact h
      · split
        · next e => simp [State.mem_of_fst e, h]
        · next e => split <;> simp [State.mem_of_fst e, h]

@[simp] theorem State.spillOut_memWf (n t k : Nat) : memWf (s.spillOut n t k).mem = true := by
  simp only [State.spillOut]; split <;> simp [h]

@[simp] theorem State.cleanOut_memWf (n j : Nat) : memWf (s.cleanOut n j).mem = true := by
  simp only [State.cleanOut]; split <;> simp [h]

/-! ### Engines -/

@[simp] theorem State.addendEnds_memWf (a : Addend) (st : RStat) (bs : List Byte) : memWf (s.addendEnds a st bs).mem = true := by
  simp only [State.addendEnds]; split <;> simp [h]

@[simp] theorem State.addendIn_memWf (a : Addend) : memWf (s.addendIn a).mem = true := by
  simp only [State.addendIn]; (repeat' split) <;> simp [h]

@[simp] theorem State.voidIn_memWf (v : Addend) : memWf (s.voidIn v).mem = true := by
  simp only [State.voidIn]; (repeat' split) <;> simp [h]

@[simp] theorem State.applyAddend_memWf (a : Addend) : memWf (s.applyAddend a).1.mem = true := by
  simp only [State.applyAddend]; split <;> simp [h, memWf_memSetAll]

@[simp] theorem State.applyAll_memWf (k : EngAt) (fuel : Nat) (l : List Addend) : memWf (s.applyAll k fuel l).mem = true := by
  induction fuel generalizing s l with
  | zero => simpa [State.applyAll] using h
  | succ fuel ih =>
    cases l with
    | nil => simpa [State.applyAll] using h
    | cons a rest =>
      have applied : memWf (if a.void then (s, RStat.ok, []) else s.applyAddend a).1.mem = true := by split <;> simp [h]
      simp only [State.applyAll]
      generalize (if a.void then (s, RStat.ok, []) else s.applyAddend a) = p at applied ⊢
      have turned : memWf ((p.1.setEng k ((p.1.getEng k).turn (p.1.noticeFor k) a).1).countOrder k
          (b2n ((p.1.getEng k).turn (p.1.noticeFor k) a).2)).mem = true := by simpa using applied
      generalize (p.1.setEng k ((p.1.getEng k).turn (p.1.noticeFor k) a).1).countOrder k _ = t at turned ⊢
      have ended : memWf (if a.void then t else t.addendEnds a p.2.1 p.2.2).mem = true := by split <;> simp [turned]
      generalize (if a.void then t else t.addendEnds a p.2.1 p.2.2) = u at ended ⊢
      split
      · exact ih ended _
      · exact ih (by simpa using ended) _

@[simp] theorem State.engineLine_memWf (k : EngAt) (line : Nat) : memWf (s.engineLine k line).mem = true := by
  simp only [State.engineLine]; split <;> simp [h]

@[simp] theorem State.addendAt_memWf (a : Addend) : memWf (s.addendAt a).mem = true := by
  simp only [State.addendAt]; (repeat' split) <;> simp [h]

/-! ### The mesh and the ports -/

@[simp] theorem State.serveBank_memWf (n : Nat) (p : Packet) : memWf (s.serveBank n p).mem = true := by
  simp only [State.serveBank]
  split <;> (try split) <;> (try simp [h, State.writePa_memWf])
  all_goals next e => simp [State.mem_of_fst e, h, State.writePa_memWf]

@[simp] theorem State.serve_memWf (p : Packet) : memWf (s.serve p).mem = true := by
  simp only [State.serve]; split <;> simp [h]

@[simp] theorem State.deliver_memWf (p : Packet) : memWf (s.deliver p).mem = true := by
  simp only [State.deliver]; (repeat' split) <;> simp [h]

@[simp] theorem State.deliverBack_memWf (r : Response) : memWf (s.deliverBack r).mem = true := by
  simp only [State.deliverBack]; (repeat' split) <;> simp [h]

@[simp] theorem State.portPerform_memWf (q : Packet) : memWf (s.portPerform q).mem = true := by
  simp only [State.portPerform]
  split <;> (try split) <;> (try simp [h, memWf_memSetAll])

@[simp] theorem State.failPort_memWf (k : Nat) : memWf (s.failPort k).mem = true := by
  simp only [State.failPort, State.record_mem, State.addLog_mem, State.noticeEnd_mem]
  refine foldl_memWf (fun s a hs => by split <;> simp [hs]) _ ?_
  exact foldl_memWf (fun s q hs => by exact hs) _ h

/-! ### Links -/

@[simp] theorem State.resetLink_memWf (k : Nat) : memWf (s.resetLink k).mem = true := by
  simp only [State.resetLink]
  split
  · exact h
  · rw [State.addLog_mem]
    refine foldl_memWf (fun s a hs => by simp [hs]) _ ?_
    split <;> simp [h]

@[simp] theorem State.replayFrom_memWf (k : Nat) (seq : BitVec 24) : memWf (s.replayFrom k seq).mem = true := by
  simp only [State.replayFrom]; (repeat' split) <;> simp [h]

theorem State.linkIn_memWf (k ty : Nat) (m : Msg) {f : State → Msg → State}
    (hf : ∀ s m, memWf s.mem = true → memWf (f s m).mem = true) : memWf (s.linkIn k ty m f).mem = true := by
  simp only [State.linkIn]; (repeat' split) <;> simp [h, hf]

@[simp] theorem State.takeResponse_memWf (k : Nat) (m : Msg) (getr : Bool) : memWf (s.takeResponse k m getr).mem = true := by
  simp only [State.takeResponse]; split <;> simp [h]

@[simp] theorem State.assign_memWf (m role split rto rqto : Nat) : memWf (s.assign m role split rto rqto).mem = true := by
  simp only [State.assign]; split <;> simp [h]

@[simp] theorem State.linkOff_memWf (m : Nat) : memWf (s.linkOff m).1.mem = true := by
  simp only [State.linkOff]; split <;> simp [h]

/-! ### Drains and domains -/

@[simp] theorem State.discard_memWf (k : EngAt) : memWf (s.discard k).mem = true := by
  simp only [State.discard]
  exact foldl_memWf (fun s a hs => by split <;> simp [hs]) _ (by simpa using h)

@[simp] theorem State.discardAll_memWf : memWf s.discardAll.mem = true := foldl_memWf (fun _ k hs => State.discard_memWf hs k) _ h

@[simp] theorem State.forceMesh_memWf : memWf s.forceMesh.mem = true := by
  simp only [State.forceMesh]
  refine foldl_memWf (fun s a hs => foldl_memWf (fun s r hs => by simp [hs]) _ (by simpa using hs)) _ ?_
  exact foldl_memWf (fun s r hs => by simp [hs]) _ h

@[simp] theorem State.forceAddends_memWf : memWf s.forceAddends.mem = true := by
  simp only [State.forceAddends]
  refine State.discardAll_memWf (foldl_memWf (fun s a hs => foldl_memWf (fun s r hs => by simp [hs]) _ (by simpa using hs)) _ ?_)
  exact foldl_memWf (fun s r hs => by simp [hs]) _ h

@[simp] theorem State.forceLinks_memWf : memWf s.forceLinks.mem = true := by
  simp only [State.forceLinks]
  exact foldl_memWf (fun s a hs => foldl_memWf (fun s r hs => by simp [hs]) _ (by simpa using hs)) _ h

@[simp] theorem State.forceLoads_memWf (n : Nat) : memWf (s.forceLoads n).mem = true := by
  simp only [State.forceLoads]
  refine foldl_memWf (fun s a hs => foldl_memWf (fun s r hs => by simp [hs]) _ hs) _ ?_
  exact foldl_memWf (fun s a hs => foldl_memWf (fun s r hs => by simp [hs]) _ hs) _ (by simpa using h)

@[simp] theorem State.fenceRelease_memWf (c : Nat) : memWf (s.fenceRelease c).mem = true := by
  simp only [State.fenceRelease]
  exact foldl_memWf (fun s a hs => foldl_memWf (fun s r hs => by split <;> simp [hs]) _ (by simpa using hs)) _ h

@[simp] theorem State.loseCluster_memWf (c : Nat) : memWf (s.loseCluster c).mem = true := memWf_filter _ h

@[simp] theorem State.clusterOn__memWf (c : Nat) : memWf (s.clusterOn_ c).1.mem = true := by
  simp only [State.clusterOn_]; split <;> simp [h]

end
end Sys2Proof.Machine

end

section
/-! PROOF. Every trigger keeps the canonical form of memory. -/

set_option Elab.async false

namespace Sys2Proof.Machine

/-- A trigger's outcome keeps the canonical form of memory: in the state it leaves, and by the change it makes before the word
waits or faults. -/
def Trig.MemWf : Trig → Prop
  | .done s | .stop s => memWf s.mem = true
  | .fault (some g) _ | .pause g _ => ∀ s : State, memWf s.mem = true → memWf (g s).mem = true
  | .fault none _ | .wait _ _ => True

@[simp] theorem Trig.memWf_done (s : State) : (Trig.done s).MemWf ↔ memWf s.mem = true := Iff.rfl
@[simp] theorem Trig.memWf_stop (s : State) : (Trig.stop s).MemWf ↔ memWf s.mem = true := Iff.rfl
@[simp] theorem Trig.memWf_wait (k : WaitKind) (r : List Req) : (Trig.wait k r).MemWf := trivial
@[simp] theorem Trig.memWf_fault_none (f : Flt) : (Trig.fault none f).MemWf := trivial
@[simp] theorem Trig.memWf_fault_some (g : State → State) (f : Flt) :
    (Trig.fault (some g) f).MemWf ↔ ∀ s : State, memWf s.mem = true → memWf (g s).mem = true := Iff.rfl
@[simp] theorem Trig.memWf_pause (g : State → State) (r : List Req) :
    (Trig.pause g r).MemWf ↔ ∀ s : State, memWf s.mem = true → memWf (g s).mem = true := Iff.rfl

theorem Trig.bind_memWf {t : Trig} {f : State → Trig} (ht : t.MemWf) (hf : ∀ s, memWf s.mem = true → (f s).MemWf) :
    (t.bind f).MemWf := by
  cases t with
  | done s => exact hf s ht
  | wait k r => trivial
  | fault g fl => exact ht
  | pause g r => exact ht
  | stop s => exact ht

theorem Trig.after_memWf {t : Trig} {g : State → State} (ht : t.MemWf)
    (hg : ∀ s : State, memWf s.mem = true → memWf (g s).mem = true) : (t.after g).MemWf := by
  cases t with
  | fault k fl =>
    cases k with
    | none => exact hg
    | some k => exact fun s hs => ht _ (hg s hs)
  | done s => exact ht
  | wait k r => trivial
  | pause k r => exact ht
  | stop s => exact ht

theorem Trig.ite_memWf {p : Prop} [Decidable p] {a b : Trig} (ha : a.MemWf) (hb : b.MemWf) :
    (if p then a else b).MemWf := by
  split
  · exact ha
  · exact hb

theorem Trig.done_memWf {t : Trig} {s : State} (e : t = .done s) (h : memWf s.mem = true) : t.MemWf := by
  rw [e]; exact h

theorem State.mismatch_ite_memWf {s : State} (n u : Nat) (p : Prop) [Decidable p] (h : memWf s.mem = true) :
    memWf (if p then s.mismatch n u else s).mem = true := by
  split <;> simp [h]

/-! ### Translations -/

theorem State.xlateWord_memWf {s : State} {n k va : Nat} {acc : Acc} {device kyu : Bool} {t : Trig}
    (e : s.xlateWord n k va acc device kyu = .inr t) : t.MemWf := by
  simp only [State.xlateWord] at e
  split at e
  · cases e
  · cases e; intro b hb; dsimp only; split <;> simp [hb]
  · split at e <;> (cases e; trivial)

theorem State.dfmXlate_memWf {s : State} {n k va lo hi : Nat} {acc : Acc} {t : Trig}
    (e : s.dfmXlate n k va lo hi acc = .inr t) : t.MemWf := by
  simp only [State.dfmXlate] at e
  split at e
  · cases e; trivial
  split at e
  · next e' => cases e; exact State.xlateWord_memWf e'
  split at e
  · split at e
    · split at e
      · cases e; trivial
      · cases e
    · cases e; intro b hb; simpa using hb
  · cases e; intro b hb; simpa using hb

theorem State.kyuXlate_memWf {s : State} {n k : Nat} {acc : Acc} {t : Trig} (e : s.kyuXlate n k acc = .inr t) : t.MemWf := by
  simp only [State.kyuXlate] at e
  split at e
  · cases e; trivial
  split at e
  · cases e; trivial
  split at e
  · next e' => cases e; exact State.xlateWord_memWf e'
  · split at e
    · cases e; trivial
    · cases e

section
variable {s : State} (h : memWf s.mem = true)
include h

/-! ### The LSU -/

@[simp] theorem State.loadCached_memWf (n k va : Nat) (x : Xl) (bytes : Nat) (signed : Bool) (port : Port) (delay : Nat) :
    (s.loadCached n k va x bytes signed port delay).MemWf := by
  unfold State.loadCached
  extract_lets pa line off s1
  split
  split
  next pid s2 e =>
  have h2 : memWf s2.mem = true := by
    have e2 : s2.mem = s1.fresh.2.mem := by rw [e]
    simpa [e2, s1] using h
  extract_lets src p ready miss
  have ready_memWf (t : State) (ht : memWf t.mem = true) (l : BitVec 512) (bad : Bool) : (ready t l bad).MemWf := by
    simpa [ready] using ht
  have miss_memWf (t : State) (ht : memWf t.mem = true) : (miss t).MemWf := by
    simp only [miss]
    split
    · trivial
    · next e => (repeat' split) <;> simp [State.mem_of_fst e, ht]
  clear_value p ready miss
  split
  · exact ready_memWf _ h2 ..
  split
  · exact miss_memWf _ h2
  split
  · split
    · exact miss_memWf _ (by simpa using h2)
    · exact ready_memWf _ (by simpa using h2) ..
  · exact ready_memWf _ h2 ..

@[simp] theorem State.loadDirect_memWf (n k : Nat) (x : Xl) (bytes : Nat) (signed : Bool) (port : Port) (delay : Nat) :
    (s.loadDirect n k x bytes signed port delay).MemWf := by
  simp only [State.loadDirect]
  split
  · trivial
  split
  · simp [h]
  split
  · simp [h]
  · split <;> next e => simp [State.mem_of_fst e, h]

@[simp] theorem State.load_memWf (n k va bytes : Nat) (signed : Bool) (port : Port) (delay : Nat) (device : Bool) :
    (s.load n k va bytes signed port delay device).MemWf := by
  simp only [State.load]
  split
  · trivial
  split
  · trivial
  split
  · next e => exact State.xlateWord_memWf e
  split
  · intro b hb; simpa using hb
  · split <;> simp [h]

@[simp] theorem State.store_memWf (n k va bytes : Nat) (v : Word) (device : Bool) (acc : Acc) :
    (s.store n k va bytes v device acc).MemWf := by
  have fresh (t : State) (ht : memWf t.mem = true) (c : Core) (who : Option Nat) (line : Nat) (cacheable dev : Bool)
      (mask : BitVec 64) (data : BitVec 512) (stream : Stream) (order : Nat) (x : Xl) :
      (State.store.fresh n k va bytes v t c who line cacheable dev mask data stream order
        (fun s => s.onCase n k fun c => { c with stores := c.stores + 1 }) x).MemWf := by
    simp only [State.store.fresh]
    split
    · split <;> next e => simp [State.mem_of_fst e, ht]
    · simp [ht]
  simp only [State.store]
  split
  · trivial
  split
  · trivial
  split
  · next e => exact State.xlateWord_memWf e
  split
  · intro b hb; simpa using hb
  split
  · trivial
  split
  · split
    · simp [h]
    · exact fresh _ (by simpa using h) ..
  · exact fresh _ (by simpa using h) ..

@[simp] theorem State.accum_memWf (n k va af : Nat) (v : Word) : (s.accum n k va af v).MemWf := by
  simp only [State.accum]
  split
  · trivial
  split
  · trivial
  split
  · next e => exact State.xlateWord_memWf e
  · split <;> simp [h]

@[simp] theorem State.cas_memWf (n k va : Nat) (v cmp : Word) : (s.cas n k va v cmp).MemWf := by
  simp only [State.cas]
  split
  · trivial
  split
  · trivial
  split
  · next e => exact State.xlateWord_memWf e
  split
  · trivial
  · split <;> next e => simp [State.mem_of_fst e, h]

@[simp] theorem State.reportAsync_memWf (n k : Nat) : (s.reportAsync n k).MemWf := by
  intro b hb; simpa using hb

@[simp] theorem State.releaseFence_memWf (n k : Nat) : (s.releaseFence n k).MemWf := by
  simp only [State.releaseFence]; (repeat' split) <;> simp [h]

@[simp] theorem State.acquireFence_memWf (n k : Nat) : (s.acquireFence n k).MemWf := by
  simp only [State.acquireFence]; split <;> simp [h]

@[simp] theorem State.prefetch_memWf (n k va : Nat) : (s.prefetch n k va).MemWf := by
  simp [State.prefetch, h]

@[simp] theorem trigLsu_memWf (n k sock : Nat) (v : Word) : (trigLsu s n k sock v).MemWf := by
  unfold trigLsu; split <;> simp [h]

/-! ### The ALU and the BIT unit -/

@[simp] theorem State.aluFlag_memWf (n k : Nat) (r : AluRes) : (s.aluFlag n k r).MemWf := by simp [State.aluFlag, h]
@[simp] theorem State.aluFlagOnly_memWf (n k : Nat) (r : AluRes) : (s.aluFlagOnly n k r).MemWf := by simp [State.aluFlagOnly, h]
@[simp] theorem State.result_memWf (n k : Nat) (p : Port) (d : Nat) (v : Word) : (s.result n k p d v).MemWf := by
  simp [State.result, h]
@[simp] theorem State.divide_memWf (n k : Nat) (v : Word) : (s.divide n k v).MemWf := by
  simp only [State.divide]; split <;> simp [h]
@[simp] theorem State.bitWrite_memWf (n k : Nat) (f : Casement → Casement) : (s.bitWrite n k f).MemWf := by
  simp [State.bitWrite, h]

omit h in
theorem State.groupRead_memWf (n k g : Nat) {t : Trig} (ht : t.MemWf) : (s.groupRead n k g t).MemWf := by
  simp only [State.groupRead]; split
  · trivial
  · exact ht

@[simp] theorem trigAlu_memWf (n k sock : Nat) (v : Word) : (trigAlu s n k sock v).MemWf := by
  simp only [trigAlu]; split <;> simp [h]

@[simp] theorem trigBit_memWf (n k sock : Nat) (v : Word) : (trigBit s n k sock v).MemWf := by
  unfold trigBit
  extract_lets c a b g badLen
  split <;> (try split) <;> simp [h, State.groupRead_memWf]

/-! ### The BRU -/

@[simp] theorem State.transfer_memWf (n k : Nat) (target : BitVec 48) (call : Bool) : (s.transfer n k target call).MemWf := by
  simp [State.transfer, h]

@[simp] theorem State.callTo_memWf (n k : Nat) (target : BitVec 48) : (s.callTo n k target).MemWf := by
  simp only [State.callTo]
  split
  · trivial
  split
  · simp [h]
  split
  · trivial
  · exact Trig.bind_memWf (by simp [h]) fun s hs => by simp [hs]

theorem State.refillRead_sound (n k va : Nat) :
    (∀ t : Trig, s.refillRead n k va = .inr t → t.MemWf) ∧
    (∀ t r, s.refillRead n k va = .inl (t, r) → memWf t.mem = true) := by
  unfold State.refillRead
  split
  · simp
  split
  · simp
  split
  · next e => simpa using State.xlateWord_memWf e
  · next x e =>
    extract_lets s1 who line off c
    have h1 : memWf s1.mem = true := by simpa [s1] using h
    clear_value s1 line off
    split
    · split
      split
      · simpa using h1
      next _ _ s2 _ _ _ _ _ _ =>
      have h2 : memWf s2.mem = true := by simpa [s2] using h1
      clear_value s2
      split
      · (repeat' split) <;> simp [h2]
      · split <;> simp [h2]
    split
    · simp
    split
    · split <;> simp [h1]
    · split; next e => simp [State.mem_of_fst e, h1]

@[simp] theorem State.ret_memWf (n k : Nat) : (s.ret n k).MemWf := by
  unfold State.ret
  extract_lets c va
  split
  · split <;> simp [h]
  split
  · trivial
  split
  · next e => exact (State.refillRead_sound h ..).1 _ e
  · next e =>
    split
    · trivial
    extract_lets t
    split
    · trivial
    · simp [(State.refillRead_sound h ..).2 _ _ e]

@[simp] theorem State.repeat__memWf (n k count : Nat) (unint : Bool) : (s.repeat_ n k count unint).MemWf := by
  simp [State.repeat_, h]

@[simp] theorem State.push_memWf (n k : Nat) (v : Word) : (s.push n k v).MemWf :=
  Trig.bind_memWf (by simp [h]) fun s hs => by simp [hs]

@[simp] theorem State.pop_memWf (n k : Nat) : (s.pop n k).MemWf :=
  Trig.bind_memWf (by simp [h]) fun s hs => by simp [hs]

@[simp] theorem trigBru_memWf (n k sock : Nat) (v : Word) : (trigBru s n k sock v).MemWf := by
  simp only [trigBru]; (repeat' split) <;> simp [h]

/-! ### SYS -/

@[simp] theorem State.xwr_memWf (n k : Nat) (v : Word) : (s.xwr n k v).MemWf := by
  unfold State.xwr
  extract_lets c sel put masked
  have put_memWf (f : Casement → Casement) : (put f).MemWf := by exact h
  clear_value sel
  split
  · split
    · trivial
    · exact put_memWf _
  · split
    · split
      · trivial
      · exact put_memWf _
    · split
      · trivial
      · exact put_memWf _
    · split
      · trivial
      · exact put_memWf _
    · split
      · trivial
      split
      · exact put_memWf _
      · trivial
    · exact put_memWf _
    · exact put_memWf _
    · exact put_memWf _
    · trivial

@[simp] theorem State.xrd_memWf (n k : Nat) : (s.xrd n k).MemWf := by
  simp only [State.xrd]; (repeat' split) <;> simp [h]

@[simp] theorem State.tlbi_memWf (n k : Nat) (v : Word) : (s.tlbi n k v).MemWf := by
  simp only [State.tlbi]; split <;> simp [h]

@[simp] theorem State.tlbsync_memWf (n k : Nat) : (s.tlbsync n k).MemWf := by
  simp [State.tlbsync, h]

@[simp] theorem State.cmoData_memWf (n k op line : Nat) (va : Word) (trans : Option (Nat × Nat)) :
    (s.cmoData n k op line va trans).MemWf := by
  simp only [State.cmoData]
  split
  · split <;> simp [h]
  · split
    · split <;> next e => simp [State.mem_of_fst e, h]
    · simp [h]
    · split <;> next e => simp [State.mem_of_fst e, h]

@[simp] theorem State.cmo_memWf (n k : Nat) (v : Word) : (s.cmo n k v).MemWf := by
  simp only [State.cmo]
  split
  · trivial
  split
  · (repeat' split) <;> simp [h]
  · split
    · trivial
    split
    · next e => exact State.xlateWord_memWf e
    · (repeat' split) <;> simp [h]

@[simp] theorem State.wkt_memWf (n k len : Nat) (v : Word) : (s.wkt n k len v).MemWf := by
  simp only [State.wkt]; (repeat' split) <;> simp [h]

@[simp] theorem State.wicketReturn_memWf (n k : Nat) : (s.wicketReturn n k).MemWf := by
  simp only [State.wicketReturn]; (repeat' split) <;> simp [h]

@[simp] theorem State.frameReturn_memWf (n k : Nat) : (s.frameReturn n k).MemWf := by
  unfold State.frameReturn
  extract_lets +onlyGivenNames c wait
  have wait_memWf (l) : (wait l).MemWf := by simp [wait]
  clear_value wait
  refine Trig.ite_memWf trivial (Trig.ite_memWf (wait_memWf _) ?_)
  extract_lets +onlyGivenNames s1 frame
  have h1 : memWf s1.mem = true := by simpa [s1] using h
  clear_value frame s1
  split
  · simpa using h1
  · exact wait_memWf _
  · exact wait_memWf _
  extract_lets +onlyGivenNames s2 parts reqs
  have h2 : memWf s2.mem = true := by simpa [s2] using h1
  clear_value parts reqs s2
  refine Trig.ite_memWf (wait_memWf _) ?_
  split
  · exact wait_memWf _
  next s3 l e =>
  have h3 : memWf s3.mem = true := by simp [State.mem_of_fst e, h2]
  refine Trig.ite_memWf (by simpa using h3) ?_
  extract_lets +onlyGivenNames bs word id check
  clear_value word id check
  split
  · trivial
  refine Trig.ite_memWf trivial (Trig.ite_memWf trivial ?_)
  extract_lets +onlyGivenNames s4 s5
  have h4 : memWf s4.mem = true := (congrArg memWf (foldl_mem (fun _ _ => by simp) _ _)).trans h3
  have h5 : memWf s5.mem = true := (congrArg memWf (foldl_mem (fun _ _ => by simp) _ _)).trans h4
  clear_value s5
  exact (congrArg memWf (State.onCase_mem ..)).trans h5

@[simp] theorem State.sysWait_memWf (n k : Nat) (v : Word) : (s.sysWait n k v).MemWf := by
  simp only [State.sysWait]; (repeat' split) <;> simp [h]

@[simp] theorem State.sysYield_memWf (n k : Nat) : (s.sysYield n k).MemWf := by
  simp only [State.sysYield]; (repeat' split) <;> simp [h]

@[simp] theorem trigSys_memWf (n k sock len : Nat) (v : Word) : (trigSys s n k sock len v).MemWf := by
  simp only [trigSys]; (repeat' split) <;> simp [h]

/-! ### The DFM, the VXU and the TMU -/

@[simp] theorem State.dfmFetch_memWf (n k op : Nat) : (s.dfmFetch n k op).MemWf := by
  unfold State.dfmFetch
  extract_lets +onlyGivenNames c f taps wc
  clear_value wc taps f
  refine Trig.ite_memWf trivial (Trig.ite_memWf trivial (Trig.ite_memWf trivial ?_))
  extract_lets +onlyGivenNames xva yva ends wb ova
  generalize ex : s.dfmXlate n k xva 0 0x20000 .read = rx
  generalize ey : s.dfmXlate n k yva 0x20000 0x40000 .read = ry
  generalize eo : s.dfmXlate n k ova 0 0x40000 .write = ro
  clear_value xva yva wb ova
  cases rx with
  | inr t => exact State.dfmXlate_memWf ex
  | inl x =>
  cases ry with
  | inr t => exact Trig.after_memWf (State.dfmXlate_memWf ey) (by simp)
  | inl y =>
  cases wb with
  | true =>
    cases ro with
    | inr t => exact Trig.after_memWf (State.dfmXlate_memWf eo) (by simp)
    | inl o =>
      refine Trig.done_memWf rfl ?_
      refine (congrArg memWf (State.onCase_mem ..)).trans ?_
      refine State.writePa_memWf _ _ _ _ (State.mismatch_ite_memWf _ _ _ ?_)
      simp only [State.touchTlb_mem, State.onCore_mem]
      (repeat' split) <;> simp [h]
  | false =>
    refine Trig.done_memWf rfl ?_
    refine (congrArg memWf (State.onCase_mem ..)).trans ?_
    rw [if_neg Bool.false_ne_true]
    refine State.mismatch_ite_memWf _ _ _ ?_
    simp only [State.touchTlb_mem, State.onCore_mem]
    (repeat' split) <;> simp [h]

@[simp] theorem State.dfmSet_memWf (n k : Nat) (v : Word) : (s.dfmSet n k v).MemWf := by
  simp only [State.dfmSet]; split <;> simp [h]

@[simp] theorem trigDfm_memWf (n k sock : Nat) (v : Word) : (trigDfm s n k sock v).MemWf := by
  simp only [trigDfm]; split <;> simp [h]

@[simp] theorem State.vxuOp_memWf (n k : Nat) (v : Word) : (s.vxuOp n k v).MemWf := by
  simp only [State.vxuOp]; (repeat' split) <;> simp [h]

@[simp] theorem State.vxuGet_memWf (n k : Nat) (v : Word) : (s.vxuGet n k v).MemWf := by
  simp only [State.vxuGet]; (repeat' split) <;> simp [h]

@[simp] theorem State.vxuPut_memWf (n k : Nat) (v : Word) : (s.vxuPut n k v).MemWf := by
  simp only [State.vxuPut]; (repeat' split) <;> simp [h]

@[simp] theorem State.vxuMrd_memWf (n k : Nat) (v : Word) : (s.vxuMrd n k v).MemWf := by
  simp only [State.vxuMrd]; split <;> simp [h]

@[simp] theorem State.vxuMwr_memWf (n k : Nat) (v : Word) : (s.vxuMwr n k v).MemWf := by
  simp only [State.vxuMwr]; split <;> simp [h]

@[simp] theorem State.vxuRed_memWf (n k : Nat) (v : Word) : (s.vxuRed n k v).MemWf := by
  simp only [State.vxuRed]; (repeat' split) <;> simp [h]

omit h in
theorem State.vecCheck_memWf {n k bytes : Nat} {acc : Acc} {l : List (Nat × Nat)} {t : Trig}
    (e : s.vecCheck n k bytes acc l = .error t) : t.MemWf := by
  induction l with
  | nil => cases e
  | cons a l ih =>
    simp only [State.vecCheck] at e
    split at e
    · cases e; trivial
    split at e
    · next e' => cases e; exact State.xlateWord_memWf e'
    · split at e
      · cases e
      · next e' => cases e; exact ih e'

@[simp] theorem State.vxuMem_memWf (n k : Nat) (load : Bool) (v : Word) : (s.vxuMem n k load v).MemWf := by
  unfold State.vxuMem
  extract_lets +onlyGivenNames c r w bytes len
  clear_value w bytes len
  refine Trig.ite_memWf trivial (Trig.ite_memWf trivial (Trig.ite_memWf trivial (Trig.ite_memWf trivial
    (Trig.ite_memWf trivial ?_))))
  extract_lets +onlyGivenNames mask on act base strd va
  clear_value va
  split
  · next e => exact State.vecCheck_memWf e
  next es _ =>
  extract_lets +onlyGivenNames who lines
  clear_value who lines
  refine Trig.ite_memWf trivial ?_
  extract_lets +onlyGivenNames s1 job
  have h1 : memWf s1.mem = true := by simpa [s1] using h
  split
  next op s2 e =>
  have h2 : memWf s2.mem = true := by
    have e2 : s2.mem = s1.fresh.2.mem := by rw [e]
    simpa [e2] using h1
  extract_lets +onlyGivenNames trOf occ s3
  have h3 : memWf s3.mem = true := by simpa [s3] using h2
  clear_value trOf occ s3
  refine Trig.ite_memWf ?_ ?_
  · extract_lets +onlyGivenNames dest zeros
    clear_value dest zeros
    split
    next e => simp [State.mem_of_fst e, h3]
  · extract_lets +onlyGivenNames x runs flat
    clear_value runs flat
    split
    next e => simp [State.mem_of_fst e, h3]

@[simp] theorem trigVxu_memWf (n k sock : Nat) (v : Word) : (trigVxu s n k sock v).MemWf := by
  simp only [trigVxu]; (repeat' split) <;> simp [h]

omit h in
theorem State.rowXlate_memWf {n k va : Nat} {acc : Acc} {l : List (Nat × Nat)} {t : Trig}
    (e : s.rowXlate n k va acc l = .error t) : t.MemWf := by
  induction l with
  | nil => cases e
  | cons a l ih =>
    simp only [State.rowXlate] at e
    split at e
    · next g f e' => cases e; have fault := State.xlateWord_memWf e'; cases g <;> exact fault
    · next e' => cases e; exact State.xlateWord_memWf e'
    · split at e
      · cases e
      · next e' => cases e; exact ih e'

omit h in
theorem State.rowsCheck_memWf {n k len align : Nat} {acc : Acc} {l : List (Nat × Nat)} {r : Nat} {t : Trig}
    (e : (s.rowsCheck n k len align acc l).2 = some (r, t)) : t.MemWf := by
  induction l with
  | nil => cases e
  | cons a l ih =>
    simp only [State.rowsCheck] at e
    split at e
    · cases e; trivial
    split at e
    · next e' => cases e; exact State.rowXlate_memWf e'
    split at e
    · cases e; trivial
    · exact ih e

@[simp] theorem State.tileMem_memWf (n k : Nat) (load transposed : Bool) (v : Word) : (s.tileMem n k load transposed v).MemWf := by
  unfold State.tileMem
  extract_lets +onlyGivenNames c shape own lo hi tile w
  clear_value own lo hi tile w
  refine Trig.ite_memWf trivial (Trig.ite_memWf trivial (Trig.ite_memWf trivial (Trig.ite_memWf trivial ?_)))
  extract_lets +onlyGivenNames len base strd skip nums rows
  clear_value len rows
  split
  next ok err e =>
  extract_lets +onlyGivenNames part
  have part_memWf (r : Nat) (t : State) (ht : memWf t.mem = true) : memWf (part r t).mem = true := by
    simp only [part]
    split <;> simp [ht]
  clear_value part
  have fault (r : Nat) (t : Trig) (et : err = some (r, t)) : t.MemWf :=
    State.rowsCheck_memWf (by rw [e]; exact et)
  split
  · simp [h]
  · intro b hb
    simpa using part_memWf _ b hb
  · split
    · trivial
    · exact part_memWf _
  · exact fault _ _ rfl

@[simp] theorem State.arrTrig_memWf (n k sock : Nat) (v : Word) : (s.arrTrig n k sock v).MemWf := by
  simp only [State.arrTrig]; (repeat' split) <;> simp [h]

@[simp] theorem trigTmu_memWf (n k sock : Nat) (v : Word) : (trigTmu s n k sock v).MemWf := by
  simp only [trigTmu]; (repeat' split) <;> simp [h]

/-! ### The XMU and the KYU -/

@[simp] theorem State.enqueue_memWf (n k q : Nat) (v : Word) : (s.enqueue n k q v).MemWf := by
  simp only [State.enqueue]; (repeat' split) <;> simp [h]

@[simp] theorem State.queueStatus_memWf (n k : Nat) (v : Word) : (s.queueStatus n k v).MemWf := by
  simp only [State.queueStatus]; (repeat' split) <;> simp [h]

@[simp] theorem trigXmu_memWf (n k sock : Nat) (v : Word) : (trigXmu s n k sock v).MemWf := by
  simp only [trigXmu]; split <;> simp [h]

@[simp] theorem State.kyuLd_memWf (n k : Nat) (v : Word) : (s.kyuLd n k v).MemWf := by
  simp only [State.kyuLd]
  split
  · trivial
  split
  · next e => exact State.kyuXlate_memWf e
  · split <;> simp [h]

@[simp] theorem State.kyuSt_memWf (n k : Nat) (v : Word) : (s.kyuSt n k v).MemWf := by
  simp only [State.kyuSt]
  split
  · trivial
  split
  · trivial
  split
  · trivial
  split
  · next e => exact State.kyuXlate_memWf e
  · (repeat' split) <;> simp [h]

@[simp] theorem State.kyuRstr_memWf (n k : Nat) (v : Word) : (s.kyuRstr n k v).MemWf := by
  simp only [State.kyuRstr]; (repeat' split) <;> simp [h]

@[simp] theorem State.kyuMove_memWf (n k : Nat) (v : Word) : (s.kyuMove n k v).MemWf := by
  simp only [State.kyuMove]; (repeat' split) <;> simp [h]

@[simp] theorem State.install_memWf (n k : Nat) (v : Word) : (s.install n k v).MemWf := by
  simp only [State.install]; (repeat' split) <;> simp [h]

@[simp] theorem State.kyuClr_memWf (n k : Nat) (v : Word) : (s.kyuClr n k v).MemWf := by
  simp only [State.kyuClr]; (repeat' split) <;> simp [h]

@[simp] theorem State.kyuRd_memWf (n k : Nat) (v : Word) : (s.kyuRd n k v).MemWf := by
  simp only [State.kyuRd]; (repeat' split) <;> simp [h]

@[simp] theorem State.kyuChk_memWf (n k : Nat) (v : Word) : (s.kyuChk n k v).MemWf := by
  simp only [State.kyuChk]; (repeat' split) <;> simp [h]

@[simp] theorem trigKyu_memWf (n k sock : Nat) (v : Word) : (trigKyu s n k sock v).MemWf := by
  simp only [trigKyu]; (repeat' split) <;> simp [h]

/-! ### Words -/

@[simp] theorem State.fire_memWf (n k len sock : Nat) (v : Word) : (s.fire n k len sock v).MemWf := by
  simp only [State.fire]; (repeat' split) <;> simp [h]

@[simp] theorem State.fireAll_memWf (n k len : Nat) (l : List (Nat × Word)) : (s.fireAll n k len l).MemWf := by
  induction l generalizing s with
  | nil => exact h
  | cons a l ih => exact Trig.bind_memWf (State.fire_memWf h ..) fun s hs => ih hs

@[simp] theorem State.runWord_memWf (n k : Nat) (w : CodeWord) : (s.runWord n k w).MemWf := by
  simp only [State.runWord]; (repeat' split) <;> simp [h]

end
end Sys2Proof.Machine

end

section
/-! PROOF. Every command answers a next state and keeps the canonical form of memory. -/

set_option Elab.async false

namespace Sys2Proof.Machine

/-! ### Words -/

@[simp] theorem State.commit_memWf {s : State} (h : memWf s.mem = true) (b : State) (n k : Nat) (w : CodeWord) :
    memWf (s.commit b n k w).mem = true := by
  simp only [State.commit]
  (repeat' split) <;> simp [h]

/-- A word that settles keeps the form where the state it began in and its trigger do. -/
theorem State.settleWord_memWf {b : State} (h : memWf b.mem = true) (n k : Nat) (w : CodeWord) {t : Trig} (ht : t.MemWf) :
    memWf (b.settleWord n k w t).mem = true := by
  cases t with
  | done s => exact State.commit_memWf ht ..
  | wait kind reqs => simpa [State.settleWord] using h
  | fault keep f =>
    cases keep with
    | none => simpa [State.settleWord] using h
    | some g => simpa [State.settleWord] using ht b h
  | pause g reqs => simpa [State.settleWord] using ht b h
  | stop s => exact ht

@[simp] theorem State.issueWord_memWf {s : State} (h : memWf s.mem = true) (n k : Nat) (w : CodeWord) :
    memWf (s.issueWord n k w).mem = true := by
  have h1 : memWf (s.arrivals n k).mem = true := by simpa using h
  refine State.settleWord_memWf h1 n k w ?_
  split
  · exact State.reportAsync_memWf h1 n k
  · exact State.runWord_memWf h1 ..

@[simp] theorem State.issueMove_memWf {s : State} (h : memWf s.mem = true) (n sock : Nat) (v : Word) :
    memWf (s.issueMove n sock v).mem = true := by
  simp only [State.issueMove]
  (repeat' split) <;> simp [h]

/-! ### Fetch -/

/-- A fetch keeps the form in the state it leaves. -/
def FetchRes.MemWf : FetchRes → Prop
  | .word s _ | .fault s _ => memWf s.mem = true
  | .wait _ => True

@[simp] theorem FetchRes.memWf_wait (reqs : List Req) : (FetchRes.wait reqs).MemWf := trivial
@[simp] theorem FetchRes.memWf_fault (s : State) (f : Flt) : (FetchRes.fault s f).MemWf ↔ memWf s.mem = true := Iff.rfl
@[simp] theorem FetchRes.memWf_word (s : State) (w : BitVec 32) : (FetchRes.word s w).MemWf ↔ memWf s.mem = true := Iff.rfl

@[simp] theorem fetched_memWf {s : State} (h : memWf s.mem = true) (st : RStat) (va : Nat) (bs : List Byte) :
    (fetched s st va bs).MemWf := by
  simp only [fetched]
  split <;> simp [h]

@[simp] theorem State.fetch4_memWf {s : State} (h : memWf s.mem = true) (n k va : Nat) : (s.fetch4 n k va).MemWf := by
  simp only [State.fetch4]
  split
  · simp [h]
  split
  · next g f e =>
    have hf := State.xlateWord_memWf e
    cases g with
    | none => exact h
    | some g => exact hf s h
  · trivial
  · trivial
  · (repeat' split) <;> simp [h]

@[simp] theorem State.fetchStops_memWf {s : State} (h : memWf s.mem = true) (n k : Nat) {r : FetchRes} (hr : r.MemWf) :
    memWf (s.fetchStops n k r).mem = true := by
  cases r with
  | word t w => exact hr
  | wait reqs => simpa [State.fetchStops] using h
  | fault t f =>
    have ht : memWf t.mem = true := hr
    simp only [State.fetchStops]
    split <;> simp [ht]

theorem State.withWord_memWf {s : State} (h : memWf s.mem = true) (n k : Nat) {f : State → CodeWord → State}
    (hf : ∀ t w, memWf t.mem = true → memWf (f t w).mem = true) : memWf (s.withWord n k f).mem = true := by
  simp only [State.withWord]
  have h1 := State.fetch4_memWf h n k (s.case n k).pc.toNat
  split
  · next t w e =>
    have ht : memWf t.mem = true := by rw [e] at h1; exact h1
    have h2 := State.fetch4_memWf ht n k ((s.case n k).pc + 4).toNat
    split
    · split
      · next u e e2 => rw [e2] at h2; exact hf _ _ h2
      · exact State.fetchStops_memWf ht n k h2
    · exact hf _ _ ht
  · exact State.fetchStops_memWf h n k h1

@[simp] theorem State.issueNext_memWf {s : State} (h : memWf s.mem = true) (n k : Nat) : memWf (s.issueNext n k).mem = true := by
  have issue (t : State) (w : CodeWord) (ht : memWf t.mem = true) : memWf (t.issueWord n k w).mem = true := by simp [ht]
  simp only [State.issueNext]
  split
  · exact State.withWord_memWf h n k fun t w ht => State.withWord_memWf (by simpa using ht) n k issue
  · exact State.withWord_memWf h n k issue

@[simp] theorem State.fetchIssue_memWf {s : State} (h : memWf s.mem = true) (n : Nat) : memWf (s.fetchIssue n).mem = true := by
  simp only [State.fetchIssue]
  (repeat' split) <;> simp [h]

@[simp] theorem State.retry_memWf {s : State} (h : memWf s.mem = true) (n k : Nat) (w : Waiting) :
    memWf (s.retry n k w).mem = true := by
  simp only [State.retry]
  split <;> simp [h]

/-! ### Scheduler commands -/

theorem State.runTcmd_memWf {s : State} (h : memWf s.mem = true) (n : Nat) (ops : List Nat)
    {f : State → Tcmd → Option (State × BitVec 8)}
    (hf : ∀ t e u code, memWf t.mem = true → f t e = some (u, code) → memWf u.mem = true) :
    memWf (s.runTcmd n ops f).mem = true := by
  simp only [State.runTcmd]
  split
  · exact h
  split
  · exact h
  split
  · split
    · exact h
    · next e => simp [hf _ _ _ _ h e]
  · exact h

theorem State.tcmdSpill_memWf {s : State} (h : memWf s.mem = true) (n : Nat) (e : Tcmd) {u : State} {code : BitVec 8}
    (eu : s.tcmdSpill n e = some (u, code)) : memWf u.mem = true := by
  revert eu
  simp only [State.tcmdSpill]
  (repeat' split) <;> simp only [Option.some.injEq, Prod.mk.injEq, and_imp, reduceCtorEq, false_implies] <;> rintro rfl - <;> simp [h]

/-! ### Commands -/

/-- The outcome of a command from state s: a next state, in canonical form where s was. -/
def Keeps (s : State) (o : Out) : Prop := ∃ t, o = .next t ∧ (memWf s.mem = true → memWf t.mem = true)

@[simp] theorem keeps_next (s t : State) : Keeps s (.next t) ↔ (memWf s.mem = true → memWf t.mem = true) := by
  simp [Keeps]

theorem keeps_ite {s : State} {p : Prop} [Decidable p] {a b : Out} (ha : Keeps s a) (hb : Keeps s b) :
    Keeps s (if p then a else b) := by
  split
  · exact ha
  · exact hb

theorem State.command_keeps (s : State) (n op : Nat) {f : State → Mailbox → State × Option (BitVec 8 × List Byte)}
    (hf : ∀ t b, memWf t.mem = true → memWf (f t b).1.mem = true) : Keeps s (s.command n op f) := by
  simp only [State.command]
  split
  · exact (keeps_next ..).2 fun h => by simpa using hf s _ h
  · exact (keeps_next ..).2 id

theorem State.flashCommand_keeps (s : State) (n op : Nat) {f : State → Mailbox → State × Option (BitVec 8 × List Byte)}
    (hf : ∀ t b, memWf t.mem = true → memWf (f t b).1.mem = true) : Keeps s (s.flashCommand n op f) := by
  simp only [State.flashCommand]
  split
  · exact State.command_keeps s n op fun t b h => hf { t with flashPort := { t.flashPort with failed := false } } b h
  · exact (keeps_next ..).2 id

theorem State.tapTo_keeps {s t : State} (h : t.mem = s.mem) (x : Tap) : Keeps s (t.tapTo x) := by
  simp only [State.tapTo]
  split <;> simp [h]

@[simp] theorem memWf_nil : memWf [] = true := rfl

@[simp] theorem State.wipe_mem (s : State) : s.wipe.mem = [] := rfl

theorem execReadWaitResume_keeps (core : CoreId) (s : State) : Keeps s (execReadWaitResume core s) := by
  simp only [execReadWaitResume]
  (repeat' split) <;> simp +contextual

theorem execTriggerWaitResume_keeps (core : CoreId) (s : State) : Keeps s (execTriggerWaitResume core s) := by
  simp only [execTriggerWaitResume]
  (repeat' split) <;> simp +contextual

theorem execResultDelivery_keeps (core : CoreId) (s : State) : Keeps s (execResultDelivery core s) := by
  simp only [execResultDelivery]
  (repeat' split) <;> simp +contextual

theorem execStorePerformed_keeps (core : CoreId) (i : Nat) (s : State) : Keeps s (execStorePerformed core i s) := by
  simp only [execStorePerformed]
  refine keeps_ite (by simp) ?_
  split
  · simp
  refine keeps_ite ?_ (by simp +contextual)
  split <;> next e => simp +contextual [State.mem_of_fst e]

theorem execStoreAsyncTimeout_keeps (core : CoreId) (task : TaskId) (s : State) : Keeps s (execStoreAsyncTimeout core task s) := by
  simp only [execStoreAsyncTimeout]
  (repeat' split) <;> simp +contextual

theorem execRemoteBitWrite_keeps (core : CoreId) (task : TaskId) (bit : BitVec 12) (val : Bool) (s : State) :
    Keeps s (execRemoteBitWrite core task bit val s) := by
  simp only [execRemoteBitWrite]
  (repeat' split) <;> simp +contextual

theorem execTransferTargetIssue_keeps (core : CoreId) (s : State) : Keeps s (execTransferTargetIssue core s) := by
  simp only [execTransferTargetIssue]
  (repeat' split) <;> simp +contextual

theorem execRepeatBodyExecution_keeps (core : CoreId) (s : State) : Keeps s (execRepeatBodyExecution core s) := by
  simp only [execRepeatBodyExecution]
  (repeat' split) <;> simp +contextual

theorem execTlbiCommandComplete_keeps (core : CoreId) (s : State) : Keeps s (execTlbiCommandComplete core s) := by
  simp only [execTlbiCommandComplete]
  (repeat' split) <;> simp +contextual

theorem execTimerExpiry_keeps (core : CoreId) (s : State) : Keeps s (execTimerExpiry core s) := by
  simp only [execTimerExpiry]
  (repeat' split) <;> simp +contextual

theorem execVxuOpComplete_keeps (core : CoreId) (s : State) : Keeps s (execVxuOpComplete core s) := by
  simp only [execVxuOpComplete]
  (repeat' split) <;> simp +contextual

theorem execVxuMemComplete_keeps (core : CoreId) (i : Nat) (s : State) : Keeps s (execVxuMemComplete core i s) := by
  simp only [execVxuMemComplete]
  (repeat' split) <;> simp +contextual

theorem execTmuMemComplete_keeps (core : CoreId) (i : Nat) (s : State) : Keeps s (execTmuMemComplete core i s) := by
  simp only [execTmuMemComplete]
  (repeat' split) <;> simp +contextual

theorem execArrayFill_keeps (core : CoreId) (s : State) : Keeps s (execArrayFill core s) := by
  simp only [execArrayFill]
  (repeat' split) <;> simp +contextual

theorem execArrayComputeStart_keeps (core : CoreId) (s : State) : Keeps s (execArrayComputeStart core s) := by
  simp only [execArrayComputeStart]
  (repeat' split) <;> simp +contextual

theorem execArrayOpComplete_keeps (core : CoreId) (s : State) : Keeps s (execArrayOpComplete core s) := by
  simp only [execArrayOpComplete]
  (repeat' split) <;> simp +contextual

theorem execXmuDescriptorComplete_keeps (core : CoreId) (task : TaskId) (q : Fin 4) (s : State) :
    Keeps s (execXmuDescriptorComplete core task q s) := by
  simp only [execXmuDescriptorComplete]
  (repeat' split) <;> simp +contextual

theorem execFrameEntry_keeps (core : CoreId) (s : State) : Keeps s (execFrameEntry core s) := by
  simp only [execFrameEntry]
  (repeat' split) <;> simp +contextual

theorem execWalkComplete_keeps (core : CoreId) (i : Nat) (s : State) : Keeps s (execWalkComplete core i s) := by
  simp only [execWalkComplete]
  (repeat' split) <;> simp +contextual

theorem execLineFillComplete_keeps (core : CoreId) (i : Nat) (s : State) : Keeps s (execLineFillComplete core i s) := by
  simp only [execLineFillComplete]
  (repeat' split) <;> simp +contextual

theorem execFetchAhead_keeps (core : CoreId) (s : State) : Keeps s (execFetchAhead core s) := by
  simp only [execFetchAhead]
  (repeat' split) <;> simp +contextual

theorem execEvictionWriteback_keeps (core : CoreId) (i : Nat) (s : State) : Keeps s (execEvictionWriteback core i s) := by
  simp only [execEvictionWriteback]
  (repeat' split) <;> simp +contextual

theorem execEvictionPoisonWrite_keeps (i : Nat) (s : State) : Keeps s (execEvictionPoisonWrite i s) := by
  simp only [execEvictionPoisonWrite]
  split
  · simp
  refine keeps_ite (by simp) (keeps_ite (by simp) ?_)
  split <;> next e => simp +contextual [State.mem_of_fst e]

theorem execMeshRequest_keeps (i : Nat) (s : State) : Keeps s (execMeshRequest i s) := by
  simp only [execMeshRequest]
  (repeat' split) <;> simp +contextual

theorem execMeshResponse_keeps (i : Nat) (s : State) : Keeps s (execMeshResponse i s) := by
  simp only [execMeshResponse]
  (repeat' split) <;> simp +contextual

theorem execAddendArrival_keeps (i : Nat) (s : State) : Keeps s (execAddendArrival i s) := by
  simp only [execAddendArrival]
  (repeat' split) <;> simp +contextual

theorem execAddendResend_keeps (i : Nat) (s : State) : Keeps s (execAddendResend i s) := by
  simp only [execAddendResend]
  (repeat' split) <;> simp +contextual

theorem execStackRequest_keeps (port : StackId) (i : Nat) (s : State) : Keeps s (execStackRequest port i s) := by
  simp only [execStackRequest]
  (repeat' split) <;> simp +contextual

theorem execStackRefresh_keeps (port : StackId) (s : State) : Keeps s (execStackRefresh port s) := by
  simp only [execStackRefresh]
  (repeat' split) <;> simp +contextual

theorem execPatrolScrub_keeps (port : StackId) (s : State) : Keeps s (execPatrolScrub port s) := by
  simp only [execPatrolScrub]
  (repeat' split) <;> simp +contextual

theorem execBankScrub_keeps (core : CoreId) (s : State) : Keeps s (execBankScrub core s) := by
  simp only [execBankScrub]
  (repeat' split) <;> simp +contextual

theorem execPortRetrain_keeps (port : StackId) (s : State) : Keeps s (execPortRetrain port s) := by
  simp only [execPortRetrain]
  (repeat' split) <;> simp +contextual

theorem execPortRetrainComplete_keeps (port : StackId) (rate : BitVec 2) (s : State) :
    Keeps s (execPortRetrainComplete port rate s) := by
  simp only [execPortRetrainComplete]
  (repeat' split) <;> simp +contextual

theorem execPortFailed_keeps (port : StackId) (s : State) : Keeps s (execPortFailed port s) := by
  simp only [execPortFailed]
  (repeat' split) <;> simp +contextual

theorem execDigestMark_keeps (s : State) : Keeps s (execDigestMark s) := by
  simp only [execDigestMark]
  (repeat' split) <;> simp +contextual

theorem execDigestComplete_keeps (s : State) : Keeps s (execDigestComplete s) := by
  simp only [execDigestComplete]
  refine keeps_ite ?_ ?_
  · rw [keeps_next]
    intro h
    refine (congrArg memWf ((State.digestStart_mem _).trans (foldl_mem (fun _ _ => by simp) _ _))).trans ?_
    split <;> simpa using h
  · split <;> simp

theorem execLinkCrd_keeps (m : LinkId) (ch : Fin 8) (units : Nat) (s : State) : Keeps s (execLinkCrd m ch units s) := by
  simp only [execLinkCrd]
  (repeat' split) <;> simp +contextual

theorem execLinkLack_keeps (m : LinkId) (seq : BitVec 24) (s : State) : Keeps s (execLinkLack m seq s) := by
  simp only [execLinkLack]
  (repeat' split) <;> simp +contextual

theorem execLinkNak_keeps (m : LinkId) (seq : BitVec 24) (s : State) : Keeps s (execLinkNak m seq s) := by
  simp only [execLinkNak]
  (repeat' split) <;> simp +contextual

theorem execLackTimer_keeps (m : LinkId) (s : State) : Keeps s (execLackTimer m s) := by
  simp only [execLackTimer]
  (repeat' split) <;> simp +contextual

theorem execReplayTimeout_keeps (m : LinkId) (s : State) : Keeps s (execReplayTimeout m s) := by
  simp only [execReplayTimeout]
  (repeat' split) <;> simp +contextual

theorem execRequestTimeout_keeps (m : LinkId) (i : Nat) (s : State) : Keeps s (execRequestTimeout m i s) := by
  simp only [execRequestTimeout]
  (repeat' split) <;> simp +contextual

theorem execModuleReset_keeps (m : LinkId) (s : State) : Keeps s (execModuleReset m s) := by
  simp only [execModuleReset]
  (repeat' split) <;> simp +contextual

theorem execModuleRetrainComplete_keeps (m : LinkId) (rate : BitVec 3) (degraded : Bool) (s : State) :
    Keeps s (execModuleRetrainComplete m rate degraded s) := by
  simp only [execModuleRetrainComplete]
  (repeat' split) <;> simp +contextual

theorem execModuleRetrainTimeout_keeps (m : LinkId) (s : State) : Keeps s (execModuleRetrainTimeout m s) := by
  simp only [execModuleRetrainTimeout]
  refine keeps_ite ((keeps_next ..).2 fun h => ?_) (by simp)
  refine (congrArg memWf (foldl_mem (fun t v => ?_) _ _)).trans (by simpa using h)
  split <;> simp

theorem execRouteEntryUpdate_keeps (i : Nat) (s : State) : Keeps s (execRouteEntryUpdate i s) := by
  simp only [execRouteEntryUpdate]
  (repeat' split) <;> simp +contextual

theorem execHardwareFill_keeps (core : CoreId) (s : State) : Keeps s (execHardwareFill core s) := by
  simp only [execHardwareFill]
  (repeat' split) <;> simp +contextual

theorem execKeeperCycleLimit_keeps (core : CoreId) (s : State) : Keeps s (execKeeperCycleLimit core s) := by
  simp only [execKeeperCycleLimit]
  (repeat' split) <;> simp +contextual

theorem execIdleDetectorExpiry_keeps (core : CoreId) (s : State) : Keeps s (execIdleDetectorExpiry core s) := by
  simp only [execIdleDetectorExpiry]
  (repeat' split) <;> simp +contextual

theorem execTestSlotGrant_keeps (c : ClusterId) (s : State) : Keeps s (execTestSlotGrant c s) := by
  simp only [execTestSlotGrant]
  (repeat' split) <;> simp +contextual

theorem execTestSlotEnd_keeps (c : ClusterId) (pass : Bool) (s : State) : Keeps s (execTestSlotEnd c pass s) := by
  simp only [execTestSlotEnd]
  (repeat' split) <;> simp +contextual

theorem execJobSequencerEnd_keeps (s : State) : Keeps s (execJobSequencerEnd s) := by
  simp only [execJobSequencerEnd]
  refine keeps_ite (by simp) ?_
  split
  · simp
  · refine (keeps_next ..).2 fun h => ?_
    rw [State.endJob_mem]
    exact (congrArg memWf (foldl_mem (fun _ _ => State.logReport_mem ..) _ _)).trans h

theorem execDrainTrigger_keeps (cause : DrainCause) (unit : BitVec 16) (s : State) : Keeps s (execDrainTrigger cause unit s) := by
  simp only [execDrainTrigger]
  (repeat' split) <;> simp +contextual

theorem execDrainEngineDiscard_keeps (s : State) : Keeps s (execDrainEngineDiscard s) := by
  simp only [execDrainEngineDiscard]
  (repeat' split) <;> simp +contextual

theorem execDrainComplete_keeps (s : State) : Keeps s (execDrainComplete s) := by
  simp only [execDrainComplete]
  (repeat' split) <;> simp +contextual

theorem execDrainTimeout_keeps (s : State) : Keeps s (execDrainTimeout s) := by
  simp only [execDrainTimeout]
  refine keeps_ite ((keeps_next ..).2 fun h => ?_) (by simp)
  have h1 := foldl_memWf (g := fun t n => (t.forceLoads n).forceCore n) (fun t n ht => by simp [ht])
    s.forceMesh.forceAddends.forceLinks.poweredCores (State.forceLinks_memWf (State.forceAddends_memWf (State.forceMesh_memWf h)))
  rw [State.endDrain_mem]
  dsimp only
  exact h1

theorem execMpWatchdogExpiry_keeps (i : MpId) (s : State) : Keeps s (execMpWatchdogExpiry i s) := by
  simp only [execMpWatchdogExpiry]
  (repeat' split) <;> simp +contextual

theorem execMpServiceResume_keeps (i : MpId) (s : State) : Keeps s (execMpServiceResume i s) := by
  simp only [execMpServiceResume]
  (repeat' split) <;> simp +contextual

theorem execMpReadyTimeout_keeps (i : MpId) (s : State) : Keeps s (execMpReadyTimeout i s) := by
  simp only [execMpReadyTimeout]
  (repeat' split) <;> simp +contextual

theorem execBeatBoundary_keeps (sample : SensorSample) (s : State) : Keeps s (execBeatBoundary sample s) := by
  simp only [execBeatBoundary]
  (repeat' split) <;> simp +contextual

theorem execBeatInEdge_keeps (err : Int) (s : State) : Keeps s (execBeatInEdge err s) := by
  simp only [execBeatInEdge]
  (repeat' split) <;> simp +contextual

theorem execCurrentGuardStop_keeps (s : State) : Keeps s (execCurrentGuardStop s) := by
  simp only [execCurrentGuardStop]
  (repeat' split) <;> simp +contextual

theorem execCurrentGuardResume_keeps (s : State) : Keeps s (execCurrentGuardResume s) := by
  simp only [execCurrentGuardResume]
  (repeat' split) <;> simp +contextual

theorem execDroopEvent_keeps (c : ClusterId) (s : State) : Keeps s (execDroopEvent c s) := by
  simp only [execDroopEvent]
  (repeat' split) <;> simp +contextual

theorem execDroopHoldEnd_keeps (c : ClusterId) (s : State) : Keeps s (execDroopHoldEnd c s) := by
  simp only [execDroopHoldEnd]
  (repeat' split) <;> simp +contextual

theorem execAvsbusFrame_keeps (frame : AvsFrame) (s : State) : Keeps s (execAvsbusFrame frame s) := by
  simp only [execAvsbusFrame]
  (repeat' split) <;> simp +contextual

theorem execShutterRequest_keeps (s : State) : Keeps s (execShutterRequest s) := by
  simp only [execShutterRequest]
  (repeat' split) <;> simp +contextual

theorem execShutterRelease_keeps (s : State) : Keeps s (execShutterRelease s) := by
  simp only [execShutterRelease]
  (repeat' split) <;> simp +contextual

theorem execThermalAlarm_keeps (s : State) : Keeps s (execThermalAlarm s) := by
  simp only [execThermalAlarm]
  (repeat' split) <;> simp +contextual

theorem execThermalAlarmClear_keeps (s : State) : Keeps s (execThermalAlarmClear s) := by
  simp only [execThermalAlarmClear]
  (repeat' split) <;> simp +contextual

theorem execThermtrip_keeps (s : State) : Keeps s (execThermtrip s) := by
  simp only [execThermtrip]
  (repeat' split) <;> simp +contextual

theorem execFenceAddendRelease_keeps (c : ClusterId) (s : State) : Keeps s (execFenceAddendRelease c s) := by
  simp only [execFenceAddendRelease]
  refine keeps_ite ((keeps_next ..).2 fun h => ?_) (by simp)
  rw [State.onCluster_mem]
  exact (congrArg memWf (foldl_mem (fun _ _ => by simp) _ _)).trans (by simp [h])

theorem execClusterFenceComplete_keeps (c : ClusterId) (s : State) : Keeps s (execClusterFenceComplete c s) := by
  simp only [execClusterFenceComplete]
  (repeat' split) <;> simp +contextual

theorem execClusterWakeComplete_keeps (c : ClusterId) (s : State) : Keeps s (execClusterWakeComplete c s) := by
  simp only [execClusterWakeComplete]
  refine keeps_ite ((keeps_next ..).2 fun h => ?_) (by simp)
  rw [State.heldDone_mem, State.setDomain_mem, State.onCluster_mem]
  exact (congrArg memWf (foldl_mem (fun _ _ => by simp) _ _)).trans h

theorem execPllLockLoss_keeps (s : State) : Keeps s (execPllLockLoss s) := by
  simp only [execPllLockLoss]
  (repeat' split) <;> simp +contextual

theorem execMailboxPost_keeps (n : MailboxId) (expect : BitVec 3) (s : State) : Keeps s (execMailboxPost n expect s) := by
  simp only [execMailboxPost]
  (repeat' split) <;> simp +contextual

theorem execMailboxWithdraw_keeps (n : MailboxId) (expect : BitVec 3) (s : State) : Keeps s (execMailboxWithdraw n expect s) := by
  simp only [execMailboxWithdraw]
  (repeat' split) <;> simp +contextual

theorem execMailboxClear_keeps (n : MailboxId) (expect : BitVec 3) (s : State) : Keeps s (execMailboxClear n expect s) := by
  simp only [execMailboxClear]
  (repeat' split) <;> simp +contextual

theorem execMbdbRing_keeps (ring : BitVec 32) (s : State) : Keeps s (execMbdbRing ring s) := by
  simp only [execMbdbRing]
  (repeat' split) <;> simp +contextual

theorem execMailboxTake_keeps (n : MailboxId) (s : State) : Keeps s (execMailboxTake n s) := by
  simp only [execMailboxTake]
  (repeat' split) <;> simp +contextual

theorem execMailboxProgress_keeps (n : MailboxId) (prog : BitVec 16) (s : State) : Keeps s (execMailboxProgress n prog s) := by
  simp only [execMailboxProgress]
  (repeat' split) <;> simp +contextual

theorem execMailboxComplete_keeps (n : MailboxId) (s : State) : Keeps s (execMailboxComplete n s) := by
  simp only [execMailboxComplete]
  (repeat' split) <;> simp +contextual

theorem execMailboxDeadline_keeps (n : MailboxId) (s : State) : Keeps s (execMailboxDeadline n s) := by
  simp only [execMailboxDeadline]
  (repeat' split) <;> simp +contextual

theorem execIdentify_keeps (n : MailboxId) (s : State) : Keeps s (execIdentify n s) := by
  refine State.command_keeps _ _ _ fun t b h => ?_
  dsimp only
  (repeat' split) <;> simp [h]

theorem execStatus_keeps (n : MailboxId) (s : State) : Keeps s (execStatus n s) := by
  refine State.command_keeps _ _ _ fun t b h => ?_
  dsimp only
  (repeat' split) <;> simp [h]

theorem execPowerLimitSet_keeps (n : MailboxId) (s : State) : Keeps s (execPowerLimitSet n s) := by
  refine State.command_keeps _ _ _ fun t b h => ?_
  dsimp only
  (repeat' split) <;> simp [h]

theorem execPowerLimitGet_keeps (n : MailboxId) (s : State) : Keeps s (execPowerLimitGet n s) := by
  exact State.command_keeps _ _ _ fun t b h => h

theorem execDomainSwitchOff_keeps (n : MailboxId) (s : State) : Keeps s (execDomainSwitchOff n s) := by
  refine keeps_ite (by simp) (State.command_keeps _ _ _ fun t b h => ?_)
  dsimp only
  (repeat' split) <;> simp [h]

theorem execDomainSwitchOn_keeps (n : MailboxId) (s : State) : Keeps s (execDomainSwitchOn n s) := by
  refine keeps_ite (by simp) (State.command_keeps _ _ _ fun t b h => ?_)
  dsimp only
  (repeat' split) <;> simp [h]

theorem execBeatConfig_keeps (n : MailboxId) (s : State) : Keeps s (execBeatConfig n s) := by
  refine State.command_keeps _ _ _ fun t b h => ?_
  dsimp only
  (repeat' split) <;> simp [h]

theorem execDrain_keeps (n : MailboxId) (s : State) : Keeps s (execDrain n s) := by
  refine State.command_keeps _ _ _ fun t b h => ?_
  dsimp only
  (repeat' split) <;> simp [h]

theorem execRelease_keeps (n : MailboxId) (s : State) : Keeps s (execRelease n s) := by
  refine State.command_keeps _ _ _ fun t b h => ?_
  dsimp only
  (repeat' split) <;> simp [h]

theorem execLinkAssign_keeps (n : MailboxId) (s : State) : Keeps s (execLinkAssign n s) := by
  refine State.command_keeps _ _ _ fun t b h => ?_
  dsimp only
  (repeat' split) <;> simp [h]

theorem execLinkStatus_keeps (n : MailboxId) (s : State) : Keeps s (execLinkStatus n s) := by
  refine State.command_keeps _ _ _ fun t b h => ?_
  dsimp only
  (repeat' split) <;> simp [h]

theorem execSensorRead_keeps (n : MailboxId) (s : State) : Keeps s (execSensorRead n s) := by
  refine State.command_keeps _ _ _ fun t b h => ?_
  dsimp only
  (repeat' split) <;> simp [h]

theorem execLogRead_keeps (n : MailboxId) (s : State) : Keeps s (execLogRead n s) := by
  refine State.command_keeps _ _ _ fun t b h => ?_
  dsimp only
  (repeat' split) <;> simp [h]

theorem execHistoryRead_keeps (n : MailboxId) (s : State) : Keeps s (execHistoryRead n s) := by
  refine State.command_keeps _ _ _ fun t b h => ?_
  dsimp only
  (repeat' split) <;> simp [h]

theorem execTestPolicy_keeps (n : MailboxId) (s : State) : Keeps s (execTestPolicy n s) := by
  refine State.command_keeps _ _ _ fun t b h => ?_
  dsimp only
  (repeat' split) <;> simp [h]

theorem execTestResults_keeps (n : MailboxId) (s : State) : Keeps s (execTestResults n s) := by
  refine State.command_keeps _ _ _ fun t b h => ?_
  dsimp only
  (repeat' split) <;> simp [h]

theorem execDigestSchedule_keeps (n : MailboxId) (s : State) : Keeps s (execDigestSchedule n s) := by
  refine State.command_keeps _ _ _ fun t b h => ?_
  dsimp only
  (repeat' split) <;> simp [h]

theorem execDigestRead_keeps (n : MailboxId) (s : State) : Keeps s (execDigestRead n s) := by
  refine State.command_keeps _ _ _ fun t b h => ?_
  dsimp only
  (repeat' split) <;> simp [h]

theorem execSettingsRead_keeps (n : MailboxId) (s : State) : Keeps s (execSettingsRead n s) := by
  refine State.command_keeps _ _ _ fun t b h => ?_
  dsimp only
  (repeat' split) <;> simp [h]

theorem execSettingsWrite_keeps (n : MailboxId) (s : State) : Keeps s (execSettingsWrite n s) := by
  refine State.flashCommand_keeps _ _ _ fun t b h => ?_
  dsimp only
  (repeat' split) <;> simp [h]

theorem execUpdateBegin_keeps (n : MailboxId) (s : State) : Keeps s (execUpdateBegin n s) := by
  refine State.flashCommand_keeps _ _ _ fun t b h => ?_
  dsimp only
  (repeat' split) <;> simp [h]

theorem execUpdateData_keeps (n : MailboxId) (s : State) : Keeps s (execUpdateData n s) := by
  refine State.flashCommand_keeps _ _ _ fun t b h => ?_
  dsimp only
  (repeat' split) <;> simp [h]

theorem execUpdateCommit_keeps (n : MailboxId) (s : State) : Keeps s (execUpdateCommit n s) := by
  refine State.flashCommand_keeps _ _ _ fun t b h => ?_
  (repeat' split) <;> simp [h]

theorem execMpRestart_keeps (n : MailboxId) (s : State) : Keeps s (execMpRestart n s) := by
  refine State.command_keeps _ _ _ fun t b h => ?_
  dsimp only
  (repeat' split) <;> simp [h]

theorem execJobOpen_keeps (n : MailboxId) (s : State) : Keeps s (execJobOpen n s) := by
  refine State.command_keeps _ _ _ fun t b h => ?_
  dsimp only
  split
  · exact h
  split
  · exact h
  split
  · exact h
  split
  · next e => simp [State.mem_of_fst e, h]
  · exact h

theorem execJobClose_keeps (n : MailboxId) (s : State) : Keeps s (execJobClose n s) := by
  refine State.command_keeps _ _ _ fun t b h => ?_
  dsimp only
  (repeat' split) <;> simp [h]

theorem execI3cPrivateWrite_keeps (offset : BitVec 16) (data : List Byte) (s : State) :
    Keeps s (execI3cPrivateWrite offset data s) := by
  simp only [execI3cPrivateWrite]
  (repeat' split) <;> simp +contextual

theorem execI3cPrivateRead_keeps (count : Nat) (s : State) : Keeps s (execI3cPrivateRead count s) := by
  simp only [execI3cPrivateRead]
  (repeat' split) <;> simp +contextual

theorem execControlRegisterWrite_keeps (by_ : Requester) (offset : BitVec 26) (wide : Bool) (v : Word) (s : State) :
    Keeps s (execControlRegisterWrite by_ offset wide v s) := by
  simp only [execControlRegisterWrite]
  (repeat' split) <;> simp +contextual

theorem execStartupSequence_keeps (env : StartupEnv) (s : State) : Keeps s (execStartupSequence env s) := by
  simp only [execStartupSequence]
  (repeat' split) <;> simp +contextual

theorem execBlkReadyAssert_keeps (s : State) : Keeps s (execBlkReadyAssert s) := by
  simp only [execBlkReadyAssert]
  (repeat' split) <;> simp +contextual

theorem execPatternLibraryLoad_keeps (s : State) : Keeps s (execPatternLibraryLoad s) := by
  simp only [execPatternLibraryLoad]
  (repeat' split) <;> simp +contextual

theorem execRollbackFuseRaise_keeps (s : State) : Keeps s (execRollbackFuseRaise s) := by
  simp only [execRollbackFuseRaise]
  (repeat' split) <;> simp +contextual

theorem execFlashOperationComplete_keeps (ok : Bool) (s : State) : Keeps s (execFlashOperationComplete ok s) := by
  simp only [execFlashOperationComplete]
  (repeat' split) <;> simp +contextual

theorem execSupplyMonitorTrip_keeps (s : State) : Keeps s (execSupplyMonitorTrip s) := by
  simp only [execSupplyMonitorTrip]
  refine keeps_ite (by simp) ?_
  rw [keeps_next]
  exact fun _ => rfl

theorem execSupplyRecoveryRestart_keeps (s : State) : Keeps s (execSupplyRecoveryRestart s) := by
  simp only [execSupplyRecoveryRestart]
  (repeat' split) <;> simp +contextual

theorem execBypass_keeps (s : State) : Keeps s (execBypass s) := by
  exact State.tapTo_keeps rfl _

theorem execSamplePreload_keeps (pins preload : BitVec 64) (s : State) : Keeps s (execSamplePreload pins preload s) := by
  exact State.tapTo_keeps rfl _

theorem execExtest_keeps (s : State) : Keeps s (execExtest s) := by
  exact State.tapTo_keeps rfl _

theorem execIdcode_keeps (s : State) : Keeps s (execIdcode s) := by
  exact State.tapTo_keeps rfl _

theorem execHighz_keeps (s : State) : Keeps s (execHighz s) := by
  exact State.tapTo_keeps rfl _

theorem execInstrumentAccess_keeps (inst : Instrument) (s : State) : Keeps s (execInstrumentAccess inst s) := by
  cases inst <;> exact State.tapTo_keeps rfl _

theorem execMpSramError_keeps (i : MpId) (s : State) : Keeps s (execMpSramError i s) := by
  simp only [execMpSramError]
  (repeat' split) <;> simp +contextual

theorem execStackPortFenceComplete_keeps (port : StackId) (s : State) : Keeps s (execStackPortFenceComplete port s) := by
  simp only [execStackPortFenceComplete]
  refine keeps_ite ?_ (by simp)
  rw [keeps_next]
  intro h
  simpa using memWf_filter _ h

theorem execStackPortTrainingComplete_keeps (port : StackId) (train : Training) (s : State) :
    Keeps s (execStackPortTrainingComplete port train s) := by
  simp only [execStackPortTrainingComplete]
  (repeat' split) <;> simp +contextual

theorem execDynamicAddressAssignment_keeps (addr : BitVec 7) (s : State) : Keeps s (execDynamicAddressAssignment addr s) := by
  simp only [execDynamicAddressAssignment]
  (repeat' split) <;> simp +contextual

theorem execEnec_keeps (enable : Bool) (s : State) : Keeps s (execEnec enable s) := by
  simp only [execEnec]
  (repeat' split) <;> simp +contextual

theorem State.linkIn_keeps {s : State} (k ty : Nat) (m : Msg) {f : State → Msg → State}
    (hf : ∀ s m, memWf s.mem = true → memWf (f s m).mem = true) : Keeps s (.next (s.linkIn k ty m f)) :=
  (keeps_next ..).2 fun h => State.linkIn_memWf h k ty m hf

theorem State.runTcmd_keeps {s : State} (n : Nat) (ops : List Nat) {f : State → Tcmd → Option (State × BitVec 8)}
    (hf : ∀ t e u code, memWf t.mem = true → f t e = some (u, code) → memWf u.mem = true) : Keeps s (.next (s.runTcmd n ops f)) :=
  (keeps_next ..).2 fun h => State.runTcmd_memWf h n ops hf

theorem execCreate_keeps (core : CoreId) (s : State) : Keeps s (execCreate core s) := by
  refine State.runTcmd_keeps _ _ fun t e u code h eu => ?_
  split at eu <;> rw [State.mem_of_fst (Option.some.inj eu)] <;> simp [h]

theorem execKill_keeps (core : CoreId) (s : State) : Keeps s (execKill core s) := by
  refine State.runTcmd_keeps _ _ fun t e u code h eu => ?_
  split at eu <;> rw [State.mem_of_fst (Option.some.inj eu)] <;> simp [h]

theorem execSpill_keeps (core : CoreId) (s : State) : Keeps s (execSpill core s) :=
  State.runTcmd_keeps _ _ fun _ e _ _ h eu => State.tcmdSpill_memWf h core.val e eu

theorem execFill_keeps (core : CoreId) (s : State) : Keeps s (execFill core s) :=
  State.runTcmd_keeps _ _ fun _ _ _ _ h eu => by
    rw [State.mem_of_fst (Option.some.inj eu)]
    simpa using h

theorem execKstart_keeps (core : CoreId) (s : State) : Keeps s (execKstart core s) :=
  State.runTcmd_keeps _ _ fun _ _ _ _ h eu => by
    rw [State.mem_of_fst (Option.some.inj eu)]
    simpa using h

/-- The issue, message and scheduler commands, whose outcome has one case, and the others by their own lemmas. -/
theorem exec_keeps (i : Instr) (s : State) : Keeps s (exec i s) := by
  cases i
  case readWaitResume => exact execReadWaitResume_keeps ..
  case triggerWaitResume => exact execTriggerWaitResume_keeps ..
  case resultDelivery => exact execResultDelivery_keeps ..
  case storePerformed => exact execStorePerformed_keeps ..
  case storeAsyncTimeout => exact execStoreAsyncTimeout_keeps ..
  case remoteBitWrite => exact execRemoteBitWrite_keeps ..
  case transferTargetIssue => exact execTransferTargetIssue_keeps ..
  case repeatBodyExecution => exact execRepeatBodyExecution_keeps ..
  case tlbiCommandComplete => exact execTlbiCommandComplete_keeps ..
  case timerExpiry => exact execTimerExpiry_keeps ..
  case vxuOpComplete => exact execVxuOpComplete_keeps ..
  case vxuMemComplete => exact execVxuMemComplete_keeps ..
  case tmuMemComplete => exact execTmuMemComplete_keeps ..
  case arrayFill => exact execArrayFill_keeps ..
  case arrayComputeStart => exact execArrayComputeStart_keeps ..
  case arrayOpComplete => exact execArrayOpComplete_keeps ..
  case xmuDescriptorComplete => exact execXmuDescriptorComplete_keeps ..
  case frameEntry => exact execFrameEntry_keeps ..
  case walkComplete => exact execWalkComplete_keeps ..
  case lineFillComplete => exact execLineFillComplete_keeps ..
  case fetchAhead => exact execFetchAhead_keeps ..
  case evictionWriteback => exact execEvictionWriteback_keeps ..
  case evictionPoisonWrite => exact execEvictionPoisonWrite_keeps ..
  case meshRequest => exact execMeshRequest_keeps ..
  case meshResponse => exact execMeshResponse_keeps ..
  case addendArrival => exact execAddendArrival_keeps ..
  case addendResend => exact execAddendResend_keeps ..
  case stackRequest => exact execStackRequest_keeps ..
  case stackRefresh => exact execStackRefresh_keeps ..
  case patrolScrub => exact execPatrolScrub_keeps ..
  case bankScrub => exact execBankScrub_keeps ..
  case portRetrain => exact execPortRetrain_keeps ..
  case portRetrainComplete => exact execPortRetrainComplete_keeps ..
  case portFailed => exact execPortFailed_keeps ..
  case digestMark => exact execDigestMark_keeps ..
  case digestComplete => exact execDigestComplete_keeps ..
  case linkCrd => exact execLinkCrd_keeps ..
  case linkLack => exact execLinkLack_keeps ..
  case linkNak => exact execLinkNak_keeps ..
  case lackTimer => exact execLackTimer_keeps ..
  case replayTimeout => exact execReplayTimeout_keeps ..
  case requestTimeout => exact execRequestTimeout_keeps ..
  case moduleReset => exact execModuleReset_keeps ..
  case moduleRetrainComplete => exact execModuleRetrainComplete_keeps ..
  case moduleRetrainTimeout => exact execModuleRetrainTimeout_keeps ..
  case routeEntryUpdate => exact execRouteEntryUpdate_keeps ..
  case hardwareFill => exact execHardwareFill_keeps ..
  case keeperCycleLimit => exact execKeeperCycleLimit_keeps ..
  case idleDetectorExpiry => exact execIdleDetectorExpiry_keeps ..
  case testSlotGrant => exact execTestSlotGrant_keeps ..
  case testSlotEnd => exact execTestSlotEnd_keeps ..
  case jobSequencerEnd => exact execJobSequencerEnd_keeps ..
  case drainTrigger => exact execDrainTrigger_keeps ..
  case drainEngineDiscard => exact execDrainEngineDiscard_keeps ..
  case drainComplete => exact execDrainComplete_keeps ..
  case drainTimeout => exact execDrainTimeout_keeps ..
  case mpWatchdogExpiry => exact execMpWatchdogExpiry_keeps ..
  case mpServiceResume => exact execMpServiceResume_keeps ..
  case mpReadyTimeout => exact execMpReadyTimeout_keeps ..
  case beatBoundary => exact execBeatBoundary_keeps ..
  case beatInEdge => exact execBeatInEdge_keeps ..
  case currentGuardStop => exact execCurrentGuardStop_keeps ..
  case currentGuardResume => exact execCurrentGuardResume_keeps ..
  case droopEvent => exact execDroopEvent_keeps ..
  case droopHoldEnd => exact execDroopHoldEnd_keeps ..
  case avsbusFrame => exact execAvsbusFrame_keeps ..
  case shutterRequest => exact execShutterRequest_keeps ..
  case shutterRelease => exact execShutterRelease_keeps ..
  case thermalAlarm => exact execThermalAlarm_keeps ..
  case thermalAlarmClear => exact execThermalAlarmClear_keeps ..
  case thermtrip => exact execThermtrip_keeps ..
  case fenceAddendRelease => exact execFenceAddendRelease_keeps ..
  case clusterFenceComplete => exact execClusterFenceComplete_keeps ..
  case clusterWakeComplete => exact execClusterWakeComplete_keeps ..
  case pllLockLoss => exact execPllLockLoss_keeps ..
  case mailboxPost => exact execMailboxPost_keeps ..
  case mailboxWithdraw => exact execMailboxWithdraw_keeps ..
  case mailboxClear => exact execMailboxClear_keeps ..
  case mbdbRing => exact execMbdbRing_keeps ..
  case mailboxTake => exact execMailboxTake_keeps ..
  case mailboxProgress => exact execMailboxProgress_keeps ..
  case mailboxComplete => exact execMailboxComplete_keeps ..
  case mailboxDeadline => exact execMailboxDeadline_keeps ..
  case identify => exact execIdentify_keeps ..
  case status => exact execStatus_keeps ..
  case powerLimitSet => exact execPowerLimitSet_keeps ..
  case powerLimitGet => exact execPowerLimitGet_keeps ..
  case domainSwitchOff => exact execDomainSwitchOff_keeps ..
  case domainSwitchOn => exact execDomainSwitchOn_keeps ..
  case beatConfig => exact execBeatConfig_keeps ..
  case drain => exact execDrain_keeps ..
  case release => exact execRelease_keeps ..
  case linkAssign => exact execLinkAssign_keeps ..
  case linkStatus => exact execLinkStatus_keeps ..
  case sensorRead => exact execSensorRead_keeps ..
  case logRead => exact execLogRead_keeps ..
  case historyRead => exact execHistoryRead_keeps ..
  case testPolicy => exact execTestPolicy_keeps ..
  case testResults => exact execTestResults_keeps ..
  case digestSchedule => exact execDigestSchedule_keeps ..
  case digestRead => exact execDigestRead_keeps ..
  case settingsRead => exact execSettingsRead_keeps ..
  case settingsWrite => exact execSettingsWrite_keeps ..
  case updateBegin => exact execUpdateBegin_keeps ..
  case updateData => exact execUpdateData_keeps ..
  case updateCommit => exact execUpdateCommit_keeps ..
  case mpRestart => exact execMpRestart_keeps ..
  case jobOpen => exact execJobOpen_keeps ..
  case jobClose => exact execJobClose_keeps ..
  case i3cPrivateWrite => exact execI3cPrivateWrite_keeps ..
  case i3cPrivateRead => exact execI3cPrivateRead_keeps ..
  case controlRegisterWrite => exact execControlRegisterWrite_keeps ..
  case startupSequence => exact execStartupSequence_keeps ..
  case blkReadyAssert => exact execBlkReadyAssert_keeps ..
  case patternLibraryLoad => exact execPatternLibraryLoad_keeps ..
  case rollbackFuseRaise => exact execRollbackFuseRaise_keeps ..
  case flashOperationComplete => exact execFlashOperationComplete_keeps ..
  case supplyMonitorTrip => exact execSupplyMonitorTrip_keeps ..
  case supplyRecoveryRestart => exact execSupplyRecoveryRestart_keeps ..
  case bypass => exact execBypass_keeps ..
  case samplePreload => exact execSamplePreload_keeps ..
  case extest => exact execExtest_keeps ..
  case idcode => exact execIdcode_keeps ..
  case highz => exact execHighz_keeps ..
  case instrumentAccess => exact execInstrumentAccess_keeps ..
  case mpSramError => exact execMpSramError_keeps ..
  case stackPortFenceComplete => exact execStackPortFenceComplete_keeps ..
  case stackPortTrainingComplete => exact execStackPortTrainingComplete_keeps ..
  case dynamicAddressAssignment => exact execDynamicAddressAssignment_keeps ..
  case enec => exact execEnec_keeps ..
  case create => exact execCreate_keeps ..
  case kill => exact execKill_keeps ..
  case spill => exact execSpill_keeps ..
  case fill => exact execFill_keeps ..
  case kstart => exact execKstart_keeps ..
  case linkPut => exact State.linkIn_keeps _ _ _ fun s m h => by simp [h]
  case linkGet => exact State.linkIn_keeps _ _ _ fun s m h => by simp [h]
  case linkAccp => exact State.linkIn_keeps _ _ _ fun s m h => by simp [h]
  case linkSignal => exact State.linkIn_keeps _ _ _ fun s m h => by simp [h]
  case linkGetr => exact State.linkIn_keeps _ _ _ fun s m h => by simp [State.atOnce, h]
  case linkAck => exact State.linkIn_keeps _ _ _ fun s m h => by simp [State.atOnce, h]
  case linkVoid => exact State.linkIn_keeps _ _ _ fun s m h => by simp [h]
  case linkHreq => exact State.linkIn_keeps _ _ _ fun s m h => by simp [h]
  case linkDbell => exact State.linkIn_keeps _ _ _ fun s m h => by simp [h]
  case linkEsc => exact State.linkIn_keeps _ _ _ fun s m h => by simp [State.atOnce, h]
  all_goals exact ⟨_, rfl, fun h => by simp [h]⟩

end Sys2Proof.Machine

end

section
/-! PROOF. The machine: its steps and its reset. -/

set_option Elab.async false

open Sys2Proof Sys2Proof.Machine

/-- Settles O3: every command keeps the canonical form in a next state, so it answers one. -/
theorem everyCommandAnswers : Obligations.EveryCommandAnswers := by
  intro i s
  obtain ⟨t, ht, _⟩ := exec_keeps i s
  exact ⟨t, ht⟩

/-- Settles O5: the clock does not touch memory, and every command keeps its form. -/
theorem stepKeepsMemoryForm : Obligations.StepKeepsMemoryForm := by
  intro s t hs ht
  unfold step at ht
  split at ht
  · cases ht
    rw [State.MemOk, State.tick_mem]
    exact hs
  · obtain ⟨u, hu, keeps⟩ := exec_keeps _ _
    cases hu.symm.trans ht
    exact keeps hs

/-- Settles O1: `step` looks only at the front of the queue. -/
theorem stepTakesFront : Obligations.StepTakesFront := by
  intro c s
  rfl

/-- Settles O6: the reset memory is the empty map. -/
theorem resetMemoryForm : Obligations.ResetMemoryForm := memWf_nil

/-- Settles O8: the decoder is run on each word. -/
theorem codeWordsDecode : Obligations.CodeWordsDecode := by
  unfold Obligations.CodeWordsDecode
  decide

end

section
/-! PROOF. The clock, the reset state, and writes to storage: the sets of units that a range of bytes touches. -/

set_option Elab.async false

namespace Sys2Proof.Machine

/-! ### Tables under the clock -/

theorem tabGet_tabMap {α : Type} (f : Nat → α → α) {d e : α} (t : Tab α) (k : Nat) (hd : f k d = e) :
    tabGet e (tabMap f t) k = f k (tabGet d t k) := by
  induction t with
  | nil => exact hd.symm
  | cons p t ih =>
    obtain ⟨j, a⟩ := p
    by_cases h : j = k
    · subst h; simp [tabMap, tabGet]
    · simpa [tabMap, tabGet, h] using ih

/-- A core as reset has nothing to count down. -/
theorem Core.tick_reset (n : Nat) : (Core.reset n).tick = Core.reset n := rfl

theorem State.tick_core {s : State} (h : s.live = true) (n : Nat) : s.tick.core n = (s.core n).tick := by
  simp only [State.tick, h, if_true, State.core]
  exact tabGet_tabMap _ _ _ (Core.tick_reset n)

/-- b0 reads 1, and the bit variables of an empty table read 0 (R66). -/
theorem Casement.bit_reset (b : Nat) : ({} : Casement).bit b = (b == 0) := by
  have group (g : Nat) : ({} : Casement).group g = if g = 0 then 1 else 0 := by
    simp [Casement.group, tabGet]
  simp only [Casement.bit, group]
  by_cases h : b = 0
  · simp [h]
  · have : b / 64 ≠ 0 ∨ b % 64 ≠ 0 := by omega
    split <;> simp_all

/-! ### Sets of keys -/

theorem mem_setAdd (l : List Nat) (k x : Nat) : x ∈ setAdd l k ↔ x = k ∨ x ∈ l := by
  induction l with
  | nil => simp [setAdd]
  | cons j t ih =>
    simp only [setAdd]
    split
    · simp
    · split
      · next h => simp [h]
      · simp only [List.mem_cons, ih]; tauto

theorem mem_setAddAll (l ks : List Nat) (x : Nat) : x ∈ setAddAll l ks ↔ x ∈ l ∨ x ∈ ks := by
  induction ks generalizing l with
  | nil => simp [setAddAll]
  | cons k t ih => simp only [setAddAll, ih, mem_setAdd, List.mem_cons]; tauto

theorem mem_setDelAll (l ks : List Nat) (x : Nat) : x ∈ setDelAll l ks ↔ x ∈ l ∧ x ∉ ks := by
  simp [setDelAll]

theorem mem_keysFrom (a n x : Nat) : x ∈ keysFrom a n ↔ a ≤ x ∧ x < a + n := by
  induction n generalizing a with
  | zero => simp [keysFrom]
  | succ n ih => simp only [keysFrom, List.mem_cons, ih]; omega

/-- The units of a size that a range of bytes touches. -/
theorem mem_unitsOf {size : Nat} (hs : 0 < size) (a len x : Nat) :
    x ∈ unitsOf size a len ↔ 0 < len ∧ a < x * size + size ∧ x * size < a + len := by
  simp only [unitsOf]
  split
  · next h => simp_all
  · next h =>
    have hlen : 0 < len := Nat.pos_of_ne_zero (by simpa using h)
    have lower : a / size ≤ x ↔ a < x * size + size := by
      rw [← Nat.succ_mul, ← Nat.div_lt_iff_lt_mul hs]; exact Nat.lt_succ_iff.symm
    have upper : x ≤ (a + len - 1) / size ↔ x * size < a + len := by
      rw [Nat.le_div_iff_mul_le hs]; omega
    have order : a / size ≤ (a + len - 1) / size := Nat.div_le_div_right (by omega)
    rw [mem_keysFrom, ← upper, ← lower]
    omega

/-! ### A write to storage where no error is hidden -/

section
variable (s : State) (a len : Nat)

@[simp] theorem State.dropRows_tags : (s.dropRows a len).tags = s.tags := by
  simp only [State.dropRows]; (repeat' split) <;> rfl
@[simp] theorem State.dropRows_poison : (s.dropRows a len).poison = s.poison := by
  simp only [State.dropRows]; (repeat' split) <;> rfl
@[simp] theorem State.noteDigest_tags : (s.noteDigest a len).tags = s.tags := by
  simp only [State.noteDigest]; (repeat' split) <;> rfl
@[simp] theorem State.noteDigest_poison : (s.noteDigest a len).poison = s.poison := by
  simp only [State.noteDigest]; (repeat' split) <;> rfl
end

section
variable {s : State} (hbad : s.eccBad = []) (hcorr : s.eccCorr = [])
include hbad hcorr

theorem State.writeStore_tags (a : Nat) (bs : List Byte) (bad : Bool) :
    (s.writeStore a bs bad).tags = setDelAll s.tags (unitsOf 16 a bs.length) := by
  simp [State.writeStore, hbad, hcorr]

theorem State.writeStore_poison (a : Nat) (bs : List Byte) (bad : Bool) :
    (s.writeStore a bs bad).poison =
      if bad then setAddAll s.poison (unitsOf 64 a bs.length)
      else setDelAll s.poison ((unitsOf 64 a bs.length).filter fun l => a ≤ l * 64 && l * 64 + 64 ≤ a + bs.length) := by
  simp [State.writeStore, hbad, hcorr]
end

end Sys2Proof.Machine

open Sys2Proof Sys2Proof.Machine

/-- Settles O2: the clock's fields one by one; a core is read from the table that the clock maps. -/
theorem stepTicksWhenIdle : Obligations.StepTicksWhenIdle := by
  intro s hq
  have step_idle : step s = .next s.tick := by simp [step, hq]
  refine ⟨fun hlive => by simp [step_idle, State.tick, hlive], fun hlive => ⟨s.tick, step_idle, ?_⟩⟩
  have core_tick (n : Nat) := State.tick_core hlive n
  refine ⟨by simp [State.tick, hlive], State.tick_mem s, by simp [State.tick, hlive, hq], fun n k => ?_, fun n => ?_,
    by simp [State.tick, hlive]⟩
  · simp [State.case, core_tick, Core.tick]
  · simp [core_tick, Core.tick]

/-- Settles O4: every table of the reset state is empty, so each register reads its default. -/
theorem resetValues : Obligations.ResetValues := by
  intro n k
  exact ⟨rfl, rfl, rfl, rfl, rfl, rfl, fun _ => rfl, fun _ => rfl, fun _ => rfl, Casement.bit_reset, rfl, rfl, rfl, rfl, rfl, rfl, rfl, rfl,
    rfl, rfl, rfl, rfl, rfl, fun _ => rfl⟩

/-- Settles O7: the units that a range touches are those that overlap it. -/
theorem storageWrite : Obligations.StorageWrite := by
  refine ⟨fun s a bs bad => ⟨fun i hi => ?_, fun x hx => ?_⟩, fun s a bs hbad hcorr hne => ⟨fun g => ?_, fun l => ?_, fun l => ?_⟩⟩
  · rw [State.writeStore_byte, if_pos (by omega), Nat.add_sub_cancel_left]
  · rw [State.writeStore_byte, if_neg (by omega)]
  all_goals have hlen : 0 < bs.length := List.length_pos_iff.2 hne
  · rw [State.writeStore_tags hbad hcorr, mem_setDelAll, mem_unitsOf (by decide)]
    exact and_congr_right fun _ => by omega
  · rw [State.writeStore_poison hbad hcorr, if_neg (by decide), mem_setDelAll, List.mem_filter, mem_unitsOf (by decide)]
    simp only [Bool.and_eq_true, decide_eq_true_eq]
    exact and_congr_right fun _ => by omega
  · rw [State.writeStore_poison hbad hcorr, if_pos rfl, mem_setAddAll, mem_unitsOf (by decide)]
    exact or_congr_right (by omega)

end

section
/-! PROOF. The ALU: results and FLG of Tables 03-1 and 03-2. -/

set_option Elab.async false

namespace Sys2Proof.Machine

/-! ### Results and FLG of the ALU (Tables 03-1, 03-2) -/

theorem flgOf_eq_flgWord (r : Word) (c v : Bool) : flgOf r c v = flgWord r c v := by
  have hmsb : r.getLsbD 63 = r.msb := (BitVec.msb_eq_getLsbD_last r).symm
  rw [flgOf, flgWord, hmsb]
  cases r == 0 <;> cases r.msb <;> cases c <;> cases v <;> rfl

theorem outOf64_iff (i : Int) : outOf64 i = decide (i < -2 ^ 63 ∨ 2 ^ 63 ≤ i) := by
  simp only [outOf64, Bool.decide_or]; rfl

theorem bit_eq (c : Bool) : (if c then 1 else 0 : Word) = BitVec.setWidth 64 (BitVec.ofBool c) := by
  cases c <;> rfl

theorem addFlags_carry (a v : Word) (cin : Bool) : addFlags a v cin =
    { val := a + v + BitVec.setWidth 64 (BitVec.ofBool cin)
      flg := flgWord (a + v + BitVec.setWidth 64 (BitVec.ofBool cin)) (decide (2 ^ 64 ≤ a.toNat + v.toNat + cin.toNat))
        (decide (a.toInt + v.toInt + cin.toNat < -2 ^ 63 ∨ 2 ^ 63 ≤ a.toInt + v.toInt + cin.toNat)) } := by
  simp only [addFlags, flgOf_eq_flgWord, outOf64_iff, bit_eq]
  cases cin <;> rfl

theorem addFlags_plain (a v : Word) : addFlags a v false =
    { val := a + v, flg := flgWord (a + v) (decide (2 ^ 64 ≤ a.toNat + v.toNat)) (BitVec.saddOverflow a v) } := by
  have overflow : BitVec.saddOverflow a v = outOf64 (a.toInt + v.toInt) := by
    simp [BitVec.saddOverflow, outOf64, Bool.or_comm]
  simp [addFlags, flgOf_eq_flgWord, b2n, overflow]

theorem subFlags_borrow (a v : Word) (cin : Bool) : subFlags a v cin =
    { val := a - v - BitVec.setWidth 64 (BitVec.ofBool cin)
      flg := flgWord (a - v - BitVec.setWidth 64 (BitVec.ofBool cin)) (decide (a.toNat < v.toNat + cin.toNat))
        (decide (a.toInt - v.toInt - cin.toNat < -2 ^ 63 ∨ 2 ^ 63 ≤ a.toInt - v.toInt - cin.toNat)) } := by
  simp only [subFlags, flgOf_eq_flgWord, outOf64_iff, bit_eq]
  cases cin <;> rfl

theorem subFlags_plain (a v : Word) : subFlags a v false =
    { val := a - v, flg := flgWord (a - v) (a.ult v) (BitVec.ssubOverflow a v) } := by
  have overflow : BitVec.ssubOverflow a v = outOf64 (a.toInt - v.toInt) := by
    simp [BitVec.ssubOverflow, outOf64, Bool.or_comm]
  simp [subFlags, flgOf_eq_flgWord, b2n, overflow, BitVec.ult]

theorem fld_low6 (v : Word) : fld v 0 6 = v.toNat % 64 := by
  simp [fld, bitsOf]

theorem rotateLeft_eq_or (a : Word) {n : Nat} (h : n < 64) : a.rotateLeft n = (a <<< n) ||| (a >>> (64 - n)) := by
  rw [BitVec.rotateLeft_def, Nat.mod_eq_of_lt h]

theorem rolFlags_eq (a v : Word) : rolFlags a v =
    let sh := v.toNat % 64
    let r := (a <<< sh) ||| (a >>> (64 - sh))
    { val := r, flg := flgWord r (decide (1 ≤ sh) && a.getLsbD (64 - sh)) false } := by
  have hlt : v.toNat % 64 < 64 := Nat.mod_lt _ (by decide)
  simp only [rolFlags, fld_low6, rotateLeft_eq_or a hlt, flgOf_eq_flgWord]
  congr 2
  by_cases h : 1 ≤ v.toNat % 64
  · simp [h]; omega
  · simp [h]

theorem logicFlags_eq (r : Word) : logicFlags r = { val := r, flg := flgWord r false false } := by
  rw [logicFlags, flgOf_eq_flgWord]

theorem shlFlags_eq (a v : Word) : shlFlags a v =
    { val := a <<< (v.toNat % 64)
      flg := flgWord (a <<< (v.toNat % 64)) (decide (1 ≤ v.toNat % 64) && a.getLsbD (64 - v.toNat % 64)) false } := by
  simp only [shlFlags, fld_low6, flgOf_eq_flgWord]

theorem shrFlags_eq (a v : Word) : shrFlags a v =
    { val := a >>> (v.toNat % 64)
      flg := flgWord (a >>> (v.toNat % 64)) (decide (1 ≤ v.toNat % 64) && a.getLsbD (v.toNat % 64 - 1)) false } := by
  simp only [shrFlags, fld_low6, flgOf_eq_flgWord]

theorem sarFlags_eq (a v : Word) : sarFlags a v =
    { val := a.sshiftRight (v.toNat % 64)
      flg := flgWord (a.sshiftRight (v.toNat % 64)) (decide (1 ≤ v.toNat % 64) && a.getLsbD (v.toNat % 64 - 1)) false } := by
  simp only [sarFlags, fld_low6, flgOf_eq_flgWord]

theorem sextAt_eq (a v : Word) :
    sextAt a v = (a <<< (63 - v.toNat % 64)).sshiftRight (63 - v.toNat % 64) := by
  have hj : v.toNat % 64 < 64 := Nat.mod_lt _ (by decide)
  apply BitVec.eq_of_getLsbD_eq
  intro i hi
  rw [sextAt, fld_low6, getLsbD_sext _ (Nat.succ_pos _) hi, BitVec.getLsbD_sshiftRight, BitVec.msb_eq_getLsbD_last,
    BitVec.getLsbD_shiftLeft, BitVec.getLsbD_shiftLeft]
  have inside : decide (64 ≤ i) = false := by simpa using hi
  by_cases h : i < v.toNat % 64 + 1
  · have hsum : 63 - v.toNat % 64 + i < 64 := by omega
    simp [h, inside, hsum, BitVec.getLsbD]
  · have hsum : ¬ 63 - v.toNat % 64 + i < 64 := by omega
    have hback : 63 - (63 - v.toNat % 64) = v.toNat % 64 := by omega
    simp [h, inside, hsum, hback, BitVec.getLsbD]

theorem mulHiU_eq (a v : Word) : mulHiU a v = (a.setWidth 128 * v.setWidth 128).extractLsb' 64 64 := by
  have bound : a.toNat * v.toNat < 2 ^ 128 :=
    calc a.toNat * v.toNat < 2 ^ 64 * 2 ^ 64 := Nat.mul_lt_mul'' a.isLt v.isLt
      _ = 2 ^ 128 := by norm_num
  apply BitVec.eq_of_toNat_eq
  have wide (x : Word) : x.toNat % 2 ^ 128 = x.toNat := Nat.mod_eq_of_lt (Nat.lt_trans x.isLt (by norm_num))
  rw [mulHiU, BitVec.extractLsb'_toNat, BitVec.toNat_mul, BitVec.toNat_setWidth, BitVec.toNat_setWidth, BitVec.toNat_ofNat,
    wide, wide, Nat.mod_eq_of_lt bound, Nat.shiftRight_eq_div_pow]

theorem mulHiS_eq (a v : Word) : mulHiS a v = (a.signExtend 128 * v.signExtend 128).extractLsb' 64 64 := by
  apply BitVec.eq_of_toNat_eq
  rw [mulHiS, BitVec.signExtend, BitVec.signExtend, ← BitVec.ofInt_mul, BitVec.extractLsb'_toNat, BitVec.toNat_ofInt,
    BitVec.toNat_ofInt, Nat.shiftRight_eq_div_pow]
  generalize a.toInt * v.toInt = p
  omega

/-! ### Words to the ALU's triggers -/

section
variable {s : State} {n k sock : Nat} {v : Word} (h : s.ready n k = true) (hs : sock < 4096)
  (hu : sockOf sock = some (.trig .alu)) (hc : isControl sock = false)
include h hs hu hc

/-- A trigger of Table 03-1 answers its result and its FLG. -/
theorem issueMove_aluFlag {r f : Word}
    (ht : trigAlu (s.arrivals n k) n k sock v = (s.arrivals n k).aluFlag n k { val := r, flg := f }) :
    (.next (s.issueMove n sock v) : Out) =
      s.changes n k sock v fun x => Casement.addPend { x with flg := f } .aluRes 1 r :=
  issueMove_done h hs hu (.inl hc) (by rw [fire_alu hu, ht]; rfl)

/-- alu.cmp answers its FLG alone. -/
theorem issueMove_aluFlagOnly {r f : Word}
    (ht : trigAlu (s.arrivals n k) n k sock v = (s.arrivals n k).aluFlagOnly n k { val := r, flg := f }) :
    (.next (s.issueMove n sock v) : Out) = s.changes n k sock v fun x => Casement.touch { x with flg := f } 0 :=
  issueMove_done h hs hu (.inl hc) (by rw [fire_alu hu, ht]; rfl)

/-- A trigger that writes no flags answers its result. -/
theorem issueMove_aluResult {p : Port} {d : Nat} {r : Word}
    (ht : trigAlu (s.arrivals n k) n k sock v = (s.arrivals n k).result n k p d r) :
    (.next (s.issueMove n sock v) : Out) = s.changes n k sock v fun x => x.addPend p d r :=
  issueMove_done h hs hu (.inl hc) (by rw [fire_alu hu, ht]; rfl)

end

/-- Of two equal operands either is the extreme. -/
theorem ite_toInt_lt (a v x y : Word) (hxy : a = v → x = y) :
    (if a.toInt < v.toInt then x else y) = if a.sle v then x else y := by
  have sle : a.sle v = true ↔ a.toInt ≤ v.toInt := by simp [BitVec.sle]
  simp only [sle]
  rcases Int.lt_trichotomy a.toInt v.toInt with h | h | h
  · rw [if_pos h, if_pos h.le]
  · rw [if_neg h.not_lt, if_pos h.le, hxy (BitVec.eq_of_toInt_eq h)]
  · rw [if_neg (by omega), if_neg (by omega)]

theorem ite_toNat_lt (a v x y : Word) (hxy : a = v → x = y) :
    (if a.toNat < v.toNat then x else y) = if a.ule v then x else y := by
  have ule : a.ule v = true ↔ a.toNat ≤ v.toNat := by simp [BitVec.ule]
  simp only [ule]
  rcases Nat.lt_trichotomy a.toNat v.toNat with h | h | h
  · rw [if_pos h, if_pos h.le]
  · rw [if_neg h.not_lt, if_pos h.le, hxy (BitVec.eq_of_toNat_eq h)]
  · rw [if_neg (by omega), if_neg (by omega)]

end Sys2Proof.Machine

open Sys2Proof Sys2Proof.Machine

/-- Settles O11: each trigger's result and FLG as Tables 03-1 and 03-2 write them. -/
theorem aluFlagRows : Obligations.AluFlagRows := by
  refine ⟨?flags, ?plain⟩
  case flags =>
    intro core v s k h n a cin sh out
    have flag {sock : Nat} {r : Word} {c o : Bool} (hs : sock < 4096) (hu : sockOf sock = some (.trig .alu))
        (hc : isControl sock = false)
        {res : AluRes} (hres : res = { val := r, flg := flgWord r c o })
        (ht : trigAlu (s.arrivals n k) n k sock v = (s.arrivals n k).aluFlag n k res := by rfl) :
        (.next (s.issueMove n sock v) : Out) = out sock r c o := issueMove_aluFlag h hs hu hc (hres ▸ ht)
    have compare : trigAlu (s.arrivals n k) n k 0x34 v =
        (s.arrivals n k).aluFlagOnly n k { val := a - v, flg := flgWord (a - v) (a.ult v) (BitVec.ssubOverflow a v) } :=
      subFlags_plain a v ▸ rfl
    exact ⟨flag (by decide) rfl rfl (addFlags_plain a v),
      flag (by decide) rfl rfl (subFlags_plain a v),
      flag (by decide) rfl rfl (addFlags_carry a v cin),
      flag (by decide) rfl rfl (subFlags_borrow a v cin),
      flag (by decide) rfl rfl (logicFlags_eq _),
      flag (by decide) rfl rfl (logicFlags_eq _),
      flag (by decide) rfl rfl (logicFlags_eq _),
      flag (by decide) rfl rfl (logicFlags_eq _),
      flag (by decide) rfl rfl (shlFlags_eq a v),
      flag (by decide) rfl rfl (shrFlags_eq a v),
      flag (by decide) rfl rfl (sarFlags_eq a v),
      flag (by decide) rfl rfl (rolFlags_eq a v),
      issueMove_aluFlagOnly h (by decide) rfl rfl compare⟩
  case plain =>
    intro core v s k h n a j out
    have result {sock : Nat} {p : Port} {d : Nat} {r q : Word} (hs : sock < 4096) (hu : sockOf sock = some (.trig .alu))
        (hc : isControl sock = false) (hq : q = r)
        (ht : trigAlu (s.arrivals n k) n k sock v = (s.arrivals n k).result n k p d q := by rfl) :
        (.next (s.issueMove n sock v) : Out) = out sock p d r := issueMove_aluResult h hs hu hc (hq ▸ ht)
    exact ⟨result (by decide) rfl rfl (ite_toInt_lt a v a v id), result (by decide) rfl rfl (ite_toInt_lt a v v a Eq.symm),
      result (by decide) rfl rfl (ite_toNat_lt a v a v id), result (by decide) rfl rfl (ite_toNat_lt a v v a Eq.symm),
      result (by decide) rfl rfl (sextAt_eq a v), result (by decide) rfl rfl (Eq.refl (a * v)),
      result (by decide) rfl rfl (mulHiS_eq a v), result (by decide) rfl rfl (mulHiU_eq a v)⟩

end

section
/-! PROOF. Results that arrive, and what lands with them. -/

set_option Elab.async false

namespace Sys2Proof.Machine

/-! ### What has landed (R94) -/


@[simp] theorem Casement.land_pend (c : Casement) (x : Contrib) : (c.land x).pend = c.pend := by
  unfold Casement.land; split <;> rfl
@[simp] theorem Casement.land_shown (c : Casement) (x : Contrib) : (c.land x).shown = c.shown := by
  unfold Casement.land; split <;> rfl

theorem Casement.land_flags (c : Casement) (x : Contrib) : (c.land x).landed.flags = c.landed.flags ||| x.flags := by
  unfold Casement.land
  split
  · next h => simp [eq_of_beq h]
  · rfl

theorem Casement.land_count (c : Casement) (x : Contrib) : (c.land x).landed.nsat = c.landed.nsat + x.nsat := by
  unfold Casement.land
  split
  · next h => simp [eq_of_beq h]
  · rfl

/-- The flags' places in FPC. -/
theorem flagBits_or (x y : BitVec 5) : BitVec.ofNat 64 ((x ||| y).toNat * 256) =
    BitVec.ofNat 64 (x.toNat * 256) ||| BitVec.ofNat 64 (y.toNat * 256) := by
  have place (z : BitVec 5) : BitVec.ofNat 64 (z.toNat * 256) = z.setWidth 64 <<< 8 := by
    apply BitVec.eq_of_toNat_eq
    simp [Nat.shiftLeft_eq]
  simp only [place, BitVec.setWidth_or, BitVec.shiftLeft_or_distrib]

theorem bumpBy_bumpBy {n : Nat} (c : BitVec n) (j k : Nat) : bumpBy (bumpBy c j) k = bumpBy c (j + k) := by
  apply BitVec.eq_of_toNat_eq
  have pos : 0 < 2 ^ n := Nat.two_pow_pos n
  have low (m : Nat) : min m (2 ^ n - 1) % 2 ^ n = min m (2 ^ n - 1) := Nat.mod_eq_of_lt (by omega)
  simp only [bumpBy, BitVec.toNat_ofNat, low]
  omega

/-! ### Results that arrive (R43, R94) -/

theorem showOn_putShown (l : List (Port × PortVal)) (p q : Port) (v : PortVal) :
    showOn (putShown l p v) q = if q = p then v else showOn l q := by
  by_cases h : q = p
  · subst h; simp [showOn, putShown]
  · have kept : (fun x : Port × PortVal => !decide (x.1 = p) && decide (x.1 = q)) = fun x => decide (x.1 = q) := by
      funext x
      by_cases hx : x.1 = q <;> simp [hx, h]
    simp [showOn, putShown, h, Ne.symm h, List.find?_filter, kept]
    rfl

/-- Results that are not due stay pending. -/
theorem deliverList_later {t : Nat} {l : List Pending} (h : ∀ x ∈ l, t < x.due) (rest : List Pending) (c : Casement) :
    ∃ pre, deliverList t (l ++ rest) c = deliverList t rest { c with pend := c.pend ++ pre } := by
  induction l generalizing c with
  | nil => exact ⟨[], by simp⟩
  | cons x l ih =>
    have hx : ¬ x.due ≤ t := Nat.not_le.2 (h x (by simp))
    obtain ⟨pre, e⟩ := ih (fun y hy => h y (by simp [hy]))
      { c with pend := c.pend ++ [{ x with hidden := x.hidden || elapsedOn t x.port (l ++ rest) }] }
    refine ⟨{ x with hidden := x.hidden || elapsedOn t x.port (l ++ rest) } :: pre, ?_⟩
    simpa [deliverList, hx] using e

/-- A result whose delay has elapsed, with no later one of its port elapsed, is shown. -/
theorem deliverList_shows {t : Nat} {p : Pending} (hdue : p.due ≤ t) (hready : p.await = .ready) (hkey : p.keyWrite = none)
    (hhidden : p.hidden = false) (c : Casement) :
    deliverList t [p] c = { c.land p.contrib with shown := putShown c.shown p.port p.data } := by
  have shown : (c.land p.contrib).shown = c.shown := by unfold Casement.land; split <;> rfl
  simp [deliverList, hdue, hready, hkey, hhidden, elapsedOn, shown]

/-- A result that a later one of its port supersedes lands its contributions and is not shown. -/
theorem deliverList_superseded {t : Nat} {p : Pending} {rest : List Pending} (hdue : p.due ≤ t) (hready : p.await = .ready)
    (hkey : p.keyWrite = none) (hlater : elapsedOn t p.port rest = true) (c : Casement) :
    deliverList t (p :: rest) c = deliverList t rest (c.land p.contrib) := by
  simp [deliverList, hdue, hready, hkey, hlater]

/-- Of two results of one port whose delays have elapsed the later shows, and both land. -/
theorem deliverList_two {t : Nat} {p q : Pending} (hdue : p.due ≤ t ∧ q.due ≤ t) (hready : p.await = .ready ∧ q.await = .ready)
    (hkey : p.keyWrite = none ∧ q.keyWrite = none) (hhidden : q.hidden = false) (hport : p.port = q.port) (c : Casement) :
    deliverList t [p, q] c =
      { (c.land p.contrib).land q.contrib with shown := putShown c.shown q.port q.data } := by
  have later : elapsedOn t p.port [q] = true := by simp [elapsedOn, hport, hdue.2]
  rw [deliverList_superseded hdue.1 hready.1 hkey.1 later, deliverList_shows hdue.2 hready.2 hkey.2 hhidden]
  simp

theorem Casement.deliver_none {c : Casement} (h : ∀ x ∈ c.pend, c.icount < x.due) : c.deliver = c := by
  have none_due : (c.pend.any fun e => decide (e.due ≤ c.icount)) = false := by
    simpa using h
  simp [Casement.deliver, none_due]

theorem Casement.deliver_some {c : Casement} {x : Pending} (hx : x ∈ c.pend) (hdue : x.due ≤ c.icount) :
    c.deliver = deliverList c.icount c.pend { c with pend := [] } := by
  have some_due : (c.pend.any fun e => decide (e.due ≤ c.icount)) = true := by
    simpa using ⟨x, hx, hdue⟩
  simp [Casement.deliver, some_due]

theorem Casement.port_putShown {c d : Casement} {p : Port} {v : PortVal} (h : c.shown = putShown d.shown p v) :
    c.port p = v ∧ ∀ q, q ≠ p → c.port q = d.port q := by
  simp only [Casement.port, h, showOn_putShown, if_true, true_and]
  exact fun q hq => if_neg hq

end Sys2Proof.Machine

open Sys2Proof Sys2Proof.Machine

/-- Settles O10: the results that are not due stay before the one that is; of two that are due the later one shows. -/
theorem resultsArrive : Obligations.ResultsArrive := by
  refine ⟨fun c p d e v hpend => ⟨fun hlt => ?_, fun hle => ?_⟩, ?_⟩
  · have stays : Casement.deliver { c.addPend p d v with icount := c.icount + e } = { c.addPend p d v with icount := c.icount + e } := by
      refine Casement.deliver_none fun q hq => ?_
      rcases List.mem_append.1 hq with hq | hq
      · exact hpend q hq
      · rw [List.mem_singleton.1 hq]; exact Nat.add_lt_add_left hlt _
    rw [stays]; rfl
  · obtain ⟨pre, hpre⟩ := deliverList_later hpend [{ port := p, due := c.icount + d, id := 0, data := { val := v } }]
      { c.addPend p d v with icount := c.icount + e, pend := [] }
    have shows : (Casement.deliver { c.addPend p d v with icount := c.icount + e }).shown = putShown c.shown p { val := v } := by
      refine (congrArg Casement.shown ((Casement.deliver_some (x := { port := p, due := c.icount + d, id := 0, data := { val := v } })
        (List.mem_append_right _ (List.mem_singleton.2 rfl)) (Nat.add_le_add_left hle _)).trans hpre)).trans ?_
      rw [deliverList_shows (Nat.add_le_add_left hle _) rfl rfl rfl]
      rfl
    exact Casement.port_putShown shows
  · intro c p d v w x y hpend hlanded c2 after
    have pend : c2.pend = [{ port := p, due := c.icount + d, id := 0, data := v, contrib := x },
        { port := p, due := c.icount + d, id := 0, data := w, contrib := y }] := by
      rw [pend_addPending, pend_addPending, hpend]
      rfl
    have delivered : after = deliverList (c.icount + d) c2.pend { c2 with icount := c.icount + d, pend := [] } :=
      Casement.deliver_some (c := { c2 with icount := c.icount + d }) (pend ▸ List.mem_cons_self) le_rfl
    have final : after = { (Casement.land { c2 with icount := c.icount + d, pend := [] } x).land y with
        shown := putShown c.shown p w } := by
      rw [delivered, pend]
      refine (deliverList_two ?_ ?_ ?_ ?_ ?_ _).trans ?_ <;> simp [c2]
    have landed : after.landed.flags = x.flags ||| y.flags ∧ after.landed.nsat = x.nsat + y.nsat := by
      constructor <;> simp [final, Casement.land_flags, Casement.land_count, c2, hlanded]
    have fpc : after.fpc = c.fpc := by simp [final, c2]
    have nsat : after.nsat = c.nsat := by simp [final, c2]
    refine ⟨(Casement.port_putShown (d := c) (by rw [final])).1, by simp [final], fpc, nsat, ?_, ?_⟩
    · rw [Casement.settleRegs, Casement.landRegs, fpc, landed.1, flagBits_or, BitVec.or_assoc]
    · simp [Casement.settleRegs, Casement.landRegs, nsat, landed.2, bumpBy_bumpBy]

end

section
/-! PROOF. What every issued word does beside its own effect. -/

set_option Elab.async false

namespace Sys2Proof.Machine

/-! ### The end of an ordinary word -/

/-- A word of one long move that enters and leaves no wicket, whatever its destination is. -/
theorem State.wrote_move_false (b : State) (n k sock : Nat) (v : Word) (p : Nat → Bool) (hs : sock < 4096) (hp : p sock = false) :
    b.wrote n k (.move (BitVec.ofNat 12 sock) v) p = false := by
  have hn : (BitVec.ofNat 12 sock).toNat = sock := by simp; omega
  by_cases hd : dstOk sock = true
  · rw [State.wrote_move b n k sock v p hs hd, hp]
  · simp [State.wrote, CodeWord.moves, hn, hd]

/-- R49, Table 02-14: past a body whose last execution this was, and past any other word, the program counter moves on. -/
theorem Casement.advance_calm (c old : Casement) (len : Nat) (wr : Bool) (hb : old.inBody = false) (hx : old.inSlot = false) :
    ∃ x, c.advance old len wr = { c with pc := old.pc + BitVec.ofNat 48 len, xfer := x } := by
  cases e : old.xfer with
  | none => exact ⟨c.xfer, by simp [Casement.advance, hb, e]⟩
  | some x =>
    have slots : x.slots = 0 := by simpa [Casement.inSlot, e] using hx
    exact ⟨_, by simp only [Casement.advance, hb, e, slots]; rfl⟩

/-- A change of a core that leaves a part of every core as it was. -/
theorem State.core_onCore_keeps {α : Type} (g : Core → α) {f : Core → Core} (hf : ∀ c, g (f c) = g c) (s : State) (n m : Nat) :
    g ((s.onCore n f).core m) = g (s.core m) := by
  rw [core_onCore]
  split
  · next h => rw [hf, h]
  · rfl

/-- The end of a word leaves a part of a core as it was that is not the casements, the issue count, the walks, the keeper's
count or the task table. -/
theorem State.core_afterIssue_keeps {α : Type} (g : Core → α)
    (hg : ∀ c cs cy ws ki ts, g { c with cases := cs, cycle := cy, walks := ws, keeperIssues := ki, tasks := ts } = g c)
    (s : State) (n k : Nat) (w : Option Nat) (m : Nat) : g ((s.afterIssue n k w).core m) = g (s.core m) := by
  have counted (t : State) (f : Casement → Casement) : g (((t.onCase n k f).onCore n fun c => { c with
      cycle := c.cycle + 1, walks := c.walks.filter (·.use != .word k)
      keeperIssues := if k == 8 then c.keeperIssues + 1 else c.keeperIssues }).core m) = g (t.core m) := by
    rw [State.core_onCore_keeps g (fun c => hg c c.cases _ _ _ c.tasks)]
    exact State.core_onCore_keeps g (fun c => hg c _ c.cycle c.walks c.keeperIssues c.tasks) t n m
  cases w with
  | none => exact counted s _
  | some t =>
    simp only [State.afterIssue, State.onTask]
    split
    · exact counted s _
    · exact (State.core_onCore_keeps g (fun c => hg c c.cases c.cycle c.walks c.keeperIssues _) _ n m).trans (counted s _)

theorem State.case_afterIssue_other (s : State) (n k : Nat) (w : Option Nat) {m j : Nat} (h : (m, j) ≠ (n, k)) :
    (s.afterIssue n k w).case m j = s.case m j := by
  have hmj : ¬(m = n ∧ j = k) := fun ⟨hm, hj⟩ => h (by rw [hm, hj])
  have counted (t : State) (f : Casement → Casement) (g : Core → Core) (hg : ∀ c, (g c).cases = c.cases) :
      ((t.onCase n k f).onCore n g).case m j = t.case m j := by
    rw [State.case, State.core_onCore_keeps (·.cases) hg]
    exact (case_onCase t n k m j f).trans (if_neg hmj)
  cases w with
  | none => exact counted s _ _ fun _ => rfl
  | some t =>
    rw [State.afterIssue, State.case_onTask]
    exact counted s _ _ fun _ => rfl

/-! What settling the reports of a cycle leaves as it was. -/
@[simp] theorem Casement.settleRegs_task (c : Casement) : c.settleRegs.task = c.task := rfl
@[simp] theorem Casement.settleRegs_pc (c : Casement) : c.settleRegs.pc = c.pc := rfl
@[simp] theorem Casement.settleRegs_icount (c : Casement) : c.settleRegs.icount = c.icount := rfl
@[simp] theorem Casement.settleRegs_d (c : Casement) : c.settleRegs.d = c.d := rfl
@[simp] theorem Casement.settleRegs_k (c : Casement) : c.settleRegs.k = c.k := rfl
@[simp] theorem Casement.settleRegs_lent (c : Casement) : c.settleRegs.lent = c.lent := rfl
@[simp] theorem Casement.settleRegs_x (c : Casement) : c.settleRegs.x = c.x := rfl
@[simp] theorem Casement.settleRegs_xpend (c : Casement) : c.settleRegs.xpend = c.xpend := rfl
@[simp] theorem Casement.settleRegs_s2ctl (c : Casement) : c.settleRegs.s2ctl = c.s2ctl := rfl
@[simp] theorem Casement.settleRegs_bnk (c : Casement) : c.settleRegs.bnk = c.bnk := rfl
@[simp] theorem Casement.settleRegs_tsbp (c : Casement) : c.settleRegs.tsbp = c.tsbp := rfl
@[simp] theorem Casement.settleRegs_gsel (c : Casement) : c.settleRegs.gsel = c.gsel := rfl
@[simp] theorem Casement.settleRegs_flg (c : Casement) : c.settleRegs.flg = c.flg := rfl
@[simp] theorem Casement.settleRegs_rptc (c : Casement) : c.settleRegs.rptc = c.rptc := rfl
@[simp] theorem Casement.settleRegs_dsp (c : Casement) : c.settleRegs.dsp = c.dsp := rfl
@[simp] theorem Casement.settleRegs_rsa (c : Casement) : c.settleRegs.rsa = c.rsa := rfl
@[simp] theorem Casement.settleRegs_rstack (c : Casement) : c.settleRegs.rstack = c.rstack := rfl
@[simp] theorem Casement.settleRegs_bits (c : Casement) : c.settleRegs.bits = c.bits := rfl
@[simp] theorem Casement.settleRegs_watches (c : Casement) : c.settleRegs.watches = c.watches := rfl
@[simp] theorem Casement.settleRegs_opnd (c : Casement) : c.settleRegs.opnd = c.opnd := rfl
@[simp] theorem Casement.settleRegs_shown (c : Casement) : c.settleRegs.shown = c.shown := rfl
@[simp] theorem Casement.settleRegs_pend (c : Casement) : c.settleRegs.pend = c.pend := rfl
@[simp] theorem Casement.settleRegs_rdc (c : Casement) : c.settleRegs.rdc = c.rdc := rfl
@[simp] theorem Casement.settleRegs_asl (c : Casement) : c.settleRegs.asl = c.asl := rfl
@[simp] theorem Casement.settleRegs_tfs (c : Casement) : c.settleRegs.tfs = c.tfs := rfl
@[simp] theorem Casement.settleRegs_tfva (c : Casement) : c.settleRegs.tfva = c.tfva := rfl
@[simp] theorem Casement.settleRegs_tfia (c : Casement) : c.settleRegs.tfia = c.tfia := rfl
@[simp] theorem Casement.settleRegs_rowNext (c : Casement) : c.settleRegs.rowNext = c.rowNext := rfl
@[simp] theorem Casement.settleRegs_frame (c : Casement) : c.settleRegs.frame = c.frame := rfl
@[simp] theorem Casement.settleRegs_switched (c : Casement) : c.settleRegs.switched = c.switched := rfl
@[simp] theorem Casement.settleRegs_ticket (c : Casement) : c.settleRegs.ticket = c.ticket := rfl
@[simp] theorem Casement.settleRegs_gen (c : Casement) : c.settleRegs.gen = c.gen := rfl
@[simp] theorem Casement.settleRegs_dfmFmt (c : Casement) : c.settleRegs.dfmFmt = c.dfmFmt := rfl
@[simp] theorem Casement.settleRegs_acc (c : Casement) : c.settleRegs.acc = c.acc := rfl
@[simp] theorem Casement.settleRegs_v (c : Casement) : c.settleRegs.v = c.v := rfl
@[simp] theorem Casement.settleRegs_vpoison (c : Casement) : c.settleRegs.vpoison = c.vpoison := rfl
@[simp] theorem Casement.settleRegs_vres (c : Casement) : c.settleRegs.vres = c.vres := rfl
@[simp] theorem Casement.settleRegs_m (c : Casement) : c.settleRegs.m = c.m := rfl
@[simp] theorem Casement.settleRegs_vlen (c : Casement) : c.settleRegs.vlen = c.vlen := rfl
@[simp] theorem Casement.settleRegs_t (c : Casement) : c.settleRegs.t = c.t := rfl
@[simp] theorem Casement.settleRegs_tpoison (c : Casement) : c.settleRegs.tpoison = c.tpoison := rfl
@[simp] theorem Casement.settleRegs_tres (c : Casement) : c.settleRegs.tres = c.tres := rfl
@[simp] theorem Casement.settleRegs_tCorr (c : Casement) : c.settleRegs.tCorr = c.tCorr := rfl
@[simp] theorem Casement.settleRegs_tErr (c : Casement) : c.settleRegs.tErr = c.tErr := rfl
@[simp] theorem Casement.settleRegs_call (c : Casement) : c.settleRegs.call = c.call := rfl
@[simp] theorem Casement.settleRegs_xfer (c : Casement) : c.settleRegs.xfer = c.xfer := rfl
@[simp] theorem Casement.settleRegs_waiting (c : Casement) : c.settleRegs.waiting = c.waiting := rfl
@[simp] theorem Casement.settleRegs_raised (c : Casement) : c.settleRegs.raised = c.raised := rfl
@[simp] theorem Casement.settleRegs_held (c : Casement) : c.settleRegs.held = c.held := rfl
@[simp] theorem Casement.settleRegs_fails (c : Casement) : c.settleRegs.fails = c.fails := rfl
@[simp] theorem Casement.settleRegs_asyncDue (c : Casement) : c.settleRegs.asyncDue = c.asyncDue := rfl
@[simp] theorem Casement.settleRegs_stores (c : Casement) : c.settleRegs.stores = c.stores := rfl
@[simp] theorem Casement.settleRegs_first (c : Casement) : c.settleRegs.first = c.first := rfl
@[simp] theorem Casement.settleRegs_frameRet (c : Casement) : c.settleRegs.frameRet = c.frameRet := rfl
@[simp] theorem Casement.settleRegs_skip (c : Casement) : c.settleRegs.skip = c.skip := rfl
@[simp] theorem Casement.settleRegs_dBad (c : Casement) : c.settleRegs.dBad = c.dBad := rfl
@[simp] theorem Casement.settleRegs_kBad (c : Casement) : c.settleRegs.kBad = c.kBad := rfl
@[simp] theorem Casement.settleRegs_gBad (c : Casement) : c.settleRegs.gBad = c.gBad := rfl
@[simp] theorem Casement.settleRegs_otherBad (c : Casement) : c.settleRegs.otherBad = c.otherBad := rfl
@[simp] theorem Casement.settleRegs_dirty (c : Casement) : c.settleRegs.dirty = c.dirty := rfl

/-! ### What an ordinary word of one long move answers -/

/-- R43, R49, R94: the state an ordinary word answers where its effect leaves `s1`, part by part. -/
structure Issued (s s1 : State) (n k : Nat) (t : State) : Prop where
  case : ∃ x g, t.case n k = Casement.touch { ((s1.case n k).settleRegs) with
    pc := (s.reg n k).pc + 4, xfer := x, icount := (s1.case n k).icount + 1, held := [], waiting := none, first := false
    switched := false, frameRet := false } g
  others : ∀ m j, (m, j) ≠ (n, k) → t.case m j = s1.case m j
  core : ∀ {α : Type} (g : Core → α), (∀ c cs cy ws ki ts,
    g { c with cases := cs, cycle := cy, walks := ws, keeperIssues := ki, tasks := ts } = g c) → ∀ m, g (t.core m) = g (s1.core m)
  block : ∀ {α : Type} (g : State → α), (∀ s n f, g (State.onCore s n f) = g s) → g t = g s1

/-- Reports land in registers that moving on to the next word leaves alone. -/
theorem Casement.settleRegs_moved (c : Casement) (pc : BitVec 48) (x : Option Transfer) :
    ({ c with pc := pc, xfer := x } : Casement).settleRegs = { c.settleRegs with pc := pc, xfer := x } := by
  cases c
  rfl

/-- A calm word of four bytes that neither enters nor leaves a wicket or a frame and ends no handler of the keeper. -/
theorem State.commit_issued {s : State} {n k : Nat} (s1 : State) {w : CodeWord} (hbytes : w.bytes = 4)
    (hjumps : (s.arrivals n k).wrote n k w (fun d => d == 0x494 || d == 0x495) = false)
    (hwait : k = 8 → (s.arrivals n k).wrote n k w (· == 0x496) = false) (hcalm : s.calm n k = true) :
    Issued s s1 n k (s1.commit (s.arrivals n k) n k w) := by
  simp only [State.calm, State.free_, State.reg, Bool.and_eq_true, Bool.not_eq_true'] at hcalm
  obtain ⟨⟨⟨⟨hslot, hbody⟩, hfirst⟩, hframe⟩, hswitched⟩ := hcalm
  have commit := State.commit_calm s1 (s.arrivals n k) n k w hfirst hframe hswitched hbody hjumps hwait
  refine ⟨?_, ?_, ?_, ?_⟩
  · obtain ⟨x, hadv⟩ := Casement.advance_calm (s1.case n k) ((s.arrivals n k).case n k) 4
      ((s.arrivals n k).wrote n k w (· == 0xC1)) hbody hslot
    refine ⟨x, 0, ?_⟩
    rw [commit, hbytes, State.case_afterIssue, case_onCase, if_pos ⟨rfl, rfl⟩]
    rw [hadv, Casement.settleRegs_moved]
    rfl
  · intro m j h
    rw [commit, State.case_afterIssue_other _ _ _ _ h, case_onCase, if_neg (fun ⟨hm, hj⟩ => h (by rw [hm, hj]))]
  · intro α g hg m
    rw [commit, State.core_afterIssue_keeps g hg]
    exact State.core_onCore_keeps g (fun c => hg c _ c.cycle c.walks c.keeperIssues c.tasks) s1 n m
  · intro α g hg
    rw [commit, State.afterIssue_keeps g hg, State.onCase, State.setCase]
    exact hg _ _ _

theorem State.issues_calm {s : State} {n k sock : Nat} (v : Word) (s1 : State) (hs : sock < 4096) (hwkt : sock ≠ 0x494)
    (hret : sock ≠ 0x495) (hwait : k = 8 → sock ≠ 0x496) (hcalm : s.calm n k = true) :
    ∃ t, s.issues n k sock v s1 = .next t ∧ Issued s s1 n k t :=
  ⟨_, rfl, State.commit_issued s1 rfl (State.wrote_move_false _ _ _ _ _ _ hs (by simp [hwkt, hret]))
    (fun hk => State.wrote_move_false _ _ _ _ _ _ hs (by simpa using hwait hk)) hcalm⟩

/-! ### Repeat counts (R49, Table 02-14) -/

/-- Bits of a word with a field replaced. -/
theorem getLsbD_setFld (w : Word) (lo n x : Nat) {i : Nat} (hi : i < 64) :
    (setFld w lo n x).getLsbD i = if lo ≤ i ∧ i < lo + n then x.testBit (i - lo) else w.getLsbD i := by
  simp only [setFld, BitVec.getLsbD_or, BitVec.getLsbD_and, BitVec.getLsbD_not, BitVec.getLsbD_ofNat, Nat.testBit_mul_two_pow,
    Nat.testBit_two_pow_sub_one, Nat.testBit_mod_two_pow, hi, decide_true, Bool.true_and]
  by_cases h1 : lo ≤ i <;> by_cases h2 : i < lo + n
  · have : i - lo < n := by omega
    simp [h1, h2, this]
  · have : ¬ i - lo < n := by omega
    simp [h1, h2, this]
  · simp [h1]
  · simp [h1]

theorem rptcNext_counts {r : Word} (h : 1 < r.toNat % 2 ^ 32) (hact : r.getLsbD 33 = true) :
    (rptcNext r).toNat % 2 ^ 32 = r.toNat % 2 ^ 32 - 1 ∧ (rptcNext r).getLsbD 33 = true ∧
      (rptcNext r).getLsbD 32 = r.getLsbD 32 := by
  have count : fld r 0 32 = r.toNat % 2 ^ 32 := by simp [fld_eq_div_mod]
  have next : rptcNext r = setFld r 0 32 (fld r 0 32 - 1) := if_neg (by omega)
  have fits : r.toNat % 2 ^ 32 - 1 < 2 ^ 32 := by omega
  rw [next, count]
  refine ⟨?_, ?_, ?_⟩
  · apply Nat.eq_of_testBit_eq
    intro i
    rw [Nat.testBit_mod_two_pow]
    by_cases hi : i < 32
    · have bit := getLsbD_setFld r 0 32 (r.toNat % 2 ^ 32 - 1) (show i < 64 by omega)
      rw [BitVec.getLsbD] at bit
      rw [bit, decide_eq_true hi, Bool.true_and, if_pos ⟨by omega, by omega⟩, Nat.sub_zero]
    · simp only [hi, decide_false, Bool.false_and]
      exact (Nat.testBit_lt_two_pow (Nat.lt_of_lt_of_le fits (Nat.pow_le_pow_right (by decide) (by omega)))).symm
  · rw [getLsbD_setFld _ _ _ _ (by decide), if_neg (by decide), hact]
  · rw [getLsbD_setFld _ _ _ _ (by decide), if_neg (by decide)]

theorem rptcNext_ends {r : Word} (h : r.toNat % 2 ^ 32 ≤ 1) : rptcNext r = 0 := by
  have count : fld r 0 32 ≤ 1 := by simpa [fld_eq_div_mod] using h
  simp [rptcNext, count]

end Sys2Proof.Machine

open Sys2Proof Sys2Proof.Machine

/-- Settles O9: of an issued word by what the end of a calm word leaves of the casement, of delay slots and repeat bodies by
their count. -/
theorem issueAdvances : Obligations.IssueAdvances := by
  refine ⟨?word, ?slots, ?body⟩
  case word =>
    intro s s1 n k sock v hs hwkt hret hwait hcalm t
    obtain ⟨t', ht', issued⟩ := State.issues_calm v s1 hs hwkt hret hwait hcalm
    obtain rfl : t = t' := by injection ht'
    obtain ⟨x, g, hcase⟩ := issued.case
    refine ⟨ht', ?_⟩
    clear_value t
    refine ⟨by simp [hcase], by simp [hcase], by simp [hcase], by simp [hcase], by simp [hcase], by simp [hcase], by simp [hcase],
      by simp [hcase], by simp [hcase], by simp [hcase], by simp [hcase], by simp [hcase], by simp [hcase], by simp [hcase],
      by simp [hcase], by simp [hcase], by simp [hcase], by simp [hcase], issued.others, fun m => ?_, ?_⟩
    · exact ⟨issued.core (·.sbuf) (fun _ _ _ _ _ _ => rfl) m, issued.core (·.dcache) (fun _ _ _ _ _ _ => rfl) m,
        issued.core (·.tlb) (fun _ _ _ _ _ _ => rfl) m, issued.core (·.running) (fun _ _ _ _ _ _ => rfl) m,
        issued.core (·.readyQ) (fun _ _ _ _ _ _ => rfl) m⟩
    · exact ⟨issued.block (·.mem) fun _ _ _ => rfl, issued.block (·.packets) fun _ _ _ => rfl,
        issued.block (·.links) fun _ _ _ => rfl, issued.block (·.mail) fun _ _ _ => rfl, issued.block (·.log) fun _ _ _ => rfl⟩
  case slots =>
    intro c old len x hbody hxfer
    refine ⟨fun hslots => ?_, fun hslots => ?_⟩ <;> simp [Casement.advance, hbody, hxfer, hslots]
  case body =>
    intro c old len hbody hxfer r
    have count : fld old.rptc 0 32 = old.rptc.toNat % 2 ^ 32 := by simp [fld_eq_div_mod]
    have next : r = rptcNext old.rptc := by simp [r, Casement.advance, hbody, hxfer]
    have act : old.rptc.getLsbD 33 = true := hbody
    rw [next]
    refine ⟨fun hmore => ⟨?_, rptcNext_counts hmore act⟩, fun hlast => ⟨?_, rptcNext_ends hlast⟩⟩
    · simp [Casement.advance, hbody, hxfer, count, Nat.not_le.2 hmore]
      omega
    · simp [Casement.advance, hbody, hxfer, count, Nat.not_lt.2 hlast]
      omega

end

section
/-! PROOF. Guards, voltage, clocks and the shutter path. -/

set_option Elab.async false

namespace Sys2Proof.Machine

/-! ### Power events -/

theorem State.live_iff (s : State) : s.live = true ↔ s.resetLow = false ∧ s.clkLoss = false := by
  simp [State.live]

/-- The AVSBus frames that MP1 sends: every read, and the write of VCORE's target (R361). -/
theorem Power.sends_iff (p : Power) (f : AvsFrame) : p.sends f = true ↔ ∀ mv, f.cmd = .voltageWrite mv →
    f.rail = 0 ∧ mv.toNat = p.vtgt.toNat ∧ 650 ≤ mv.toNat ∧ mv.toNat ≤ 850 ∧ mv.toNat % 5 = 0 := by
  cases h : f.cmd <;> simp [Power.sends, h, and_assoc]

/-- A frame that MP1 does not send changes nothing; one that it sends takes effect, counts a repeat, or fails. -/
theorem execAvsbusFrame_eq {s : State} (hlive : s.live = true) (hphase : 3 ≤ s.start.phase.toNat) (f : AvsFrame) :
    exec (.avsbusFrame f) s =
      if s.power.sends f = false then .next s
      else if f.valid then .next { s with power := Power.avs { s.power with avsRetry := 0, avsHold := false } f }
      else if 3 ≤ s.power.avsRetry then
        .next (State.addLog { s with
          power := { s.power with avsRetry := 0, avsHold := true, avsFail := bump s.power.avsFail } } 5 0xFFFF 0 0 0)
      else .next { s with power := { s.power with avsRetry := s.power.avsRetry + 1 } } := by
  have phase : ¬ s.start.phase < 3#4 := by simpa [BitVec.lt_def] using hphase
  simp [exec, execAvsbusFrame, hlive, phase]

end Sys2Proof.Machine

open Sys2Proof Sys2Proof.Machine

/-- Settles O54, event by event; an AVSBus frame by whether MP1 sends it and a valid response came. -/
theorem powerEvents : Obligations.PowerEvents := by
  intro s hlive p leaves
  obtain ⟨hreset, -⟩ := (State.live_iff s).1 hlive
  refine ⟨by simp [exec, execCurrentGuardStop, hlive, leaves, p], by simp [exec, execCurrentGuardResume, hlive, leaves, p],
    by simp [exec, execShutterRequest, hlive, leaves, p], by simp [exec, execShutterRelease, hlive, leaves, p],
    by simp [exec, execThermalAlarm, hlive, leaves, p], by simp [exec, execThermalAlarmClear, hlive, leaves, p],
    by simp [exec, execThermtrip, hlive, leaves, p], by simp [exec, execPllLockLoss, hreset], fun c hon => ?_, fun c => ?_,
    fun f hphase => ?_⟩
  · refine ⟨s.onCluster c.val fun x => { x with droopHold := true, droop := bump x.droop, droopBeat := bump x.droopBeat }, ?_, ?_⟩
    · simp [exec, execDroopEvent, hlive, hon]
    · simp +contextual
  · refine ⟨s.onCluster c.val fun x => { x with droopHold := false }, ?_, ?_⟩
    · simp [exec, execDroopHoldEnd, hlive]
    · simp +contextual
  · rw [execAvsbusFrame_eq hlive hphase f]
    simp only [← Power.sends_iff]
    refine ⟨fun hsent => ?_, fun hvalid hcmd hrail => ?_, fun mv hsent hvalid hcmd => ?_, fun hsent hvalid hretry => ?_,
      fun hsent hvalid hretry => ?_⟩
    · exact if_pos (by simpa using hsent)
    · have hsent : s.power.sends f = true := by simp [Power.sends, hcmd]
      simp [hsent, hvalid, Power.avs, hcmd, hrail, leaves, p]
    · simp [hsent, hvalid, Power.avs, hcmd, leaves, p]
    · simp [hsent, hvalid, Nat.not_le.2 hretry, leaves, p]
    · simp [hsent, hvalid, hretry, p, State.addLog]

end

section
/-! PROOF. What the scheduler keeps of every task. -/

set_option Elab.async false

namespace Sys2Proof.Machine

/-! ### Tables and folds -/

/-- A fold of changes that leave a part of the state as it was leaves it as it was. -/
theorem foldl_keeps {α β : Type} (g : State → β) {f : State → α → State} (h : ∀ s a, g (f s a) = g s) (l : List α) (s : State) :
    g (l.foldl f s) = g s := by
  induction l generalizing s with
  | nil => rfl
  | cons a l ih => rw [List.foldl_cons, ih, h]

theorem tabFind_tabPut {α : Type} (t : Tab α) (k j : Nat) (a : α) :
    tabFind (tabPut t k a) j = if j = k then some a else tabFind t j := by
  induction t with
  | nil => by_cases h : k = j <;> simp [tabPut, tabFind, h, eq_comm]
  | cons p t ih =>
    obtain ⟨i, b⟩ := p
    unfold tabPut
    split
    · by_cases h : k = j <;> simp [tabFind, h, eq_comm]
    · split
      · next h => subst h; by_cases h : k = j <;> simp [tabFind, h, eq_comm]
      · simp only [tabFind, ih]
        by_cases h : i = j
        · subst h; simp_all [eq_comm]
        · simp [h]

/-! ### A change of the registers of a task -/

/-- A change of a core's tables leaves a task's registers where they are, if it keeps its tasks and casements. -/
theorem State.task_onCase (s : State) (n k : Nat) (f : Casement → Casement) (m t : Nat) :
    (s.onCase n k f).task m t = s.task m t := by
  rw [State.task, State.onCase, State.setCase, State.core_onCore_keeps (·.tasks) (by intro; rfl)]; rfl

theorem State.task_onTask (s : State) (n t : Nat) (f : Task → Task) (m u : Nat) :
    (s.onTask n t f).task m u = if m = n ∧ u = t then (s.task m u).map f else s.task m u := by
  unfold State.onTask
  split
  · next h => split
              · next e => rw [e.1, e.2, h]; rfl
              · rfl
  · next x h =>
    simp only [State.task, core_onCore]
    split
    · next e =>
      subst e
      rw [tabFind_tabPut]
      by_cases hu : u = t
      · subst hu; rw [State.task] at h; simp [h]
      · simp [hu]
    · next e => simp [e]

/-- Whose registers a change of a task's registers changes: the task's, and those of who shares their place. -/
theorem State.ctx_onCtx_or (s : State) (n : Nat) (who : Option Nat) (f : Casement → Casement) (m : Nat) (w : Option Nat) :
    (s.onCtx n who f).ctx m w = s.ctx m w ∨ (s.onCtx n who f).ctx m w = f (s.ctx m w) := by
  have inCase (k j : Nat) : (s.onCase n k f).case m j = s.case m j ∨ (s.onCase n k f).case m j = f (s.case m j) := by
    rw [case_onCase]; split
    · next h => rw [h.1, h.2]; exact .inr rfl
    · exact .inl rfl
  have casement (k : Nat) : (s.onCase n k f).ctx m w = s.ctx m w ∨ (s.onCase n k f).ctx m w = f (s.ctx m w) := by
    cases w with
    | none => exact inCase k 8
    | some u =>
      simp only [State.ctx, State.task_onCase]
      split
      · exact .inl rfl
      · split
        · exact inCase k _
        · exact .inl rfl
  unfold State.onCtx
  split
  · exact casement 8
  next t =>
  split
  · exact .inl rfl
  next hx =>
  split
  · exact casement _
  next hloc =>
  cases w with
  | none => exact .inl (by simp only [State.ctx, State.case_onTask])
  | some u =>
    simp only [State.ctx, State.task_onTask, State.case_onTask]
    by_cases h : m = n ∧ u = t
    · rw [if_pos h, h.1, h.2, hx]; simp [hloc]
    · rw [if_neg h]; exact .inl rfl

/-- A change of a task's registers changes them. -/
theorem State.ctx_onCtx_self {s : State} {n t : Nat} {x : Task} (hx : s.task n t = some x) (f : Casement → Casement) :
    (s.onCtx n (some t) f).ctx n (some t) = f (s.ctx n (some t)) := by
  simp only [State.onCtx, hx]
  split
  · next k hk => simp [State.ctx, State.task_onCase, hx, hk]
  · next hk => simp [State.ctx, State.task_onTask, hx, hk]

/-- A change of registers, of a task's too, leaves each task where it is, in the state it is in. -/
theorem State.task_onCtx (s : State) (n : Nat) (who : Option Nat) (f : Casement → Casement) (m t : Nat) :
    ((s.onCtx n who f).task m t).map (fun y => { y with image := ({} : Casement) }) = (s.task m t).map fun y => { y with image := ({} : Casement) } := by
  unfold State.onCtx
  split
  · rw [State.task_onCase]
  split
  · rfl
  split
  · rw [State.task_onCase]
  · rw [State.task_onTask]; split <;> simp [Function.comp_def]

/-! ### What the scheduler keeps of every task -/

/-- What a casement holds beside the row that a load or store of tiles has come to, and the mark of a switch. -/
def Casement.lasting (c : Casement) : Casement := { c with switched := false, tstart := 0, rowNext := none, dirty := 0 }

/-- A casement with no rows to go on with keeps none, and its TSTART. -/
def Casement.sameRows (c d : Casement) : Prop := c.rowNext = none → d.rowNext = none ∧ d.tstart = c.tstart

/-- The scheduler moves a task on: its registers stay where they are, as they are, and it waits only if it did. -/
def Task.onward (x y : Task) : Prop :=
  y.loc = x.loc ∧ y.image = x.image ∧ (x.st ≠ .waiting → y.st ≠ .waiting) ∧ (y.prof, y.slot, y.job, y.xq) = (x.prof, x.slot, x.job, x.xq)

/-- What of a core is none of the scheduler's business. -/
def Core.posts (c : Core) : Core :=
  { c with cases := [], running := none, readyQ := [], tasks := [], cycle := 0, tmrCount := 0, tmrOwner := .none, ovfblk := 0
           scause := 0, keeperIssues := 0, woken := [], taskFill := none, fresh := false, eligible := false }

/-- The scheduler has come from s to t: its tasks have moved on, their casements hold what they held, the keeper's its bit
variables, no timer has gone to a task, and no more of a core has changed. -/
structure Scheduled (s t : State) : Prop where
  task : ∀ n k, Option.Rel Task.onward (s.task n k) (t.task n k)
  case : ∀ n k, k ≠ 8 → (t.case n k).lasting = (s.case n k).lasting
  keeper : ∀ n, (t.case n 8).bits = (s.case n 8).bits
  timer : ∀ n k, (s.core n).tmrOwner ≠ .task k → (t.core n).tmrOwner ≠ .task k
  posts : ∀ n, (t.core n).posts = (s.core n).posts
  rows : ∀ n k, k ≠ 8 → (s.case n k).sameRows (t.case n k)

theorem Casement.sameRows_refl (c : Casement) : c.sameRows c := fun h => ⟨h, rfl⟩

theorem Task.onward_refl : ∀ x : Option Task, Option.Rel Task.onward x x
  | none => .none
  | some _ => .some ⟨rfl, rfl, id, rfl⟩

theorem Task.onward_trans {x y z : Option Task} : Option.Rel Task.onward x y → Option.Rel Task.onward y z →
    Option.Rel Task.onward x z
  | .none, .none => .none
  | .some ⟨hl, hi, hs, hp⟩, .some ⟨gl, gi, gs, gp⟩ => .some ⟨gl.trans hl, gi.trans hi, gs ∘ hs, gp.trans hp⟩

namespace Scheduled

theorem refl (s : State) : Scheduled s s :=
  ⟨fun _ _ => Task.onward_refl _, fun _ _ _ => rfl, fun _ => rfl, fun _ _ h => h, fun _ => rfl, fun _ _ _ => Casement.sameRows_refl _⟩

theorem trans {s t u : State} (h : Scheduled s t) (g : Scheduled t u) : Scheduled s u :=
  ⟨fun n k => Task.onward_trans (h.task n k) (g.task n k), fun n k hk => (g.case n k hk).trans (h.case n k hk),
    fun n => (g.keeper n).trans (h.keeper n), fun n k e => g.timer n k (h.timer n k e), fun n => (g.posts n).trans (h.posts n),
    fun n k hk none_ => ⟨(g.rows n k hk (h.rows n k hk none_).1).1, (g.rows n k hk (h.rows n k hk none_).1).2.trans (h.rows n k hk none_).2⟩⟩

theorem ite_of {s t u : State} {p : Prop} [Decidable p] (ht : Scheduled s t) (hu : Scheduled s u) :
    Scheduled s (if p then t else u) := by split <;> assumption

theorem foldl {α : Type} {f : State → α → State} (h : ∀ s a, Scheduled s (f s a)) (l : List α) (s : State) :
    Scheduled s (l.foldl f s) := by
  induction l generalizing s with
  | nil => exact refl s
  | cons a l ih => exact (h s a).trans (ih _)

/-- A change of a core that touches neither its tasks nor its casements, and gives its timer to no task. -/
theorem onCore' (s : State) (n : Nat) {f : Core → Core} (ht : (f (s.core n)).tasks = (s.core n).tasks)
    (hc : (f (s.core n)).cases = (s.core n).cases)
    (htm : ∀ k, (s.core n).tmrOwner ≠ .task k → (f (s.core n)).tmrOwner ≠ .task k)
    (hp : (f (s.core n)).posts = (s.core n).posts) : Scheduled s (s.onCore n f) := by
  have task (m k : Nat) : (s.onCore n f).task m k = s.task m k := by
    simp only [State.task, core_onCore]; split
    · next h => rw [ht, h]
    · rfl
  have case (m k : Nat) : (s.onCore n f).case m k = s.case m k := by
    simp only [State.case, core_onCore]; split
    · next h => rw [hc, h]
    · rfl
  refine ⟨fun m k => ?_, fun m k _ => ?_, fun m => ?_, fun m k h => ?_, fun m => ?_, fun m k _ => ?_⟩
  · rw [task]; exact Task.onward_refl _
  · rw [case]
  · rw [case]
  · rw [core_onCore]; split
    · next e => exact htm k (e ▸ h)
    · exact h
  · rw [core_onCore]; split
    · next e => rw [hp, e]
    · rfl
  · rw [case]; exact Casement.sameRows_refl _

/-- A change of a core that touches neither its tasks, nor its casements, nor its timer. -/
theorem onCore (s : State) (n : Nat) {f : Core → Core} (ht : (f (s.core n)).tasks = (s.core n).tasks)
    (hc : (f (s.core n)).cases = (s.core n).cases) (htm : (f (s.core n)).tmrOwner = (s.core n).tmrOwner)
    (hp : (f (s.core n)).posts = (s.core n).posts) : Scheduled s (s.onCore n f) := onCore' s n ht hc (fun _ h => by rwa [htm]) hp

theorem setCore (s : State) (n : Nat) {c : Core} (ht : c.tasks = (s.core n).tasks) (hc : c.cases = (s.core n).cases)
    (htm : ∀ k, (s.core n).tmrOwner ≠ .task k → c.tmrOwner ≠ .task k) (hp : c.posts = (s.core n).posts) :
    Scheduled s (s.setCore n c) := onCore' s n (f := fun _ => c) ht hc htm hp

/-- A task moves on. -/
theorem onTask (s : State) (n t : Nat) {f : Task → Task} (hf : ∀ x, Task.onward x (f x)) : Scheduled s (s.onTask n t f) := by
  refine ⟨fun m k => ?_, fun m k _ => by rw [State.case_onTask], fun m => by rw [State.case_onTask], fun m k h => ?_, fun m => ?_,
    fun m k _ => by rw [State.case_onTask]; exact Casement.sameRows_refl _⟩
  · rw [State.task_onTask]; split
    · cases s.task m k with
      | none => exact .none
      | some x => exact .some (hf x)
    · exact Task.onward_refl _
  · unfold State.onTask; split
    · exact h
    · rwa [State.core_onCore_keeps (·.tmrOwner) (by intro; rfl)]
  · unfold State.onTask; split
    · rfl
    · rw [State.core_onCore_keeps Core.posts (by intro; rfl)]

theorem timer_onCase (s : State) (n k : Nat) (f : Casement → Casement) (m : Nat) :
    ((s.onCase n k f).core m).tmrOwner = (s.core m).tmrOwner := by
  rw [State.onCase, State.setCase, State.core_onCore_keeps (·.tmrOwner) (by intro; rfl)]

theorem posts_onCase (s : State) (n k : Nat) (f : Casement → Casement) (m : Nat) :
    ((s.onCase n k f).core m).posts = (s.core m).posts := by
  rw [State.onCase, State.setCase, State.core_onCore_keeps Core.posts (by intro; rfl)]

/-- A change of a casement that keeps what it holds. -/
theorem onCase (s : State) (n k : Nat) {f : Casement → Casement} (hf : ∀ c, (f c).lasting = c.lasting)
    (hr : ∀ c, Casement.sameRows c (f c)) : Scheduled s (s.onCase n k f) := by
  have case (m j : Nat) : ((s.onCase n k f).case m j).lasting = (s.case m j).lasting := by
    rw [case_onCase]; split
    · next h => rw [hf, h.1, h.2]
    · rfl
  refine ⟨fun m j => ?_, fun m j _ => case m j, fun m => ?_, fun m j h => ?_, posts_onCase s n k f, fun m j _ => ?_⟩
  · rw [State.task_onCase]; exact Task.onward_refl _
  · have same := congrArg Casement.bits (case m 8); exact same
  · rwa [timer_onCase]
  · rw [case_onCase]; split
    · next h => rw [h.1, h.2]; exact hr _
    · exact Casement.sameRows_refl _

/-- A change of the keeper's casement that keeps its bit variables. -/
theorem onKeeper (s : State) (n : Nat) {f : Casement → Casement} (hf : ∀ c, (f c).bits = c.bits) :
    Scheduled s (s.onCase n 8 f) := by
  refine ⟨fun m j => ?_, fun m j hj => ?_, fun m => ?_, fun m j h => ?_, posts_onCase s n 8 f, fun m j hj => ?_⟩
  · rw [State.task_onCase]; exact Task.onward_refl _
  · rw [case_onCase, if_neg (fun h => hj h.2)]
  · rw [case_onCase]; split
    · next h => rw [hf, h.1]
    · rfl
  · rwa [timer_onCase]
  · rw [case_onCase, if_neg (fun h => hj h.2)]; exact Casement.sameRows_refl _

/-! The scheduler's functions. -/

theorem runTask (s : State) (n t k : Nat) : Scheduled s (s.runTask n t k) :=
  ((onTask s n t (by intro _; exact ⟨rfl, rfl, fun _ => TaskSt.noConfusion, rfl⟩)).trans (onCore _ n (by rfl) (by rfl) (by rfl) (by rfl))).trans
    (onCase _ n k (by intro; rfl) (fun _ h => ⟨h, rfl⟩))

theorem stopRows_lasting (c : Casement) : c.stopRows.lasting = c.lasting := by
  unfold Casement.stopRows; split <;> rfl

theorem stopRows_sameRows (c : Casement) : c.sameRows c.stopRows := fun h => by
  simp only [Casement.stopRows, h]
  exact ⟨trivial, trivial⟩

theorem parkRunning (s : State) (n : Nat) : Scheduled s (s.parkRunning n) := by
  unfold State.parkRunning
  split
  · exact refl s
  · split
    · exact onCore s n (by rfl) (by rfl) (by rfl) (by rfl)
    · exact ((onTask s n _ (by intro _; exact ⟨rfl, rfl, fun _ => TaskSt.noConfusion, rfl⟩)).trans
        (onCore _ n (by rfl) (by rfl) (by rfl) (by rfl))).trans (onCase _ n _ stopRows_lasting stopRows_sameRows)

/-- The keeper's casement takes over with the cause in SCAUSE and d3 and its commands in d0 and d1. -/
theorem keeperTakesOver (s : State) (n t : Nat) (cause d0 d1 : Word) (pc : BitVec 48) :
    Scheduled s (((s.parkRunning n).onCore n fun c =>
        { c with scause := cause, running := some 8, keeperIssues := 0, readyQ := t :: c.readyQ.filter (· != t) }).onCase n 8
      fun k => { (((k.setD 0 d0).setD 1 d1).setD 3 cause) with pc := pc }) :=
  ((parkRunning s n).trans (onCore _ n (by rfl) (by rfl) (by rfl) (by rfl))).trans
    (onKeeper _ n fun c => by simp only [Casement.setD_bits])

theorem overflowTrap (s : State) (n t : Nat) : Scheduled s (s.overflowTrap n t) := by
  unfold State.overflowTrap
  refine ite_of (setCore s n (by rfl) (by rfl) (fun _ h => h) (by rfl)) ?_
  cases victimOf (s.core n) with
  | none => exact refl s
  | some v => exact keeperTakesOver s n t _ _ _ _

theorem startHwFill (s : State) (n t : Nat) : Scheduled s (s.startHwFill n t) := onCore s n (by rfl) (by rfl) (by rfl) (by rfl)

theorem noneRuns (s : State) (n : Nat) : Scheduled s (s.onCore n fun c => { c with running := none }) :=
  onCore s n (by rfl) (by rfl) (by rfl) (by rfl)

theorem selectFrom (s : State) (n : Nat) (l : List Nat) : Scheduled s (s.selectFrom n l) := by
  induction l generalizing s with
  | nil => exact noneRuns s n
  | cons t rest ih =>
    unfold State.selectFrom
    split
    · exact ih s
    · split
      · exact runTask s n t _
      · split
        · exact noneRuns s n
        split
        · exact (startHwFill s n t).trans (noneRuns _ n)
        split
        · exact overflowTrap s n t
        · exact (overflowTrap s n t).trans (ih _)

theorem selectNext (s : State) (n : Nat) : Scheduled s (s.selectNext n) := by
  unfold State.selectNext
  extract_lets s1
  split
  · exact noneRuns s n
  · exact (noneRuns s n).trans (selectFrom _ n _)

theorem release (s : State) (n : Nat) (ts : List Nat) : Scheduled s (s.release n ts) := by
  unfold State.release
  split
  · exact refl s
  next t rest =>
  extract_lets s1
  have queued : Scheduled s s1 := onCore s n (by rfl) (by rfl) (by rfl) (by rfl)
  refine queued.trans ?_
  split
  · split
    · exact selectNext _ n
    · exact refl _
  split
  · exact (parkRunning _ n).trans (runTask _ n t _)
  split
  · exact startHwFill _ n t
  split
  · exact overflowTrap _ n t
  have tail := (overflowTrap s1 n t).trans
    (onCore (s1.overflowTrap n t) n (f := fun c => { c with readyQ := c.readyQ ++ [t] }) (by rfl) (by rfl) (by rfl) (by rfl))
  split
  · exact tail.trans (selectNext _ n)
  · exact tail

theorem settle (was : Bool) (s : State) (n : Nat) : Scheduled s (s.settle was n) := by
  unfold State.settle
  extract_lets c
  split
  · refine setCore s n (by rfl) (by rfl) (fun k h => ?_) (by rfl)
    dsimp only
    split
    · exact TimerOwner.noConfusion
    · exact h
  split
  · exact setCore s n (by rfl) (by rfl) (fun k _ => TimerOwner.noConfusion) (by rfl)
  · exact refl s

/-- The tasks that an event wakes become READY. -/
theorem readied (s : State) (n : Nat) (ts : List Nat) :
    Scheduled s (ts.foldl (fun x t => x.onTask n t fun y => { y with st := .ready }) s) :=
  foldl (fun s t => onTask s n t (by intro _; exact ⟨rfl, rfl, fun _ => TaskSt.noConfusion, rfl⟩)) ts s

theorem letGo (s : State) (n : Nat) (ts : List Nat) :
    Scheduled s (if s.wakesHeld n then s.onCore n fun c => { c with woken := c.woken ++ ts } else s.release n ts) :=
  ite_of (onCore _ n (by rfl) (by rfl) (by rfl) (by rfl)) (release _ n ts)

theorem wake (s : State) (n : Nat) (ts : List Nat) : Scheduled s (s.wake n ts) := by
  unfold State.wake
  split
  · exact refl s
  extract_lets was s1 s2
  exact ((readied s n ts).trans (letGo s1 n ts)).trans (settle was s2 n)

theorem releaseHeld (s : State) (n : Nat) : Scheduled s (s.releaseHeld n) := by
  unfold State.releaseHeld
  extract_lets c ts s1
  have taken : Scheduled s s1 := setCore s n (by rfl) (by rfl) (fun _ h => h) (by rfl)
  refine ite_of (refl s) (ite_of (taken.trans ?_) (taken.trans (release _ n _)))
  exact setCore s1 n (by simp [s1, c]) (by simp [s1, c]) (fun k h => by simpa [s1, c] using h) (by simp [s1, c, Core.posts])

theorem releaseIdle (s : State) (n : Nat) : Scheduled s (s.releaseIdle n) := by
  unfold State.releaseIdle
  exact ite_of (releaseHeld s n) (refl s)

theorem kick (s : State) (n : Nat) : Scheduled s (s.kick n) := by
  unfold State.kick
  exact ite_of (selectNext s n) (refl s)

/-- The registers of a task, and of a task that is not the keeper, hold what they held. -/
theorem ctx {s t : State} (h : Scheduled s t) {n k : Nat} (hk : ∀ x, s.task n k = some x → x.loc ≠ some 8) :
    (t.ctx n (some k)).lasting = (s.ctx n (some k)).lasting := by
  have same := h.task n k
  simp only [State.ctx]
  cases hs : s.task n k with
  | none =>
    rw [hs] at same
    generalize t.task n k = z at same
    cases same with | none => rfl
  | some x =>
    rw [hs] at same
    generalize t.task n k = z at same
    cases same with
    | some onward =>
      obtain ⟨loc, image, -⟩ := onward
      simp only [loc]
      split
      · next j hj => exact h.case n j fun e => hk x hs (e ▸ hj)
      · rw [image]

/-- A task, or the keeper, reads the same bit variables. -/
theorem ctx_bit {s t : State} (h : Scheduled s t) (n : Nat) (who : Option Nat) (b : Nat) :
    (t.ctx n who).bit b = (s.ctx n who).bit b := by
  have case (k : Nat) : (t.case n k).bits = (s.case n k).bits := by
    by_cases hk : k = 8
    · rw [hk]; exact h.keeper n
    · have same := congrArg Casement.bits (h.case n k hk); exact same
  have bits : (t.ctx n who).bits = (s.ctx n who).bits := by
    cases who with
    | none => exact case 8
    | some k =>
      have same := h.task n k
      simp only [State.ctx]
      generalize t.task n k = z at same
      generalize s.task n k = w at same
      cases same with
      | none => rfl
      | some onward =>
        obtain ⟨loc, image, -⟩ := onward
        simp only [loc]
        split
        · exact case _
        · rw [image]
  simp only [Casement.bit, Casement.group, bits]

end Scheduled

end Sys2Proof.Machine

end

section
/-! PROOF. What the scheduler changes: the cores alone. -/

set_option Elab.async false

namespace Sys2Proof.Machine

/-! ### What the scheduler changes: the cores alone -/

/-- The state but for its cores. -/
def State.rest (s : State) : State := { s with cores := [] }

@[simp] theorem State.onCore_rest (s : State) (n : Nat) (f : Core → Core) : (s.onCore n f).rest = s.rest := rfl
@[simp] theorem State.setCore_rest (s : State) (n : Nat) (c : Core) : (s.setCore n c).rest = s.rest := rfl
@[simp] theorem State.onCase_rest (s : State) (n k : Nat) (f : Casement → Casement) : (s.onCase n k f).rest = s.rest := rfl
@[simp] theorem State.setCase_rest (s : State) (n k : Nat) (c : Casement) : (s.setCase n k c).rest = s.rest := rfl
@[simp] theorem State.onTask_rest (s : State) (n t : Nat) (f : Task → Task) : (s.onTask n t f).rest = s.rest := by
  unfold State.onTask; split <;> simp
@[simp] theorem State.onCtx_rest (s : State) (n : Nat) (who : Option Nat) (f : Casement → Casement) : (s.onCtx n who f).rest = s.rest := by
  simp only [State.onCtx]; (repeat' split) <;> simp
@[simp] theorem State.runTask_rest (s : State) (n t k : Nat) : (s.runTask n t k).rest = s.rest := by
  simp [State.runTask]
@[simp] theorem State.startHwFill_rest (s : State) (n t : Nat) : (s.startHwFill n t).rest = s.rest := rfl
@[simp] theorem State.parkRunning_rest (s : State) (n : Nat) : (s.parkRunning n).rest = s.rest := by
  simp only [State.parkRunning]; (repeat' split) <;> simp
@[simp] theorem State.overflowTrap_rest (s : State) (n t : Nat) : (s.overflowTrap n t).rest = s.rest := by
  simp only [State.overflowTrap]
  split
  · rfl
  · split
    · rfl
    · simp only [State.onCase_rest, State.onCore_rest, State.parkRunning_rest]
@[simp] theorem State.selectFrom_rest (s : State) (n : Nat) (l : List Nat) : (s.selectFrom n l).rest = s.rest := by
  induction l generalizing s with
  | nil => rfl
  | cons t rest ih => simp only [State.selectFrom]; (repeat' split) <;> simp [ih]
@[simp] theorem State.selectNext_rest (s : State) (n : Nat) : (s.selectNext n).rest = s.rest := by
  simp only [State.selectNext]; split <;> simp
@[simp] theorem State.release_rest (s : State) (n : Nat) (l : List Nat) : (s.release n l).rest = s.rest := by
  cases l with
  | nil => rfl
  | cons t rest => simp only [State.release]; (repeat' split) <;> simp
@[simp] theorem State.settle_rest (was : Bool) (s : State) (n : Nat) : (State.settle was s n).rest = s.rest := by
  simp only [State.settle]; (repeat' split) <;> simp
@[simp] theorem State.wake_rest (s : State) (n : Nat) (ts : List Nat) : (s.wake n ts).rest = s.rest := by
  have woken (l : List Nat) (s : State) : (l.foldl (fun x t => x.onTask n t fun y => { y with st := .ready }) s).rest = s.rest :=
    foldl_keeps (·.rest) (by simp) _ _
  simp only [State.wake]; (repeat' split) <;> simp [woken]
@[simp] theorem State.setEvent_rest (s : State) (n t b : Nat) : (s.setEvent n t b).rest = s.rest := by
  simp only [State.setEvent]; (repeat' split) <;> simp
@[simp] theorem State.setEventAll_rest (s : State) (n b : Nat) : (s.setEventAll n b).rest = s.rest := by
  have set (l : Tab Task) : (l.foldl (fun s p => s.onCtx n (some p.1) (·.setBit b true)) s).rest = s.rest :=
    foldl_keeps (·.rest) (by simp) _ _
  simp [State.setEventAll, set]
@[simp] theorem State.remoteBit_rest (s : State) (n t b : Nat) (v : Bool) : (s.remoteBit n t b v).rest = s.rest := by
  simp only [State.remoteBit]; (repeat' split) <;> simp
@[simp] theorem State.releaseHeld_rest (s : State) (n : Nat) : (s.releaseHeld n).rest = s.rest := by
  simp only [State.releaseHeld]; (repeat' split) <;> simp
@[simp] theorem State.releaseIdle_rest (s : State) (n : Nat) : (s.releaseIdle n).rest = s.rest := by
  unfold State.releaseIdle; split <;> simp
@[simp] theorem State.leaveSlot_rest (s : State) (n : Nat) : (s.leaveSlot n).rest = s.rest := by
  simp [State.leaveSlot]
@[simp] theorem State.kick_rest (s : State) (n : Nat) : (s.kick n).rest = s.rest := by
  unfold State.kick; split <;> simp
theorem State.coreOn_of_rest {s t : State} (h : t.rest = s.rest) (n : Nat) : t.coreOn n = s.coreOn n := by
  have same : t.rest.coreOn n = s.rest.coreOn n := by rw [h]
  exact same

end Sys2Proof.Machine

end

section
/-! PROOF. Management processors and the beat. -/

set_option Elab.async false

namespace Sys2Proof.Machine

/-! ### What records, drains and start-up leave of the processors -/

@[simp] theorem State.addHistory_mps (s : State) (u k g : Nat) (f : Bool) (c : BitVec 32) :
    (s.addHistory u k g f c).mps = s.mps := rfl
@[simp] theorem State.startDrain_mps (s : State) (c : DrainCause) (u : Nat) : (s.startDrain c u).mps = s.mps := by
  unfold State.startDrain; simp only []; split <;> rfl
@[simp] theorem State.makePermanent_mps (s : State) (u : Nat) : (s.makePermanent u).mps = s.mps := by
  unfold State.makePermanent; split <;> rfl
@[simp] theorem State.record_mps (s : State) (u k g : Nat) (r : Bool) : (s.record u k g r).mps = s.mps := by
  simp only [State.record]
  repeat' split
  all_goals simp
@[simp] theorem State.recordRestart_mps (s : State) (i : Nat) (eighth : Bool) : (s.recordRestart i eighth).mps = s.mps := by
  unfold State.recordRestart; split <;> simp
@[simp] theorem State.boxEnded_mps (s : State) (n : Nat) : (s.boxEnded n).mps = s.mps := by
  simp only [State.boxEnded]
  split
  · split <;> rfl
  · exact foldl_keeps (·.mps) (fun s k => by split <;> simp) _ _
@[simp] theorem State.boxError_mps (s : State) (n : Nat) (status : BitVec 8) : (s.boxError n status).mps = s.mps := by
  simp [State.boxError]
@[simp] theorem State.failTaken_mps (s : State) : s.failTaken.mps = s.mps := by
  simp only [State.failTaken]
  exact foldl_keeps (·.mps) (fun s k => by split <;> simp) _ _
@[simp] theorem State.holdStart_mps (s : State) (unit : Nat) : (s.holdStart unit).mps = s.mps := by
  simp [State.holdStart]
@[simp] theorem State.loadSettings_mps (s : State) : s.loadSettings.mps = s.mps := by
  simp only [State.loadSettings]; (repeat' split) <;> simp
@[simp] theorem State.flashPut_mps (s : State) (u : FlashUser) (ops : List FlashOp) : (s.flashPut u ops).mps = s.mps := rfl
@[simp] theorem State.startFetch_mps (s : State) : s.startFetch.mps = s.mps := by
  unfold State.startFetch; split <;> simp
@[simp] theorem State.startReads_mps (s : State) : s.startReads.mps = s.mps := by
  simp only [State.startReads]; (repeat' split) <;> simp
@[simp] theorem State.startLinks_mps (s : State) (rates : List (Option (BitVec 3))) : (s.startLinks rates).mps = s.mps := by
  simp only [State.startLinks]
  exact foldl_keeps (·.mps) (fun s k => by (repeat' split) <;> simp) _ _
@[simp] theorem State.startRoutes_mps (s : State) : s.startRoutes.mps = s.mps := by
  simp only [State.startRoutes]
  exact foldl_keeps (·.mps) (fun s k => by split <;> simp) _ _
@[simp] theorem State.startFailed_mps (s : State) (p : Nat) : (s.startFailed p).mps = s.mps := by
  simp [State.startFailed]
@[simp] theorem State.startPorts_mps (s : State) (ts : List Training) : (s.startPorts ts).mps = s.mps := by
  simp only [State.startPorts]
  exact foldl_keeps (·.mps) (fun s k => by (repeat' split) <;> simp) _ _
@[simp] theorem State.startClusters_mps (s : State) : s.startClusters.mps = s.mps := by
  exact foldl_keeps (·.mps) (fun s k => by split <;> simp) _ _
@[simp] theorem State.startRest_mps (s : State) : s.startRest.mps = s.mps := by
  simp only [State.startRest]
  split
  · rfl
  · split
    · rfl
    · simp only [State.startReads_mps, State.startLinks_mps, State.startRoutes_mps, State.startPorts_mps,
        State.startClusters_mps, State.loadSettings_mps]
@[simp] theorem State.noteFallback_mps (s : State) : s.noteFallback.mps = s.mps := by
  unfold State.noteFallback; split <;> simp
@[simp] theorem State.workDone_mps (s : State) (p : Work → Bool) : (s.workDone p).mps = s.mps := rfl
@[simp] theorem State.heldDone_mps (s : State) (opcode : BitVec 16) (n x : Nat) : (s.heldDone opcode n x).mps = s.mps := rfl

/-! ### What a boundary's loops leave of the beat and the cores -/

/-- The beat and the cores. -/
def State.beatCores (s : State) : Beat × Tab Core := (s.beat, s.cores)

@[simp] theorem State.ageTests_beatCores (s : State) : s.ageTests.beatCores = s.beatCores := rfl
@[simp] theorem State.addHistory_beatCores (s : State) (u k g : Nat) (f : Bool) (c : BitVec 32) :
    (s.addHistory u k g f c).beatCores = s.beatCores := rfl
@[simp] theorem State.recordCounts_beatCores (s : State) : s.recordCounts.beatCores = s.beatCores := by
  simp only [State.recordCounts]; exact foldl_keeps (·.beatCores) (by simp) _ _
@[simp] theorem State.loadTests_beatCores (s : State) : s.loadTests.beatCores = s.beatCores := by
  exact foldl_keeps (·.beatCores) (fun s k => by split <;> rfl) _ _
@[simp] theorem State.flashPut_beatCores (s : State) (u : FlashUser) (ops : List FlashOp) : (s.flashPut u ops).beatCores = s.beatCores := rfl
@[simp] theorem State.flushHistory_beatCores (s : State) : s.flushHistory.beatCores = s.beatCores := by
  simp only [State.flushHistory]; (repeat' split) <;> rfl

/-! ### An event bit set in every task -/

theorem mem_of_tabFind {α : Type} {t : Tab α} {k : Nat} {a : α} (h : tabFind t k = some a) : (k, a) ∈ t := by
  induction t with
  | nil => cases h
  | cons p t ih =>
    obtain ⟨i, b⟩ := p
    unfold tabFind at h
    split at h
    · next e => rw [e, Option.some.inj h]; exact .head _
    · exact .tail _ (ih h)

theorem tabGet_eq_of_not_mem {α : Type} (d : α) {t : Tab α} {k : Nat} (h : k ∉ t.map (·.1)) : tabGet d t k = d := by
  induction t with
  | nil => rfl
  | cons p t ih =>
    obtain ⟨i, b⟩ := p
    simp only [List.map_cons, List.mem_cons, not_or] at h
    simp [tabGet, Ne.symm h.1, ih h.2]

/-- R257: one bit set in every task of a core. -/
def State.bitAll (s : State) (n b : Nat) : State :=
  (s.core n).tasks.foldl (fun s p => s.onCtx n (some p.1) (·.setBit b true)) s

theorem State.setEventAll_eq (s : State) (n b : Nat) : s.setEventAll n b =
    (s.bitAll n b).wake n ((s.core n).tasks.filterMap fun (t, x) => if x.wokenBy b then some t else none) := rfl

/-- Every task is still in use, and bit b is set where it was. -/
structure KeepsSet (b : Nat) (s t : State) : Prop where
  task : ∀ n k, (s.task n k).isSome = true → (t.task n k).isSome = true
  bit : ∀ n w, (s.ctx n w).bit b = true → (t.ctx n w).bit b = true

namespace KeepsSet

theorem refl (b : Nat) (s : State) : KeepsSet b s s := ⟨fun _ _ h => h, fun _ _ h => h⟩

theorem trans {b : Nat} {s t u : State} (h : KeepsSet b s t) (g : KeepsSet b t u) : KeepsSet b s u :=
  ⟨fun n k e => g.task n k (h.task n k e), fun n w e => g.bit n w (h.bit n w e)⟩

theorem of_scheduled {b : Nat} {s t : State} (h : Scheduled s t) : KeepsSet b s t where
  task n k e := by
    have onward := h.task n k
    generalize t.task n k = y at onward
    generalize s.task n k = x at onward e
    cases onward with
    | none => exact e
    | some _ => rfl
  bit n w e := by rw [h.ctx_bit, e]

theorem foldl {α : Type} {b : Nat} {f : State → α → State} (h : ∀ s a, KeepsSet b s (f s a)) (l : List α) (s : State) :
    KeepsSet b s (l.foldl f s) := by
  induction l generalizing s with
  | nil => exact refl b s
  | cons a l ih => exact (h s a).trans (ih _)

theorem setBit (s : State) (n t b : Nat) : KeepsSet b s (s.onCtx n (some t) (·.setBit b true)) where
  task m u e := by
    have same := congrArg Option.isSome (State.task_onCtx s n (some t) (·.setBit b true) m u)
    rwa [Option.isSome_map, Option.isSome_map, e] at same
  bit m w e := by
    obtain h | h := State.ctx_onCtx_or s n (some t) (·.setBit b true) m w
    · rw [h, e]
    · rw [h, Casement.bit_setBit, e]; simp

theorem setEventAll (s : State) (n b : Nat) : KeepsSet b s (s.setEventAll n b) := by
  have set : KeepsSet b s (s.bitAll n b) := foldl (fun s (p : Nat × Task) => setBit s n p.1 b) _ s
  rw [State.setEventAll_eq]; exact set.trans (of_scheduled (Scheduled.wake _ n _))

end KeepsSet

/-- A fold that sets a bit of each task it meets sets that of each of them. -/
theorem bit_foldl_setBit {n t b : Nat} {x : Task} {l : Tab Task} {s : State} (hm : (t, x) ∈ l) (ht : (s.task n t).isSome = true) :
    ((l.foldl (fun s p => s.onCtx n (some p.1) (·.setBit b true)) s).ctx n (some t)).bit b = true := by
  induction l generalizing s with
  | nil => cases hm
  | cons p l ih =>
    rw [List.foldl_cons]
    obtain h | h := List.mem_cons.1 hm
    · have kept := KeepsSet.foldl (b := b) (f := fun s (p : Nat × Task) => s.onCtx n (some p.1) (·.setBit b true))
        (fun s p => KeepsSet.setBit s n p.1 b) l
      obtain ⟨y, hy⟩ := Option.isSome_iff_exists.1 ht
      refine (kept _).bit n (some t) ?_
      rw [← h, State.ctx_onCtx_self hy, Casement.bit_setBit]; simp
    · exact ih h ((KeepsSet.setBit s n p.1 b).task n t ht)

/-- R357: the event bit is set in every task of the core. -/
theorem State.setEventAll_bit {s : State} {n t : Nat} {x : Task} (h : s.task n t = some x) (b : Nat) :
    ((s.setEventAll n b).ctx n (some t)).bit b = true := by
  have used : (t, x) ∈ (s.core n).tasks := mem_of_tabFind h
  have set : ((s.bitAll n b).ctx n (some t)).bit b = true := by
    unfold State.bitAll
    exact bit_foldl_setBit used (by rw [h]; rfl)
  rw [State.setEventAll_eq]
  exact (KeepsSet.of_scheduled (Scheduled.wake _ n _)).bit n (some t) set

theorem bit_foldl_setEventAll {n t : Nat} {b : Nat} {l : List Nat} {s : State} (hm : n ∈ l) (hon : s.coreOn n = true)
    (ht : (s.task n t).isSome = true) :
    ((l.foldl (fun s m => if s.coreOn m then s.setEventAll m b else s) s).ctx n (some t)).bit b = true := by
  have keeps (s : State) (m : Nat) : KeepsSet b s (if s.coreOn m then s.setEventAll m b else s) := by
    split
    · exact KeepsSet.setEventAll s m b
    · exact KeepsSet.refl b s
  induction l generalizing s with
  | nil => cases hm
  | cons m l ih =>
    rw [List.foldl_cons]
    obtain h | h := List.mem_cons.1 hm
    · subst h
      obtain ⟨y, hy⟩ := Option.isSome_iff_exists.1 ht
      refine (KeepsSet.foldl keeps l _).bit n (some t) ?_
      rw [if_pos hon]
      exact State.setEventAll_bit hy b
    · refine ih h ?_ ((keeps s m).task n t ht)
      rw [← hon]
      apply State.coreOn_of_rest
      split <;> simp

@[simp] theorem State.beatBits_rest (s : State) : s.beatBits.rest = s.rest :=
  foldl_keeps (·.rest) (fun s n => by split <;> simp) _ _

/-- R357: the BEAT bit is set in every task of every powered cluster. -/
theorem State.beatBits_bit {s : State} {n t : Nat} {x : Task} (hon : s.coreOn n = true) (h : s.task n t = some x) :
    (s.beatBits.ctx n (some t)).bit 3068 = true := by
  have used : n ∈ s.cores.map (·.1) := by
    by_contra absent
    have none : s.task n t = none := by rw [State.task, State.core, tabGet_eq_of_not_mem _ absent]; rfl
    cases none.symm.trans h
  unfold State.beatBits
  exact bit_foldl_setEventAll used hon (by rw [h]; rfl)

/-! ### A boundary -/

theorem State.boundary_beat (s : State) (x : SensorSample) : (s.boundary x).beat =
    { (s.takeSnapshot x).beat with count := s.beat.count + 1, captured := false, hotStacks := x.hotStacks } := by
  have count : (s.takeSnapshot x).beat.count = s.beat.count := by unfold State.takeSnapshot; dsimp only; split <;> rfl
  simp only [State.boundary]
  refine (congrArg State.beat (State.beatBits_rest _)).trans ?_
  simp only [State.rest, count]

/-- Clearing the droop counts switches no cluster. -/
theorem State.coreOn_clearDroops {s t : State} (hlow : t.resetLow = s.resetLow) (hclk : t.clkLoss = s.clkLoss)
    (hcl : t.clusters = tabMap (fun _ c => { c with droopBeat := 0 }) s.clusters) (n : Nat) : t.coreOn n = s.coreOn n := by
  have cluster : t.cluster (clusterOf n) = { s.cluster (clusterOf n) with droopBeat := 0 } := by
    rw [State.cluster, hcl]
    exact tabGet_tabMap (fun _ (c : Cluster) => { c with droopBeat := 0 }) (d := {}) (e := {}) _ _ rfl
  simp only [State.coreOn, State.live, State.clusterOn, hlow, hclk, cluster]

theorem State.boundary_bit {s : State} {n t : Nat} {y : Task} (x : SensorSample) (hon : s.coreOn n = true)
    (h : s.task n t = some y) : ((s.boundary x).ctx n (some t)).bit 3068 = true := by
  unfold State.boundary
  refine State.beatBits_bit (x := y) ?_ h
  refine (State.coreOn_clearDroops (s := s) ?_ ?_ ?_ n).trans hon <;> rfl

/-- What holds of a state with a part that a further change keeps. -/
theorem ite_keeps {α β : Type} (g : α → β) {p : Prop} [Decidable p] {u v : α} (h : g v = g u) : g (if p then v else u) = g u := by
  split
  · exact h
  · rfl

/-- R357: what a boundary leaves of the beat and of the cores: the loops it starts change neither. -/
theorem execBeatBoundary_beatCores {s : State} (x : SensorSample) (hlive : s.live = true) (hrun : s.beat.running = true) :
    ∃ t, exec (.beatBoundary x) s = .next t ∧ t.beatCores = (s.boundary x).beatCores ∧ t.mem = s.mem := by
  change ∃ t, execBeatBoundary x s = .next t ∧ _
  unfold execBeatBoundary
  rw [if_neg (by simp [hlive, hrun])]
  extract_lets droops aged looped counted
  refine ⟨_, rfl, ?_, ?_⟩
  · have h1 : looped.beatCores = aged.beatCores := ite_keeps State.beatCores rfl
    have h2 : counted.beatCores = looped.beatCores := ite_keeps State.beatCores (by simp)
    rw [ite_keeps State.beatCores (by simp), h2, h1]
    rfl
  · have h1 : looped.mem = aged.mem := ite_keeps State.mem rfl
    have h2 : counted.mem = looped.mem := ite_keeps State.mem (by simp)
    rw [ite_keeps State.mem (by simp), h2, h1]
    simp [aged]

/-! ### Restarts of processors -/

theorem State.mp_onMp (s : State) (i j : Nat) (f : Mp → Mp) : (s.onMp i f).mp j = if j = i then f (s.mp j) else s.mp j := by
  rw [State.mp, State.onMp, tabGet_tabSet]
  split
  · next h => rw [h]
  · rfl

/-- R353: a restart leaves the processor in STATE 1 with its CAUSE, counted, and the others as they were. -/
theorem State.mpRestart_mps (s : State) (i : Nat) (cause : BitVec 2) (late : Bool) :
    ∃ f : Mp → Mp, (s.mpRestart i cause late).mps = (s.onMp i f).mps ∧
      (f (s.mp i)).st = 1 ∧ (f (s.mp i)).cause = cause ∧ (f (s.mp i)).restarts = bump (s.mp i).restarts := by
  unfold State.mpRestart
  extract_lets now again recent eighth s1 s2 s3 _ _ s4 _ s5 _ s6 _ s7
  have h3 : s3.mps = s2.mps := by simp only [s3]; split <;> simp
  have h4 : s4.mps = s3.mps := ite_keeps State.mps rfl
  have h5 : s5.mps = s4.mps := ite_keeps State.mps rfl
  have h6 : s6.mps = s5.mps := by simp only [s6]; split <;> simp
  have last {p : Prop} [Decidable p] : (if p then s7.holdStart (unitMp i) else s7).mps = s1.mps := by
    rw [ite_keeps State.mps (by simp), show s7.mps = s6.mps from rfl, h6, h5, h4, h3]; rfl
  refine ⟨_, last, ?_⟩
  exact ⟨rfl, rfl, rfl⟩

theorem exec_mpRestarts {x : Instr} {i : Nat} {s : State} {cause : BitVec 2} {late : Bool}
    (h : exec x s = .next (s.mpRestart i cause late)) : ∃ t : State, exec x s = .next t ∧ (t.mp i).st = 1 ∧
      (t.mp i).cause = cause ∧ (t.mp i).restarts = bump (s.mp i).restarts ∧ t.mem = s.mem ∧ ∀ j, j ≠ i → t.mp j = s.mp j := by
  obtain ⟨f, hmps, hst, hcause, hcount⟩ := s.mpRestart_mps i cause late
  have mp (j : Nat) : (s.mpRestart i cause late).mp j = if j = i then f (s.mp j) else s.mp j := by
    rw [← State.mp_onMp, State.mp, hmps, State.mp]
  refine ⟨_, h, ?_, ?_, ?_, State.mpRestart_mem .., fun j hj => ?_⟩
  · rw [mp, if_pos rfl, hst]
  · rw [mp, if_pos rfl, hcause]
  · rw [mp, if_pos rfl, hcount]
  · rw [mp, if_neg hj]

/-- R353: a processor that reports ready is in service, and the others are as they were. -/
theorem execMpServiceResume_mps {i : MpId} {s : State} (hlive : s.live = true) (hst : (s.mp i.val).st ≠ 0) :
    ∃ t m : _, exec (.mpServiceResume i) s = .next t ∧ t.mps = tabSet {} s.mps i.val m ∧ m.st = 0 ∧ t.mem = s.mem := by
  change ∃ t m : _, execMpServiceResume i s = .next t ∧ _
  unfold execMpServiceResume
  rw [if_pos (by simp only [hlive, Bool.true_and, bne_iff_ne]; exact hst)]
  extract_lets owed s1 s2 s3 s4
  have h2 : s2.mps = s1.mps ∧ s2.mem = s1.mem :=
    ⟨foldl_keeps (·.mps) (by simp) _ _, foldl_keeps (·.mem) (by simp) _ _⟩
  have h3 : s3.mps = s2.mps ∧ s3.mem = s2.mem := by simp [s3]
  have h4 : s4.mps = s3.mps ∧ s4.mem = s3.mem := by simp only [s4]; (repeat' split) <;> simp
  refine ⟨_, ?m, rfl, ?mps, ?st, ?mem⟩
  case mps => rw [State.heldDone_mps, h4.1, h3.1, h2.1]; rfl
  case st => rfl
  case mem => rw [State.heldDone_mem, h4.2, h3.2, h2.2]; rfl

end Sys2Proof.Machine

open Sys2Proof Sys2Proof.Machine

/-- Settles O53, by the event: a restart, the processor's return, a boundary of the beat, an edge. -/
theorem beatAndProcessors : Obligations.BeatAndProcessors := by
  unfold Obligations.BeatAndProcessors
  refine ⟨fun i s hlive => ⟨fun hphase h9 => ?_, fun hst => ⟨?_, ?_⟩, fun hst => ?_⟩, fun x s hlive hrun => ?_,
    fun err s hlive hrun hen => ?_⟩
  · have due : (s.live && s.start.phase ≥ 2 && s.start.phase != 9) = true := by
      simp only [hlive, Bool.true_and, Bool.and_eq_true, decide_eq_true_eq, bne_iff_ne]
      exact ⟨hphase, h9⟩
    exact ⟨exec_mpRestarts (if_pos due), exec_mpRestarts (if_pos due)⟩
  · exact exec_mpRestarts (if_pos (by simp only [hlive, Bool.true_and, bne_iff_ne]; exact hst))
  · obtain ⟨t, m, ht, hmps, hm, hmem⟩ := execMpServiceResume_mps hlive hst
    have mp (j : Nat) : t.mp j = if j = i.val then m else s.mp j := by
      rw [State.mp, hmps, tabGet_tabSet]; rfl
    exact ⟨t, ht, by rw [mp, if_pos rfl, hm], hmem, fun j hj => by rw [mp, if_neg hj]⟩
  · exact ⟨if_neg (by simp [hst]), if_neg (by simp [hst])⟩
  · obtain ⟨t, ht, hbeat, hmem⟩ := execBeatBoundary_beatCores x hlive hrun
    have beat : t.beat = (s.boundary x).beat := congrArg Prod.fst hbeat
    have cores : t.cores = (s.boundary x).cores := congrArg Prod.snd hbeat
    rw [State.boundary_beat] at beat
    refine ⟨t, ht, ?_⟩
    simp only [beat, State.takeSnapshot]
    refine ⟨trivial, ?_, trivial, hmem, ?_, ?_⟩
    · cases s.beat.snapSel <;> rfl
    · cases s.beat.snapSel <;> simp
    · intro n tk y hon hy
      have ctx : t.ctx n (some tk) = (s.boundary x).ctx n (some tk) := by simp only [State.ctx, State.case, State.task, State.core, cores]
      rw [ctx, State.boundary_bit x hon hy]
  · have running : (s.live && s.beat.running && s.beat.en) = true := by simp [hlive, hrun, hen]
    refine ⟨fun hwin hcap => ?_, fun hmiss => ?_⟩
    · have taken : exec (.beatInEdge err) s = _ := (if_neg (by simp [running])).trans (if_pos (by simp [hwin, hcap]))
      refine ⟨_, taken, rfl, rfl, ?_, rfl, rfl, fun h => ?_, fun h hr => ?_⟩
      · dsimp only
        congr 1
        split
        · omega
        · split <;> omega
      · have far : ¬ err.natAbs ≤ 500 := by omega
        simp [far]
      · have eighth : 8 ≤ s.beat.run + 1 := by omega
        simp [h, eighth]
    · have outside : ¬ (decide (err.natAbs ≤ 62500) && !s.beat.captured) = true := by
        rw [Bool.and_eq_true, decide_eq_true_eq, Bool.not_eq_true']
        rintro ⟨hwin, hfirst⟩
        obtain h | h := hmiss
        · omega
        · cases hfirst.symm.trans h
      have missed : exec (.beatInEdge err) s = _ :=
        (if_neg (by simp [running])).trans (if_neg outside)
      exact ⟨_, missed, rfl, rfl, rfl, rfl⟩

end

section
/-! PROOF. Signals, timer ends and failed stores. -/

set_option Elab.async false

namespace Sys2Proof.Machine

/-! ### An event bit of a task -/

/-- A change of a task's registers leaves the task, but for an image that holds them. -/
theorem State.task_onCtx_of {s : State} {n t : Nat} {x : Task} (hx : s.task n t = some x) (f : Casement → Casement) :
    ∃ y, (s.onCtx n (some t) f).task n t = some y ∧ y.st = x.st ∧ y.loc = x.loc ∧ y.stopped = x.stopped ∧ y.mask = x.mask := by
  have same := State.task_onCtx s n (some t) f n t
  rw [hx] at same
  obtain ⟨y, hy, hyx⟩ := Option.map_eq_some_iff.1 same
  have field {α : Type} (g : Task → α) (hg : ∀ z : Task, g { z with image := ({} : Casement) } = g z) : g y = g x := by
    rw [← hg y, ← hg x, hyx]
  exact ⟨y, hy, field _ (by intro; rfl), field _ (by intro; rfl), field _ (by intro; rfl), field _ (by intro; rfl)⟩

/-- A change of registers leaves what belongs to the core itself. -/
theorem State.lockCause_onCtx (s : State) (n : Nat) (who : Option Nat) (f : Casement → Casement) (m : Nat) :
    ((s.onCtx n who f).core m).lockCause = (s.core m).lockCause := by
  have onTask (t : Nat) (g : Task → Task) : ((s.onTask n t g).core m).lockCause = (s.core m).lockCause := by
    unfold State.onTask; split
    · rfl
    · rw [State.core_onCore_keeps (·.lockCause) (by intro; rfl)]
  have onCase (k : Nat) : ((s.onCase n k f).core m).lockCause = (s.core m).lockCause := by
    rw [State.onCase, State.setCase, State.core_onCore_keeps (·.lockCause) (by intro; rfl)]
  unfold State.onCtx
  (repeat' split) <;> simp only [onTask, onCase]

theorem State.tmrOwner_onCtx (s : State) (n : Nat) (who : Option Nat) (f : Casement → Casement) (m : Nat) :
    ((s.onCtx n who f).core m).tmrOwner = (s.core m).tmrOwner := by
  have onTask (t : Nat) (g : Task → Task) : ((s.onTask n t g).core m).tmrOwner = (s.core m).tmrOwner := by
    unfold State.onTask; split
    · rfl
    · rw [State.core_onCore_keeps (·.tmrOwner) (by intro; rfl)]
  unfold State.onCtx
  (repeat' split) <;> simp only [onTask, Scheduled.timer_onCase]

/-- R261: a task that is woken waits no more. -/
theorem State.wake_awake {s : State} {n t : Nat} {x : Task} (hx : s.task n t = some x) (hlock : (s.core n).lockCause = 0) :
    ∃ z, (s.wake n [t]).task n t = some z ∧ z.st ≠ .waiting := by
  have ready : (s.onTask n t fun y => { y with st := .ready }).task n t = some { x with st := .ready } := by
    rw [State.task_onTask, if_pos ⟨rfl, rfl⟩, hx]; rfl
  unfold State.wake
  rw [if_neg (by simp [hlock])]
  extract_lets was s1 s2
  have onward := ((Scheduled.letGo s1 n [t]).trans (Scheduled.settle was s2 n)).task n t
  rw [show s1.task n t = _ from ready] at onward
  generalize (State.settle was s2 n).task n t = z at onward
  cases onward with
  | some h =>
    obtain ⟨-, -, awake, -⟩ := h
    exact ⟨_, rfl, awake TaskSt.noConfusion⟩

/-- R257, R261: an event bit of a task that is not in the keeper's casement is set, and wakes the task if it waits for it. -/
theorem State.setEvent_spec {s : State} {n t : Nat} {x : Task} (hx : s.task n t = some x) (hloc : x.loc ≠ some 8) (b : Nat) :
    ((s.setEvent n t b).ctx n (some t)).lasting = ((s.ctx n (some t)).setBit b true).lasting ∧
    (x.wokenBy b = true → (s.core n).lockCause = 0 → ∃ z, (s.setEvent n t b).task n t = some z ∧ z.st ≠ .waiting) ∧
    (∀ k, (s.core n).tmrOwner ≠ .task k → ((s.setEvent n t b).core n).tmrOwner ≠ .task k) := by
  obtain ⟨y, hy, -, hyloc, -, -⟩ := State.task_onCtx_of hx (·.setBit b true)
  have regs := State.ctx_onCtx_self hx (·.setBit b true)
  have woken := Scheduled.wake (s.onCtx n (some t) (·.setBit b true)) n [t]
  have timer (k : Nat) (h : (s.core n).tmrOwner ≠ .task k) :
      ((s.onCtx n (some t) (·.setBit b true)).core n).tmrOwner ≠ .task k := by rwa [State.tmrOwner_onCtx]
  simp only [State.setEvent, hx]
  split
  · next h =>
    refine ⟨?_, fun _ hlock => ?_, fun k e => woken.timer n k (timer k e)⟩
    · rw [woken.ctx fun z hz => by rw [Option.some.inj (hz.symm.trans hy), hyloc]; exact hloc, regs]
    · exact State.wake_awake hy (by rw [State.lockCause_onCtx, hlock])
  · next h => exact ⟨by rw [regs], fun e => absurd e h, timer⟩

theorem Task.wokenBy_of {x : Task} {b : Nat} (hb : 3064 ≤ b ∧ b < 3072) (hst : x.st = .waiting) (hrun : x.stopped = false)
    (hsel : b = 3069 ∨ x.mask.getLsbD (b - 3064) = true) : x.wokenBy b = true := by
  simp only [Task.wokenBy, hst, hrun]
  obtain h | h := hsel
  · simp [h]
  · by_cases h69 : b = 3069 <;> simp [h69, h, hb.1, hb.2]

theorem Casement.bit_of_bits {c d : Casement} (h : c.bits = d.bits) (b : Nat) : c.bit b = d.bit b := by
  simp only [Casement.bit, Casement.group, h]

theorem Casement.bit_of_lasting {c d : Casement} (h : c.lasting = d.lasting) (b : Nat) : c.bit b = d.bit b :=
  Casement.bit_of_bits (by have same := congrArg Casement.bits h; exact same) b

theorem setDel_eq_filter (l : List Nat) (k : Nat) : setDel l k = l.filter (· != k) := by
  unfold setDel; congr 1; funext x; simp [bne, BEq.beq]

/-- R70, R71: a signal bit written from outside; a watch on it disarms. -/
def Casement.signalled (b : Nat) (v : Bool) (c : Casement) : Casement :=
  { c.setBit b v with watches := setDel c.watches b }

theorem State.remoteBit_eq {s : State} {n t : Nat} {x : Task} (hx : s.task n t = some x) (b : Nat) (v : Bool) :
    s.remoteBit n t b v = if b < 3072 then s
      else if b ∈ (s.ctx n (some t)).watches then (s.onCtx n (some t) (Casement.signalled b v)).setEvent n t 3066
      else s.onCtx n (some t) (Casement.signalled b v) := by
  simp only [State.remoteBit, hx, List.contains_iff_mem]
  rfl

/-- R261: the event of bit b wakes the task x of core n, if x waits for it, from s to t. -/
def State.woken (s t : State) (n k : Nat) (x : Task) (b : Nat) : Prop :=
  x.st = .waiting → x.stopped = false → (s.core n).lockCause = 0 → (b = 3069 ∨ x.mask.getLsbD (b - 3064) = true) →
    ∃ z, t.task n k = some z ∧ z.st ≠ .waiting

/-- R70, R71, R261, R263, R249: a change of a task's registers after which one of its event bits is set. -/
theorem State.onCtx_setEvent {s s0 : State} {n t : Nat} {x : Task} {f : Casement → Casement} {b : Nat} (hx : s.task n t = some x)
    (hloc : x.loc ≠ some 8) (hlock : (s.core n).lockCause = (s0.core n).lockCause) (hb : 3064 ≤ b ∧ b < 3072) :
    (((s.onCtx n (some t) f).setEvent n t b).ctx n (some t)).lasting = ((f (s.ctx n (some t))).setBit b true).lasting ∧
    s0.woken ((s.onCtx n (some t) f).setEvent n t b) n t x b := by
  obtain ⟨y, hy, est, eloc, estop, emask⟩ := State.task_onCtx_of hx f
  obtain ⟨after, wake, -⟩ := State.setEvent_spec hy (by rw [eloc]; exact hloc) b
  rw [State.ctx_onCtx_self hx f] at after
  refine ⟨after, fun hst hrun hl hsel => ?_⟩
  exact wake (Task.wokenBy_of hb (est.trans hst) (estop.trans hrun) (by rw [emask]; exact hsel))
    (by rw [State.lockCause_onCtx, hlock, hl])

/-- A part of the registers that lasts is the same. -/
theorem Casement.of_lasting {α : Type} (g : Casement → α) (hg : ∀ c : Casement, g c.lasting = g c) {c d : Casement}
    (h : c.lasting = d.lasting) : g c = g d := by rw [← hg c, ← hg d, h]

/-- R70, R71: what a signal from another agent leaves of the registers of the task. -/
theorem State.remoteBit_spec {s : State} {n t : Nat} {x : Task} (hx : s.task n t = some x) (hloc : x.loc ≠ some 8) {b : Nat}
    (hb : 3072 ≤ b) (v : Bool) : ∃ c, ((s.remoteBit n t b v).ctx n (some t)).lasting = Casement.lasting c ∧
      (c = (s.ctx n (some t)).signalled b v ∧ b ∉ (s.ctx n (some t)).watches ∨
        c = ((s.ctx n (some t)).signalled b v).setBit 3066 true ∧ b ∈ (s.ctx n (some t)).watches ∧
          s.woken (s.remoteBit n t b v) n t x 3066) := by
  rw [State.remoteBit_eq hx, if_neg (by omega)]
  by_cases hfire : b ∈ (s.ctx n (some t)).watches
  · rw [if_pos hfire]
    obtain ⟨after, wake⟩ := State.onCtx_setEvent (s0 := s) (f := Casement.signalled b v) hx hloc rfl (b := 3066) ⟨by decide, by decide⟩
    exact ⟨_, after, .inr ⟨rfl, hfire, wake⟩⟩
  · rw [if_neg hfire]
    exact ⟨_, by rw [State.ctx_onCtx_self hx], .inl ⟨rfl, hfire⟩⟩

theorem State.remoteBit_low {s : State} {n t : Nat} {x : Task} (hx : s.task n t = some x) {b : Nat} (hb : b < 3072) (v : Bool) :
    s.remoteBit n t b v = s := by rw [State.remoteBit_eq hx, if_pos hb]

theorem Casement.bit_signalled (c : Casement) (b j : Nat) (v : Bool) :
    (c.signalled b v).bit j = if j = 0 then true else if j = b then v else c.bit j := by
  rw [← Casement.bit_setBit]; exact Casement.bit_of_bits (by unfold Casement.signalled; rfl) j

@[simp] theorem Casement.signalled_d (b : Nat) (v : Bool) (c : Casement) : (c.signalled b v).d = c.d := by
  simp [Casement.signalled]

@[simp] theorem Casement.signalled_watches (b : Nat) (v : Bool) (c : Casement) :
    (c.signalled b v).watches = setDel c.watches b := by simp [Casement.signalled]

/-- R263: the timer of a task is free, and the timer event of its task set. -/
theorem State.timerExpiry_spec {s : State} {n t : Nat} {x : Task} (hx : s.task n t = some x) (hloc : x.loc ≠ some 8) :
    let u := (s.onCore n fun c => { c with tmrOwner := .none, tmrCount := 0 }).setEvent n t 3067
    (u.ctx n (some t)).lasting = ((s.ctx n (some t)).setBit 3067 true).lasting ∧ s.woken u n t x 3067 ∧
      ∀ k, (u.core n).tmrOwner ≠ .task k := by
  intro u
  have here : (s.onCore n fun c => { c with tmrOwner := .none, tmrCount := 0 }).task n t = some x := by
    rw [State.task, State.core_onCore_keeps (·.tasks) (by intro; rfl)]; exact hx
  have lock : ((s.onCore n fun c => { c with tmrOwner := .none, tmrCount := 0 }).core n).lockCause = (s.core n).lockCause :=
    State.core_onCore_keeps (·.lockCause) (by intro; rfl) s n n
  have free : ((s.onCore n fun c => { c with tmrOwner := .none, tmrCount := 0 }).core n).tmrOwner = .none := by
    rw [core_onCore, if_pos rfl]
  obtain ⟨after, wake, timer⟩ := State.setEvent_spec here hloc 3067
  refine ⟨after.trans ?_, fun hst hrun hl hsel => ?_, fun k => timer k (by rw [free]; exact TimerOwner.noConfusion)⟩
  · have case (k : Nat) : (s.onCore n fun c => { c with tmrOwner := .none, tmrCount := 0 }).case n k = s.case n k := by
      rw [State.case, State.core_onCore_keeps (·.cases) (by intro; rfl)]; rfl
    simp only [State.ctx, here, hx, case]
  · exact wake (Task.wokenBy_of ⟨by decide, by decide⟩ hst hrun hsel) (lock.trans hl)

/-- R249: what a failed store that was not reported in time leaves of the registers of the task. -/
theorem State.asyncTimeout_spec {s : State} {core : CoreId} {task : TaskId} {x : Task} (hpow : s.hasPower core.val = true)
    (hx : s.task core.val task.val = some x) (hloc : x.loc ≠ some 8) (hfails : (s.ctx core.val (some task.val)).fails ≠ []) :
    ∃ t, exec (.storeAsyncTimeout core task) s = .next t ∧ t.mem = s.mem ∧
      ∃ c, (t.ctx core.val (some task.val)).lasting = Casement.lasting c ∧ c.asyncDue = true ∧
        c.d = (s.ctx core.val (some task.val)).d ∧
        (x.st ≠ .running → c.bit 3069 = true ∧ s.woken t core.val task.val x 3069) := by
  have late : exec (.storeAsyncTimeout core task) s = if x.st == .running
      then .next (s.onCtx core.val (some task.val) fun c => { c with asyncDue := true })
      else .next ((s.onCtx core.val (some task.val) fun c => { c with asyncDue := true }).setEvent core.val task.val 3069) := by
    change execStoreAsyncTimeout core task s = _
    simp [execStoreAsyncTimeout, hpow, hx, hfails]
  by_cases hrun : x.st = .running
  · rw [if_pos (by simp [hrun])] at late
    refine ⟨_, late, by simp, { s.ctx core.val (some task.val) with asyncDue := true }, ?_, rfl, rfl, fun h => absurd hrun h⟩
    rw [State.ctx_onCtx_self hx]
  · rw [if_neg (by simp [hrun])] at late
    obtain ⟨after, wake⟩ := State.onCtx_setEvent (s0 := s) (f := fun c => { c with asyncDue := true }) hx hloc rfl
      (b := 3069) ⟨by decide, by decide⟩
    exact ⟨_, late, by simp, _, after, by simp, by simp, fun _ => ⟨by rw [Casement.bit_setBit]; simp, wake⟩⟩

end Sys2Proof.Machine

open Sys2Proof Sys2Proof.Machine

/-- Settles O44, by the event: a signal, the end of the timer, a failed store that is due. -/
theorem eventRows : Obligations.EventRows := by
  unfold Obligations.EventRows
  intro core task s y hy hloc
  refine ⟨fun b v hon => ?_, fun hpow hlock hown => ?_, fun hpow hfails => ?_⟩
  · have signal : exec (.remoteBitWrite core task b v) s = .next (s.remoteBit core.val task.val b.toNat v) := if_pos hon
    refine ⟨fun hlow => by rw [signal, State.remoteBit_low hy hlow], fun hhigh => ⟨_, signal, ?_⟩⟩
    obtain ⟨c, after, hc⟩ := State.remoteBit_spec hy hloc hhigh v
    have bit := Casement.bit_of_lasting after
    have watches := Casement.of_lasting Casement.watches (by intro; rfl) after
    have d := Casement.of_lasting Casement.d (by intro; rfl) after
    rw [bit, watches, d, bit, ← setDel_eq_filter, State.remoteBit_mem]
    obtain ⟨rfl, hfire⟩ | ⟨rfl, hfire, wake⟩ := hc
    · refine ⟨fun _ => ?_, by simp, rfl, by simp, fun h => absurd h hfire⟩
      rw [Casement.bit_signalled, if_neg (by omega), if_pos rfl]
    · refine ⟨fun h => ?_, by simp, rfl, by simp, fun _ => ⟨?_, wake⟩⟩
      · have other : b.toNat ≠ 3066 := h.resolve_left (fun e => e hfire)
        rw [Casement.bit_setBit, if_neg (by omega), if_neg other, Casement.bit_signalled, if_neg (by omega), if_pos rfl]
      · rw [Casement.bit_setBit]; rfl
  · have expiry : exec (.timerExpiry core) s =
        .next ((s.onCore core.val fun c => { c with tmrOwner := .none, tmrCount := 0 }).setEvent core.val task.val 3067) := by
      change execTimerExpiry core s = _
      simp only [execTimerExpiry, hown]
      exact if_neg (by simp [hpow, hlock])
    obtain ⟨after, wake, timer⟩ := State.timerExpiry_spec hy hloc
    refine ⟨_, expiry, timer _, ?_, wake, by simp, ?_⟩
    · rw [Casement.bit_of_lasting after, Casement.bit_setBit]; rfl
    · rw [Casement.of_lasting Casement.d (by intro; rfl) after]; exact Casement.setBit_d ..
  · obtain ⟨t, late, hmem, c, after, due, d, event⟩ := State.asyncTimeout_spec hpow hy hloc hfails
    refine ⟨t, late, ?_, fun h => ?_, hmem, ?_⟩
    · rw [Casement.of_lasting Casement.asyncDue (by intro; rfl) after, due]
    · rw [Casement.bit_of_lasting after]; exact event h
    · rw [Casement.of_lasting Casement.d (by intro; rfl) after, d]

end

section
/-! PROOF. The test access port, the I3C target and control space. -/

set_option Elab.async false

namespace Sys2Proof.Machine

/-! ### The test access port -/

/-- R407: what the block does at an input: it reads it, ignores it, or has no power. -/
theorem State.pinState_input (s : State) {x : Signal} (hin : x.isInput = true) :
    s.pinState x = .input ∨ s.pinState x = .ignored ∨ s.pinState x = .highZ := by
  have own : s.pinState x = if s.unpowered then x.unpowered else if s.resetLow then x.inReset else s.serviceState x := by
    simp only [State.pinState, hin]
    split <;> simp
  have gone : x.unpowered = .highZ := by cases x <;> cases hin <;> rfl
  have reset : x.inReset = .input ∨ x.inReset = .ignored ∨ x.inReset = .highZ := by cases x <;> cases hin <;> decide
  have service : s.serviceState x = .input := by cases x <;> cases hin <;> rfl
  rw [own]
  split
  · exact .inr (.inr gone)
  · split
    · exact reset
    · exact .inl service

theorem State.sampled_pull {s : State} {pins : BitVec 64} {i : Nat} {x : Signal} (hx : scanCells[i]? = some x) {b : Bool}
    (hb : s.pinState x = pull b) : s.sampled pins i = !b := by
  cases b <;> simp [State.sampled, hx, hb, pull]

theorem State.sampled_level {s : State} {pins : BitVec 64} {i : Nat} {x : Signal} (hx : scanCells[i]? = some x) {b : Bool}
    (hb : s.pinState x = if b then .high else .low) : s.sampled pins i = b := by
  cases b <;> simp [State.sampled, hx, hb]

theorem State.sampled_input {s : State} {pins : BitVec 64} {i : Nat} {x : Signal} (hx : scanCells[i]? = some x)
    (hin : x.isInput = true) : s.sampled pins i = pins.getLsbD i := by
  obtain h | h | h := s.pinState_input hin <;> simp [State.sampled, hx, h]

theorem State.getLsbD_scan (s : State) (pins : BitVec 64) {i : Nat} (hi : i < 24) : (s.scan pins).getLsbD i = s.sampled pins i := by
  rw [State.scan, BitVec.getLsbD_ofNat, testBit_packElems (by decide)]
  have cell : ((List.range 24).map fun i => b2n (s.sampled pins i)).getD i 0 = b2n (s.sampled pins i) := by
    simp [hi]
  rw [Nat.div_one, Nat.mod_one, cell]
  cases s.sampled pins i <;> simp [b2n, show i < 64 by omega]

/-- R415: where the port neither drives nor floats the pins, a signal is as in service. -/
theorem State.pinState_own {s : State} (hp : s.unpowered = false) (hr : s.resetLow = false) (hf : s.tap.floating = false)
    (hd : s.tap.driving = false) (x : Signal) : s.pinState x = s.serviceState x := by
  simp only [State.pinState, hp, hr, hf, hd]
  split <;> simp

theorem State.tapTo_powered {s : State} (h : s.unpowered = false) (t : Tap) : s.tapTo t = .next { s with tap := t } := if_neg (by simp [h])

/-- R415: what SAMPLE/PRELOAD captures. -/
theorem State.sample_spec {s : State} (hp : s.unpowered = false) (pins : BitVec 64) {i : Nat} (hi : i < 24) :
    let bits := State.scan { s with tap := s.tap.load .samplePreload } pins
    (s.resetLow = false →
      (scanCells[i]? = some .blkReady → bits.getLsbD i = s.start.ready) ∧
      (scanCells[i]? = some .lockupN → bits.getLsbD i = !s.lockupN) ∧
      (scanCells[i]? = some .faultN → bits.getLsbD i = !(s.drain.faultN || s.clkLoss)) ∧
      (scanCells[i]? = some .thermtripN → bits.getLsbD i = !s.power.ttrip)) ∧
    (∀ x, scanCells[i]? = some x → x.isInput = true → bits.getLsbD i = pins.getLsbD i) := by
  intro bits
  have bit : bits.getLsbD i = State.sampled { s with tap := s.tap.load .samplePreload } pins i := State.getLsbD_scan _ pins hi
  rw [bit]
  refine ⟨fun hr => ?_, fun x hx hin => State.sampled_input hx hin⟩
  have own (x : Signal) := State.pinState_own (s := { s with tap := s.tap.load .samplePreload }) hp hr rfl rfl x
  exact ⟨fun hx => State.sampled_level hx (own _), fun hx => State.sampled_pull hx (own _),
    fun hx => State.sampled_pull hx (own _), fun hx => State.sampled_pull hx (own _)⟩

/-! ### Mailboxes -/

theorem Mailbox.setBytes_payload (b : Mailbox) {j : Nat} (hj : 16 ≤ j) (bs : List Byte) (k : Nat) :
    tabGet 0 (b.setBytes j bs).payload k =
      if j ≤ k + 16 ∧ k + 16 < j + bs.length then bs.getD (k + 16 - j) 0 else tabGet 0 b.payload k := by
  induction bs generalizing b j with
  | nil =>
    have outside : ¬(j ≤ k + 16 ∧ k + 16 < j + ([] : List Byte).length) := by rw [List.length_nil]; omega
    rw [if_neg outside]; rfl
  | cons v bs ih =>
    have set : (b.setByte j v).payload = tabSet 0 b.payload (j - 16) v := by rw [Mailbox.setByte, if_pos hj]
    rw [Mailbox.setBytes, ih _ (by omega), set, tabGet_tabSet, List.length_cons]
    by_cases first : k + 16 = j
    · rw [if_neg (by omega), if_pos (by omega), if_pos (by omega), show k + 16 - j = 0 by omega]; rfl
    · by_cases within : j + 1 ≤ k + 16 ∧ k + 16 < j + 1 + bs.length
      · rw [if_pos within, if_pos (by omega), show k + 16 - j = k + 16 - (j + 1) + 1 by omega, List.getD_cons_succ]
      · rw [if_neg within, if_neg (by omega), if_neg (by omega)]

theorem State.box_onBox (s : State) (n m : Nat) (f : Mailbox → Mailbox) :
    (s.onBox n f).box m = if m = n then f (s.box m) else s.box m := by
  rw [State.box, State.onBox, tabGet_tabSet]
  split
  · next h => rw [h]
  · rfl

/-- R373: a write from byte 0x10 on of an idle mailbox leaves its bytes in it. -/
theorem State.mailWrite_payload {s : State} {n j : Nat} (hidle : (s.box n).st = .idle) (hj : 16 ≤ j) (bs : List Byte) {i : Nat}
    (hi : i < bs.length) : tabGet 0 ((s.mailWrite n j bs).box n).payload (j - 16 + i) = bs.getD i 0 := by
  have idle : ((s.box n).st == .idle) = true := by rw [hidle]; rfl
  rw [State.mailWrite, if_pos idle, State.box_onBox, if_pos rfl, Mailbox.setBytes_payload _ hj, if_pos (by omega),
    show j - 16 + i + 16 - j = i by omega]

theorem State.mailWrite_refused {s : State} {n : Nat} (hidle : (s.box n).st ≠ .idle) (j : Nat) (bs : List Byte) :
    s.mailWrite n j bs = s.reject := if_neg (by simpa using hidle)

/-- R387: an I3C write that begins in the payload of a mailbox and ends within it. -/
theorem State.i3cWrite_payload (s : State) (n : Nat) {j : Nat} (hj : 16 ≤ j) {data : List Byte} (hne : data ≠ [])
    (hfit : j + data.length ≤ 512) : s.i3cWrite n j data = if data.length < 4 then s.reject else s.mailWrite n j data := by
  have whole : data.take (0x200 - j) = data := List.take_of_length_le (by omega)
  have some_ : data.isEmpty = false := by simpa using hne
  have h0 : (j == 0) = false := by simp; omega
  have h4 : (j == 4) = false := by simp; omega
  have h8 : decide (j < 8) = false := by simp; omega
  simp [State.i3cWrite, some_, h0, h4, h8, whole]

/-- R415: a pin that the port floats or drives. -/
theorem State.pinState_driven {s : State} (hp : s.unpowered = false) {x : Signal} {i : Nat} (hcell : cellOf x = some i)
    (hout : x.isInput = false) : s.pinState x =
      if s.tap.floating then (if x.openDrain then .released else .highZ)
      else if s.tap.driving then (if s.tap.preload.getLsbD i then (if x.openDrain then .released else .high) else .low)
      else if s.resetLow then x.inReset else s.serviceState x := by
  simp [State.pinState, hcell, hp, hout]

/-- R420: a write of TCTL, of SPA and of a mailbox. -/
theorem State.ctlWrite_misaligned {s : State} {o : Nat} {wide : Bool} (h : o % (if wide then 8 else 4) ≠ 0) (v : Word)
    (r : Requester) (ret : Ret) : (s.ctlWrite o wide v r ret).1 = s := by
  simp [State.ctlWrite, h]

theorem State.ctlWrite_tctl (s : State) (v : Word) (r : Requester) (ret : Ret) :
    (s.ctlWrite 0x200 true v r ret).1 = { s with walkErrMode := bitAt v 0 && !s.rel10 } := by
  simp [State.ctlWrite, inR, mergeHalf]

/-- The offset of a register of core n among the scheduler blocks of control space. -/
def schedOffset (n o : Nat) : Nat := 0x1000000 + n / 64 * 0x10000 + 0x8000 + n % 64 * 0x200 + o

theorem State.ctlWrite_sched {s : State} {n o : Nat} (hn : n < 10240) (ho : o < 0x200) (h8 : o % 8 = 0) (h10 : o ≠ 0x10)
    (hon : (s.cluster (n / 64)).dst = .on) (v : Word) (r : Requester) (ret : Ret) :
    (s.ctlWrite (schedOffset n o) true v r ret).1 = s.schedWrite n o v := by
  have aligned : schedOffset n o % 8 = 0 := by unfold schedOffset; omega
  have whole : schedOffset n o / 8 * 8 = schedOffset n o := by omega
  have below : (0x5000 : Nat) < schedOffset n o := by unfold schedOffset; omega
  have notDigest : schedOffset n o ≠ 0x50808 := by unfold schedOffset; omega
  have within : schedOffset n o ≤ 0x19FFFFF := by unfold schedOffset; omega
  have from_ : 0x1000000 ≤ schedOffset n o := by unfold schedOffset; omega
  have cluster : (schedOffset n o - 0x1000000) / 0x10000 = n / 64 := by unfold schedOffset; omega
  have block : (schedOffset n o - 0x1000000) % 0x10000 = 0x8000 + n % 64 * 0x200 + o := by unfold schedOffset; omega
  have core : n / 64 * 64 + (0x8000 + n % 64 * 0x200 + o - 0x8000) / 0x200 = n := by omega
  have reg : schedOffset n o % 0x200 = o := by unfold schedOffset; omega
  have upper : 0x8000 ≤ 0x8000 + n % 64 * 0x200 + o := by omega
  generalize schedOffset n o = a at *
  have h1 : ¬ a ≤ 0x4FFF := by omega
  have h2 : a ≠ 0x5000 := by omega
  have h3 : a ≠ 0x200 := by omega
  simp [State.ctlWrite, inR, mergeHalf, aligned, whole, h1, h2, h3, notDigest, within, from_, cluster, block, core, reg, hon, h10, upper]

/-- SPA of a core that holds no task takes what it has room for (Table 11-6). -/
theorem State.schedWrite_spa {s : State} {n : Nat} (hfree : (s.core n).tasks = []) {v : Word}
    (hfit : v.toNat % 256 + v.toNat / 256 % 512 ≤ 256) : s.schedWrite n 8 v = s.onCore n fun c => { c with spa := v &&& 0x1FFFF } := by
  have room : ¬ fld v 0 8 + fld v 8 9 > 256 := by
    simp only [fld_eq_div_mod, Nat.pow_zero, Nat.div_one]; omega
  have mask : low v 17 = v &&& 0x1FFFF := by
    apply BitVec.eq_of_toNat_eq
    rw [low, BitVec.toNat_ofNat, BitVec.toNat_and, show (0x1FFFF : Word).toNat = 2 ^ 17 - 1 from rfl,
      Nat.and_two_pow_sub_one_eq_mod]
    exact Nat.mod_eq_of_lt (Nat.lt_of_le_of_lt (Nat.mod_le _ _) v.isLt)
  simp [State.schedWrite, hfree, room, mask]

theorem State.ctlWrite_mailbox (s : State) {n j : Nat} (hn : n < 32) (hj : j < 62) (v : Word) (r : Requester) (ret : Ret) :
    (s.ctlWrite (0x1000 + n * 512 + 16 + 8 * j) true v r ret).1 = s.mailWrite n (16 + 8 * j) (natToLe v.toNat 8) := by
  have aligned : (0x1000 + n * 512 + 16 + 8 * j) % 8 = 0 := by omega
  have from_ : 0x1000 ≤ 0x1000 + n * 512 + 16 + 8 * j := by omega
  have within : 0x1000 + n * 512 + 16 + 8 * j ≤ 0x4FFF := by omega
  have box : (0x1000 + n * 512 + 16 + 8 * j - 0x1000) / 0x200 = n := by omega
  have byte : (0x1000 + n * 512 + 16 + 8 * j - 0x1000) % 0x200 = 16 + 8 * j := by omega
  generalize 0x1000 + n * 512 + 16 + 8 * j = a at *
  have h0 : 16 + 8 * j ≠ 0 := by omega
  have h4 : 16 + 8 * j ≠ 4 := by omega
  simp [State.ctlWrite, inR, aligned, from_, within, box, byte, h4]

theorem execExtest_inReset {s : State} (hp : s.unpowered = false) (hr : s.resetPin = true) :
    exec .extest s = .next { s with tap := { s.tap.load .extest with driving := true } } := by
  change execExtest s = _
  rw [execExtest, if_pos hr, State.tapTo_powered hp]

theorem execHighz_inReset {s : State} (hp : s.unpowered = false) (hr : s.resetPin = true) :
    exec .highz s = .next { s with tap := { s.tap.load .highz with floating := true } } := by
  change execHighz s = _
  rw [execHighz, if_pos hr, State.tapTo_powered hp]

/-- R387: an I3C write to a mailbox's payload: too short, or into a mailbox that is not idle, it is rejected. -/
theorem execI3cPrivateWrite_eq {s : State} (hserve : s.i3cServes = true) {o : BitVec 16} (ho : o.toNat < 0x400)
    (hlow : 16 ≤ o.toNat % 512) {data : List Byte} (hne : data ≠ []) (hfit : o.toNat % 512 + data.length ≤ 512) :
    ∃ u : State, u.i3c.offset = o ∧ u.mail = s.mail ∧ u.mem = s.mem ∧ exec (.i3cPrivateWrite o data) s =
      .next (if data.length < 4 then u.reject else u.mailWrite (32 + o.toNat / 512) (o.toNat % 512) data) := by
  refine ⟨{ s with i3c := { s.i3c with offset := o } }, rfl, rfl, rfl, ?_⟩
  change execI3cPrivateWrite o data s = _
  simp only [execI3cPrivateWrite, hserve, if_true, ho]
  rw [State.i3cWrite_payload _ _ hlow hne hfit]

end Sys2Proof.Machine

open Sys2Proof Sys2Proof.Machine

/-- Settles O60, by the port: the instructions of test access, the levels of pins, I3C and control space. -/
theorem portRows : Obligations.PortRows := by
  unfold Obligations.PortRows
  intro s tap out
  refine ⟨fun hp p q => ?_, fun hp => ?_, fun p q hp => ?_, fun hp hr => ?_, fun hr hp => ?_, fun hp => ?_, fun hserve => ?_,
    fun hlive r v => ?_⟩
  · refine ⟨?_, ?_, ?_, ?_, ?_⟩ <;> exact if_pos hp
  · exact ⟨State.tapTo_powered hp _, State.tapTo_powered hp _⟩
  · exact ⟨_, State.tapTo_powered hp _, fun i hi => State.sample_spec hp p hi⟩
  · refine ⟨⟨_, execExtest_inReset hp hr, rfl, rfl, ?_⟩, ⟨_, execHighz_inReset hp hr, rfl, rfl, ?_⟩⟩
    · rintro x i ⟨-, hcell, hin⟩
      exact State.pinState_driven (s := { s with tap := { s.tap.load .extest with driving := true } }) hp hcell hin
    · rintro x i ⟨-, hcell, hin⟩
      exact State.pinState_driven (s := { s with tap := { s.tap.load .highz with floating := true } }) hp hcell hin
  · have deny (t : Tap) : s.tapTo (if s.resetPin then t else s.tap.deny) = .next { s with tap := s.tap.deny } := by
      rw [if_neg (by simp [hr]), State.tapTo_powered hp]
    exact ⟨s.tap.deny, deny _, deny _, deny _, rfl, rfl, rfl, rfl⟩
  · exact State.tapTo_powered hp _
  · refine ⟨fun a => if_pos hserve, fun e => if_pos hserve, fun count ho => ?_, fun o data ho hlow hfit => ?_⟩
    · refine ⟨_, if_pos hserve, by simp, fun i hi => ?_⟩
      simp [hi, ho]
    · intro n
      have mailWrite (hne : data ≠ []) := execI3cPrivateWrite_eq hserve ho hlow hne hfit
      have box {u : State} (h : u.mail = s.mail) (m : Nat) : u.box m = s.box m := by rw [State.box, h]; rfl
      refine ⟨fun hne hshort => ?_, fun hidle hlen => ?_, fun hbusy hne => ?_⟩
      · obtain ⟨u, hoff, hmail, hmem, hexec⟩ := mailWrite hne
        rw [if_pos hshort] at hexec
        exact ⟨_, hexec, hoff, congrArg (fun m : Mail => bump m.rej) hmail, box hmail n⟩
      · have hne : data ≠ [] := by rintro rfl; simp at hlen
        obtain ⟨u, hoff, hmail, hmem, hexec⟩ := mailWrite hne
        rw [if_neg (by omega)] at hexec
        have hidle' : (u.box (32 + o.toNat / 512)).st = .idle := by rw [box hmail]; exact hidle
        refine ⟨_, hexec, ?_, ?_, fun i hi => State.mailWrite_payload hidle' hlow data hi⟩
        · rw [← hoff]; unfold State.mailWrite; split <;> rfl
        · rw [← hmem]; unfold State.mailWrite; split <;> rfl
      · obtain ⟨u, hoff, hmail, hmem, hexec⟩ := mailWrite hne
        have hbusy' : (u.box (32 + o.toNat / 512)).st ≠ .idle := by rw [box hmail]; exact hbusy
        rw [State.mailWrite_refused hbusy', ite_self] at hexec
        exact ⟨_, hexec, hoff, congrArg (fun m : Mail => bump m.rej) hmail, box hmail n⟩
  · have exec_eq (o : BitVec 26) (w : Bool) : exec (.controlRegisterWrite r o w v) s = .next (s.ctlWrite o.toNat w v r .none).1 :=
      if_pos hlive
    refine ⟨fun o w h => ?_, ?_, fun n hn hon hfree hfit => ?_, fun n j hn hj hidle => ?_⟩
    · rw [exec_eq, State.ctlWrite_misaligned h]
    · rw [exec_eq]; exact congrArg Host.Outcome.next (State.ctlWrite_tctl s v r .none)
    · have clusterOn : (s.cluster (n / 64)).dst = .on := by
        simp only [State.coreOn, State.clusterOn, Bool.and_eq_true, beq_iff_eq] at hon
        exact hon.2
      refine ⟨_, exec_eq _ _, ?_⟩
      rw [show (BitVec.ofNat 26 (0x1000000 + n / 64 * 0x10000 + 0x8000 + n % 64 * 0x200 + 8)).toNat = schedOffset n 8 by
          rw [BitVec.toNat_ofNat]; exact Nat.mod_eq_of_lt (by omega),
        State.ctlWrite_sched hn (by decide) (by decide) (by decide) clusterOn]
      rw [State.schedWrite_spa hfree hfit]
      exact ⟨by rw [core_onCore, if_pos rfl], rfl⟩
    · refine ⟨_, exec_eq _ _, fun i hi => ?_⟩
      rw [show (BitVec.ofNat 26 (0x1000 + n * 512 + 16 + 8 * j)).toNat = 0x1000 + n * 512 + 16 + 8 * j by
          rw [BitVec.toNat_ofNat]; exact Nat.mod_eq_of_lt (by omega),
        State.ctlWrite_mailbox s hn hj]
      have payload := State.mailWrite_payload (j := 16 + 8 * j) hidle (by omega) (natToLe v.toNat 8) (i := i) (by rw [length_natToLe]; exact hi)
      rw [Nat.add_sub_cancel_left] at payload
      rw [payload, List.getD_eq_getElem?_getD, getElem?_natToLe _ hi]; rfl

end

section
/-! PROOF. Mailboxes. -/

set_option Elab.async false

namespace Sys2Proof.Machine

/-! ### What leaves the mailboxes as they are -/

@[simp] theorem State.boxEnded_mail (s : State) (n : Nat) : (s.boxEnded n).mail = s.mail := by
  simp only [State.boxEnded]
  split
  · split <;> rfl
  · exact foldl_keeps (·.mail) (fun s k => by split <;> simp) _ _
@[simp] theorem State.addHistory_mail (s : State) (u k g : Nat) (f : Bool) (c : BitVec 32) :
    (s.addHistory u k g f c).mail = s.mail := rfl
@[simp] theorem State.startDrain_mail (s : State) (c : DrainCause) (u : Nat) : (s.startDrain c u).mail = s.mail := by
  unfold State.startDrain; simp only []; split <;> rfl
@[simp] theorem State.makePermanent_mail (s : State) (u : Nat) : (s.makePermanent u).mail = s.mail := by
  unfold State.makePermanent; split <;> rfl
@[simp] theorem State.record_mail (s : State) (u k g : Nat) (r : Bool) : (s.record u k g r).mail = s.mail := by
  simp only [State.record]
  repeat' split
  all_goals simp
@[simp] theorem State.recordRestart_mail (s : State) (i : Nat) (eighth : Bool) : (s.recordRestart i eighth).mail = s.mail := by
  unfold State.recordRestart; split <;> simp
@[simp] theorem State.holdStart_mail (s : State) (unit : Nat) : (s.holdStart unit).mail = s.mail := by
  simp [State.holdStart]

theorem State.box_of_mail {s t : State} (h : t.mail = s.mail) (n : Nat) : t.box n = s.box n := by rw [State.box, h]; rfl

/-- R382: a restart of MP2 ends only mailboxes that are TAKEN. -/
theorem State.failTaken_box {s : State} {n : Nat} (h : (s.box n).st ≠ .taken) : s.failTaken.box n = s.box n := by
  have step (u : State) (k : Nat) (hu : u.box n = s.box n) :
      (if (u.box k).st == .taken then u.boxError k 0x0A else u).box n = s.box n := by
    split
    · next hk =>
      have other : n ≠ k := by rintro rfl; rw [hu] at hk; exact h (beq_iff_eq.1 hk)
      rw [State.boxError, State.box_of_mail (State.boxEnded_mail _ _), State.box_onBox, if_neg other, hu]
    · exact hu
  have all (l : List Nat) (u : State) (hu : u.box n = s.box n) :
      (l.foldl (fun s k => if (s.box k).st == .taken then s.boxError k 0x0A else s) u).box n = s.box n := by
    induction l generalizing u with
    | nil => exact hu
    | cons k l ih => exact ih _ (step u k hu)
  exact all _ _ rfl

theorem State.mpRestart_box {s : State} {n : Nat} (h : (s.box n).st ≠ .taken) (cause : BitVec 2) :
    (s.mpRestart 2 cause).box n = s.box n := by
  unfold State.mpRestart
  extract_lets now again recent eighth s1 s2 s3 _ _ s4 _ s5 _ s6 _ s7
  have h3 : s3.mail = s2.mail := by simp only [s3]; split <;> simp
  have h4 : s4.mail = s3.mail := ite_keeps State.mail rfl
  have h5 : s5.mail = s4.mail := ite_keeps State.mail rfl
  have h2 : s2.mail = s.mail := by rfl
  have same := State.box_of_mail (h5.trans (h4.trans (h3.trans h2))) n
  have h6 : s6 = s5.failTaken := if_pos rfl
  have h7 : s7.box n = s.box n := by
    rw [← same, ← State.failTaken_box (s := s5) (by rw [same]; exact h), ← h6]
    have h76 : s7.mail = s6.mail := by simp only [s7]
    exact State.box_of_mail h76 n
  rw [← h7]
  apply State.box_of_mail
  rw [ite_keeps State.mail (by simp)]

/-! ### Mailboxes -/

/-- R372, Table 17-2: a compare-and-set where STATE is not what it expects. -/
theorem State.mailCas_unexpected {s : State} {n e : Nat} (h : e ≠ (s.box n).st.code) (new : Nat) : s.mailCas n e new = s.reject :=
  if_pos (by simpa using h.symm)

/-- R380: the doorbells named by RING are set. -/
theorem State.ringAll_box (s : State) (r : Nat) {j : Nat} (hj : j < 32) :
    ((s.ringAll r).box j).bell = (r.testBit j || (s.box j).bell) ∧ ((s.ringAll r).box j).st = (s.box j).st := by
  have all (l : List Nat) (u : State) :
      ((l.foldl (fun s n => if r.testBit n then s.ring n else s) u).box j).bell = ((l.contains j && r.testBit j) || (u.box j).bell) ∧
      ((l.foldl (fun s n => if r.testBit n then s.ring n else s) u).box j).st = (u.box j).st := by
    induction l generalizing u with
    | nil => simp
    | cons k l ih =>
      rw [List.foldl_cons]
      obtain ⟨bell, st⟩ := ih (if r.testBit k then u.ring k else u)
      rw [bell, st, List.contains_cons]
      by_cases hk : r.testBit k = true
      · rw [if_pos hk, State.ring, State.box_onBox]
        by_cases hjk : j = k
        · subst hjk; simp [hk]
        · simp [hjk, beq_eq_false_iff_ne.2 hjk]
      · rw [if_neg hk]
        by_cases hjk : j = k
        · subst hjk; simp [hk]
        · simp [beq_eq_false_iff_ne.2 hjk]
  obtain ⟨bell, st⟩ := all (List.range 32) s
  exact ⟨bell.trans (by simp [hj]), st⟩

/-- R377, R379: what a completion leaves of its mailbox, where the request's record is `u`. -/
theorem Mailbox.finish_spec (b : Mailbox) (status : BitVec 8) (reply : List Byte) :
    (b.finish status reply).timer = false ∧
    (status = 0 → (b.finish status reply).st = .done) ∧
    (status = 0 → reply.length ≤ 496 → (b.finish status reply).len.toNat = reply.length ∧
      ∀ j, j < reply.length → tabGet 0 (b.finish status reply).payload j = reply.getD j 0) ∧
    (status ≠ 0 → (b.finish status reply).st = .error ∧ (b.finish status reply).status = status ∧ (b.finish status reply).len = 0) := by
  by_cases h : status = 0
  · have done : b.finish status reply =
        { b.setBytes 16 reply with st := .done, status := 0, len := BitVec.ofNat 16 reply.length, timer := false } := if_pos (by simp [h])
    rw [done]
    refine ⟨rfl, fun _ => rfl, fun _ hlen => ⟨?_, fun j hj => ?_⟩, fun hne => absurd h hne⟩
    · rw [BitVec.toNat_ofNat]; exact Nat.mod_eq_of_lt (by omega)
    · rw [Mailbox.setBytes_payload _ (by decide), if_pos (by omega), show j + 16 - 16 = j by omega]
  · have failed : b.finish status reply = { b with st := .error, status := status, len := 0, timer := false } := if_neg (by simpa using h)
    rw [failed]
    exact ⟨rfl, fun e => absurd e h, fun e => absurd e h, fun _ => ⟨rfl, rfl, rfl⟩⟩

/-- R377, R379: the request of mailbox n has ended. -/
def State.completed (s : State) (n : Nat) (status : BitVec 8) (reply : List Byte) : State :=
  ((State.keepRecord { s with mail := { s.mail with work := s.mail.work.filter (·.1 != n) } } n status reply).onBox n
    fun b => b.finish status reply).boxEnded n

theorem State.completed_spec (s : State) (n : Nat) (status : BitVec 8) (reply : List Byte) :
    (s.completed n status reply).box n = (s.box n).finish status reply ∧ (s.completed n status reply).mps = s.mps ∧
    (∀ x ∈ (s.completed n status reply).mail.work, x.1 ≠ n) ∧ (s.completed n status reply).mem = s.mem := by
  have record (u : State) : (u.keepRecord n status reply).box n = u.box n ∧ (u.keepRecord n status reply).mps = u.mps ∧
      (u.keepRecord n status reply).mail.work = u.mail.work := by
    unfold State.keepRecord; split <;> exact ⟨rfl, rfl, rfl⟩
  unfold State.completed
  refine ⟨?_, ?_, fun x hx => ?_, by simp⟩
  · rw [State.box_of_mail (State.boxEnded_mail _ _), State.box_onBox, if_pos rfl, (record _).1]; rfl
  · rw [State.boxEnded_mps]; exact (record _).2.1
  · rw [State.boxEnded_mail] at hx
    obtain ⟨-, -, work⟩ := record { s with mail := { s.mail with work := s.mail.work.filter (·.1 != n) } }
    have kept : x ∈ (State.keepRecord { s with mail := { s.mail with work := s.mail.work.filter (·.1 != n) } } n status
      reply).mail.work := hx
    rw [work] at kept
    simpa using (List.mem_filter.1 kept).2

theorem State.mp_of_mps {s t : State} (h : t.mps = s.mps) (i : Nat) : t.mp i = s.mp i := by simp only [State.mp, h]

/-- R377, R379: MAILBOX_COMPLETE of a request that is still taken. -/
theorem execMailboxComplete_taken {s : State} {n : MailboxId} {w : Work} {status : BitVec 8} {reply : List Byte}
    (hserve : s.serving 2 = true) (hw : (s.mail.work.find? fun w => w.1 == n.val) = some (n.val, w))
    (hres : w.result = some (status, reply)) (htaken : (s.box n.val).st = .taken) :
    exec (.mailboxComplete n) s = .next (if status = 0 ∧ s.known n.val = none ∧ (s.box n.val).opcode = 0xA3 ∧ (s.box n.val).req 0 1 = 2
      then (s.completed n.val status reply).mpRestart 2 2 else s.completed n.val status reply) := by
  change execMailboxComplete n s = _
  unfold execMailboxComplete
  rw [if_neg (by simp [hserve])]
  simp only [hw, hres]
  rw [if_neg (by rw [bne_iff_ne, ne_eq, not_not]; exact htaken)]
  refine congrArg Host.Outcome.next (if_congr ?_ rfl rfl)
  have op : (s.box n.val).opcode.toNat = 0xA3 ↔ (s.box n.val).opcode = 0xA3 := ⟨fun h => BitVec.eq_of_toNat_eq h, fun h => by rw [h]; rfl⟩
  have same : ∀ u : State, u.mail.boxes = s.mail.boxes → u.mail.records = s.mail.records →
      ((status == 0 && (u.known n.val).isNone && (u.box n.val).opcode.toNat == 0xA3 && (u.box n.val).req 0 1 == 2) = true ↔
        status = 0 ∧ s.known n.val = none ∧ (s.box n.val).opcode = 0xA3 ∧ (s.box n.val).req 0 1 = 2) := by
    intro u hb hr
    have box : u.box n.val = s.box n.val := by rw [State.box, hb]; rfl
    have known : u.known n.val = s.known n.val := by simp only [State.known, box, hr]
    rw [box, known]
    simp [op, and_assoc]
  exact same _ rfl rfl

/-- R375, R377: the end of a request by its deadline. -/
theorem State.box_timeout (s : State) (n : Nat) (x : BitVec 8) :
    ((s.onBox n fun b => { b with st := .timeout, status := x, timer := false }).boxEnded n).box n =
      { s.box n with st := .timeout, status := x, timer := false } := by
  rw [State.box_of_mail (State.boxEnded_mail _ _), State.box_onBox, if_pos rfl]

end Sys2Proof.Machine

open Sys2Proof Sys2Proof.Machine

/-- Settles O55, by the command and the state of the mailbox. -/
theorem mailboxRows : Obligations.MailboxRows := by
  unfold Obligations.MailboxRows
  intro n s hlive b leaves rejects
  have post (e : BitVec 3) : exec (.mailboxPost n e) s = .next (s.mailCas n.val e.toNat 1) := if_pos hlive
  have withdraw (e : BitVec 3) : exec (.mailboxWithdraw n e) s = .next (s.mailCas n.val e.toNat 0) := if_pos hlive
  have clear (e : BitVec 3) : exec (.mailboxClear n e) s = .next (s.mailCas n.val e.toNat 0) := if_pos hlive
  refine ⟨fun h => ?_, fun h => ?_, ⟨fun h => ?_, fun h => ?_, fun h => ?_⟩, fun e he => ?_, fun h => ?_, fun r => ?_,
    fun hserve => ⟨fun h hnext => ?_, fun h => ?_, fun p h hcls hwork => ?_, fun w st reply hw hres h hno => ?_,
      fun w reply hw hres h hop hreq hknown => ?_⟩, fun h => ?_, fun h => ?_, fun h hp => ?_, fun h => ?_⟩
  · exact (post 0).trans (by simp [State.mailCas, show (s.box n.val).st = .idle from h, MbSt.code])
  · exact (withdraw 1).trans (by simp [State.mailCas, show (s.box n.val).st = .posted from h, MbSt.code])
  · exact (clear 3).trans (by simp [State.mailCas, show (s.box n.val).st = .done from h, MbSt.code])
  · exact (clear 4).trans (by simp [State.mailCas, show (s.box n.val).st = .timeout from h, MbSt.code])
  · exact (clear 5).trans (by simp [State.mailCas, show (s.box n.val).st = .error from h, MbSt.code])
  · have unexpected (new : Nat) : (.next (s.mailCas n.val e.toNat new) : Out) = .next s.reject := by
      rw [State.mailCas_unexpected he]
    exact ⟨(post e).trans (unexpected 1), (withdraw e).trans (unexpected 0), (clear e).trans (unexpected 0)⟩
  · have taken : (s.box n.val).st = .taken := h
    exact ⟨(post 2).trans (by simp [State.mailCas, taken, MbSt.code, State.reject]),
      (withdraw 2).trans (by simp [State.mailCas, taken, MbSt.code, State.reject])⟩
  · exact ⟨_, if_pos hlive, by simp, fun j hj => State.ringAll_box s r.toNat hj⟩
  · have take : exec (.mailboxTake n) s = .next (s.takeBox n.val) := by
      change execMailboxTake n s = _
      rw [execMailboxTake, if_neg (by simp [hserve]), if_neg (by simp [show (s.box n.val).st = .posted from h]),
        if_pos (by simp [hnext])]
    have box := State.box_onBox s n.val n.val fun b => { b with st := .taken, bell := false }
    rw [if_pos rfl] at box
    refine ⟨_, _, take, congrArg Mailbox.st box, congrArg Mailbox.bell box, List.mem_append_right _ (List.mem_singleton.2 rfl), rfl, rfl, rfl⟩
  · change execMailboxTake n s = _
    rw [execMailboxTake, if_neg (by simp [hserve]), if_pos (by simpa using h)]
  · change execMailboxProgress n p s = _
    have due : (s.serving 2 && (s.box n.val).cls == 2 && s.mail.work.any (·.1 == n.val)) = true := by
      rw [hserve, hwork, show (s.box n.val).cls = 2 from hcls]; rfl
    have taken : ((s.box n.val).st == .taken) = true := by rw [show (s.box n.val).st = .taken from h]; rfl
    simp only [execMailboxProgress, due, taken]
    rfl
  · have complete := execMailboxComplete_taken hserve hw hres h
    rw [if_neg (fun ⟨h0, hk, hop, hreq⟩ => by
      obtain h | h | h | h := hno
      · exact h hop
      · exact h hreq
      · exact h h0
      · rw [hk] at h; cases h)] at complete
    obtain ⟨box, mps, work, mem⟩ := s.completed_spec n.val st reply
    obtain ⟨timer, done, rep, err⟩ := (s.box n.val).finish_spec st reply
    refine ⟨_, complete, ?_, State.mp_of_mps mps, work, mem, fun h0 hlen => ?_, fun h0 => ?_⟩
    · rw [box, timer]
    · rw [box]; exact ⟨done h0, rep h0 hlen⟩
    · rw [box]; exact err h0
  · have complete := execMailboxComplete_taken hserve hw hres h
    rw [if_pos ⟨rfl, hknown, hop, hreq⟩] at complete
    obtain ⟨box, -, -, -⟩ := s.completed_spec n.val 0 reply
    obtain ⟨-, done, -, -⟩ := (s.box n.val).finish_spec 0 reply
    have ended : ((s.completed n.val 0 reply).box n.val).st = .done := by rw [box, done rfl]
    obtain ⟨f, mps, st, cause, -⟩ := (s.completed n.val 0 reply).mpRestart_mps 2 2 false
    have mp := (State.mp_of_mps mps 2).trans (by rw [State.mp_onMp, if_pos rfl])
    refine ⟨_, complete, ?_, ?_⟩
    · rw [State.mpRestart_box (by rw [ended]; exact MbSt.noConfusion), ended]
    · rw [mp]; exact ⟨st, cause⟩
  · refine ⟨_, ?_, congrArg Mailbox.st (s.box_timeout n.val 0x10), congrArg Mailbox.status (s.box_timeout n.val 0x10), ?_⟩
    · change execMailboxDeadline n s = _
      simp only [execMailboxDeadline, hlive, show (s.box n.val).st = .posted from h]
      rfl
    · simp
  · change execMailboxDeadline n s = _
    obtain ⟨h, hp⟩ | h | h := h
    · simp [execMailboxDeadline, hlive, show (s.box n.val).st = .taken from h, show (s.box n.val).progAt = _ from hp, State.race]
    · simp [execMailboxDeadline, hlive, show (s.box n.val).st = .done from h, State.race]
    · simp [execMailboxDeadline, hlive, show (s.box n.val).st = .error from h, State.race]
  · refine ⟨_, ?_, congrArg Mailbox.st ((s.dropUnstarted n.val).box_timeout n.val 0x11),
      congrArg Mailbox.status ((s.dropUnstarted n.val).box_timeout n.val 0x11), ?_⟩
    · change execMailboxDeadline n s = _
      have moved : ¬ ((s.box n.val).progAt == some (s.now / 4)) = true := by simpa using hp
      simp only [execMailboxDeadline, hlive, show (s.box n.val).st = .taken from h, if_neg moved]
      rfl
    · simp
  · change execMailboxDeadline n s = _
    simp [execMailboxDeadline, hlive, show (s.box n.val).st = .idle from h]

end

section
/-! PROOF. Reads of storage and what a translation touches. -/

set_option Elab.async false

namespace Sys2Proof.Machine

/-! ### What the records of errors leave of storage and of the cores -/

/-- Storage, its errors, and the cores. -/
def State.stored (s : State) : List Host.Cell × List Nat × List Nat × List Nat × Tab Core :=
  (s.mem, s.poison, s.eccBad, s.eccCorr, s.cores)

@[simp] theorem State.addHistory_stored (s : State) (u k g : Nat) (f : Bool) (c : BitVec 32) :
    (s.addHistory u k g f c).stored = s.stored := rfl
@[simp] theorem State.addLog_stored (s : State) (kind unit : Nat) (detail pc addr : Word) : (s.addLog kind unit detail pc addr).stored = s.stored := rfl
@[simp] theorem State.startDrain_stored (s : State) (c : DrainCause) (u : Nat) : (s.startDrain c u).stored = s.stored := by
  unfold State.startDrain; simp only []; split <;> rfl
@[simp] theorem State.makePermanent_stored (s : State) (u : Nat) : (s.makePermanent u).stored = s.stored := by
  unfold State.makePermanent; split <;> rfl
@[simp] theorem State.record_stored (s : State) (u k g : Nat) (r : Bool) : (s.record u k g r).stored = s.stored := by
  simp only [State.record]
  repeat' split
  any_goals simp
  all_goals rfl
@[simp] theorem State.onPort_stored (s : State) (p : Nat) (f : Stack → Stack) : (s.onPort p f).stored = s.stored := rfl
@[simp] theorem State.onCluster_stored (s : State) (c : Nat) (f : Cluster → Cluster) : (s.onCluster c f).stored = s.stored := rfl
@[simp] theorem State.countUe_stored (s : State) (a : Nat) : (s.countUe a).stored = s.stored := by
  unfold State.countUe; split <;> simp
@[simp] theorem State.countUnit_stored (s : State) (u : Nat) : (s.countUnit u).stored = s.stored := rfl
@[simp] theorem State.countCe_stored (s : State) (a : Nat) : (s.countCe a).stored = s.stored := by
  unfold State.countCe; split <;> rfl
@[simp] theorem State.bondNote_stored (s : State) (own : Option Nat) : (s.bondNote own).stored = s.stored := by
  unfold State.bondNote; repeat' split
  all_goals simp

/-! ### What a translation and a fresh number leave -/

/-- From s to t only the TLBs of cores, the free value and the fresh numbers have changed. -/
structure Touched (s t : State) : Prop where
  core : ∀ {α : Type} (g : Core → α), (∀ c l, g { c with tlb := l } = g c) → ∀ m, g (t.core m) = g (s.core m)
  block : ∀ {α : Type} (g : State → α), (∀ s f i cs, g { s with free := f, nextId := i, cores := cs } = g s) → g t = g s

namespace Touched

theorem refl (s : State) : Touched s s := ⟨fun _ _ _ => rfl, fun _ _ => rfl⟩

theorem trans {s t u : State} (h : Touched s t) (g : Touched t u) : Touched s u :=
  ⟨fun p hp m => (g.core p hp m).trans (h.core p hp m), fun p hp => (g.block p hp).trans (h.block p hp)⟩

theorem fresh (s : State) : Touched s s.fresh.2 := ⟨fun _ _ _ => rfl, fun _ hg => hg s s.free _ s.cores⟩

theorem touchTlb (s : State) (n tag ia : Nat) : Touched s (s.touchTlb n tag ia) := by
  unfold State.touchTlb
  split
  · exact refl s
  · split
    · exact refl s
    · refine ⟨fun g hg m => ?_, fun g hg => hg s _ s.nextId _⟩
      exact State.core_onCore_keeps g (fun c => hg c _) s n m

variable {s t : State} (h : Touched s t)
include h

theorem case (n k : Nat) : t.case n k = s.case n k := by
  simp only [State.case, h.core (·.cases) (by intros; rfl)]

theorem whoIs (n k : Nat) : t.whoIs n k = s.whoIs n k := by simp only [State.whoIs, h.case]

theorem place (pa : Nat) : t.place pa = s.place pa := h.block (·.place pa) (by intros; rfl)

theorem near (n pa : Nat) : t.near n pa = s.near n pa := by simp only [State.near, h.place]

theorem storesTo (n : Nat) (who : Option Nat) (line : Nat) : t.storesTo n who line = s.storesTo n who line := by
  simp only [State.storesTo, h.core (·.sbuf) (by intros; rfl)]

theorem casBusy (n : Nat) (who : Option Nat) (line : Nat) : t.casBusy n who line = s.casBusy n who line :=
  h.block (·.casBusy n who line) (by intros; rfl)

theorem bypassBusy (n : Nat) (who : Option Nat) (line : Nat) : t.bypassBusy n who line = s.bypassBusy n who line := by
  simp only [State.bypassBusy, h.core (·.sbuf) (by intros; rfl), h.core (·.tileOps) (by intros; rfl),
    h.core (·.vecOps) (by intros; rfl), h.whoIs, h.casBusy, h.block (·.packets) (by intros; rfl),
    h.block (·.ports) (by intros; rfl), h.block (·.links) (by intros; rfl)]

theorem locate (pa len : Nat) (own : Option Nat) : t.locate pa len own = s.locate pa len own := by
  have spill (n off : Nat) : t.inSpill n off len = s.inSpill n off len := by
    simp only [State.inSpill, h.core (·.spa) (by intros; rfl)]
  have on (n : Nat) : t.clusterOn n = s.clusterOn n := h.block (·.clusterOn n) (by intros; rfl)
  have power (n : Nat) : t.hasPower n = s.hasPower n := h.block (·.hasPower n) (by intros; rfl)
  have port (p : Nat) : t.port p = s.port p := h.block (·.port p) (by intros; rfl)
  simp only [State.locate, h.place, spill, on, power, port]

theorem storage : t.mem = s.mem ∧ t.poison = s.poison ∧ t.eccBad = s.eccBad ∧ t.eccCorr = s.eccCorr :=
  ⟨h.block (·.mem) (by intros; rfl), h.block (·.poison) (by intros; rfl), h.block (·.eccBad) (by intros; rfl),
    h.block (·.eccCorr) (by intros; rfl)⟩

end Touched

/-! ### Reads of storage -/

/-- Two states with the same storage. -/
def State.sameStorage (s t : State) : Prop :=
  t.mem = s.mem ∧ t.poison = s.poison ∧ t.eccBad = s.eccBad ∧ t.eccCorr = s.eccCorr

theorem State.sameStorage_scrubWord {s t : State} (h : s.sameStorage t) (w : Nat) :
    (s.scrubWord w).sameStorage (t.scrubWord w) := by
  obtain ⟨hm, hp, hb, hc⟩ := h
  have of_stored {u v a b : State} (hu : a.stored = u.stored) (hv : b.stored = v.stored) (e : u.sameStorage v) : a.sameStorage b := by
    simp only [State.stored, Prod.mk.injEq] at hu hv
    obtain ⟨u1, u2, u3, u4, -⟩ := hu
    obtain ⟨v1, v2, v3, v4, -⟩ := hv
    exact ⟨by rw [v1, u1]; exact e.1, by rw [v2, u2]; exact e.2.1, by rw [v3, u3]; exact e.2.2.1, by rw [v4, u4]; exact e.2.2.2⟩
  unfold State.scrubWord
  rw [hb, hc]
  split
  · exact of_stored (State.countUe_stored _ _) (State.countUe_stored _ _) ⟨hm, congrArg (setAdd · (w / 8)) hp, rfl, rfl⟩
  · split
    · exact of_stored (State.countCe_stored _ _) (State.countCe_stored _ _) ⟨hm, hp, rfl, rfl⟩
    · exact ⟨hm, hp, hb, hc⟩

theorem State.scrubWord_cores (s : State) (w : Nat) : (s.scrubWord w).cores = s.cores := by
  unfold State.scrubWord
  split
  · exact congrArg (·.2.2.2.2) (State.countUe_stored _ _)
  · split
    · exact congrArg (·.2.2.2.2) (State.countCe_stored _ _)
    · rfl

theorem State.scrubWords_cores (s : State) (l : List Nat) : (s.scrubWords l).cores = s.cores :=
  foldl_keeps (·.cores) State.scrubWord_cores l s

theorem State.sameStorage_scrubWords {s t : State} (h : s.sameStorage t) (l : List Nat) :
    (s.scrubWords l).sameStorage (t.scrubWords l) := by
  induction l generalizing s t with
  | nil => exact h
  | cons w l ih => exact ih (State.sameStorage_scrubWord h w)

theorem State.bytes_of_mem {s t : State} (h : t.mem = s.mem) (a n : Nat) : t.bytes a n = s.bytes a n := by
  induction n generalizing a with
  | zero => rfl
  | succ n ih => simp only [State.bytes, State.byte, h, ih]

theorem Touched.readStore {s t : State} (h : Touched s t) (a len : Nat) :
    (t.readStore a len).2 = (s.readStore a len).2 ∧ (t.readStore a len).1.cores = t.cores := by
  have scrubbed (l : List Nat) : State.sameStorage (if s.eccBad.isEmpty && s.eccCorr.isEmpty then s else s.scrubWords l)
      (if t.eccBad.isEmpty && t.eccCorr.isEmpty then t else t.scrubWords l) := by
    obtain ⟨-, -, hb, hc⟩ := h.storage
    rw [hb, hc]
    split
    · exact h.storage
    · exact State.sameStorage_scrubWords h.storage l
  obtain ⟨hm, hp, -, -⟩ := scrubbed (eccWords a len)
  refine ⟨?_, ?_⟩
  · simp only [State.readStore, hp, State.bytes_of_mem hm]
  · simp only [State.readStore]
    split
    · rfl
    · exact State.scrubWords_cores t _

/-- A read gives what it would have given before the translation, and leaves the cores as they were. -/
theorem Touched.readPa {s t : State} (h : Touched s t) (pa len : Nat) (own : Option Nat) :
    (t.readPa pa len own).2 = (s.readPa pa len own).2 ∧ (t.readPa pa len own).1.cores = t.cores := by
  have bond : t.bondBad own = s.bondBad own := by
    cases own with
    | none => rfl
    | some n => exact h.core (·.badBond) (by intros; rfl) n
  have noted (u : State) : (u.bondNote own).cores = u.cores := congrArg (·.2.2.2.2) (State.bondNote_stored u own)
  unfold State.readPa
  rw [h.locate]
  split
  · next a _ =>
    have same := h.readStore a len
    revert same
    obtain ⟨t', tbad, tbs⟩ := t.readStore a len
    obtain ⟨s', sbad, sbs⟩ := s.readStore a len
    rintro ⟨bytes, cores⟩
    cases bytes
    exact ⟨by rw [bond], (noted _).trans cores⟩
  · exact ⟨rfl, rfl⟩

end Sys2Proof.Machine

end

section
/-! PROOF. Loads past the cache. -/

set_option Elab.async false

namespace Sys2Proof.Machine

/-! ### What an issued word leaves of the casement -/

/-- A part of the registers that neither the settling of reports nor the advance to the next word touches. -/
theorem Issued.reg {s s1 t : State} {n k : Nat} (h : Issued s s1 n k t) {α : Type} (g : Casement → α)
    (hg : ∀ c pc x i y, g (Casement.touch { c.settleRegs with
      pc := pc, xfer := x, icount := i, held := [], waiting := none, first := false, switched := false, frameRet := false } y) = g c) : g (t.case n k) = g (s1.case n k) := by
  obtain ⟨x, y, hcase⟩ := h.case
  rw [hcase, hg]

theorem Issued.pc {s s1 t : State} {n k : Nat} (h : Issued s s1 n k t) :
    (t.case n k).pc = (s.reg n k).pc + 4 ∧ (t.case n k).icount = (s1.case n k).icount + 1 := by
  obtain ⟨x, y, hcase⟩ := h.case
  rw [hcase]
  exact ⟨rfl, rfl⟩

/-! ### Loads -/

/-- A value as a load extends it (Table 03-4). -/
theorem arrived_val (x n : Nat) (signed : Bool) :
    (if signed then sext (x % 2 ^ n) n else BitVec.ofNat 64 (x % 2 ^ n)) =
      if signed then (BitVec.ofNat n x).signExtend 64 else (BitVec.ofNat n x).setWidth 64 := by
  cases signed
  · simp only [Bool.false_eq_true, if_false]
    exact BitVec.eq_of_toNat_eq (by simp)
  · simp only [if_true, sext_eq_signExtend]
    congr 1
    exact BitVec.eq_of_toNat_eq (by simp)

/-- R64, R229: a load that bypasses the cache and reads the core's own bank. -/
theorem State.loadDirect_here {b u : State} (h : Touched b u) {n k : Nat} {x : Xl} (hd : b.direct n k x = true) (bytes : Nat)
    (signed : Bool) (port : Port) : ∃ (w : State) (p : Pending), u.loadDirect n k x bytes signed port 4 = .done (w.onCase n k fun c => c.addPending p) ∧
      w.mem = b.mem ∧ (∀ m j, w.case m j = b.case m j) ∧ (w.core n).sbuf = (b.core n).sbuf ∧ p.port = port ∧ p.due = 4 ∧
      p.await = .ready ∧ p.contrib = Contrib.mk 0 none 0 0 0 ∧ p.keyWrite = none ∧
      p.data = { val := if signed then (BitVec.ofNat (8 * bytes) (leToNat (b.readPa x.pa bytes (some n)).2.2)).signExtend 64
                        else (BitVec.ofNat (8 * bytes) (leToNat (b.readPa x.pa bytes (some n)).2.2)).setWidth 64,
                 taint := (b.readPa x.pa bytes (some n)).2.1.taint } := by
  simp only [State.direct, Bool.and_eq_true, Bool.not_eq_true'] at hd
  obtain ⟨⟨⟨-, hbank⟩, hstores⟩, hbusy⟩ := hd
  have waits : ¬ (u.storesTo n (u.whoIs n k) (x.pa / 64) || u.bypassBusy n (u.whoIs n k) (x.pa / 64)) = true := by
    rw [h.whoIs, h.storesTo, h.bypassBusy, hstores, hbusy]; simp
  have near : u.fresh.2.near n x.pa = true := by
    rw [(h.trans (Touched.fresh u)).near]; exact hbank
  obtain ⟨read, cores⟩ := (h.trans (Touched.fresh u)).readPa x.pa bytes (some n)
  unfold State.loadDirect
  simp only [if_neg waits]
  rw [show u.fresh = (u.fresh.1, u.fresh.2) from rfl]
  simp only [near, if_true]
  refine ⟨_, _, rfl, ?_, ?_, ?_, rfl, rfl, rfl, rfl, rfl, ?_⟩
  · rw [State.readPa_mem]; exact h.storage.1
  · intro m j
    rw [← h.case m j]
    simp only [State.case, State.core, cores]
    rfl
  · rw [← h.core (·.sbuf) (by intros; rfl) n]
    simp only [State.core, cores]
    rfl
  · rw [← read, ← arrived_val]
    rfl

/-- A load of the core's own bank past the cache that meets no fault (R59, R64). -/
theorem State.load_direct {b : State} {n k va bytes : Nat} {x : Xl} {dev : Bool} (hp : b.passes n k va bytes .read dev x)
    (hd : b.direct n k x = true) (signed : Bool) (port : Port) :
    b.load n k va bytes signed port 4 dev = (b.touchTlb n x.tag x.ia).loadDirect n k x bytes signed port 4 := by
  obtain ⟨aligned, nokey, xlate, ctl⟩ := hp
  have uncached : ¬ (x.type == .cached) = true := by
    simp only [State.direct, Bool.and_eq_true, bne_iff_ne] at hd
    simpa using hd.1.1.1
  have ctl' : ctlCheck (b.case n k) x .read va bytes = none := by simpa using ctl
  simp only [State.load, aligned, nokey, State.xlateWord, xlate, ctl', uncached]
  rfl

/-- A trigger of the LSU is fired by `trigLsu`. -/
theorem fire_lsu {sock : Nat} (hu : sockOf sock = some (.trig .lsu)) (s : State) (n k len : Nat) (v : Word) :
    s.fire n k len sock v = trigLsu s n k sock v := by
  simp [State.fire, trigUnit, hu]

/-- A word that fires a trigger in a calm casement is past it with the trigger's effect. -/
theorem issueMove_issued {s s1 : State} {n k sock : Nat} {v : Word} {u : Unit_} (h : s.ready n k = true) (hcalm : s.calm n k = true)
    (hs : sock < 4096) (hwait : sock ≠ 0x494 ∧ sock ≠ 0x495 ∧ sock ≠ 0x496) (hu : sockOf sock = some (.trig u))
    (hc : isControl sock = false) (hf : (s.arrivals n k).fire n k 4 sock v = .done s1) :
    ∃ t, (.next (s.issueMove n sock v) : Out) = .next t ∧ Issued s s1 n k t := by
  obtain ⟨t, ht, issued⟩ := State.issues_calm v s1 hs hwait.1 hwait.2.1 (fun _ => hwait.2.2) hcalm
  exact ⟨t, (issueMove_done h hs hu (.inl hc) hf).trans ht, issued⟩

/-- From s to s1 a load of the core's own bank has given casement (n, k) the pending result p; the data stack pointer may
have moved. -/
structure Loaded (s : State) (n k pa bytes : Nat) (signed : Bool) (port : Port) (p : Pending) (s1 : State) : Prop where
  mem : s1.mem = s.mem
  sbuf : (s1.core n).sbuf = (s.core n).sbuf
  case : ∃ sp, s1.case n k = { (s.case n k).addPending p with dsp := sp }
  place : p.port = port ∧ p.due = 4
  plain : p.await = .ready ∧ p.contrib = Contrib.mk 0 none 0 0 0 ∧ p.keyWrite = none
  data : p.data = { val := if signed then (BitVec.ofNat (8 * bytes) (leToNat (s.readPa pa bytes (some n)).2.2)).signExtend 64
                           else (BitVec.ofNat (8 * bytes) (leToNat (s.readPa pa bytes (some n)).2.2)).setWidth 64,
                    taint := (s.readPa pa bytes (some n)).2.1.taint }

theorem Loaded.of_direct {b : State} {n k va bytes : Nat} {x : Xl} {dev : Bool} (hp : b.passes n k va bytes .read dev x)
    (hd : b.direct n k x = true) (signed : Bool) (port : Port) :
    ∃ (w : State) (p : Pending), b.load n k va bytes signed port 4 dev = .done w ∧ Loaded b n k x.pa bytes signed port p w := by
  obtain ⟨w, p, hload, mem, case, sbuf, hport, hdue, hawait, hcontrib, hkey, hdata⟩ :=
    State.loadDirect_here (Touched.touchTlb b n x.tag x.ia) hd bytes signed port
  refine ⟨_, p, (State.load_direct hp hd signed port).trans hload, mem, ?_, ⟨(b.case n k).dsp, ?_⟩, ⟨hport, hdue⟩,
    ⟨hawait, hcontrib, hkey⟩, hdata⟩
  · exact (State.core_onCore_keeps (·.sbuf) (by intro; rfl) _ _ _).trans sbuf
  · rw [case_onCase, if_pos ⟨rfl, rfl⟩, case]; rfl

/-- R73: the pop moves the data stack pointer. -/
theorem Loaded.moveDsp {s s1 : State} {n k pa bytes : Nat} {signed : Bool} {port : Port} {p : Pending}
    (h : Loaded s n k pa bytes signed port p s1) (sp : BitVec 48) :
    Loaded s n k pa bytes signed port p (s1.onCase n k fun c => { c with dsp := sp }) where
  mem := h.mem
  sbuf := (State.core_onCore_keeps (·.sbuf) (by intro; rfl) _ _ _).trans h.sbuf
  case := by
    obtain ⟨sp', hcase⟩ := h.case
    exact ⟨sp, by rw [case_onCase, if_pos ⟨rfl, rfl⟩, hcase]⟩
  place := h.place
  plain := h.plain
  data := h.data

theorem Casement.addPending_parts {c c' : Casement} {p : Pending} {sp : BitVec 48} (h : c' = { c.addPending p with dsp := sp }) :
    c'.pend = c.pend ++ [{ p with due := c.icount + p.due }] ∧ c'.d = c.d ∧ c'.flg = c.flg ∧ c'.shown = c.shown ∧
      c'.icount = c.icount := by
  subst h
  exact ⟨rfl, rfl, rfl, rfl, rfl⟩

theorem Loaded.issued {s s1 t : State} {n k pa bytes : Nat} {signed : Bool} {port : Port} {p : Pending} {out : Out}
    (h : Loaded (s.arrivals n k) n k pa bytes signed port p s1) (ht : out = .next t) (issued : Issued s s1 n k t) :
    s.loads n k pa bytes signed port out := by
  obtain ⟨hport, hdue⟩ := h.place
  obtain ⟨hawait, hcontrib, hkey⟩ := h.plain
  obtain ⟨sp, hcase⟩ := h.case
  obtain ⟨pend, d, flg, shown, icount⟩ := Casement.addPending_parts (c := s.reg n k) hcase
  refine ⟨t, { p with due := (s.reg n k).icount + p.due }, ht, ?_, hport, ?_, hawait, h.data, hcontrib, hkey, ?_, ?_, ?_, ?_, ?_, ?_, ?_⟩
  · rw [issued.reg (·.pend) (by intros; rfl), pend]
  · rw [hdue]
  · rw [issued.block (·.mem) (by intros; rfl)]; exact h.mem.trans (by simp)
  · rw [issued.core (·.sbuf) (by intros; rfl), h.sbuf]
  · rw [issued.reg (·.d) (by intros; rfl), d]
  · rw [issued.reg (·.flg) (by intros; rfl), flg]
  · rw [issued.reg (·.shown) (by intros; rfl), shown]
  · exact issued.pc.1
  · rw [issued.pc.2, icount]

end Sys2Proof.Machine

end

section
/-! PROOF. Bytes of lines and of the store buffer. -/

set_option Elab.async false

namespace Sys2Proof.Machine

/-! ### Bytes of lines -/

theorem testBit_elemOf (x w i b : Nat) : (elemOf x w i).testBit b = (decide (b < w) && x.testBit (w * i + b)) :=
  testBit_bitsOf x (w * i) w b

theorem mergeBytes_lt (old new mask n : Nat) : mergeBytes old new mask n < 2 ^ (8 * n) := by
  induction n with
  | zero => simp [mergeBytes]
  | succ n ih =>
    have byte : (if mask.testBit n then elemOf new 8 n else elemOf old 8 n) < 2 ^ 8 := by
      split <;> exact Nat.mod_lt _ (by decide)
    rw [mergeBytes, show 8 * (n + 1) = 8 * n + 8 by omega, Nat.pow_add, Nat.mul_comm (2 ^ (8 * n))]
    generalize (if mask.testBit n then elemOf new 8 n else elemOf old 8 n) = a at *
    calc mergeBytes old new mask n + a * 2 ^ (8 * n) < (a + 1) * 2 ^ (8 * n) := by rw [Nat.add_mul, Nat.one_mul]; omega
      _ ≤ 2 ^ 8 * 2 ^ (8 * n) := Nat.mul_le_mul_right _ byte

theorem testBit_mergeBytes (old new mask n b : Nat) : (mergeBytes old new mask n).testBit b =
    (decide (b < 8 * n) && if mask.testBit (b / 8) then new.testBit b else old.testBit b) := by
  induction n with
  | zero => simp [mergeBytes]
  | succ n ih =>
    rw [mergeBytes, Nat.add_comm, Nat.mul_comm, Nat.testBit_two_pow_mul_add _ (mergeBytes_lt old new mask n), ih]
    by_cases low : b < 8 * n
    · simp [low, show b < 8 * (n + 1) by omega]
    · rw [if_neg low, apply_ite (Nat.testBit · (b - 8 * n)), testBit_elemOf, testBit_elemOf,
        show 8 * n + (b - 8 * n) = b by omega]
      by_cases here : b < 8 * (n + 1)
      · rw [show b / 8 = n by omega]
        simp [here, show b - 8 * n < 8 by omega]
      · simp [here, show ¬ b - 8 * n < 8 by omega]

/-- The byte of a merged line. -/
theorem getLsbD_mergeLine (old new : BitVec 512) (mask : BitVec 64) {b : Nat} (hb : b < 512) :
    (mergeLine old new mask).getLsbD b = if mask.getLsbD (b / 8) then new.getLsbD b else old.getLsbD b := by
  rw [mergeLine, BitVec.getLsbD_ofNat, testBit_mergeBytes, decide_eq_true hb, Bool.true_and, Bool.true_and]
  rfl

theorem byte_mergeLine (old new : BitVec 512) (mask : BitVec 64) {j : Nat} (hj : j < 64) :
    (mergeLine old new mask).extractLsb' (8 * j) 8 =
      if mask.getLsbD j then new.extractLsb' (8 * j) 8 else old.extractLsb' (8 * j) 8 := by
  apply BitVec.eq_of_getLsbD_eq
  intro i hi
  rw [BitVec.getLsbD_extractLsb', getLsbD_mergeLine _ _ _ (by omega), show (8 * j + i) / 8 = j by omega]
  split <;> rw [BitVec.getLsbD_extractLsb']

theorem getLsbD_maskOf {off len : Nat} (h : off + len ≤ 64) (j : Nat) :
    (maskOf off len).getLsbD j = (decide (off ≤ j) && decide (j < off + len)) := by
  rw [maskOf, BitVec.getLsbD_ofNat, Nat.testBit_mul_two_pow, Nat.testBit_two_pow_sub_one]
  by_cases h1 : off ≤ j <;> by_cases h2 : j < off + len <;> simp [h1, h2] <;> omega

/-- The bytes of a loaded value (Table 03-4). -/
theorem byte_loadVal (l : BitVec 512) {off n i : Nat} (signed : Bool) (hn : 0 < n) (hn8 : n ≤ 8) (hi : i < 8) :
    (loadVal l off n signed).extractLsb' (8 * i) 8 =
      if i < n then l.extractLsb' (8 * (off + i)) 8
      else if signed && (l.extractLsb' (8 * (off + (n - 1))) 8).msb then 0xFF else 0 := by
  have loaded (b : Nat) (hb : b < 64) : (loadVal l off n signed).getLsbD b =
      if b < 8 * n then l.getLsbD (8 * off + b) else signed && l.getLsbD (8 * off + (8 * n - 1)) := by
    cases signed
    · simp only [loadVal, Bool.false_eq_true, if_false, BitVec.getLsbD_ofNat, testBit_bitsOf, hb, decide_true, Bool.true_and]
      by_cases h : b < 8 * n <;> simp [h, BitVec.getLsbD]
    · simp only [loadVal, if_true, getLsbD_sext _ (show 0 < 8 * n by omega) hb, testBit_bitsOf, Bool.true_and]
      by_cases h : b < 8 * n
      · simp [h, BitVec.getLsbD]
      · simp [h, BitVec.getLsbD, show 8 * n - 1 < 8 * n by omega]
  have sign : (l.extractLsb' (8 * (off + (n - 1))) 8).msb = l.getLsbD (8 * off + (8 * n - 1)) := by
    rw [BitVec.msb_eq_getLsbD_last, BitVec.getLsbD_extractLsb', show 8 * (off + (n - 1)) + (8 - 1) = 8 * off + (8 * n - 1) by omega]
    rfl
  apply BitVec.eq_of_getLsbD_eq
  intro b hb
  rw [BitVec.getLsbD_extractLsb', loaded _ (by omega), decide_eq_true hb, Bool.true_and, sign]
  by_cases h : i < n
  · rw [if_pos (by omega), if_pos h, BitVec.getLsbD_extractLsb', decide_eq_true hb, Bool.true_and,
      show 8 * off + (8 * i + b) = 8 * (off + i) + b by omega]
  · rw [if_neg (by omega), if_neg h]
    cases signed <;> cases l.getLsbD (8 * off + (8 * n - 1)) <;> simp
    interval_cases b <;> rfl

/-! ### What the store buffer holds of a line -/

theorem bufByte_nil (line j : Nat) : bufByte [] line j = none := rfl

theorem bufByte_cons (e : SbEntry) (t : List SbEntry) (line j : Nat) : bufByte (e :: t) line j =
    (bufByte t line j).or (if e.line == line && e.addend.isNone && !e.clean && e.mask.getLsbD j
      then some (e.data.extractLsb' (8 * j) 8) else none) := by
  simp only [bufByte, List.reverse_cons, List.find?_append, Option.map_or, List.find?_cons, List.find?_nil]
  congr 1
  split <;> simp_all

theorem sbOverlay_spec (line : Nat) (l : List SbEntry) (m : BitVec 64) (d : BitVec 512) {j : Nat} (hj : j < 64) :
    (sbOverlay line l (m, d)).1.getLsbD j = ((bufByte l line j).isSome || m.getLsbD j) ∧
    (sbOverlay line l (m, d)).2.extractLsb' (8 * j) 8 = (bufByte l line j).getD (d.extractLsb' (8 * j) 8) := by
  induction l generalizing m d with
  | nil => simp [sbOverlay, bufByte_nil]
  | cons e t ih =>
    rw [bufByte_cons]
    unfold sbOverlay
    split
    · next h =>
      obtain ⟨mask, data⟩ := ih (m ||| e.mask) (mergeLine d e.data e.mask)
      rw [mask, data, byte_mergeLine _ _ _ hj, h, BitVec.getLsbD_or]
      cases bufByte t line j <;> cases e.mask.getLsbD j <;> simp
    · next h =>
      obtain ⟨mask, data⟩ := ih m d
      rw [mask, data, Bool.eq_false_iff.2 h]
      simp

end Sys2Proof.Machine

end

section
/-! PROOF. Loads through the cache. -/

set_option Elab.async false

namespace Sys2Proof.Machine

/-- R238: where no tag of a cache is in doubt, a scan finds nothing. -/
theorem State.tagScan_sound {s : State} {n : Nat} {ic : Bool} (h : (((s.core n).lines ic).all fun p => !p.2.tagBad) = true) (line : Nat) :
    s.tagScan n ic line = s := by
  have none_ : ((s.core n).lines ic).filter (fun p =>
      setIdx ic line * 4 ≤ p.1 && p.1 < setIdx ic line * 4 + 4 && p.2.tagBad) = [] := by
    rw [List.filter_eq_nil_iff]
    intro p hp
    have clean := List.all_eq_true.1 h p hp
    simp only [Bool.not_eq_true'] at clean
    simp [clean]
  simp only [State.tagScan]
  rw [none_]
  rfl

theorem State.tagScan_clean {s : State} {n : Nat} (h : ((s.core n).dcache.all fun p => !p.2.tagBad) = true) (line : Nat) :
    s.tagScan n false line = s := State.tagScan_sound (ic := false) h line

/-- What a cacheable load answers where its data `d` is at hand. -/
def State.handed (s : State) (n k : Nat) (p : Pending) (d : Word) : Trig :=
  .done (s.fresh.2.onCase n k fun c => c.addPending { p with id := s.fresh.1, data := { val := d } })

/-- The pending result of a load that the translation x serves. -/
def loadPendAt (x : Xl) (port : Port) (delay bytes : Nat) (signed : Bool) : Pending :=
  { loadPend port delay 0 bytes signed with trans := some (x.tag, x.ia) }

theorem sbPoison_clean {l : List SbEntry} {line : Nat} (h : ∀ e ∈ l, e.line = line → e.poison = false) (want : BitVec 64) :
    sbPoison line want l = false := by
  simp only [sbPoison, List.any_eq_false]
  intro e he
  by_cases hl : e.line = line
  · simp [h e he hl]
  · simp [hl]

section
variable {s : State} {n k va : Nat} {x : Xl} {bytes delay : Nat} {signed : Bool} {port : Port}
  (htag : ((s.core n).dcache.all fun p => !p.2.tagBad) = true)
  (hclean : ∀ e ∈ (s.core n).sbuf, e.line = x.pa / 64 → e.poison = false)
include htag hclean

theorem State.loadCached_held
    (hall : ((sbOverlay (x.pa / 64) (s.core n).sbuf (0, 0)).1 &&& maskOf (x.pa % 64) bytes == maskOf (x.pa % 64) bytes) = true) :
    s.loadCached n k va x bytes signed port delay = s.handed n k (loadPendAt x port delay bytes signed)
      (loadVal (sbOverlay (x.pa / 64) (s.core n).sbuf (0, 0)).2 (x.pa % 64) bytes signed) := by
  have held := sbPoison_clean hclean (maskOf (x.pa % 64) bytes)
  simp only [State.loadCached, State.tagScan_clean htag, held, hall, if_true, Bool.false_or, Bool.false_eq_true, if_false]
  rfl

theorem State.loadCached_hit {key : Nat} {l : Line}
    (hall : ¬ ((sbOverlay (x.pa / 64) (s.core n).sbuf (0, 0)).1 &&& maskOf (x.pa % 64) bytes == maskOf (x.pa % 64) bytes) = true)
    (hhit : (s.core n).hit false (x.pa / 64) = some (key, l)) (hpar : l.parBad = 0) (hl : l.poison = false) :
    s.loadCached n k va x bytes signed port delay = s.handed n k (loadPendAt x port delay bytes signed)
      (loadVal (mergeLine l.data (sbOverlay (x.pa / 64) (s.core n).sbuf (0, 0)).2 (sbOverlay (x.pa / 64) (s.core n).sbuf (0, 0)).1)
        (x.pa % 64) bytes signed) := by
  have held := sbPoison_clean hclean (maskOf (x.pa % 64) bytes)
  have hit : (s.fresh.2.core n).hit false (x.pa / 64) = some (key, l) := hhit
  simp only [State.loadCached, State.tagScan_clean htag, held, if_neg hall]
  rw [show s.fresh = (s.fresh.1, s.fresh.2) from rfl]
  have sound : (0 &&& granTouched (maskOf (x.pa % 64) bytes) != 0) = false := by simp
  simp only [hit, hpar, hl, sound]
  rfl

end

/-! ### A fill begins -/

theorem State.record_cores (s : State) (u k g : Nat) (r : Bool) : (s.record u k g r).cores = s.cores :=
  congrArg (·.2.2.2.2) (State.record_stored s u k g r)

theorem State.case_of_cores {s t : State} (h : t.cores = s.cores) (n k : Nat) : t.case n k = s.case n k := by
  simp only [State.case, State.core, h]

theorem State.core_of_cores {s t : State} (h : t.cores = s.cores) (n : Nat) : t.core n = s.core n := by
  simp only [State.core, h]

theorem State.case_onCore_keeps {f : Core → Core} (hf : ∀ c, (f c).cases = c.cases) (s : State) (n m j : Nat) :
    (s.onCore n f).case m j = s.case m j := by
  simp only [State.case, State.core_onCore_keeps (·.cases) hf]

theorem State.evictLine_case (s : State) (n : Nat) (l : Line) (m j : Nat) : (s.evictLine n l).case m j = s.case m j := by
  have parity : (s.wbParity n l).1.cores = s.cores := by
    unfold State.wbParity; split
    · exact State.record_cores _ _ _ _ _
    · rfl
  unfold State.evictLine
  split
  · exact State.case_of_cores (State.record_cores _ _ _ _ _) m j
  split
  · rfl
  · exact (State.case_onCore_keeps (by intro; rfl) _ n m j).trans (State.case_of_cores parity m j)

theorem Core.allocWay_cases (c : Core) (ic : Bool) (line : Nat) : (c.allocWay ic line).1.cases = c.cases := by
  unfold Core.allocWay
  (repeat' split) <;> simp only []
  all_goals (repeat' split) <;> rfl

theorem State.request_cores (s : State) (src pa : Nat) (m : Msg) (ret : Ret) (trans : Option (Nat × Nat)) :
    (s.request src pa m ret trans).1.cores = s.cores := by
  simp only [State.request]; (repeat' split) <;> rfl

theorem State.reach_cores (s : State) (n pa : Nat) (m : Msg) (ret : Ret) (trans : Option (Nat × Nat)) :
    (s.reach n pa m ret trans).1.cores = s.cores := by
  unfold State.reach; split
  · rfl
  · exact State.request_cores ..

theorem tabPut_has {α : Type} (t : Tab α) (k : Nat) (a : α) : (k, a) ∈ tabPut t k a := by
  induction t with
  | nil => exact List.mem_singleton.2 rfl
  | cons p t ih =>
    obtain ⟨i, b⟩ := p
    unfold tabPut
    split
    · exact .head _
    · split
      · exact .head _
      · exact .tail _ ih

theorem Core.putLine_cases (c : Core) (ic : Bool) (key : Nat) (l : Line) : (c.putLine ic key l).cases = c.cases := by
  cases ic <;> rfl

theorem Core.filling_putLine (c : Core) (ic : Bool) (key : Nat) {l : Line} (hl : l.filling = true) :
    (c.putLine ic key l).filling ic l.addr = true := by
  refine List.any_eq_true.2 ⟨(key, l), ?_, by simp [hl]⟩
  cases ic <;> exact tabPut_has ..

/-- R233: a fill whose way is found begins. -/
theorem State.startFill_begins {s : State} {n : Nat} {line key : Nat} {c : Core} (job : BitVec 12) (trans : Option (Nat × Nat))
    (htag : ((s.core n).dcache.all fun p => !p.2.tagBad) = true) (hway : (s.core n).allocWay false line = (c, some key)) :
    ∃ t, s.startFill n false line job trans = (t, true) ∧ t.mem = s.mem ∧ (∀ m j, t.case m j = s.case m j) ∧
      (t.core n).filling false line = true := by
  have cases_ : c.cases = (s.core n).cases := by rw [← Core.allocWay_cases (s.core n) false line, hway]
  have set_ (m j : Nat) : (s.setCore n c).case m j = s.case m j := by
    simp only [State.case, core_setCore]
    split
    · next h => rw [cases_, h]
    · rfl
  unfold State.startFill
  rw [State.tagScan_clean htag]
  extract_lets s0
  simp -zeta only [show (s0.core n).allocWay false line = (c, some key) from hway]
  extract_lets old s1 victim s3
  have mem1 : s1.mem = s.mem := by
    simp only [s1]; clear_value old; cases old
    · rfl
    · exact State.evictLine_mem ..
  have case1 (m j : Nat) : s1.case m j = s.case m j := by
    simp only [s1]; clear_value old; cases old
    · exact set_ m j
    · exact (State.evictLine_case ..).trans (set_ m j)
  have case3 (m j : Nat) : s3.case m j = s.case m j :=
    (State.case_onCore_keeps (fun c => Core.putLine_cases ..) s1.fresh.2 n m j).trans (case1 m j)
  have fills : (s3.core n).filling false line = true := by
    rw [show s3.core n = _ from (core_onCore ..).trans (if_pos rfl)]
    exact Core.filling_putLine _ false key rfl
  split
  · exact ⟨_, rfl, mem1, case3, fills⟩
  · have reached := State.reach_cores s3 n (line * 64) (getMsg job 64) (.fill n false line) trans
    have mem3 := State.reach_mem s3 n (line * 64) (getMsg job 64) (.fill n false line) trans
    split
    · next t h =>
      rw [h] at reached mem3
      exact ⟨_, rfl, mem3.trans mem1, fun m j => (State.case_of_cores reached m j).trans (case3 m j),
        by rw [State.core_of_cores reached]; exact fills⟩
    · next t st h =>
      rw [h] at reached mem3
      refine ⟨_, rfl, mem3.trans mem1, fun m j => ?_, ?_⟩
      · exact (State.case_onCore_keeps (by intro; rfl) _ n m j).trans ((State.case_of_cores reached m j).trans (case3 m j))
      · rw [core_onCore, if_pos rfl]
        rw [← State.core_of_cores reached] at fills
        exact fills

/-- R233: a load whose line is nowhere waits for the fill that it begins. -/
theorem State.loadCached_miss {s : State} {n k va key : Nat} {x : Xl} {bytes delay : Nat} {signed : Bool} {port : Port}
    (htag : ((s.core n).dcache.all fun p => !p.2.tagBad) = true)
    (hpart : ¬ ((sbOverlay (x.pa / 64) (s.core n).sbuf (0, 0)).1 &&& maskOf (x.pa % 64) bytes == maskOf (x.pa % 64) bytes) = true)
    (hhit : (s.core n).hit false (x.pa / 64) = none) (hfill : (s.core n).filling false (x.pa / 64) = false)
    (hway : ((s.core n).allocWay false (x.pa / 64)).2 = some key) (hlast : (s.core n).lastMiss ≠ some (x.pa / 64 - 1)) :
    ∃ (t : State) (p : Pending), s.loadCached n k va x bytes signed port delay = .done (t.onCase n k fun c => c.addPending p) ∧
      t.mem = s.mem ∧ (∀ m j, t.case m j = s.case m j) ∧ (t.core n).filling false (x.pa / 64) = true ∧ p.port = port ∧
      p.due = delay ∧ p.await = .fill ∧ p.pa = x.pa ∧ p.bytes = bytes ∧ p.signed = signed := by
  obtain ⟨t, ht, mem, case, fills⟩ := State.startFill_begins (s := s.fresh.2) (s.jobOf n (s.whoIs n k)) (some (x.tag, x.ia)) htag
    (show (s.core n).allocWay false (x.pa / 64) = (((s.core n).allocWay false (x.pa / 64)).1, some key) from Prod.ext rfl hway)
  have wanted : s.fresh.2.wantLine n false (x.pa / 64) (s.fresh.2.jobOf n (s.fresh.2.whoIs n k)) (some (x.tag, x.ia)) = (t, true) := by
    simp only [State.wantLine, State.tagScan_clean (s := s.fresh.2) htag]
    rw [show (s.fresh.2.core n).hit false (x.pa / 64) = none from hhit, show (s.fresh.2.core n).filling false (x.pa / 64) = false from hfill]
    exact ht
  have alone : ((s.core n).lastMiss == some (x.pa / 64 - 1) && x.pa / 64 != 0) = false := by simp [hlast]
  simp only [State.loadCached, State.tagScan_clean htag, if_neg hpart]
  rw [show s.fresh = (s.fresh.1, s.fresh.2) from rfl]
  simp only [show (s.fresh.2.core n).hit false (x.pa / 64) = none from hhit, loadPend, wanted]
  rw [show (s.fresh.2.core n).filling false (x.pa / 64) = false from hfill, show (s.fresh.2.core n).lastMiss = (s.core n).lastMiss from rfl]
  simp only [alone]
  exact ⟨t.onCore n fun c => { c with lastMiss := some (x.pa / 64) }, _, rfl, mem,
    fun m j => (State.case_onCore_keeps (by intro; rfl) t n m j).trans (case m j), by rw [core_onCore, if_pos rfl]; exact fills,
    rfl, rfl, rfl, rfl, rfl, rfl⟩

/-! ### The word of a cacheable load -/

theorem Core.allocWay_tlb (c : Core) (l : List TlbEntry) (ic : Bool) (line : Nat) :
    (Core.allocWay { c with tlb := l } ic line).2 = (c.allocWay ic line).2 := by
  cases ic <;> simp only [Core.allocWay, Core.lines, Bool.false_eq_true, if_false, if_true]
  all_goals (repeat' split) <;> rfl

/-- A cacheable load that meets no fault (R64). -/
theorem State.load_cached {b : State} {n k va bytes : Nat} {x : Xl} (hp : b.passes n k va bytes .read true x)
    (hx : x.type = .cached) (signed : Bool) (port : Port) :
    b.load n k va bytes signed port 4 true = (b.touchTlb n x.tag x.ia).loadCached n k va x bytes signed port 4 := by
  obtain ⟨aligned, nokey, xlate, ctl⟩ := hp
  have ctl' : ctlCheck (b.case n k) x .read va bytes = none := by simpa using ctl
  simp only [State.load, aligned, nokey, State.xlateWord, xlate, ctl', hx]
  rfl

/-- What the store buffer holds of the bytes that a load wants (R64). -/
theorem sbOverlay_part {l : List SbEntry} {line off bytes : Nat} (hfit : off + bytes ≤ 64) :
    (((sbOverlay line l (0, 0)).1 &&& maskOf off bytes == maskOf off bytes) = true) ↔
      ∀ j, j < bytes → (bufByte l line (off + j)).isSome = true := by
  have bit (j : Nat) (hj : j < 64) : ((sbOverlay line l (0, 0)).1 &&& maskOf off bytes).getLsbD j =
      ((bufByte l line j).isSome && (decide (off ≤ j) && decide (j < off + bytes))) := by
    rw [BitVec.getLsbD_and, (sbOverlay_spec line l 0 0 hj).1, getLsbD_maskOf hfit]
    simp
  rw [beq_iff_eq]
  constructor
  · intro h j hj
    have := bit (off + j) (by omega)
    rw [h, getLsbD_maskOf hfit] at this
    simpa [hj] using this
  · intro h
    apply BitVec.eq_of_getLsbD_eq
    intro j hj
    rw [bit j hj, getLsbD_maskOf hfit]
    by_cases hin : off ≤ j ∧ j < off + bytes
    · have := h (j - off) (by omega)
      rw [show off + (j - off) = j by omega] at this
      simp [this]
    · rcases Decidable.not_and_iff_or_not.1 hin with h | h <;> simp [h]

section
variable {s : State} {n k sock bytes va : Nat} {v : Word} {signed : Bool} {x : Xl} {u : Unit_}
  (h : s.ready n k = true) (hcalm : s.calm n k = true) (hs : sock < 4096)
  (hwait : sock ≠ 0x494 ∧ sock ≠ 0x495 ∧ sock ≠ 0x496) (hu : sockOf sock = some (.trig u)) (hc : isControl sock = false)
include h hcalm hs hwait hu hc

/-- A word whose load has its data at hand shows it after 4 issue cycles. -/
theorem issueMove_handed {w : State} {p : Pending} {d : Word} (hw : Touched (s.arrivals n k) w)
    (hp : p.port = .lsuRes ∧ p.due = 4 ∧ p.await = .ready)
    (hf : (s.arrivals n k).fire n k 4 sock v = w.handed n k p d) {f : Nat → Byte}
    (hd : ∀ i, i < 8 → d.extractLsb' (8 * i) 8 = if i < bytes then f i else if signed && (f (bytes - 1)).msb then 0xFF else 0) :
    s.loadsHere n k bytes signed f (.next (s.issueMove n sock v)) := by
  obtain ⟨hport, hdue, hawait⟩ := hp
  have hw' := hw.trans (Touched.fresh w)
  obtain ⟨t, ht, issued⟩ := issueMove_issued h hcalm hs hwait hu hc hf
  have put : (w.fresh.2.onCase n k fun c => c.addPending { p with id := w.fresh.1, data := { val := d } }).case n k =
      (s.reg n k).addPending { p with id := w.fresh.1, data := { val := d } } := by
    rw [case_onCase, if_pos ⟨rfl, rfl⟩, hw'.case]; rfl
  refine ⟨t, { p with id := w.fresh.1, data := { val := d }, due := (s.reg n k).icount + p.due }, d, ht, ?_, hport, ?_,
    hawait, rfl, hd, ?_, ?_, ?_, ?_, ?_, ?_⟩
  · rw [issued.reg (·.pend) (by intros; rfl), put]; exact pend_addPending ..
  · rw [hdue]
  · rw [issued.block (·.mem) (by intros; rfl)]; exact hw'.storage.1.trans (by simp)
  · rw [issued.core (·.sbuf) (by intros; rfl)]
    exact (State.core_onCore_keeps (·.sbuf) (by intro; rfl) _ _ _).trans (hw'.core (·.sbuf) (by intros; rfl) n)
  · rw [issued.reg (·.d) (by intros; rfl), put, Casement.addPending_d]
  · rw [issued.reg (·.flg) (by intros; rfl), put, Casement.addPending_flg]
  · exact issued.pc.1
  · rw [issued.pc.2, put, Casement.addPending_icount]

variable (hx : x.type = .cached) (htag : (((s.arrivals n k).core n).dcache.all fun p => !p.2.tagBad) = true)
  (hclean : ∀ e ∈ ((s.arrivals n k).core n).sbuf, e.line = x.pa / 64 → e.poison = false)
  (hfire : (s.arrivals n k).fire n k 4 sock v = (s.arrivals n k).load n k va bytes signed .lsuRes 4 true)
  (hp : (s.arrivals n k).passes n k va bytes .read true x) (hfit : x.pa % 64 + bytes ≤ 64) (hb : 0 < bytes ∧ bytes ≤ 8)
include hx htag hclean hfire hp hfit hb

theorem issueMove_loadsBuffer
    (hall : ∀ j, j < bytes → (bufByte ((s.arrivals n k).core n).sbuf (x.pa / 64) (x.pa % 64 + j)).isSome = true) (g : Nat → Byte) :
    s.loadsHere n k bytes signed (fun j => (bufByte ((s.arrivals n k).core n).sbuf (x.pa / 64) (x.pa % 64 + j)).getD (g j))
      (.next (s.issueMove n sock v)) := by
  have hw := Touched.touchTlb (s.arrivals n k) n x.tag x.ia
  have buf := hw.core (·.sbuf) (by intros; rfl) n
  have load := State.loadCached_held (s := (s.arrivals n k).touchTlb n x.tag x.ia) (k := k) (va := va) (delay := 4) (signed := signed)
    (port := .lsuRes) (bytes := bytes) (x := x) (by rw [hw.core (·.dcache) (by intros; rfl) n]; exact htag) (by rw [buf]; exact hclean)
    ((sbOverlay_part hfit).2 (by rw [buf]; exact hall))
  rw [State.load_cached hp hx, load] at hfire
  refine issueMove_handed h hcalm hs hwait hu hc hw ⟨rfl, rfl, rfl⟩ hfire fun i hi => ?_
  have held (j : Nat) (hj : j < bytes) := (sbOverlay_spec (x.pa / 64) (((s.arrivals n k).touchTlb n x.tag x.ia).core n).sbuf 0 0
    (show x.pa % 64 + j < 64 by omega)).2
  have some_ (j : Nat) (hj : j < bytes) (a b : Byte) : (bufByte ((s.arrivals n k).core n).sbuf (x.pa / 64) (x.pa % 64 + j)).getD a =
      (bufByte ((s.arrivals n k).core n).sbuf (x.pa / 64) (x.pa % 64 + j)).getD b := by
    obtain ⟨y, hy⟩ := Option.isSome_iff_exists.1 (hall j hj)
    rw [hy]; rfl
  rw [byte_loadVal _ _ hb.1 hb.2 hi, held (bytes - 1) (by omega), buf]
  split
  · next hin => rw [← buf, held i hin, buf]; exact some_ i hin _ _
  · rw [some_ (bytes - 1) (by omega) _ (g (bytes - 1))]

theorem issueMove_loadsLine {key : Nat} {l : Line} (hhit : ((s.arrivals n k).core n).hit false (x.pa / 64) = some (key, l))
    (hpar : l.parBad = 0) (hl : l.poison = false) :
    s.loadsHere n k bytes signed (fun j => (bufByte ((s.arrivals n k).core n).sbuf (x.pa / 64) (x.pa % 64 + j)).getD
      (l.data.extractLsb' (8 * (x.pa % 64 + j)) 8)) (.next (s.issueMove n sock v)) := by
  by_cases hall : ∀ j, j < bytes → (bufByte ((s.arrivals n k).core n).sbuf (x.pa / 64) (x.pa % 64 + j)).isSome = true
  · exact issueMove_loadsBuffer h hcalm hs hwait hu hc hx htag hclean hfire hp hfit hb hall _
  have hw := Touched.touchTlb (s.arrivals n k) n x.tag x.ia
  have buf := hw.core (·.sbuf) (by intros; rfl) n
  have load := State.loadCached_hit (s := (s.arrivals n k).touchTlb n x.tag x.ia) (k := k) (va := va) (delay := 4) (signed := signed)
    (port := .lsuRes) (bytes := bytes) (x := x) (by rw [hw.core (·.dcache) (by intros; rfl) n]; exact htag) (by rw [buf]; exact hclean)
    (fun c => hall (by rw [← buf]; exact (sbOverlay_part hfit).1 c))
    (by rw [hw.core (Core.hit · false (x.pa / 64)) (by intros; rfl) n]; exact hhit) hpar hl
  rw [State.load_cached hp hx, load] at hfire
  refine issueMove_handed h hcalm hs hwait hu hc hw ⟨rfl, rfl, rfl⟩ hfire fun i hi => ?_
  have merged (j : Nat) (hj : x.pa % 64 + j < 64) := sbOverlay_spec (x.pa / 64) ((s.arrivals n k).core n).sbuf 0 0 hj
  have byte (j : Nat) (hj : j < bytes) : (mergeLine l.data (sbOverlay (x.pa / 64) ((s.arrivals n k).core n).sbuf (0, 0)).2
      (sbOverlay (x.pa / 64) ((s.arrivals n k).core n).sbuf (0, 0)).1).extractLsb' (8 * (x.pa % 64 + j)) 8 =
        (bufByte ((s.arrivals n k).core n).sbuf (x.pa / 64) (x.pa % 64 + j)).getD (l.data.extractLsb' (8 * (x.pa % 64 + j)) 8) := by
    obtain ⟨mask, data⟩ := merged j (by omega)
    rw [byte_mergeLine _ _ _ (by omega), mask, data]
    cases bufByte ((s.arrivals n k).core n).sbuf (x.pa / 64) (x.pa % 64 + j) <;> simp
  rw [byte_loadVal _ _ hb.1 hb.2 hi, buf, byte (bytes - 1) (by omega)]
  split
  · next hin => exact byte i hin
  · rfl

omit hclean in
theorem issueMove_loadFills (hhit : ((s.arrivals n k).core n).hit false (x.pa / 64) = none)
    (hfill : ((s.arrivals n k).core n).filling false (x.pa / 64) = false)
    (hnone : ∀ j, j < bytes → bufByte ((s.arrivals n k).core n).sbuf (x.pa / 64) (x.pa % 64 + j) = none)
    (hway : (((s.arrivals n k).core n).allocWay false (x.pa / 64)).2 ≠ none)
    (hlast : ((s.arrivals n k).core n).lastMiss ≠ some (x.pa / 64 - 1)) :
    ∃ (t : State) (p : Pending), (.next (s.issueMove n sock v) : Out) = .next t ∧ (t.case n k).pend = (s.reg n k).pend ++ [p] ∧
      p.port = .lsuRes ∧ p.due = (s.reg n k).icount + 4 ∧ p.await = .fill ∧ p.pa = x.pa ∧ p.bytes = bytes ∧ p.signed = signed ∧
      (t.core n).filling false (x.pa / 64) = true ∧ t.mem = s.mem ∧ (t.case n k).pc = (s.reg n k).pc + 4 := by
  have hw := Touched.touchTlb (s.arrivals n k) n x.tag x.ia
  obtain ⟨key, hkey⟩ := Option.ne_none_iff_exists'.1 hway
  have way := (hw.core (fun c => (c.allocWay false (x.pa / 64)).2) (by intro c l; exact Core.allocWay_tlb c l _ _) n).trans hkey
  obtain ⟨w, p, hload, mem, case, fills, hport, hdue, hawait, hpa, hbytes, hsigned⟩ :=
    State.loadCached_miss (s := (s.arrivals n k).touchTlb n x.tag x.ia) (n := n) (k := k) (va := va) (delay := 4) (signed := signed)
      (port := .lsuRes) (bytes := bytes) (x := x) (by rw [hw.core (·.dcache) (by intros; rfl) n]; exact htag)
      (fun c => by
        have := (sbOverlay_part hfit).1 c 0 hb.1
        rw [hw.core (·.sbuf) (by intros; rfl) n, hnone 0 hb.1] at this
        exact absurd this (by decide))
      (by rw [hw.core (Core.hit · false (x.pa / 64)) (by intros; rfl) n]; exact hhit)
      (by rw [hw.core (Core.filling · false (x.pa / 64)) (by intros; rfl) n]; exact hfill)
      way (by rw [hw.core (·.lastMiss) (by intros; rfl) n]; exact hlast)
  rw [State.load_cached hp hx, hload] at hfire
  obtain ⟨t, ht, issued⟩ := issueMove_issued h hcalm hs hwait hu hc hfire
  have put : (w.onCase n k fun c => c.addPending p).case n k = (s.reg n k).addPending p := by
    rw [case_onCase, if_pos ⟨rfl, rfl⟩, case, hw.case]; rfl
  refine ⟨t, { p with due := (s.reg n k).icount + p.due }, ht, ?_, hport, ?_, hawait, hpa, hbytes, hsigned, ?_, ?_, issued.pc.1⟩
  · rw [issued.reg (·.pend) (by intros; rfl), put]; exact pend_addPending ..
  · rw [hdue]
  · rw [issued.core (Core.filling · false (x.pa / 64)) (by intros; rfl)]
    exact (State.core_onCore_keeps (Core.filling · false (x.pa / 64)) (by intro; rfl) _ _ _).trans fills
  · rw [issued.block (·.mem) (by intros; rfl)]; exact (mem.trans hw.storage.1).trans (by simp)

end

end Sys2Proof.Machine

end

section
/-! PROOF. The LSU: loads and faults. -/

set_option Elab.async false

namespace Sys2Proof.Machine

/-! ### Faults of the LSU's accesses -/

/-- The address of an LSU trigger (R59). -/
theorem Casement.lsuVa_eq (c : Casement) (v : Word) :
    c.lsuVa v = c.bnk.toNat % 2 ^ 16 * 2 ^ 32 + ((c.opnd_ 0x60).toNat + v.toNat) % 2 ^ 32 := by
  simp only [Casement.lsuVa, Casement.short, fld_eq_div_mod, Nat.pow_zero, Nat.div_one, Nat.add_mod_mod, Nat.mod_add_mod]

/-- A trigger of an access answers the first fault of Table 09-11 that it meets, without effect (R224). -/
def State.faultsFirst (b : State) (n k va bytes : Nat) (acc : Acc) (device : Bool) (t : Trig) : Prop :=
  (va % bytes ≠ 0 → t = .fault none fltAlign) ∧
    ∀ f, va % bytes = 0 → (b.case n k).keyDue = false → b.xlate n (b.case n k) va acc device = .fault f →
      t = .fault (b.keepTlb n k f) f

theorem State.load_faultsFirst (b : State) (n k va bytes : Nat) (signed : Bool) (port : Port) (delay : Nat) (device : Bool) :
    b.faultsFirst n k va bytes .read device (b.load n k va bytes signed port delay device) :=
  ⟨fun h => if_pos (by simp [h]), fun f h hk hx => by simp [State.load, h, hk, State.xlateWord, hx]⟩

theorem State.store_faultsFirst (b : State) (n k va bytes : Nat) (w : Word) (device : Bool) :
    b.faultsFirst n k va bytes .write device (b.store n k va bytes w device) :=
  ⟨fun h => if_pos (by simp [h]), fun f h hk hx => by simp [State.store, h, hk, State.xlateWord, hx]⟩

theorem State.accum_faultsFirst (b : State) (n k va af : Nat) (w : Word) :
    b.faultsFirst n k va (afBytes af) .accum false (b.accum n k va af w) :=
  ⟨fun h => if_pos (by simp [h]), fun f h hk hx => by simp [State.accum, h, hk, State.xlateWord, hx]⟩

theorem State.cas_faultsFirst (b : State) (n k va : Nat) (w cmp : Word) :
    b.faultsFirst n k va 8 .cas false (b.cas n k va w cmp) :=
  ⟨fun h => if_pos (by simp [h]), fun f h hk hx => by simp [State.cas, h, hk, State.xlateWord, hx]⟩

/-- A word whose trigger faults with a part of its effect that stays raises the fault on that. -/
theorem issueMove_faultKeeping {s : State} {n k sock : Nat} {v : Word} {u : Unit_} {f : Flt} {keep : Option (State → State)}
    (h : s.ready n k = true) (hs : sock < 4096) (hu : sockOf sock = some (.trig u)) (hc : isControl sock = false)
    (hf : (s.arrivals n k).fire n k 4 sock v = .fault keep f) :
    s.issueMove n sock v = ((keep.getD id) (s.arrivals n k)).raise n k f (f.cls == clsASYNC) := by
  rw [issueMove_ready h hs hu (.inl hc), hf]; rfl

theorem issueMove_faultsFirst {s : State} {n k sock va bytes : Nat} {v : Word} {u : Unit_} {acc : Acc} {device : Bool}
    (h : s.ready n k = true) (hs : sock < 4096) (hu : sockOf sock = some (.trig u)) (hc : isControl sock = false)
    (hf : (s.arrivals n k).faultsFirst n k va bytes acc device ((s.arrivals n k).fire n k 4 sock v)) :
    let b := s.arrivals n k
    let c := s.reg n k
    (va % bytes ≠ 0 → (.next (s.issueMove n sock v) : Out) = .next (b.raise n k { cls := clsALIGN } false)) ∧
    (∀ f, va % bytes = 0 → c.keyDue = false → b.xlate n c va acc device = .fault f →
      (.next (s.issueMove n sock v) : Out) =
        .next ((if f.stage = 2 then b.touchTlb n (c.s2ctl.toNat % 2 ^ 16) f.ia else b).raise n k f (f.cls == clsASYNC))) := by
  obtain ⟨align, fault⟩ := hf
  refine ⟨fun ha => ?_, fun f ha hk hx => ?_⟩
  · exact issueMove_fault h hs hu (.inl hc) (align ha)
  · rw [issueMove_faultKeeping h hs hu hc (fault f ha hk hx)]
    have tag : fld (s.reg n k).s2ctl 0 16 = (s.reg n k).s2ctl.toNat % 2 ^ 16 := by rw [fld_eq_div_mod, Nat.pow_zero, Nat.div_one]
    rw [← tag]
    simp only [State.keepTlb, Option.getD_some, beq_iff_eq]
    rfl

/-! The triggers of the LSU, port by port (Table 03-4). -/

section
variable {s : State} {n k sock : Nat} {c : Casement} (v : Word) (hc : s.case n k = c)
include hc

theorem trigLsu_ld8u (h : sock = 0x68) : trigLsu s n k sock v = s.load n k (c.lsuVa v) 1 false .lsuRes 4 true := by
  unfold trigLsu; split <;> try contradiction
  rw [hc]
theorem trigLsu_ld8s (h : sock = 0x69) : trigLsu s n k sock v = s.load n k (c.lsuVa v) 1 true .lsuRes 4 true := by
  unfold trigLsu; split <;> try contradiction
  rw [hc]
theorem trigLsu_ld16u (h : sock = 0x6A) : trigLsu s n k sock v = s.load n k (c.lsuVa v) 2 false .lsuRes 4 true := by
  unfold trigLsu; split <;> try contradiction
  rw [hc]
theorem trigLsu_ld16s (h : sock = 0x6B) : trigLsu s n k sock v = s.load n k (c.lsuVa v) 2 true .lsuRes 4 true := by
  unfold trigLsu; split <;> try contradiction
  rw [hc]
theorem trigLsu_ld32u (h : sock = 0x6C) : trigLsu s n k sock v = s.load n k (c.lsuVa v) 4 false .lsuRes 4 true := by
  unfold trigLsu; split <;> try contradiction
  rw [hc]
theorem trigLsu_ld32s (h : sock = 0x6D) : trigLsu s n k sock v = s.load n k (c.lsuVa v) 4 true .lsuRes 4 true := by
  unfold trigLsu; split <;> try contradiction
  rw [hc]
theorem trigLsu_ld64 (h : sock = 0x6E) : trigLsu s n k sock v = s.load n k (c.lsuVa v) 8 false .lsuRes 4 true := by
  unfold trigLsu; split <;> try contradiction
  rw [hc]
theorem trigLsu_st8 (h : sock = 0x70) : trigLsu s n k sock v = s.store n k (c.lsuVa v) 1 (c.opnd_ 0x61) true := by
  unfold trigLsu; split <;> try contradiction
  rw [hc]
theorem trigLsu_st16 (h : sock = 0x71) : trigLsu s n k sock v = s.store n k (c.lsuVa v) 2 (c.opnd_ 0x61) true := by
  unfold trigLsu; split <;> try contradiction
  rw [hc]
theorem trigLsu_st32 (h : sock = 0x72) : trigLsu s n k sock v = s.store n k (c.lsuVa v) 4 (c.opnd_ 0x61) true := by
  unfold trigLsu; split <;> try contradiction
  rw [hc]
theorem trigLsu_st64 (h : sock = 0x73) : trigLsu s n k sock v = s.store n k (c.lsuVa v) 8 (c.opnd_ 0x61) true := by
  unfold trigLsu; split <;> try contradiction
  rw [hc]
theorem trigLsu_af64 (h : sock = 0x74) : trigLsu s n k sock v = s.accum n k (c.lsuVa v) 0 (c.opnd_ 0x61) := by
  unfold trigLsu; split <;> try contradiction
  rw [hc]
theorem trigLsu_af32 (h : sock = 0x75) : trigLsu s n k sock v = s.accum n k (c.lsuVa v) 1 (c.opnd_ 0x61) := by
  unfold trigLsu; split <;> try contradiction
  rw [hc]
theorem trigLsu_aw16 (h : sock = 0x76) : trigLsu s n k sock v = s.accum n k (c.lsuVa v) 2 (c.opnd_ 0x61) := by
  unfold trigLsu; split <;> try contradiction
  rw [hc]
theorem trigLsu_ai32 (h : sock = 0x77) : trigLsu s n k sock v = s.accum n k (c.lsuVa v) 3 (c.opnd_ 0x61) := by
  unfold trigLsu; split <;> try contradiction
  rw [hc]
theorem trigLsu_amax (h : sock = 0x78) : trigLsu s n k sock v = s.accum n k (c.lsuVa v) (amaxAf (c.opnd_ 0x62)) (c.opnd_ 0x61) := by
  unfold trigLsu; split <;> try contradiction
  rw [hc]
theorem trigLsu_cas (h : sock = 0x79) : trigLsu s n k sock v = s.cas n k (c.lsuVa v) (c.opnd_ 0x61) (c.opnd_ 0x62) := by
  unfold trigLsu; split <;> try contradiction
  rw [hc]
theorem trigLsu_acq (h : sock = 0x7A) : trigLsu s n k sock v = s.acquireFence n k := by
  unfold trigLsu; split <;> try contradiction
  rw [hc]
theorem trigLsu_rel (h : sock = 0x7B) : trigLsu s n k sock v = s.releaseFence n k := by
  unfold trigLsu; split <;> try contradiction
  rw [hc]
theorem trigLsu_pf (h : sock = 0x7C) : trigLsu s n k sock v = s.prefetch n k (c.lsuVa v) := by
  unfold trigLsu; split <;> try contradiction
  rw [hc]

end

end Sys2Proof.Machine

open Sys2Proof Sys2Proof.Machine

/-- Settles O17: loads past the cache, the faults of LSU triggers in the order of Table 09-11, and loads through the cache. -/
theorem loadRows : Obligations.LoadRows := by
  refine ⟨?_, ?_, ?_⟩
  · intro core v s k x h hcalm n b va hd
    have hreg : b.case n k = s.reg n k := rfl
    have hva : va = (s.reg n k).lsuVa v := (Casement.lsuVa_eq _ _).symm
    have loads {sock bytes : Nat} {signed : Bool} (hs : sock < 4096) (hw : sock ≠ 0x494 ∧ sock ≠ 0x495 ∧ sock ≠ 0x496)
        (hu : sockOf sock = some (.trig .lsu)) (hc : isControl sock = false)
        (ht : trigLsu b n k sock v = b.load n k ((s.reg n k).lsuVa v) bytes signed .lsuRes 4 true)
        (hp : b.passes n k va bytes .read true x) : s.loads n k x.pa bytes signed .lsuRes (.next (s.issueMove n sock v)) := by
      obtain ⟨w, p, hload, loaded⟩ := Loaded.of_direct hp hd signed .lsuRes
      obtain ⟨t, ht, issued⟩ := issueMove_issued h hcalm hs hw hu hc (by rw [fire_lsu hu, ht, ← hva]; exact hload)
      exact loaded.issued ht issued
    refine ⟨fun hp => ⟨?_, ?_⟩, fun hp => ⟨?_, ?_⟩, fun hp => ⟨?_, ?_⟩, fun hp => ?_⟩
    · exact loads (sock := 0x68) (by decide) (by decide) rfl rfl (trigLsu_ld8u v hreg rfl) hp
    · exact loads (sock := 0x69) (by decide) (by decide) rfl rfl (trigLsu_ld8s v hreg rfl) hp
    · exact loads (sock := 0x6A) (by decide) (by decide) rfl rfl (trigLsu_ld16u v hreg rfl) hp
    · exact loads (sock := 0x6B) (by decide) (by decide) rfl rfl (trigLsu_ld16s v hreg rfl) hp
    · exact loads (sock := 0x6C) (by decide) (by decide) rfl rfl (trigLsu_ld32u v hreg rfl) hp
    · exact loads (sock := 0x6D) (by decide) (by decide) rfl rfl (trigLsu_ld32s v hreg rfl) hp
    · exact loads (sock := 0x6E) (by decide) (by decide) rfl rfl (trigLsu_ld64 v hreg rfl) hp
  · intro core v s k h n b c va i bytes acc dev hmem
    have hreg : b.case n k = s.reg n k := rfl
    have hva : va = (s.reg n k).lsuVa v := (Casement.lsuVa_eq _ _).symm
    have first {sock bytes : Nat} {acc : Acc} {dev : Bool} (hs : sock < 4096) (hu : sockOf sock = some (.trig .lsu))
        (hc : isControl sock = false)
        {t : Trig} (ht : trigLsu b n k sock v = t) (hf : b.faultsFirst n k ((s.reg n k).lsuVa v) bytes acc dev t) :=
      issueMove_faultsFirst (va := va) (v := v) h hs hu hc (by rw [fire_lsu hu, hva, ht]; exact hf)
    simp only [List.mem_cons, Prod.mk.injEq, List.not_mem_nil, or_false] at hmem
    rcases hmem with ⟨rfl, rfl, rfl, rfl⟩ | ⟨rfl, rfl, rfl, rfl⟩ | ⟨rfl, rfl, rfl, rfl⟩ | ⟨rfl, rfl, rfl, rfl⟩ |
      ⟨rfl, rfl, rfl, rfl⟩ | ⟨rfl, rfl, rfl, rfl⟩ | ⟨rfl, rfl, rfl, rfl⟩ | ⟨rfl, rfl, rfl, rfl⟩ | ⟨rfl, rfl, rfl, rfl⟩ |
      ⟨rfl, rfl, rfl, rfl⟩ | ⟨rfl, rfl, rfl, rfl⟩ | ⟨rfl, rfl, rfl, rfl⟩ | ⟨rfl, rfl, rfl, rfl⟩ | ⟨rfl, rfl, rfl, rfl⟩ |
      ⟨rfl, rfl, rfl, rfl⟩ | ⟨rfl, rfl, rfl, rfl⟩
    · exact first (sock := 0x6A) (by decide) rfl rfl (trigLsu_ld16u v hreg rfl) (State.load_faultsFirst ..)
    · exact first (sock := 0x6B) (by decide) rfl rfl (trigLsu_ld16s v hreg rfl) (State.load_faultsFirst ..)
    · exact first (sock := 0x6C) (by decide) rfl rfl (trigLsu_ld32u v hreg rfl) (State.load_faultsFirst ..)
    · exact first (sock := 0x6D) (by decide) rfl rfl (trigLsu_ld32s v hreg rfl) (State.load_faultsFirst ..)
    · exact first (sock := 0x6E) (by decide) rfl rfl (trigLsu_ld64 v hreg rfl) (State.load_faultsFirst ..)
    · exact first (sock := 0x68) (by decide) rfl rfl (trigLsu_ld8u v hreg rfl) (State.load_faultsFirst ..)
    · exact first (sock := 0x69) (by decide) rfl rfl (trigLsu_ld8s v hreg rfl) (State.load_faultsFirst ..)
    · exact first (sock := 0x70) (by decide) rfl rfl (trigLsu_st8 v hreg rfl) (State.store_faultsFirst ..)
    · exact first (sock := 0x71) (by decide) rfl rfl (trigLsu_st16 v hreg rfl) (State.store_faultsFirst ..)
    · exact first (sock := 0x72) (by decide) rfl rfl (trigLsu_st32 v hreg rfl) (State.store_faultsFirst ..)
    · exact first (sock := 0x73) (by decide) rfl rfl (trigLsu_st64 v hreg rfl) (State.store_faultsFirst ..)
    · exact first (sock := 0x74) (by decide) rfl rfl (trigLsu_af64 v hreg rfl) (State.accum_faultsFirst b n k _ 0 _)
    · exact first (sock := 0x75) (by decide) rfl rfl (trigLsu_af32 v hreg rfl) (State.accum_faultsFirst b n k _ 1 _)
    · exact first (sock := 0x76) (by decide) rfl rfl (trigLsu_aw16 v hreg rfl) (State.accum_faultsFirst b n k _ 2 _)
    · exact first (sock := 0x77) (by decide) rfl rfl (trigLsu_ai32 v hreg rfl) (State.accum_faultsFirst b n k _ 3 _)
    · exact first (sock := 0x79) (by decide) rfl rfl (trigLsu_cas v hreg rfl) (State.cas_faultsFirst ..)
  · intro core v s k x h hcalm n b va line off held hx htag hclean i bytes signed hmem hp hfit
    have hreg : b.case n k = s.reg n k := rfl
    have hva : va = (s.reg n k).lsuVa v := (Casement.lsuVa_eq _ _).symm
    have cached {sock bytes : Nat} {signed : Bool} (hs : sock < 4096) (hw : sock ≠ 0x494 ∧ sock ≠ 0x495 ∧ sock ≠ 0x496)
        (hu : sockOf sock = some (.trig .lsu)) (hc : isControl sock = false) (hb : 0 < bytes ∧ bytes ≤ 8)
        (ht : trigLsu b n k sock v = b.load n k ((s.reg n k).lsuVa v) bytes signed .lsuRes 4 true)
        (hp : b.passes n k va bytes .read true x) (hfit : off + bytes ≤ 64) :
        (∀ key l, (b.core n).hit false line = some (key, l) → l.parBad = 0 → l.poison = false →
          s.loadsHere n k bytes signed (fun j => (held j).getD (l.data.extractLsb' (8 * (off + j)) 8)) (.next (s.issueMove n sock v))) ∧
        ((∀ j, j < bytes → (held j).isSome = true) →
          s.loadsHere n k bytes signed (fun j => (held j).getD 0) (.next (s.issueMove n sock v))) ∧
        ((b.core n).hit false line = none → (b.core n).filling false line = false → (∀ j, j < bytes → held j = none) →
          ((b.core n).allocWay false line).2 ≠ none → (b.core n).lastMiss ≠ some (line - 1) →
          ∃ (t : State) (p : Pending), (.next (s.issueMove n sock v) : Out) = .next t ∧ (t.case n k).pend = (s.reg n k).pend ++ [p] ∧
            p.port = .lsuRes ∧ p.due = (s.reg n k).icount + 4 ∧ p.await = .fill ∧ p.pa = x.pa ∧ p.bytes = bytes ∧ p.signed = signed ∧
            (t.core n).filling false line = true ∧ t.mem = s.mem ∧ (t.case n k).pc = (s.reg n k).pc + 4) := by
      have hf : b.fire n k 4 sock v = b.load n k va bytes signed .lsuRes 4 true := by rw [fire_lsu hu, hva]; exact ht
      refine ⟨fun key l hhit hpar hl => ?_, fun hall => ?_, fun hhit hfill hnone hway hlast => ?_⟩
      · exact issueMove_loadsLine h hcalm hs hw hu hc hx htag hclean hf hp hfit hb hhit hpar hl
      · exact issueMove_loadsBuffer h hcalm hs hw hu hc hx htag hclean hf hp hfit hb hall _
      · exact issueMove_loadFills h hcalm hs hw hu hc hx htag hf hp hfit hb hhit hfill hnone hway hlast
    simp only [List.mem_cons, Prod.mk.injEq, List.not_mem_nil, or_false] at hmem
    rcases hmem with ⟨rfl, rfl, rfl⟩ | ⟨rfl, rfl, rfl⟩ | ⟨rfl, rfl, rfl⟩ | ⟨rfl, rfl, rfl⟩ | ⟨rfl, rfl, rfl⟩ |
      ⟨rfl, rfl, rfl⟩ | ⟨rfl, rfl, rfl⟩
    · exact cached (sock := 0x68) (by decide) (by decide) rfl rfl (by decide) (trigLsu_ld8u v hreg rfl) hp hfit
    · exact cached (sock := 0x69) (by decide) (by decide) rfl rfl (by decide) (trigLsu_ld8s v hreg rfl) hp hfit
    · exact cached (sock := 0x6A) (by decide) (by decide) rfl rfl (by decide) (trigLsu_ld16u v hreg rfl) hp hfit
    · exact cached (sock := 0x6B) (by decide) (by decide) rfl rfl (by decide) (trigLsu_ld16s v hreg rfl) hp hfit
    · exact cached (sock := 0x6C) (by decide) (by decide) rfl rfl (by decide) (trigLsu_ld32u v hreg rfl) hp hfit
    · exact cached (sock := 0x6D) (by decide) (by decide) rfl rfl (by decide) (trigLsu_ld32s v hreg rfl) hp hfit
    · exact cached (sock := 0x6E) (by decide) (by decide) rfl rfl (by decide) (trigLsu_ld64 v hreg rfl) hp hfit

end

section
/-! PROOF. Stores and the data stack. -/

set_option Elab.async false

namespace Sys2Proof.Machine

/-! ### Stores into the store buffer -/

theorem youngest_none {who : Option Nat} {l : List SbEntry} (h : (l.all fun e => e.task != who) = true) : youngest who l = none := by
  have none_ : l.filter (·.task == who) = [] := by
    rw [List.filter_eq_nil_iff]
    intro e he
    simpa using List.all_eq_true.1 h e he
  rw [youngest, none_]
  rfl

/-- The bytes of a value where a store puts them in its line. -/
theorem byte_placed {w : Word} {bytes off i : Nat} (hi : i < bytes) (hfit : off + bytes ≤ 64) (hb : bytes ≤ 8) :
    (BitVec.ofNat 512 ((w.toNat % 2 ^ (8 * bytes)) * 2 ^ (8 * off))).extractLsb' (8 * (off + i)) 8 = w.extractLsb' (8 * i) 8 := by
  apply BitVec.eq_of_getLsbD_eq
  intro b hb'
  rw [BitVec.getLsbD_extractLsb', BitVec.getLsbD_extractLsb', BitVec.getLsbD_ofNat, Nat.testBit_mul_two_pow, Nat.testBit_mod_two_pow,
    show 8 * (off + i) + b - 8 * off = 8 * i + b by omega]
  simp [hb', show 8 * (off + i) + b < 512 by omega, show 8 * off ≤ 8 * (off + i) + b by omega, show 8 * i + b < 8 * bytes by omega,
    BitVec.getLsbD]

/-- What State.buffers says of a casement's registers. -/
def Casement.storeParts (c : Casement) : Nat × Tab Word × Word × List Pending × Nat := (c.stores, c.d, c.flg, c.pend, c.icount)

/-- From s to s1 a store of the `bytes` low bytes of w at pa has entered the store buffer as e; other registers of the casement
than those of its parts may have changed. -/
structure Buffered (s : State) (n k pa bytes : Nat) (w : Word) (e : SbEntry) (s1 : State) : Prop where
  sbuf : (s1.core n).sbuf = (s.core n).sbuf ++ [e]
  entry : e.task = s.whoIs n k ∧ e.line = pa / 64 ∧ e.order = (s.case n k).stores
  plain : e.addend = none ∧ e.clean = false ∧ e.leaving = false
  mask : ∀ i, i < 64 → e.mask.getLsbD i = (decide (pa % 64 ≤ i) && decide (i < pa % 64 + bytes))
  data : ∀ i, i < bytes → e.data.extractLsb' (8 * (pa % 64 + i)) 8 = w.extractLsb' (8 * i) 8
  mem : s1.mem = s.mem
  parts : (s1.case n k).storeParts = Casement.storeParts { s.case n k with stores := (s.case n k).stores + 1 }

/-- R64, R231: a store that meets no fault, of a task with no other store in the buffer. -/
theorem Buffered.of_store {b : State} {n k va bytes : Nat} {x : Xl} {w : Word} {dev : Bool} {acc : Acc} (hacc : acc ≠ .read)
    (hp : b.passes n k va bytes acc dev x) (hfresh : b.freshEntry n k = true) (hdev : x.type ≠ .device) (hfit : x.pa % 64 + bytes ≤ 64) (hb : bytes ≤ 8) :
    ∃ (u : State) (e : SbEntry), b.store n k va bytes w dev acc = .done u ∧ Buffered b n k x.pa bytes w e u ∧
      u.case n k = { b.case n k with stores := (b.case n k).stores + 1 } := by
  obtain ⟨aligned, nokey, xlate, ctl⟩ := hp
  have ctl' : ctlCheck (b.case n k) x .write va bytes = none := by simpa [hacc] using ctl
  have notdev : (x.type == .device) = false := by simpa using hdev
  have hw := Touched.touchTlb b n x.tag x.ia
  have buf := hw.core (·.sbuf) (by intros; rfl) n
  simp only [State.freshEntry, Bool.and_eq_true, decide_eq_true_eq] at hfresh
  obtain ⟨room, others⟩ := hfresh
  have full : ¬ ((b.touchTlb n x.tag x.ia).core n).sbuf.length ≥ 16 := by rw [buf]; omega
  have alone : youngest ((b.touchTlb n x.tag x.ia).whoIs n k) ((b.touchTlb n x.tag x.ia).core n).sbuf = none := by
    rw [buf, hw.whoIs]; exact youngest_none others
  simp only [State.store, aligned, nokey, State.xlateWord, xlate, ctl', if_neg full, alone, State.store.fresh, notdev, Bool.false_and]
  have counted {y : Stream} {e : SbEntry} : (State.onCase (State.onCore (b.touchTlb n x.tag x.ia).fresh.2 n fun c => { c with
      stream := y, sbuf := c.sbuf ++ [e] }) n k fun c => { c with stores := c.stores + 1 }).case n k =
        { b.case n k with stores := (b.case n k).stores + 1 } := by
    rw [case_onCase, if_pos ⟨rfl, rfl⟩, State.case_onCore_keeps (by intro; rfl)]
    exact congrArg (fun c : Casement => { c with stores := c.stores + 1 }) (hw.case n k)
  refine ⟨_, _, rfl, ⟨(State.core_onCore_keeps (·.sbuf) (by intro; rfl) _ _ _).trans
    ((congrArg Core.sbuf ((core_onCore ..).trans (if_pos rfl))).trans (congrArg (· ++ [_]) buf)), ?_, ?_, ?_, ?_, by simp, ?_⟩, counted⟩
  · exact ⟨hw.whoIs n k, rfl, congrArg Casement.stores (hw.case n k)⟩
  · exact ⟨rfl, rfl, rfl⟩
  · exact fun i _ => getLsbD_maskOf hfit i
  · exact fun i hi => byte_placed hi hfit hb
  · exact congrArg Casement.storeParts counted

theorem Buffered.onCase {s s1 : State} {n k pa bytes : Nat} {w : Word} {e : SbEntry} (h : Buffered s n k pa bytes w e s1)
    {f : Casement → Casement} (hf : ∀ c, (f c).storeParts = c.storeParts) : Buffered s n k pa bytes w e (s1.onCase n k f) where
  sbuf := (State.core_onCore_keeps (·.sbuf) (by intro; rfl) _ _ _).trans h.sbuf
  entry := h.entry
  plain := h.plain
  mask := h.mask
  data := h.data
  mem := h.mem
  parts := by rw [case_onCase, if_pos ⟨rfl, rfl⟩, hf]; exact h.parts

theorem Buffered.issued {s s1 t : State} {n k pa bytes : Nat} {w : Word} {e : SbEntry} {out : Out}
    (h : Buffered (s.arrivals n k) n k pa bytes w e s1) (ht : out = .next t) (issued : Issued s s1 n k t) :
    s.buffers n k pa bytes w out := by
  obtain ⟨htask, hline, horder⟩ := h.entry
  obtain ⟨haddend, hclean, hleaving⟩ := h.plain
  obtain ⟨stores, d, flg, pend, icount⟩ : (s1.case n k).stores = (s.reg n k).stores + 1 ∧ (s1.case n k).d = (s.reg n k).d ∧
      (s1.case n k).flg = (s.reg n k).flg ∧ (s1.case n k).pend = (s.reg n k).pend ∧ (s1.case n k).icount = (s.reg n k).icount := by
    have parts := h.parts
    simp only [Casement.storeParts, Prod.mk.injEq] at parts
    exact parts
  refine ⟨t, e, ht, ?_, htask, hline, haddend, hclean, hleaving, horder, ?_, h.mask, h.data, ?_, ?_, ?_, ?_, issued.pc.1, ?_⟩
  · rw [issued.core (·.sbuf) (by intros; rfl), h.sbuf]
  · rw [issued.reg (·.stores) (by intros; rfl), stores]
  · rw [issued.block (·.mem) (by intros; rfl)]; exact h.mem.trans (by simp)
  · rw [issued.reg (·.d) (by intros; rfl), d]
  · rw [issued.reg (·.flg) (by intros; rfl), flg]
  · rw [issued.reg (·.pend) (by intros; rfl), pend]
  · rw [issued.pc.2, icount]

/-! ### The data stack (R73) -/

theorem trigBru_push {s : State} {n k sock : Nat} {c : Casement} (v : Word) (hc : s.case n k = c) (h : sock = 0xD0) :
    trigBru s n k sock v = (s.store n k (c.dsp - 8).toNat 8 v false).bind fun s => .done (s.onCase n k fun x => { x with dsp := c.dsp - 8 }) := by
  unfold trigBru; split <;> try contradiction
  rw [State.push, hc]

theorem trigBru_pop {s : State} {n k sock : Nat} {c : Casement} (v : Word) (hc : s.case n k = c) (h : sock = 0xD1) :
    trigBru s n k sock v =
      (s.load n k c.dsp.toNat 8 false .bruRes 4 false).bind fun s => .done (s.onCase n k fun x => { x with dsp := c.dsp + 8 }) := by
  unfold trigBru; split <;> try (exfalso; omega)
  rw [State.pop, hc]

/-- Eight less than a data stack pointer is a multiple of 8 where the pointer is. -/
theorem sub_eight_mod (sp : BitVec 48) : (sp - 8).toNat % 8 = sp.toNat % 8 := by
  rw [BitVec.toNat_sub]; simp; omega

end Sys2Proof.Machine

open Sys2Proof Sys2Proof.Machine

/-- Settles O18: a store that passes and finds no entry of its task enters the buffer as an entry of its own. -/
theorem storeRows : Obligations.StoreRows := by
  refine ⟨?_, ?_⟩
  · intro core v s k x h hcalm n b va d hfresh hdev hoff
    have hreg : b.case n k = s.reg n k := rfl
    have hva : va = (s.reg n k).lsuVa v := (Casement.lsuVa_eq _ _).symm
    have stores {sock bytes : Nat} (hs : sock < 4096) (hw : sock ≠ 0x494 ∧ sock ≠ 0x495 ∧ sock ≠ 0x496)
        (hu : sockOf sock = some (.trig .lsu)) (hc : isControl sock = false) (hb : bytes ≤ 8) (hdvd : bytes ∣ 64)
        (ht : trigLsu b n k sock v = b.store n k ((s.reg n k).lsuVa v) bytes d true)
        (hp : b.passes n k va bytes .write true x) : s.buffers n k x.pa bytes d (.next (s.issueMove n sock v)) := by
      have hfit : x.pa % 64 + bytes ≤ 64 := by
        have aligned : va % 64 % bytes = 0 := by rw [Nat.mod_mod_of_dvd _ hdvd]; exact hp.1
        obtain ⟨q, hq⟩ := Nat.dvd_of_mod_eq_zero aligned
        obtain ⟨r, hr⟩ := hdvd
        have below : bytes * q < bytes * r := by rw [← hq, ← hr]; exact Nat.mod_lt _ (by decide)
        have := Nat.mul_le_mul_left bytes (Nat.lt_of_mul_lt_mul_left below)
        rw [hoff, hq, hr]
        exact this
      obtain ⟨w, e, hstore, buffered, -⟩ := Buffered.of_store (w := d) (by decide) hp hfresh hdev hfit hb
      obtain ⟨t, ht, issued⟩ := issueMove_issued h hcalm hs hw hu hc (by rw [fire_lsu hu, ht, ← hva]; exact hstore)
      exact buffered.issued ht issued
    refine ⟨fun hp => ?_, fun hp => ?_, fun hp => ?_, fun hp => ?_⟩
    · exact stores (sock := 0x70) (by decide) (by decide) rfl rfl (by decide) (by decide) (trigLsu_st8 v hreg rfl) hp
    · exact stores (sock := 0x71) (by decide) (by decide) rfl rfl (by decide) (by decide) (trigLsu_st16 v hreg rfl) hp
    · exact stores (sock := 0x72) (by decide) (by decide) rfl rfl (by decide) (by decide) (trigLsu_st32 v hreg rfl) hp
    · exact stores (sock := 0x73) (by decide) (by decide) rfl rfl (by decide) (by decide) (trigLsu_st64 v hreg rfl) hp
  · intro core v s k x h hcalm n b sp
    have hreg : b.case n k = s.reg n k := rfl
    have push := (fire_bru (sock := 0xD0) rfl b n k 4 v).trans (trigBru_push v hreg rfl)
    have pop := (fire_bru (sock := 0xD1) rfl b n k 4 v).trans (trigBru_pop v hreg rfl)
    refine ⟨fun hfresh hdev hoff hp => ?_, fun hd hp => ?_, fun ha => ⟨?_, ?_⟩⟩
    · have hfit : x.pa % 64 + 8 ≤ 64 := by have := hp.1; omega
      obtain ⟨w, e, hstore, buffered, -⟩ := Buffered.of_store (w := v) (by decide) hp hfresh hdev hfit (by decide)
      rw [hstore] at push
      obtain ⟨t, ht, issued⟩ := issueMove_issued (sock := 0xD0) h hcalm (by decide) (by decide) rfl rfl push
      refine ⟨(buffered.onCase (f := fun x => { x with dsp := (s.reg n k).dsp - 8 }) (fun _ => rfl)).issued ht issued, t, ht, ?_⟩
      rw [issued.reg (·.dsp) (by intros; rfl), case_onCase, if_pos ⟨rfl, rfl⟩]
    · obtain ⟨w, p, hload, loaded⟩ := Loaded.of_direct hp hd false .bruRes
      rw [hload] at pop
      obtain ⟨t, ht, issued⟩ := issueMove_issued (sock := 0xD1) h hcalm (by decide) (by decide) rfl rfl pop
      refine ⟨(loaded.moveDsp _).issued ht issued, t, ht, ?_⟩
      rw [issued.reg (·.dsp) (by intros; rfl), case_onCase, if_pos ⟨rfl, rfl⟩]
    · refine issueMove_fault (sock := 0xD0) (f := fltAlign) h (by decide) rfl (.inl rfl) ?_
      rw [push, (State.store_faultsFirst b n k _ 8 v false).1 (by rw [sub_eight_mod]; exact ha)]; rfl
    · refine issueMove_fault (sock := 0xD1) (f := fltAlign) h (by decide) rfl (.inl rfl) ?_
      rw [pop, (State.load_faultsFirst b n k _ 8 false .bruRes 4 false).1 ha]; rfl

end

section
/-! PROOF. Accumulate-writes and compare-and-swap. -/

set_option Elab.async false

namespace Sys2Proof.Machine

/-! ### Accumulate-writes and compare-and-swap -/

/-- From b to w the accumulate-write of operation af and the low bytes of v at pa has entered the store buffer as e. -/
structure Adding (b : State) (n k pa af : Nat) (v : Word) (e : SbEntry) (a : Addend) (w : State) : Prop where
  sbuf : (w.core n).sbuf = (b.core n).sbuf ++ [e]
  entry : e.addend = some a ∧ e.task = b.whoIs n k
  place : a.pa = pa ∧ a.af = af ∧ a.val = BitVec.ofNat 64 (v.toNat % 2 ^ (8 * afBytes af))
  rank : a.rank = (b.case n k).asl.toNat % 2 ^ 16 ∧ a.size = (b.case n k).asl.toNat / 2 ^ 16 % 2 ^ 16 ∧
    a.strict = (b.case n k).rdc.getLsbD 0
  mem : w.mem = b.mem
  case : w.case n k = { b.case n k with stores := (b.case n k).stores + 1 }

/-- R153, R186: what an accumulate-write captures. -/
theorem Casement.addend_captures (c : Casement) (id pa af : Nat) (v cmp : Word) (ret : Ret) :
    (c.addend id pa af v cmp ret).rank = c.asl.toNat % 2 ^ 16 ∧ (c.addend id pa af v cmp ret).size = c.asl.toNat / 2 ^ 16 % 2 ^ 16 ∧
      (c.addend id pa af v cmp ret).strict = c.rdc.getLsbD 0 := by
  refine ⟨?_, fld_eq_div_mod .., ?_⟩
  · rw [Casement.addend, fld_eq_div_mod, Nat.pow_zero, Nat.div_one]
  · rfl

theorem Adding.of_accum {b : State} {n k va af : Nat} {x : Xl} {v : Word} (aligned : va % afBytes af = 0)
    (nokey : (b.case n k).keyDue = false) (xlate : b.xlate n (b.case n k) va .accum false = .ok x)
    (room : (b.core n).sbuf.length < 16) :
    ∃ (w : State) (e : SbEntry) (a : Addend), b.accum n k va af v = .done w ∧ Adding b n k x.pa af v e a w := by
  have hw := Touched.touchTlb b n x.tag x.ia
  have buf := hw.core (·.sbuf) (by intros; rfl) n
  have full : ¬ ((b.touchTlb n x.tag x.ia).core n).sbuf.length ≥ 16 := by rw [buf]; omega
  simp only [State.accum, aligned, nokey, State.xlateWord, xlate, if_neg full]
  have same : (b.touchTlb n x.tag x.ia).fresh.2.fresh.2.case n k = b.case n k := hw.case n k
  have entered {u : State} {e : SbEntry} : ((State.onCase (State.onCore u n fun y => { y with sbuf := y.sbuf ++ [e] }) n k
      fun c => { c with stores := c.stores + 1 }).core n).sbuf = (u.core n).sbuf ++ [e] :=
    (State.core_onCore_keeps (·.sbuf) (by intro; rfl) _ _ _).trans (congrArg Core.sbuf ((core_onCore ..).trans (if_pos rfl)))
  refine ⟨_, _, _, rfl, entered.trans (congrArg (· ++ [_]) buf), ⟨rfl, ?_⟩, ?_, ?_, ?_, ?_⟩
  · exact hw.whoIs n k
  · exact ⟨rfl, rfl, rfl⟩
  · simp only [same]
    exact Casement.addend_captures (b.case n k) _ _ _ _ _ _
  · simp
  · rw [case_onCase, if_pos ⟨rfl, rfl⟩, State.case_onCore_keeps (by intro; rfl), same]

theorem State.cas_sends {b : State} {n k va : Nat} {x : Xl} {v cmp : Word} (aligned : va % 8 = 0)
    (nokey : (b.case n k).keyDue = false) (xlate : b.xlate n (b.case n k) va .cas false = .ok x) (hpa : x.pa < 2 ^ 51)
    (hstores : b.storesTo n (b.whoIs n k) (x.pa / 64) = false) (hbusy : b.bypassBusy n (b.whoIs n k) (x.pa / 64) = false) :
    ∃ (w : State) (p : Pending) (a : Addend), b.cas n k va v cmp = .done (w.onCase n k fun c => c.addPending p) ∧ p.port = .lsuRes ∧
      p.due = 4 ∧ p.await = .access ∧ w.addends = b.addends ++ [a] ∧ a.pa = x.pa ∧ a.af = 8 ∧ a.val = v ∧ a.cmp = cmp ∧
      w.mem = b.mem ∧ w.case n k = b.case n k := by
  have hw := Touched.touchTlb b n x.tag x.ia
  have idle : ¬ ((b.touchTlb n x.tag x.ia).storesTo n ((b.touchTlb n x.tag x.ia).whoIs n k) (x.pa / 64) ||
      (b.touchTlb n x.tag x.ia).bypassBusy n ((b.touchTlb n x.tag x.ia).whoIs n k) (x.pa / 64)) = true := by
    rw [hw.whoIs, hw.storesTo, hw.bypassBusy, hstores, hbusy]; simp
  simp only [State.cas, aligned, nokey, State.xlateWord, xlate, if_neg idle, State.sendAddend, Casement.addend, hpa, if_true]
  exact ⟨_, _, _, rfl, rfl, rfl, rfl, congrArg (· ++ [_]) (hw.block (·.addends) (by intros; rfl)), rfl, rfl, rfl, rfl, hw.storage.1,
    hw.case n k⟩

end Sys2Proof.Machine

open Sys2Proof Sys2Proof.Machine

/-- Settles O19: an accumulate-write enters the buffer with what its task has captured; a compare-and-swap goes to its engine. -/
theorem accumulateRows : Obligations.AccumulateRows := by
  intro core v s k x h hcalm n b c va d adds ok
  have hreg : b.case n k = s.reg n k := rfl
  have hva : va = (s.reg n k).lsuVa v := (Casement.lsuVa_eq _ _).symm
  have enters {sock af bytes : Nat} (hs : sock < 4096) (hw : sock ≠ 0x494 ∧ sock ≠ 0x495 ∧ sock ≠ 0x496)
      (hu : sockOf sock = some (.trig .lsu)) (hc : isControl sock = false) (hbytes : afBytes af = bytes)
      (ht : trigLsu b n k sock v = b.accum n k ((s.reg n k).lsuVa v) af (c.opnd_ 0x61)) (hok : ok bytes) :
      adds af bytes (.next (s.issueMove n sock v)) := by
    obtain ⟨aligned, nokey, xlate, room⟩ := hok
    obtain ⟨w, e, a, haccum, adding⟩ := Adding.of_accum (af := af) (v := c.opnd_ 0x61) (by rw [hbytes]; exact aligned) nokey xlate room
    obtain ⟨t, ht, issued⟩ := issueMove_issued h hcalm hs hw hu hc (by rw [fire_lsu hu, ht, ← hva]; exact haccum)
    obtain ⟨haddend, htask⟩ := adding.entry
    obtain ⟨hpa, haf, hval⟩ := adding.place
    obtain ⟨hrank, hsize, hstrict⟩ := adding.rank
    refine ⟨t, e, a, ht, ?_, haddend, htask, hpa, haf, ?_, hrank, hsize, hstrict, ?_, ?_, issued.pc.1⟩
    · rw [issued.core (·.sbuf) (by intros; rfl), adding.sbuf]
    · rw [hval, hbytes]
    · rw [issued.block (·.mem) (by intros; rfl)]; exact adding.mem.trans (by simp)
    · rw [issued.reg (·.pend) (by intros; rfl), adding.case]; rfl
  have fmt : fld (c.opnd_ 0x62) 0 2 = (c.opnd_ 0x62).toNat % 4 := by rw [fld_eq_div_mod, Nat.pow_zero, Nat.div_one]; rfl
  refine ⟨fun hok => ?_, fun hok => ?_, fun hok => ?_, fun hok => ?_, fun hok hf => ?_, fun hok hf => ?_, fun ha hk hx hpa hst hbusy => ?_⟩
  · exact enters (sock := 0x74) (by decide) (by decide) rfl rfl rfl (trigLsu_af64 v hreg rfl) hok
  · exact enters (sock := 0x75) (by decide) (by decide) rfl rfl rfl (trigLsu_af32 v hreg rfl) hok
  · exact enters (sock := 0x76) (by decide) (by decide) rfl rfl rfl (trigLsu_aw16 v hreg rfl) hok
  · exact enters (sock := 0x77) (by decide) (by decide) rfl rfl rfl (trigLsu_ai32 v hreg rfl) hok
  · have af : amaxAf (c.opnd_ 0x62) = 4 + (c.opnd_ 0x62).toNat % 4 := by
      have : (c.opnd_ 0x62).toNat % 4 < 3 := by omega
      rw [amaxAf, fmt]
      interval_cases (c.opnd_ 0x62).toNat % 4 <;> rfl
    have bytes : afBytes (4 + (c.opnd_ 0x62).toNat % 4) = 8 := by
      have : (c.opnd_ 0x62).toNat % 4 < 3 := by omega
      interval_cases (c.opnd_ 0x62).toNat % 4 <;> rfl
    exact enters (sock := 0x78) (by decide) (by decide) rfl rfl bytes ((trigLsu_amax v hreg rfl).trans (by rw [← af])) hok
  · have af : amaxAf (c.opnd_ 0x62) = 7 := by rw [amaxAf, fmt, hf]; rfl
    exact enters (sock := 0x78) (by decide) (by decide) rfl rfl rfl ((trigLsu_amax v hreg rfl).trans (by rw [← af])) hok
  · obtain ⟨w, p, a, hcas, hport, hdue, hawait, haddends, hpa', haf, hval, hcmp, mem, case⟩ :=
      State.cas_sends (v := c.opnd_ 0x61) (cmp := c.opnd_ 0x62) ha hk hx hpa hst hbusy
    obtain ⟨t, ht, issued⟩ := issueMove_issued (sock := 0x79) h hcalm (by decide) (by decide) rfl rfl
      (((fire_lsu rfl b n k 4 v).trans (trigLsu_cas v hreg rfl)).trans (by rw [← hva]; exact hcas))
    have put : (w.onCase n k fun c => c.addPending p).case n k = (s.reg n k).addPending p := by
      rw [case_onCase, if_pos ⟨rfl, rfl⟩, case]; rfl
    refine ⟨t, { p with due := c.icount + p.due }, a, ht, ?_, hport, ?_, hawait, ?_, hpa', haf, hval, hcmp, ?_, issued.pc.1⟩
    · rw [issued.reg (·.pend) (by intros; rfl), put]; exact pend_addPending ..
    · rw [hdue]
    · rw [issued.block (·.addends) (by intros; rfl)]; exact haddends
    · rw [issued.block (·.mem) (by intros; rfl)]; exact mem.trans (by simp)

end

section
/-! PROOF. Fences and prefetch. -/

set_option Elab.async false

namespace Sys2Proof.Machine

/-! ### What leaves every casement as it is -/

/-- The casements of every core. -/
def State.regs (s : State) (n k : Nat) : Casement := s.case n k

theorem State.case_of_regs {s t : State} (h : t.regs = s.regs) (n k : Nat) : t.case n k = s.case n k := congrFun (congrFun h n) k

theorem State.regs_of_cores {s t : State} (h : t.cores = s.cores) : t.regs = s.regs := by
  funext n k
  exact State.case_of_cores h n k

@[simp] theorem State.onCore_regs (s : State) (n : Nat) {f : Core → Core} (hf : ∀ c, (f c).cases = c.cases) : (s.onCore n f).regs = s.regs := by
  funext m j
  exact State.case_onCore_keeps hf s n m j

@[simp] theorem Core.dropLine_cases (c : Core) (ic : Bool) (key : Nat) : (c.dropLine ic key).cases = c.cases := by
  cases ic <;> rfl

@[simp] theorem State.onCluster_regs (s : State) (c : Nat) (f : Cluster → Cluster) : (s.onCluster c f).regs = s.regs := rfl
@[simp] theorem State.putWalk_regs (s : State) (cl : Nat) (j : WalkJob) : (s.putWalk cl j).regs = s.regs := rfl
@[simp] theorem State.send_regs (s : State) (src dst : Agent) (op : MemOp) (ret : Ret) (trans : Option (Nat × Nat)) : (s.send src dst op ret trans).regs = s.regs := rfl
@[simp] theorem State.walkAsk_regs (s : State) (cl : Nat) (j : WalkJob) : (s.walkAsk cl j).regs = s.regs := by
  unfold State.walkAsk; split <;> simp
@[simp] theorem State.fresh_regs (s : State) : (s.fresh).2.regs = s.regs := rfl
@[simp] theorem State.walkBegin_regs (s : State) (cl : Nat) (j : WalkJob) : (s.walkBegin cl j).regs = s.regs := by
  simp [State.walkBegin]
@[simp] theorem State.startWalks_regs (s : State) (cl : Nat) : (s.startWalks cl).regs = s.regs := by
  simp only [State.startWalks]
  exact foldl_keeps (·.regs) (fun s a => by split <;> simp) _ _
@[simp] theorem State.askWalk_regs (s : State) (n : Nat) (w : Walk) : (s.askWalk n w).regs = s.regs := by
  simp [State.askWalk]
@[simp] theorem State.touchTlb_regs (s : State) (n tag ia : Nat) : (s.touchTlb n tag ia).regs = s.regs := by
  funext m j
  exact (Touched.touchTlb s n tag ia).case m j
@[simp] theorem State.xlateNow_regs (s : State) (n : Nat) (use : WalkFor) (c : Casement) (va : Nat) (acc : Acc) (device kyu : Bool) : (s.xlateNow n use c va acc device kyu).1.regs = s.regs := by
  simp only [State.xlateNow]; (repeat' split) <;> simp
@[simp] theorem State.onLink_regs (s : State) (m : Nat) (f : Link → Link) : (s.onLink m f).regs = s.regs := rfl
@[simp] theorem State.request_regs (s : State) (src pa : Nat) (m : Msg) (ret : Ret) (trans : Option (Nat × Nat)) : (s.request src pa m ret trans).1.regs = s.regs := by
  simp only [State.request]; (repeat' split) <;> simp
@[simp] theorem State.reach_regs (s : State) (n pa : Nat) (m : Msg) (ret : Ret) (trans : Option (Nat × Nat)) : (s.reach n pa m ret trans).1.regs = s.regs := by
  unfold State.reach; split <;> simp
@[simp] theorem State.record_regs (s : State) (u k g : Nat) (r : Bool) : (s.record u k g r).regs = s.regs :=
  State.regs_of_cores (State.record_cores ..)
@[simp] theorem State.countPar_regs (s : State) (n : Nat) : (s.countPar n).regs = s.regs := rfl
@[simp] theorem State.wbParity_regs (s : State) (n : Nat) (l : Line) : (s.wbParity n l).1.regs = s.regs := by
  unfold State.wbParity; split <;> simp
@[simp] theorem State.reportTag_regs (s : State) (n : Nat) : (s.reportTag n).regs = s.regs := by
  simp [State.reportTag]
@[simp] theorem State.evictLine_regs (s : State) (n : Nat) (l : Line) : (s.evictLine n l).regs = s.regs := by
  simp only [State.evictLine]; (repeat' split) <;> simp
@[simp] theorem State.tagScan_regs (s : State) (n : Nat) (ic : Bool) (line : Nat) : (s.tagScan n ic line).regs = s.regs := by
  simp only [State.tagScan]
  exact foldl_keeps (·.regs) (fun s p => by simp) _ _
@[simp] theorem State.startFill_regs (s : State) (n : Nat) (ic : Bool) (line : Nat) (job : BitVec 12) (trans : Option (Nat × Nat)) : (s.startFill n ic line job trans).1.regs = s.regs := by
  have alloc (u : State) {c : Core} {o : Option Nat} (h : (u.core n).allocWay ic line = (c, o)) : (u.setCore n c).regs = u.regs := by
    funext m j
    simp only [State.regs, State.case, core_setCore]
    split
    · next hm => rw [hm, ← Core.allocWay_cases (u.core n) ic line, h]
    · rfl
  have put (c : Core) (key : Nat) (l : Line) : (c.putLine ic key l).cases = c.cases := Core.putLine_cases ..
  simp only [State.startFill]
  split
  · next h => simp [alloc _ h]
  · next c key h =>
    have begun {u : State} (hu : u.regs = s.regs) (pa : Nat) (m : Msg) (ret : Ret) : ((match u.reach n pa m ret trans with
        | (s, none) => (s, true)
        | (s, some st) => (s.onCore n fun c => { c with arrived := c.arrived ++ [(ic, line, st, [])] }, true)) : State × Bool).1.regs = s.regs := by
      have reached := (State.reach_regs u n pa m ret trans).trans hu
      split
      · next r => rw [r] at reached; exact reached
      · next r => rw [r] at reached; exact (State.onCore_regs _ _ (by intro; rfl)).trans reached
    split <;> split
    · simp [put, alloc _ h]
    · exact begun (by simp [put, alloc _ h]) ..
    · simp [put, alloc _ h]
    · exact begun (by simp [put, alloc _ h]) ..
@[simp] theorem State.wantLine_regs (s : State) (n : Nat) (ic : Bool) (line : Nat) (job : BitVec 12) (trans : Option (Nat × Nat)) : (s.wantLine n ic line job trans).1.regs = s.regs := by
  simp only [State.wantLine]; (repeat' split) <;> simp
@[simp] theorem State.aheadWant_regs (s : State) (n : Nat) (ic : Bool) (line : Nat) (job : BitVec 12) (trans : Option (Nat × Nat)) : (s.aheadWant n ic line job trans).regs = s.regs := by
  simp only [State.aheadWant]; (repeat' split) <;> simp
@[simp] theorem State.prefetchLine_regs (s : State) (n : Nat) (c : Casement) (va : Nat) : (s.prefetchLine n c va).regs = s.regs := by
  have now {t : State} {r : NowRes} (h : s.xlateNow n (.ahead false (c.extFor .read va) 0) c va .read = (t, r)) : t.regs = s.regs := by
    rw [← State.xlateNow_regs s n (.ahead false (c.extFor .read va) 0) c va .read, h]
  simp only [State.prefetchLine]
  split
  · next h => exact now h
  · next h => split <;> simp [now h]
  · rfl

/-! ### Fences and prefetch -/

end Sys2Proof.Machine

open Sys2Proof Sys2Proof.Machine

/-- Settles O20, by the conditions that each fence waits for; a prefetch leaves casements and memory as they are. -/
theorem fenceRows : Obligations.FenceRows := by
  intro core v s k h n b waits
  have hreg : b.case n k = s.reg n k := rfl
  have acq : b.fire n k 4 0x7A v = b.acquireFence n k := (fire_lsu rfl b n k 4 v).trans (trigLsu_acq v hreg rfl)
  have rel : b.fire n k 4 0x7B v = b.releaseFence n k := (fire_lsu rfl b n k 4 v).trans (trigLsu_rel v hreg rfl)
  have pf : b.fire n k 4 0x7C v = b.prefetch n k ((s.reg n k).lsuVa v) := (fire_lsu rfl b n k 4 v).trans (trigLsu_pf v hreg rfl)
  refine ⟨fun hl => ?_, fun hl => ?_, fun hl hst hd => ⟨fun hf => ?_, fun hf => ?_⟩, fun hw => ?_, ?_, fun hcalm => ?_⟩
  · exact issueMove_done (sock := 0x7A) h (by decide) rfl (.inl rfl) (acq.trans (if_pos hl))
  · exact issueMove_wait (sock := 0x7A) h (by decide) rfl (.inl rfl) (acq.trans (if_neg (by simp [hl])))
  · refine issueMove_done (sock := 0x7B) h (by decide) rfl (.inl rfl) (rel.trans ?_)
    simp [State.releaseFence, hl, hst, hd, hreg, hf]
  · have fire : b.fire n k 4 0x7B v = b.reportAsync n k := by
      rw [rel]; simp [State.releaseFence, hl, hst, hd, hreg, hf]
    have cls : (asyncFault (s.reg n k).fails).cls = clsASYNC := by unfold asyncFault; split <;> rfl
    refine congrArg Host.Outcome.next ((issueMove_faultKeeping (sock := 0x7B) h (by decide) rfl rfl fire).trans ?_)
    rw [hreg, cls]
    rfl
  · exact issueMove_wait (sock := 0x7B) h (by decide) rfl (.inl rfl) (rel.trans (if_pos (by rw [hw]; rfl)))
  · refine ⟨_, issueMove_done (sock := 0x7C) h (by decide) rfl (.inl rfl) pf, ?_, fun m j => State.case_of_regs (by simp) m j⟩
    exact (State.prefetchLine_mem ..).trans (by simp [b])
  · obtain ⟨t, ht, issued⟩ := issueMove_issued (sock := 0x7C) h hcalm (by decide) (by decide) rfl rfl pf
    have same : (b.prefetchLine n (b.case n k) ((s.reg n k).lsuVa v)).case n k = s.reg n k := State.case_of_regs (State.prefetchLine_regs ..) n k
    refine ⟨t, ht, issued.pc.1, ?_, ?_, ?_⟩
    · rw [issued.pc.2, same]
    · rw [issued.reg (·.pend) (by intros; rfl), same]
    · rw [issued.block (·.mem) (by intros; rfl)]; exact (State.prefetchLine_mem ..).trans (by simp [b])

end

section
/-! PROOF. Lines of the data cache, and words with a replaced field. -/

set_option Elab.async false

namespace Sys2Proof.Machine

/-! ### Fields of a word whose operation has been set -/

theorem fld_setFld_same (w : Word) {lo n x : Nat} (hx : x < 2 ^ n) (h : lo + n ≤ 64) : fld (setFld w lo n x) lo n = x := by
  apply Nat.eq_of_testBit_eq
  intro i
  rw [fld, testBit_bitsOf]
  by_cases hi : i < n
  · rw [show (setFld w lo n x).toNat.testBit (lo + i) = (setFld w lo n x).getLsbD (lo + i) from rfl,
      getLsbD_setFld _ _ _ _ (by omega), if_pos (by omega), Nat.add_sub_cancel_left]
    simp [hi]
  · rw [Nat.testBit_lt_two_pow (Nat.lt_of_lt_of_le hx (Nat.pow_le_pow_right (by decide) (by omega)))]
    simp [hi]

theorem fld_setFld_below (w : Word) {lo n x l m : Nat} (h : l + m ≤ lo) (h64 : lo ≤ 64) : fld (setFld w lo n x) l m = fld w l m := by
  apply Nat.eq_of_testBit_eq
  intro i
  rw [fld, fld, testBit_bitsOf, testBit_bitsOf]
  by_cases hi : i < m
  · rw [show (setFld w lo n x).toNat.testBit (l + i) = (setFld w lo n x).getLsbD (l + i) from rfl,
      getLsbD_setFld _ _ _ _ (by omega), if_neg (by omega)]
    rfl
  · simp [hi]

theorem bitAt_setFld_other (w : Word) {lo n x i : Nat} (hi : i < 64) (h : i < lo ∨ lo + n ≤ i) : bitAt (setFld w lo n x) i = w.getLsbD i := by
  rw [bitAt, getLsbD_setFld _ _ _ _ hi, if_neg (by omega)]

/-! ### Lines of the caches -/

theorem tabFind_tabErase {α : Type} (t : Tab α) (k j : Nat) : tabFind (tabErase t k) j = if j = k then none else tabFind t j := by
  induction t with
  | nil => simp [tabErase, tabFind]
  | cons p t ih =>
    obtain ⟨i, b⟩ := p
    by_cases h : i = k
    · subst h
      by_cases hj : j = i
      · subst hj; simp [tabErase, ih]
      · have : ¬ i = j := fun e => hj e.symm
        simp [tabErase, ih, hj, tabFind, this]
    · by_cases hj : i = j
      · subst hj; simp [tabErase, tabFind, h]
      · simp [tabErase, tabFind, h, hj, ih]

theorem State.dropLine_lines (s : State) (n : Nat) (ic : Bool) (key j : Nat) :
    tabFind (((s.onCore n fun c => c.dropLine ic key).core n).lines ic) j = if j = key then none else tabFind ((s.core n).lines ic) j := by
  rw [core_onCore, if_pos rfl, ← tabFind_tabErase]
  cases ic <;> rfl

/-- From s to t, casement (n, k) may have counted a store, and nothing else of it or of memory has changed. -/
structure State.countedOnly (s : State) (n k : Nat) (t : State) : Prop where
  mem : t.mem = s.mem
  case : ∃ m, t.case n k = { s.case n k with stores := m }

/-- R242: what cleaning the line l of a task leaves in the store buffer. -/
def State.cleans (s : State) (n k : Nat) (l : Line) (t : State) : Prop :=
  (l.dirty = 0 → (t.core n).sbuf = (s.core n).sbuf) ∧
    (l.dirty ≠ 0 → ∃ e : SbEntry, (t.core n).sbuf = (s.core n).sbuf ++ [e] ∧ e.clean = true ∧ e.line = l.addr ∧
      e.mask = granMask l.dirty ∧ e.data = l.data ∧ e.task = s.whoIs n k ∧ e.poison = l.poison)

theorem State.cleanLine_spec {s : State} {n k key : Nat} {l : Line} (hl : tabFind (s.core n).dcache key = some l) (hpar : l.parBad = 0)
    (room : (s.core n).sbuf.length < 16) (va : Word) (trans : Option (Nat × Nat)) :
    ∃ t, s.cleanLine n k key l va trans = (t, true) ∧ s.countedOnly n k t ∧ s.cleans n k l t ∧
      tabFind (t.core n).dcache key = some { l with dirty := 0 } ∧
      (∀ j, j ≠ key → tabFind (t.core n).dcache j = tabFind (s.core n).dcache j) ∧ (l.dirty = 0 → t = s) := by
  by_cases hd : l.dirty = 0
  · refine ⟨s, ?_, ⟨rfl, (s.case n k).stores, rfl⟩, ⟨fun _ => rfl, fun h => absurd hd h⟩, ?_, fun _ _ => rfl, fun _ => rfl⟩
    · simp [State.cleanLine, hd]
    · rw [hl, ← hd]
  · have clean : (l.parBad &&& l.dirty != 0) = false := by simp [hpar]
    have full : ¬ (s.core n).sbuf.length ≥ 16 := by omega
    simp only [State.cleanLine, beq_iff_eq, hd, if_false, full, State.wbParity, clean, Bool.false_eq_true]
    refine ⟨_, rfl, ⟨rfl, (s.case n k).stores + 1, ?_⟩, ⟨fun h => absurd h hd, fun _ => ⟨_, (State.core_onCore_keeps (·.sbuf) (by intro; rfl) _ _ _).trans
      (congrArg Core.sbuf ((core_onCore ..).trans (if_pos rfl))), ?_⟩⟩, ?_, fun j hj => ?_, False.elim⟩
    · rw [case_onCase, if_pos ⟨rfl, rfl⟩, State.case_onCore_keeps (by intro; rfl)]; rfl
    · exact ⟨rfl, rfl, rfl, rfl, rfl, rfl⟩
    · rw [show ∀ u : State, ((u.onCase n k fun c => { c with stores := c.stores + 1 }).core n).dcache = (u.core n).dcache from
        fun u => State.core_onCore_keeps (·.dcache) (by intro; rfl) _ _ _, core_onCore, if_pos rfl]
      exact (tabFind_tabPut ..).trans (if_pos rfl)
    · rw [show ∀ u : State, ((u.onCase n k fun c => { c with stores := c.stores + 1 }).core n).dcache = (u.core n).dcache from
        fun u => State.core_onCore_keeps (·.dcache) (by intro; rfl) _ _ _, core_onCore, if_pos rfl]
      exact (tabFind_tabPut ..).trans (if_neg hj)

end Sys2Proof.Machine

end

section
/-! PROOF. Cache maintenance. -/

set_option Elab.async false

namespace Sys2Proof.Machine

/-! ### Cache maintenance (R240–R243) -/

theorem Core.hit_addr {c : Core} {ic : Bool} {line key : Nat} {l : Line} (h : c.hit ic line = some (key, l)) :
    l.addr = line ∧ l.filling = false := by
  have := List.find?_some h
  simpa using this

/-- R242: an operation on a line that the data cache does not hold, with no eviction of it under way. -/
theorem State.cmoData_absent {s : State} {n k line : Nat} (hhit : (s.core n).hit false line = none)
    (hev : ∀ w ∈ (s.core n).evicts, w.addr ≠ line) (op : Nat) (va : Word) (trans : Option (Nat × Nat)) :
    s.cmoData n k op line va trans = .done s := by
  have idle : ((s.core n).evicts.any fun v => v.addr == line) = false := by
    rw [List.any_eq_false]; intro w hw; simpa using hev w hw
  simp [State.cmoData, hhit, State.adoptEvict, idle]

section
variable {s t : State} {n k key line : Nat} {l : Line} {va : Word} {trans : Option (Nat × Nat)}
  (hhit : (s.core n).hit false line = some (key, l))
include hhit

theorem State.cmoData_clean (hclean : s.cleanLine n k key l va trans = (t, true)) : s.cmoData n k 0 line va trans = .done t := by
  simp [State.cmoData, hhit, hclean]

theorem State.cmoData_invalidate : s.cmoData n k 1 line va trans = .done (s.onCore n fun c => c.dropLine false key) := by
  simp [State.cmoData, hhit]

theorem State.cmoData_cleanInvalidate (hclean : s.cleanLine n k key l va trans = (t, true)) :
    s.cmoData n k 2 line va trans = .done (t.onCore n fun c => c.dropLine false key) := by
  simp [State.cmoData, hhit, hclean]

end

section
variable {b : State} {n k op : Nat} {v : Word} (hop : op < 3)
include hop

/-- The operation and the selection of a sys.cmo. -/
theorem cmo_fields : fld (setFld v 32 2 op) 32 2 = op ∧ bitAt (setFld v 32 2 op) 34 = v.getLsbD 34 ∧
    bitAt (setFld v 32 2 op) 35 = v.getLsbD 35 ∧ fld (setFld v 32 2 op) 0 7 = v.toNat % 128 ∧
    fld (setFld v 32 2 op) 8 2 = v.toNat / 256 % 4 ∧ fld (setFld v 32 2 op) 0 32 = v.toNat % 2 ^ 32 := by
  refine ⟨fld_setFld_same v (by omega) (by omega), bitAt_setFld_other v (by omega) (.inr (by omega)),
    bitAt_setFld_other v (by omega) (.inr (by omega)), ?_, ?_, ?_⟩
  · rw [fld_setFld_below v (by omega) (by omega), fld_eq_div_mod, Nat.pow_zero, Nat.div_one]; rfl
  · rw [fld_setFld_below v (by omega) (by omega), fld_eq_div_mod]; rfl
  · rw [fld_setFld_below v (by omega) (by omega), fld_eq_div_mod, Nat.pow_zero, Nat.div_one]

/-- sys.cmo by set and way. -/
theorem State.cmo_way {ic : Bool} (h35 : v.getLsbD 35 = true) (h34 : v.getLsbD 34 = ic) (hset : ic = true → v.toNat % 128 ≤ 63)
    (hstores : (b.core n).sbuf.any (·.cmoWaits (b.whoIs n k)) = false) (htag : (((b.core n).lines ic).all fun p => !p.2.tagBad) = true) :
    b.cmo n k (setFld v 32 2 op) = match tabFind ((b.core n).lines ic) (v.toNat % 128 * 4 + v.toNat / 256 % 4) with
      | none => .done b
      | some l =>
        if l.filling then .wait .trigger []
        else if ic then .done (if op == 0 then b else b.onCore n fun c => c.dropLine true (v.toNat % 128 * 4 + v.toNat / 256 % 4))
        else b.cmoData n k (if op == 1 then 2 else op) l.addr 0 none := by
  obtain ⟨fop, f34, f35, fset, fway, -⟩ := cmo_fields (v := v) hop
  have legal : (op == 3) = false := by simp; omega
  have small : ¬ (ic && decide (v.toNat % 128 > 63)) = true := by
    simp only [Bool.and_eq_true, decide_eq_true_eq, not_and]; intro h; have := hset h; omega
  simp only [State.cmo, fop, f34, f35, fset, fway, h34, h35, legal, hstores, State.tagScan_sound htag, if_neg small, Bool.false_eq_true,
    if_false, if_true] <;> rfl

theorem State.cmo_wayRaises (h35 : v.getLsbD 35 = true) (h34 : v.getLsbD 34 = true) (hset : 63 < v.toNat % 128) :
    b.cmo n k (setFld v 32 2 op) = .fault none fltIllegal := by
  obtain ⟨fop, f34, f35, fset, -, -⟩ := cmo_fields (v := v) hop
  have legal : (op == 3) = false := by simp; omega
  simp [State.cmo, fop, f34, f35, fset, h34, h35, legal, hset]

/-- sys.cmo by address, on a data-cache line. -/
theorem State.cmo_address {x : Xl} (h35 : v.getLsbD 35 = false) (h34 : v.getLsbD 34 = false) (hkey : (b.case n k).keyDue = false)
    (hstores : (b.core n).sbuf.any (·.cmoWaits (b.whoIs n k)) = false) (htag : ((b.core n).dcache.all fun p => !p.2.tagBad) = true)
    (hfill : (b.core n).filling false (x.pa / 64) = false)
    (hx : b.xlate n (b.case n k) ((b.case n k).bnk.toNat % 2 ^ 16 * 2 ^ 32 + v.toNat % 2 ^ 32) (if op == 0 then .read else .write) true = .ok x) :
    b.cmo n k (setFld v 32 2 op) =
      if x.type == .device then .done (b.touchTlb n x.tag x.ia)
      else (b.touchTlb n x.tag x.ia).cmoData n k op (x.pa / 64)
        (BitVec.ofNat 64 ((b.case n k).bnk.toNat % 2 ^ 16 * 2 ^ 32 + v.toNat % 2 ^ 32)) (some (x.tag, x.ia)) := by
  obtain ⟨fop, f34, f35, -, -, flow⟩ := cmo_fields (v := v) hop
  have legal : (op == 3) = false := by simp; omega
  have va : (b.case n k).short (v.toNat % 2 ^ 32) = (b.case n k).bnk.toNat % 2 ^ 16 * 2 ^ 32 + v.toNat % 2 ^ 32 := by
    simp only [Casement.short, fld_eq_div_mod, Nat.pow_zero, Nat.div_one, Nat.mod_mod]
  have hw := Touched.touchTlb b n x.tag x.ia
  have stores : (((b.touchTlb n x.tag x.ia).core n).sbuf.any fun e => e.cmoWaits (b.whoIs n k) && e.line == x.pa / 64) = false := by
    rw [hw.core (·.sbuf) (by intros; rfl) n, List.any_eq_false]
    intro e he
    have := List.any_eq_false.1 hstores e he
    simp [this]
  have scan := State.tagScan_clean (s := b.touchTlb n x.tag x.ia) (n := n) (by rw [hw.core (·.dcache) (by intros; rfl) n]; exact htag)
  have filling : ((b.touchTlb n x.tag x.ia).core n).filling false (x.pa / 64) = false := by
    rw [hw.core (Core.filling · false (x.pa / 64)) (by intros; rfl) n]; exact hfill
  simp only [State.cmo, fop, f34, f35, flow, h34, h35, legal, hkey, va, State.xlateWord, hx, stores, scan, filling, Bool.false_eq_true, if_false]

end

theorem issueMove_cmo {s s1 : State} {n k op : Nat} {v : Word} (h : s.ready n k = true)
    (hf : (s.arrivals n k).cmo n k (setFld v 32 2 op) = .done s1) :
    (.next (s.issueMove n 0x493 (setFld v 32 2 op)) : Out) = s.issues n k 0x493 (setFld v 32 2 op) s1 :=
  issueMove_done (sock := 0x493) h (by decide) rfl (.inl rfl) ((fire_sys rfl _ _ _ _ _).trans hf)

/-- What a sys.cmo of a calm casement leaves: nothing of it but a store counted, and of memory nothing. -/
theorem issueMove_cmoCounts {s s1 : State} {n k op : Nat} {v : Word} (h : s.ready n k = true) (hcalm : s.calm n k = true)
    (hf : (s.arrivals n k).cmo n k (setFld v 32 2 op) = .done s1) (hs : (s.arrivals n k).countedOnly n k s1) :
    ∃ t, (.next (s.issueMove n 0x493 (setFld v 32 2 op)) : Out) = .next t ∧
      (t.core n).dcache = (s1.core n).dcache ∧ (t.core n).icache = (s1.core n).icache ∧ (t.core n).sbuf = (s1.core n).sbuf ∧
      t.mem = s.mem ∧ (t.case n k).pc = (s.reg n k).pc + 4 ∧ (t.case n k).pend = (s.reg n k).pend := by
  obtain ⟨t, ht, issued⟩ := issueMove_issued (sock := 0x493) h hcalm (by decide) (by decide) rfl rfl ((fire_sys rfl _ _ _ _ _).trans hf)
  obtain ⟨m, hcase⟩ := hs.case
  refine ⟨t, ht, ?_, ?_, ?_, ?_, issued.pc.1, ?_⟩
  · exact issued.core (·.dcache) (by intros; rfl) n
  · exact issued.core (·.icache) (by intros; rfl) n
  · exact issued.core (·.sbuf) (by intros; rfl) n
  · rw [issued.block (·.mem) (by intros; rfl)]; exact hs.mem.trans (by simp)
  · rw [issued.reg (·.pend) (by intros; rfl), hcase]; rfl

theorem State.countedOnly.dropLine {s t : State} {n k : Nat} (h : s.countedOnly n k t) (ic : Bool) (key : Nat) :
    s.countedOnly n k (t.onCore n fun c => c.dropLine ic key) := by
  obtain ⟨m, hcase⟩ := h.case
  exact ⟨h.mem, m, (State.case_onCore_keeps (Core.dropLine_cases · ic key) t n n k).trans hcase⟩

theorem State.countedOnly.refl (s : State) (n k : Nat) : s.countedOnly n k s := ⟨rfl, (s.case n k).stores, rfl⟩

theorem State.countedOnly.of_touched {s u t : State} {n k : Nat} (h : Touched s u) (ht : u.countedOnly n k t) : s.countedOnly n k t := by
  obtain ⟨m, hcase⟩ := ht.case
  exact ⟨ht.mem.trans h.storage.1, m, by rw [hcase, h.case]⟩

theorem State.cleans.dropLine {s t : State} {n k : Nat} {l : Line} (h : s.cleans n k l t) (ic : Bool) (key : Nat) :
    s.cleans n k l (t.onCore n fun c => c.dropLine ic key) := by
  have sbuf : ((t.onCore n fun c => c.dropLine ic key).core n).sbuf = (t.core n).sbuf :=
    State.core_onCore_keeps (·.sbuf) (by intro c; cases ic <;> rfl) t n n
  simpa only [State.cleans, sbuf] using h

theorem State.cleans.of_touched {s u t : State} {n k : Nat} {l : Line} (h : Touched s u) (ht : u.cleans n k l t) : s.cleans n k l t := by
  simpa only [State.cleans, h.core (·.sbuf) (by intros; rfl), h.whoIs] using ht

end Sys2Proof.Machine

open Sys2Proof Sys2Proof.Machine

/-- Settles O21: what each operation of sys.cmo does to the line that its set and way, or its address, selects. -/
theorem cacheMaintenance : Obligations.CacheMaintenance := by
  refine ⟨?_, ?_, ?_⟩
  · intro core v s k h hcalm n b key sock writesBack h35 h34 hstores htag
    have way {op : Nat} (hop : op < 3) := State.cmo_way (b := b) (ic := false) hop h35 h34 (by simp) hstores htag
    refine ⟨fun hnone => ?_, fun l hl hhit hfill hpar room => ⟨fun hd => ?_, fun hd => ?_, ?_⟩⟩
    · have nothing {op : Nat} (hop : op < 3) : b.cmo n k (setFld v 32 2 op) = .done b := by
        rw [way hop, show tabFind ((b.core n).lines false) _ = none from hnone]
      exact ⟨issueMove_cmo h (nothing (by decide)), issueMove_cmo h (nothing (by decide)), issueMove_cmo h (nothing (by decide))⟩
    all_goals
      have here {op : Nat} (hop : op < 3) : b.cmo n k (setFld v 32 2 op) = b.cmoData n k (if op == 1 then 2 else op) l.addr 0 none := by
        rw [way hop, show tabFind ((b.core n).lines false) _ = some l from hl]
        simp [hfill]
      obtain ⟨u, hclean, counted, cleaned, hline, others, same⟩ := State.cleanLine_spec (k := k) hl hpar room 0 none
    · refine issueMove_cmo h ((here (by decide)).trans ((State.cmoData_clean hhit hclean).trans ?_))
      rw [same hd]
    · obtain ⟨t, ht, dc, -, sbuf, mem, -, -⟩ := issueMove_cmoCounts h hcalm
        ((here (op := 0) (by decide)).trans (State.cmoData_clean hhit hclean)) counted
      refine ⟨t, ht, ?_, ?_, mem⟩
      · obtain ⟨e, he, rest⟩ := cleaned.2 hd
        exact ⟨e, sbuf.trans he, rest⟩
      · rw [dc]; exact hline
    · have drops {op : Nat} (hop : op < 3) (h0 : (if op == 1 then 2 else op) = 2) :
          ∃ t : State, (.next (s.issueMove n 0x493 (setFld v 32 2 op)) : Out) = .next t ∧
          tabFind (t.core n).dcache key = none ∧ (∀ j, j ≠ key → tabFind (t.core n).dcache j = tabFind (b.core n).dcache j) ∧
          t.mem = s.mem ∧ (l.dirty = 0 → (t.core n).sbuf = (b.core n).sbuf) ∧ (l.dirty ≠ 0 → writesBack t l) := by
        obtain ⟨t, ht, dc, -, sbuf, mem, -, -⟩ := issueMove_cmoCounts h hcalm
          ((here hop).trans ((congrArg (b.cmoData n k · l.addr 0 none) h0).trans (State.cmoData_cleanInvalidate hhit hclean)))
          (counted.dropLine false key)
        obtain ⟨clean0, clean1⟩ := cleaned.dropLine false key
        refine ⟨t, ht, ?_, fun j hj => ?_, mem, fun hd => sbuf.trans (clean0 hd), fun hd => ?_⟩
        · rw [dc]; exact (State.dropLine_lines u n false key key).trans (if_pos rfl)
        · rw [dc]; exact ((State.dropLine_lines u n false key j).trans (if_neg hj)).trans (others j hj)
        · obtain ⟨e, he, rest⟩ := clean1 hd
          exact ⟨e, sbuf.trans he, rest⟩
      intro i hi
      simp only [List.mem_cons, List.not_mem_nil, or_false] at hi
      rcases hi with rfl | rfl
      · exact drops (op := 1) (by decide) rfl
      · exact drops (op := 2) (by decide) rfl
  · intro core v s k x h hcalm n b va line rows h35 h34 hkey hstores htag hfill
    have hreg : b.case n k = s.reg n k := rfl
    have hw := Touched.touchTlb b n x.tag x.ia
    have dcache := hw.core (·.dcache) (by intros; rfl) n
    have address {op : Nat} (hop : op < 3) (hx : b.xlate n (s.reg n k) va (if op == 0 then .read else .write) true = .ok x) :=
      State.cmo_address (b := b) (n := n) (k := k) hop h35 h34 hkey hstores htag hfill hx
    refine ⟨fun hhit hev i acc hi hx => ?_, ?_⟩
    · have nothing {op : Nat} (hop : op < 3) (hx : b.xlate n (s.reg n k) va (if op == 0 then .read else .write) true = .ok x) :
          ∃ t : State, (.next (s.issueMove n 0x493 (setFld v 32 2 op)) : Out) = .next t ∧ (t.core n).dcache = (b.core n).dcache ∧
            (t.core n).sbuf = (b.core n).sbuf ∧ t.mem = s.mem ∧ (t.case n k).pc = (s.reg n k).pc + 4 ∧
            (t.case n k).pend = (s.reg n k).pend := by
        have done : b.cmo n k (setFld v 32 2 op) = .done (b.touchTlb n x.tag x.ia) := by
          rw [address hop hx, State.cmoData_absent (by rw [hw.core (Core.hit · false (x.pa / 64)) (by intros; rfl) n]; exact hhit)
            (by rw [hw.core (·.evicts) (by intros; rfl) n]; exact hev), ite_self]
        obtain ⟨t, ht, dc, -, sbuf, mem, pc, pend⟩ := issueMove_cmoCounts h hcalm done (.of_touched hw (.refl _ n k))
        exact ⟨t, ht, dc.trans dcache, sbuf.trans (hw.core (·.sbuf) (by intros; rfl) n), mem, pc, pend⟩
      simp only [rows, List.mem_cons, Prod.mk.injEq, List.not_mem_nil, or_false] at hi
      rcases hi with ⟨rfl, rfl⟩ | ⟨rfl, rfl⟩ | ⟨rfl, rfl⟩
      · exact nothing (op := 0) (by decide) hx
      · exact nothing (op := 1) (by decide) hx
      · exact nothing (op := 2) (by decide) hx
    · intro key l hhit hl hpar hdev past writesBack cleaned
      have notdev : (x.type == .device) = false := by simpa using hdev
      have hit : ((b.touchTlb n x.tag x.ia).core n).hit false line = some (key, l) := by
        rw [hw.core (Core.hit · false line) (by intros; rfl) n]; exact hhit
      have addr := (Core.hit_addr hhit).1
      have data {op : Nat} (hop : op < 3) (hx : b.xlate n (s.reg n k) va (if op == 0 then .read else .write) true = .ok x) :
          b.cmo n k (setFld v 32 2 op) = (b.touchTlb n x.tag x.ia).cmoData n k op line (BitVec.ofNat 64 va) (some (x.tag, x.ia)) := by
        rw [address hop hx, notdev]; exact if_neg (by decide)
      have cleanLine (room : (b.core n).sbuf.length < 16) := State.cleanLine_spec (s := b.touchTlb n x.tag x.ia) (k := k)
        (by rw [dcache]; exact hl) hpar (by rw [hw.core (·.sbuf) (by intros; rfl) n]; exact room) (BitVec.ofNat 64 va) (some (x.tag, x.ia))
      have back {u t : State} (hu : b.cleans n k l u) (sbuf : (t.core n).sbuf = (u.core n).sbuf) : cleaned t := by
        refine ⟨fun hd => sbuf.trans (hu.1 hd), fun hd => ?_⟩
        obtain ⟨e, he, hclean, hline, rest⟩ := hu.2 hd
        exact ⟨e, sbuf.trans he, hclean, hline.trans addr, rest⟩
      refine ⟨fun hx room => ?_, fun hx => ?_, fun hx room => ?_⟩
      · obtain ⟨u, hclean, counted, hcleans, hline, others, -⟩ := cleanLine room
        obtain ⟨t, ht, dc, -, sbuf, mem, pc, pend⟩ := issueMove_cmoCounts h hcalm
          ((data (op := 0) (by decide) hx).trans (State.cmoData_clean hit hclean)) (.of_touched hw counted)
        exact ⟨t, ht, ⟨mem, pc, pend, fun j hj => by rw [dc, others j hj, dcache]⟩, back (.of_touched hw hcleans) sbuf, by rw [dc]; exact hline⟩
      · obtain ⟨t, ht, dc, -, sbuf, mem, pc, pend⟩ := issueMove_cmoCounts h hcalm
          ((data (op := 1) (by decide) hx).trans (State.cmoData_invalidate hit)) (.of_touched hw ((State.countedOnly.refl _ n k).dropLine false key))
        refine ⟨t, ht, ⟨mem, pc, pend, fun j hj => ?_⟩, ?_, ?_⟩
        · rw [dc, ← dcache]; exact (State.dropLine_lines _ n false key j).trans (if_neg hj)
        · exact (sbuf.trans (State.core_onCore_keeps (·.sbuf) (by intro; rfl) _ n n)).trans (hw.core (·.sbuf) (by intros; rfl) n)
        · rw [dc]; exact (State.dropLine_lines _ n false key key).trans (if_pos rfl)
      · obtain ⟨u, hclean, counted, hcleans, hline, others, -⟩ := cleanLine room
        obtain ⟨t, ht, dc, -, sbuf, mem, pc, pend⟩ := issueMove_cmoCounts h hcalm
          ((data (op := 2) (by decide) hx).trans (State.cmoData_cleanInvalidate hit hclean)) ((State.countedOnly.of_touched hw counted).dropLine false key)
        refine ⟨t, ht, ⟨mem, pc, pend, fun j hj => ?_⟩, back ((State.cleans.of_touched hw hcleans).dropLine false key) sbuf, ?_⟩
        · rw [dc, ← dcache, ← others j hj]; exact (State.dropLine_lines _ n false key j).trans (if_neg hj)
        · rw [dc]; exact (State.dropLine_lines _ n false key key).trans (if_pos rfl)
  · intro core v s k h hcalm n b set key faults h35 h34
    refine ⟨fun hset => ?_, fun l hset hstores htag hl hfill => ?_⟩
    · have raises {op : Nat} (hop : op < 3) : (.next (s.issueMove n 0x493 (setFld v 32 2 op)) : Out) = faults :=
        issueMove_fault (f := fltIllegal) h (by decide) rfl (.inl rfl) ((fire_sys rfl _ _ _ _ _).trans (State.cmo_wayRaises hop h35 h34 hset))
      exact ⟨raises (by decide), raises (by decide), raises (by decide)⟩
    · have way {op : Nat} (hop : op < 3) : b.cmo n k (setFld v 32 2 op) =
          .done (if op == 0 then b else b.onCore n fun c => c.dropLine true key) := by
        rw [State.cmo_way (b := b) (ic := true) hop h35 h34 (fun _ => hset) hstores htag,
          show tabFind ((b.core n).lines true) _ = some l from hl]
        simp [hfill, key, set]
      have drops {op : Nat} (hop : op < 3) (h0 : (op == 0) = false) :
          ∃ t : State, (.next (s.issueMove n 0x493 (setFld v 32 2 op)) : Out) = .next t ∧
          tabFind (t.core n).icache key = none ∧ (∀ j, j ≠ key → tabFind (t.core n).icache j = tabFind (b.core n).icache j) ∧
          (t.core n).dcache = (b.core n).dcache ∧ t.mem = s.mem := by
        obtain ⟨t, ht, dc, ic, -, mem, -, -⟩ := issueMove_cmoCounts h hcalm ((way hop).trans (by rw [h0, if_neg (by decide)]))
          ((State.countedOnly.refl b n k).dropLine true key)
        refine ⟨t, ht, ?_, fun j hj => ?_, ?_, mem⟩
        · rw [ic]; exact (State.dropLine_lines b n true key key).trans (if_pos rfl)
        · rw [ic]; exact (State.dropLine_lines b n true key j).trans (if_neg hj)
        · exact dc.trans (State.core_onCore_keeps (·.dcache) (by intro; rfl) b n n)
      refine ⟨issueMove_cmo h (way (by decide)), fun i hi => ?_⟩
      simp only [List.mem_cons, List.not_mem_nil, or_false] at hi
      rcases hi with rfl | rfl
      · exact drops (op := 1) (by decide) rfl
      · exact drops (op := 2) (by decide) rfl

end

section
/-! PROOF. Extents and system registers. -/

set_option Elab.async false

namespace Sys2Proof.Machine

/-! ### Pending writes of extents and S2CTL (R77, R207) -/

/-- The last value that a list of writes has for a selection. -/
def lastWrite (l : List (Nat × Word)) (sel : Nat) : Option Word := (l.filter (·.1 == sel)).getLast?.map (·.2)

theorem lastWrite_append (l : List (Nat × Word)) (w : Nat × Word) (sel : Nat) :
    lastWrite (l ++ [w]) sel = if w.1 = sel then some w.2 else lastWrite l sel := by
  by_cases h : w.1 = sel <;> simp [lastWrite, h]

theorem Casement.field_applyWrite (c : Casement) (w : Nat × Word) {e f : Nat} (he : e < 16) (hf : f < 4) :
    ((c.applyWrite w).ext e).field f = if w.1 = 4 * e + f then w.2 else (c.ext e).field f := by
  unfold Casement.applyWrite
  by_cases hs : w.1 = 0x103
  · rw [if_pos (by simpa using hs), if_neg (by omega)]; rfl
  · rw [if_neg (by simpa using hs)]
    simp only [Casement.ext, tabGet_tabSet]
    have field (x : Extent) : (x.setField (w.1 % 4) w.2).field f = if f = w.1 % 4 then w.2 else x.field f := by
      have : w.1 % 4 < 4 := Nat.mod_lt _ (by decide)
      generalize w.1 % 4 = g at *
      interval_cases g <;> interval_cases f <;> rfl
    by_cases hx : e = w.1 / 4
    · rw [if_pos hx, field, ← hx]
      exact if_congr (by omega) rfl rfl
    · rw [if_neg hx, if_neg (by omega)]

theorem Casement.s2ctl_applyWrite (c : Casement) (w : Nat × Word) :
    (c.applyWrite w).s2ctl = if w.1 = 0x103 then w.2 else c.s2ctl := by
  unfold Casement.applyWrite
  by_cases hs : w.1 = 0x103 <;> simp [hs]

/-- The pending writes change only extents and S2CTL. -/
theorem Casement.applyWrites_keeps {α : Type} (g : Casement → α) (hg : ∀ c y z, g { c with s2ctl := y, x := z } = g c)
    (l : List (Nat × Word)) (c : Casement) : g (l.foldl Casement.applyWrite c) = g c := by
  induction l generalizing c with
  | nil => rfl
  | cons w l ih =>
    rw [List.foldl_cons, ih]
    unfold Casement.applyWrite
    split
    · exact hg c w.2 c.x
    · exact hg c c.s2ctl _

theorem Casement.serialise_keeps {α : Type} (g : Casement → α)
    (hg : ∀ c y z w d, g { c with s2ctl := y, x := z, xpend := w, dirty := d } = g c) (c : Casement) : g c.serialise = g c := by
  rw [← Casement.applyWrites_keeps g (fun c y z => hg c y z c.xpend c.dirty) c.xpend c, Casement.serialise]
  generalize c.xpend.foldl Casement.applyWrite c = c'
  exact hg c' c'.s2ctl c'.x [] _

theorem Casement.applyWrites_spec (c : Casement) (l : List (Nat × Word)) {e f : Nat} (he : e < 16) (hf : f < 4) :
    ((l.foldl Casement.applyWrite c).ext e).field f = (lastWrite l (4 * e + f)).getD ((c.ext e).field f) ∧
    (l.foldl Casement.applyWrite c).s2ctl = (lastWrite l 0x103).getD c.s2ctl := by
  induction l using List.reverseRecOn with
  | nil => exact ⟨rfl, rfl⟩
  | append_singleton l w ih =>
    obtain ⟨field, s2ctl⟩ := ih
    simp only [List.foldl_append, List.foldl_cons, List.foldl_nil, Casement.field_applyWrite _ _ he hf, Casement.s2ctl_applyWrite,
      lastWrite_append, field, s2ctl]
    constructor <;> split <;> rfl

/-! ### sys.xwr and sys.xrd (R202) -/

/-- What sys.xwr does to the casement. -/
def State.putsReg (b : State) (n k : Nat) (f : Casement → Casement) : Trig := .done (b.onCase n k fun x => (f x).touch 0)

theorem fld_16 (w : Word) : fld w 0 16 = w.toNat % 2 ^ 16 := by rw [fld_eq_div_mod, Nat.pow_zero, Nat.div_one]

section
variable {b : State} {n k sel : Nat} {c : Casement} {v : Word} (hc : b.case n k = c) (hsel : (c.opnd_ 0x483).toNat % 2 ^ 16 = sel)
include hc hsel

theorem State.xwr_extent (hlt : sel < 64) (hcall : sel < 60 ∨ c.call = none) :
    b.xwr n k v = b.putsReg n k fun x => { x with xpend := x.xpend ++ [(sel, v &&& BitVec.ofNat 64 (extMask (sel % 4)))] } := by
  have open_ : ¬ (sel / 4 == 15 && c.call.isSome) = true := by
    rcases hcall with h | h
    · have : sel / 4 ≠ 15 := by omega
      simp [this]
    · simp [h]
  simp only [State.xwr, hc, fld_16, hsel, if_pos hlt, if_neg open_]
  rfl

theorem State.xwr_lent (hlt : sel < 64) (h60 : 60 ≤ sel) (hcall : c.call ≠ none) : b.xwr n k v = .fault none fltIllegal := by
  have shut : (sel / 4 == 15 && c.call.isSome) = true := by
    have : sel / 4 = 15 := by omega
    simp [this, Option.isSome_iff_ne_none, hcall]
  simp only [State.xwr, hc, fld_16, hsel, if_pos hlt, if_pos shut]

theorem State.xrd_extent (hlt : sel < 64) :
    b.xrd n k = b.result n k .sysRes 2 ((lastWrite c.xpend sel).getD ((c.ext (sel / 4)).field (sel % 4))) := by
  simp only [State.xrd, hc, fld_16, hsel, if_pos hlt]
  rfl

theorem State.xwr_reserved (hres : (64 ≤ sel ∧ sel < 0x100) ∨ 0x106 < sel) : b.xwr n k v = .fault none fltIllegal := by
  have hge : ¬ sel < 64 := by omega
  simp only [State.xwr, hc, fld_16, hsel, if_neg hge]
  split <;> first | rfl | omega

theorem State.xrd_reserved (hres : (64 ≤ sel ∧ sel < 0x100) ∨ 0x106 < sel) : b.xrd n k = .fault none fltIllegal := by
  have hge : ¬ sel < 64 := by omega
  simp only [State.xrd, hc, fld_16, hsel, if_neg hge]
  split <;> first | rfl | omega

end

section
variable {b : State} {n k : Nat} {c : Casement} (v : Word) (hc : b.case n k = c)
include hc

theorem State.xwr_fpcRounding (hsel : fld (c.opnd_ 0x483) 0 16 = 0x100) (hv : 5 ≤ v.toNat % 8) : b.xwr n k v = .fault none fltIllegal := by
  have rm : fld v 0 3 = v.toNat % 8 := by rw [fld_eq_div_mod, Nat.pow_zero, Nat.div_one]; rfl
  simp [State.xwr, hc, hsel, rm, hv]

theorem State.xwr_fpc (hsel : fld (c.opnd_ 0x483) 0 16 = 0x100) (hv : v.toNat % 8 < 5) :
    b.xwr n k v = b.putsReg n k fun x => { x with fpc := v &&& 0x1F07 } := by
  have rm : fld v 0 3 = v.toNat % 8 := by rw [fld_eq_div_mod, Nat.pow_zero, Nat.div_one]; rfl
  simp [State.xwr, State.putsReg, hc, hsel, rm, show ¬ 5 ≤ v.toNat % 8 by omega]

theorem State.xwr_rdc (hsel : fld (c.opnd_ 0x483) 0 16 = 0x101) : b.xwr n k v =
    if b.rel10 then .fault none fltIllegal else b.putsReg n k fun x => { x with rdc := v &&& 1 } := by
  simp [State.xwr, State.putsReg, hc, hsel]

theorem State.xwr_aslOrder (hsel : fld (c.opnd_ 0x483) 0 16 = 0x102) (h0 : v.toNat / 2 ^ 16 % 2 ^ 16 ≠ 0)
    (hv : v.toNat / 2 ^ 16 % 2 ^ 16 ≤ v.toNat % 2 ^ 16) : b.xwr n k v = .fault none fltIllegal := by
  have size : fld v 16 16 = v.toNat / 2 ^ 16 % 2 ^ 16 := fld_eq_div_mod ..
  have bad : (v.toNat / 2 ^ 16 % 2 ^ 16 != 0 && decide (v.toNat % 2 ^ 16 ≥ v.toNat / 2 ^ 16 % 2 ^ 16)) = true := by
    simp only [Bool.and_eq_true, bne_iff_ne, decide_eq_true_eq]; exact ⟨h0, hv⟩
  simp only [State.xwr, hc, hsel, fld_16 v, size, if_pos bad]
  rfl

theorem State.xwr_asl (hsel : fld (c.opnd_ 0x483) 0 16 = 0x102)
    (hv : v.toNat / 2 ^ 16 % 2 ^ 16 = 0 ∨ v.toNat % 2 ^ 16 < v.toNat / 2 ^ 16 % 2 ^ 16) :
    b.xwr n k v = b.putsReg n k fun x => { x with asl := v &&& 0xFFFFFFFF } := by
  have size : fld v 16 16 = v.toNat / 2 ^ 16 % 2 ^ 16 := fld_eq_div_mod ..
  have ok : ¬ (v.toNat / 2 ^ 16 % 2 ^ 16 != 0 && decide (v.toNat % 2 ^ 16 ≥ v.toNat / 2 ^ 16 % 2 ^ 16)) = true := by
    simp only [Bool.and_eq_true, bne_iff_ne, decide_eq_true_eq, not_and]; omega
  simp only [State.xwr, hc, hsel, fld_16 v, size, if_neg ok]
  rfl

/-- R208: S2CTL with EN needs a translation key of the job that covers the root table. -/
theorem State.xwr_s2ctl (hsel : fld (c.opnd_ 0x483) 0 16 = 0x103) : b.xwr n k v =
    if v.getLsbD 52 && c.kBad.getLsbD (v.toNat / 2 ^ 56 % 16) then .fault none fltParity
    else if s2Allowed c (b.jobOf n (b.whoIs n k)) v then
      b.putsReg n k fun x => { x with xpend := x.xpend ++ [(0x103, v &&& 0x0F1FFFFFFFFFFFFF)] }
    else .fault none fltKey := by
  have num : fld v 56 4 = v.toNat / 2 ^ 56 % 16 := fld_eq_div_mod ..
  simp [State.xwr, State.putsReg, hc, hsel, num, bitAt, s2Mask]

theorem State.xwr_tfs (hsel : fld (c.opnd_ 0x483) 0 16 = 0x104) :
    b.xwr n k v = b.putsReg n k fun x => { x with tfs := v &&& 0x1FFFFF } := by
  simp [State.xwr, State.putsReg, hc, hsel]

theorem State.xwr_tfva (hsel : fld (c.opnd_ 0x483) 0 16 = 0x105) :
    b.xwr n k v = b.putsReg n k fun x => { x with tfva := v &&& 0xFFFFFFFFFFFF } := by
  simp [State.xwr, State.putsReg, hc, hsel]

theorem State.xwr_tfia (hsel : fld (c.opnd_ 0x483) 0 16 = 0x106) :
    b.xwr n k v = b.putsReg n k fun x => { x with tfia := v &&& 0xFFFFFFFFFFFF } := by
  simp [State.xwr, State.putsReg, hc, hsel]

theorem State.xrd_fpc (hsel : fld (c.opnd_ 0x483) 0 16 = 0x100) :
    b.xrd n k = if b.reportsOwed n k then .wait .read [] else b.result n k .sysRes 2 c.fpc := by
  simp [State.xrd, hc, hsel]

theorem State.xrd_rdc (hsel : fld (c.opnd_ 0x483) 0 16 = 0x101) :
    b.xrd n k = if b.rel10 then .fault none fltIllegal else b.result n k .sysRes 2 c.rdc := by
  simp [State.xrd, hc, hsel]

theorem State.xrd_asl (hsel : fld (c.opnd_ 0x483) 0 16 = 0x102) : b.xrd n k = b.result n k .sysRes 2 c.asl := by
  simp [State.xrd, hc, hsel]

theorem State.xrd_s2ctl (hsel : fld (c.opnd_ 0x483) 0 16 = 0x103) :
    b.xrd n k = b.result n k .sysRes 2 ((lastWrite c.xpend 0x103).getD c.s2ctl) := by
  simp [State.xrd, hc, hsel, Casement.pendingOf, lastWrite]

theorem State.xrd_tfs (hsel : fld (c.opnd_ 0x483) 0 16 = 0x104) : b.xrd n k = b.result n k .sysRes 2 c.tfs := by
  simp [State.xrd, hc, hsel]

theorem State.xrd_tfva (hsel : fld (c.opnd_ 0x483) 0 16 = 0x105) : b.xrd n k = b.result n k .sysRes 2 c.tfva := by
  simp [State.xrd, hc, hsel]

theorem State.xrd_tfia (hsel : fld (c.opnd_ 0x483) 0 16 = 0x106) : b.xrd n k = b.result n k .sysRes 2 c.tfia := by
  simp [State.xrd, hc, hsel]

end

section
variable {s : State} {n k : Nat} {v : Word} (h : s.ready n k = true)
include h

theorem issueMove_xwr {f : Casement → Casement} (hf : (s.arrivals n k).xwr n k v = (s.arrivals n k).putsReg n k f) :
    (.next (s.issueMove n 0x498 v) : Out) = s.changes n k 0x498 v fun x => (f x).touch 0 :=
  issueMove_done (sock := 0x498) h (by decide) rfl (.inl rfl) ((fire_sys rfl _ _ _ _ _).trans hf)

theorem issueMove_xwrFault {f : Flt} (hcls : (f.cls == clsASYNC) = false) (hf : (s.arrivals n k).xwr n k v = .fault none f) :
    (.next (s.issueMove n 0x498 v) : Out) = .next ((s.arrivals n k).raise n k f false) := by
  rw [← hcls]
  exact issueMove_fault (sock := 0x498) h (by decide) rfl (.inl rfl) ((fire_sys rfl _ _ _ _ _).trans hf)

theorem issueMove_xrd {w : Word} (hf : (s.arrivals n k).xrd n k = (s.arrivals n k).result n k .sysRes 2 w) :
    (.next (s.issueMove n 0x499 v) : Out) = s.changes n k 0x499 v fun x => x.addPend .sysRes 2 w :=
  issueMove_done (sock := 0x499) h (by decide) rfl (.inl rfl) ((fire_sys rfl _ _ _ _ _).trans hf)

theorem issueMove_xrdFault (hf : (s.arrivals n k).xrd n k = .fault none fltIllegal) :
    (.next (s.issueMove n 0x499 v) : Out) = .next ((s.arrivals n k).raise n k fltIllegal false) :=
  issueMove_fault (sock := 0x499) h (by decide) rfl (.inl rfl) ((fire_sys rfl _ _ _ _ _).trans hf)

end

end Sys2Proof.Machine

open Sys2Proof Sys2Proof.Machine

/-- Settles O22: the last pending write of each field wins, and each selection has its own write, read and faults. -/
theorem extentRegisters : Obligations.ExtentRegisters := by
  refine ⟨⟨?_, ?_⟩, ?_⟩
  · intro core v s k h
    exact issueMove_done (sock := 0x490) h (by decide) rfl (.inl rfl) (fire_sys rfl _ _ _ _ _)
  · intro c e f he hf
    obtain ⟨field, s2ctl⟩ := Casement.applyWrites_spec c c.xpend he hf
    have keeps {α : Type} (g : Casement → α) (hg : ∀ c y z w d, g { c with s2ctl := y, x := z, xpend := w, dirty := d } = g c) :
        g c.serialise = g c := Casement.serialise_keeps g hg c
    exact ⟨rfl, field, s2ctl, keeps (·.pc) (by intros; rfl), keeps (·.d) (by intros; rfl), keeps (·.k) (by intros; rfl),
      keeps (·.pend) (by intros; rfl), keeps (·.fpc) (by intros; rfl)⟩
  · intro core v s k h n b c sel puts gives faults held
    have hc : b.case n k = c := rfl
    have keyNum : fld v 56 4 = v.toNat / 2 ^ 56 % 16 := fld_eq_div_mod ..
    have root : fld v 16 36 = v.toNat / 2 ^ 16 % 2 ^ 36 := fld_eq_div_mod ..
    have rel : b.rel10 = s.rel10 := State.tlbiSweep_keeps (·.rel10) (fun _ _ _ => rfl) s n
    have at_ {j : Nat} (hj : sel = j) : fld (c.opnd_ 0x483) 0 16 = j := (fld_16 _).trans hj
    refine ⟨fun hlt hf hcall => ?_, fun hlt hf hcall => ?_, fun hge hlt hcall => ?_, fun hs hv => ?_, fun hs hv => ?_, fun hs hr => ?_,
      fun hs hr => ⟨?_, ?_⟩, fun hs h0 hv => ?_, fun hs hv => ?_, fun hs hv => ?_, fun hs hv hk => ?_, fun hs hv hk => ?_, fun hs => ?_,
      fun hs => ?_, fun hs => ?_, fun hr => ⟨?_, ?_⟩, fun hlt => ?_, fun hs hr => ?_, fun hs hr => ?_, fun hs hr => ?_, fun hs => ?_,
      fun hs => ?_, fun hs => ?_, fun hs => ?_, fun hs => ?_⟩
    · refine issueMove_xwr h ((State.xwr_extent hc rfl hlt hcall).trans ?_)
      have : extMask (sel % 4) = 0xFFFFFFFF0000 := if_neg (by simp; omega)
      rw [this]; rfl
    · refine issueMove_xwr h ((State.xwr_extent hc rfl hlt hcall).trans ?_)
      have : extMask (sel % 4) = 0xF3F := if_pos (by simpa using hf)
      rw [this]; rfl
    · exact issueMove_xwrFault h rfl (State.xwr_lent hc rfl hlt hge hcall)
    · exact issueMove_xwrFault h rfl (State.xwr_fpcRounding v hc (at_ hs) hv)
    · exact issueMove_xwr h (State.xwr_fpc v hc (at_ hs) hv)
    · exact issueMove_xwr h ((State.xwr_rdc v hc (at_ hs)).trans (if_neg (by simp [rel, hr])))
    · exact issueMove_xwrFault h rfl ((State.xwr_rdc v hc (at_ hs)).trans (if_pos (rel.trans hr)))
    · exact issueMove_xrdFault h ((State.xrd_rdc hc (at_ hs)).trans (if_pos (rel.trans hr)))
    · exact issueMove_xwrFault h rfl (State.xwr_aslOrder v hc (at_ hs) h0 hv)
    · exact issueMove_xwr h (State.xwr_asl v hc (at_ hs) hv)
    · refine issueMove_xwr h ((State.xwr_s2ctl v hc (at_ hs)).trans ?_)
      rw [hv, Bool.false_and, if_neg Bool.false_ne_true, if_pos (by rw [s2Allowed, bitAt, hv]; rfl)]
    · exact issueMove_xwrFault h rfl ((State.xwr_s2ctl v hc (at_ hs)).trans (if_pos (by rw [hv, hk]; rfl)))
    · have sound : ¬ (v.getLsbD 52 && c.kBad.getLsbD (v.toNat / 2 ^ 56 % 16)) = true := by rw [hv, hk]; exact Bool.false_ne_true
      have allowed : s2Allowed c (b.jobOf n (b.whoIs n k)) v =
          (keyType (c.key (v.toNat / 2 ^ 56 % 16)) == 2 && keyJob (c.key (v.toNat / 2 ^ 56 % 16)) == (b.jobOf n (b.whoIs n k)).toNat &&
            keyCovers (c.key (v.toNat / 2 ^ 56 % 16)) (v.toNat / 2 ^ 16 % 2 ^ 36 * 65536) 65536) := by
        rw [s2Allowed, bitAt, hv, keyNum, root]; rfl
      refine ⟨fun ht => ?_, fun ht hj hb hl => ?_⟩
      · refine issueMove_xwrFault (f := fltKey) h rfl ((State.xwr_s2ctl v hc (at_ hs)).trans ?_)
        rw [if_neg sound, allowed, beq_false_of_ne ht]; rfl
      · refine issueMove_xwr h ((State.xwr_s2ctl v hc (at_ hs)).trans ?_)
        have covers : keyCovers (c.key (v.toNat / 2 ^ 56 % 16)) (v.toNat / 2 ^ 16 % 2 ^ 36 * 65536) 65536 = true := by
          rw [keyCovers, ht, decide_eq_true hb, decide_eq_true hl]; rfl
        rw [if_neg sound, allowed, ht, hj, covers, beq_self_eq_true, beq_self_eq_true]; rfl
    · exact issueMove_xwr h (State.xwr_tfs v hc (at_ hs))
    · exact issueMove_xwr h (State.xwr_tfva v hc (at_ hs))
    · exact issueMove_xwr h (State.xwr_tfia v hc (at_ hs))
    · exact issueMove_xwrFault h rfl (State.xwr_reserved hc rfl hr)
    · exact issueMove_xrdFault h (State.xrd_reserved hc rfl hr)
    · exact issueMove_xrd h (State.xrd_extent hc rfl hlt)
    · exact issueMove_xrd h ((State.xrd_fpc hc (at_ hs)).trans (if_neg (by simp [hr])))
    · exact issueMove_wait (sock := 0x499) h (by decide) rfl (.inl rfl)
        ((fire_sys rfl _ _ _ _ _).trans ((State.xrd_fpc hc (at_ hs)).trans (if_pos hr)))
    · exact issueMove_xrd h ((State.xrd_rdc hc (at_ hs)).trans (if_neg (by simp [rel, hr])))
    · exact issueMove_xrd h (State.xrd_asl hc (at_ hs))
    · exact issueMove_xrd h (State.xrd_s2ctl hc (at_ hs))
    · exact issueMove_xrd h (State.xrd_tfs hc (at_ hs))
    · exact issueMove_xrd h (State.xrd_tfva hc (at_ hs))
    · exact issueMove_xrd h (State.xrd_tfia hc (at_ hs))

end

section
/-! PROOF. TLB invalidation commands. -/

set_option Elab.async false

namespace Sys2Proof.Machine

/-! ### TLB invalidation (R215–R217) -/

theorem fld_setFld_above (w : Word) {lo n x l m : Nat} (h : lo + n ≤ l) (h64 : l + m ≤ 64) : fld (setFld w lo n x) l m = fld w l m := by
  apply Nat.eq_of_testBit_eq
  intro i
  rw [fld, fld, testBit_bitsOf, testBit_bitsOf]
  by_cases hi : i < m
  · rw [show (setFld w lo n x).toNat.testBit (l + i) = (setFld w lo n x).getLsbD (l + i) from rfl,
      getLsbD_setFld _ _ _ _ (by omega), if_neg (by omega)]
    rfl
  · simp [hi]

/-- The widest scope of a list of commands: at least each of them, and one of them. -/
theorem widest_spec (l : List Tlbi) (a : Nat) :
    a ≤ l.foldl (fun a x => max a x.scope) a ∧ (∀ q ∈ l, q.scope ≤ l.foldl (fun a x => max a x.scope) a) ∧
      (l.foldl (fun a x => max a x.scope) a = a ∨ ∃ q ∈ l, q.scope = l.foldl (fun a x => max a x.scope) a) := by
  induction l generalizing a with
  | nil => simp
  | cons e t ih =>
    obtain ⟨above, all, one⟩ := ih (max a e.scope)
    rw [List.foldl_cons]
    refine ⟨by omega, fun q hq => ?_, ?_⟩
    · rcases List.mem_cons.1 hq with rfl | hq
      · omega
      · exact all q hq
    · rcases one with h | ⟨q, hq, h⟩
      · rcases Nat.le_total a e.scope with hle | hle
        · exact .inr ⟨e, .head _, by rw [h]; omega⟩
        · exact .inl (by rw [h]; omega)
      · exact .inr ⟨q, .tail _ hq, h⟩

/-- The kind, scope, tag and address of a command (Table 09-9). -/
theorem tlbi_fields (v : Word) {kind : Nat} (hk : kind < 3) : fld (setFld v 0 2 kind) 0 2 = kind ∧
    fld (setFld v 0 2 kind) 2 2 = v.toNat / 4 % 4 ∧ fld (setFld v 0 2 kind) 48 16 = v.toNat / 2 ^ 48 ∧
    fld (setFld v 0 2 kind) 16 32 = v.toNat / 2 ^ 16 % 2 ^ 32 := by
  refine ⟨fld_setFld_same v (by omega) (by omega), ?_, ?_, ?_⟩
  · rw [fld_setFld_above v (by omega) (by omega), fld_eq_div_mod]; rfl
  · have := v.isLt
    rw [fld_setFld_above v (by omega) (by omega), fld_eq_div_mod, Nat.mod_eq_of_lt (by omega)]
  · rw [fld_setFld_above v (by omega) (by omega), fld_eq_div_mod]

section
variable {b : State} {n k kind : Nat} {v : Word} (hk : kind < 3)
include hk

theorem State.tlbi_reserved (hs : v.toNat / 4 % 4 = 3) : b.tlbi n k (setFld v 0 2 kind) = .fault none fltIllegal := by
  obtain ⟨-, scope, -, -⟩ := tlbi_fields v hk
  exact if_pos (by rw [scope, hs]; simp)

theorem State.tlbi_queues (hs : v.toNat / 4 % 4 < 3) :
    b.tlbi n k (setFld v 0 2 kind) = .done (b.queueTlbi n (b.whoIs n k) (setFld v 0 2 kind)) := by
  obtain ⟨kd, scope, -, -⟩ := tlbi_fields v hk
  refine if_neg ?_
  rw [kd, scope]
  simp only [Bool.or_eq_true, beq_iff_eq]
  omega

theorem State.queueTlbi_room (hroom : (b.core n).tlbiQ.length < 8) (who : Option Nat) :
    ∃ e : Tlbi, ((b.queueTlbi n who (setFld v 0 2 kind)).core n).tlbiQ = (b.core n).tlbiQ ++ [e] ∧ e.kind = kind ∧
      e.scope = v.toNat / 4 % 4 ∧ e.tag = v.toNat / 2 ^ 48 ∧ e.ia = v.toNat / 2 ^ 16 % 2 ^ 32 * 65536 ∧ e.owners = [who] ∧
      (b.queueTlbi n who (setFld v 0 2 kind)).mem = b.mem ∧ (b.queueTlbi n who (setFld v 0 2 kind)).case n k = b.case n k := by
  obtain ⟨kd, scope, tag, ia⟩ := tlbi_fields v hk
  simp only [State.queueTlbi, if_pos hroom, kd, scope, tag, ia]
  refine ⟨_, congrArg Core.tlbiQ ((core_setCore ..).trans (if_pos rfl)), rfl, rfl, rfl, rfl, rfl, rfl, ?_⟩
  exact State.case_onCore_keeps (f := fun c => { c with tlbiNum := c.tlbiNum + 1, tlbiQ := c.tlbiQ ++ [_] }) (by intro; rfl) b n n k

theorem State.queueTlbi_full (hfull : (b.core n).tlbiQ.length = 8) (who : Option Nat) :
    ∃ e : Tlbi, ((b.queueTlbi n who (setFld v 0 2 kind)).core n).tlbiQ = [e] ∧ e.kind = 2 ∧ v.toNat / 4 % 4 ≤ e.scope ∧
      (∀ q ∈ (b.core n).tlbiQ, q.scope ≤ e.scope ∧ q.num ∈ e.absorbed) ∧
      (e.scope = v.toNat / 4 % 4 ∨ ∃ q ∈ (b.core n).tlbiQ, q.scope = e.scope) := by
  obtain ⟨-, scope, -, -⟩ := tlbi_fields v hk
  simp only [State.queueTlbi, if_neg (show ¬ (b.core n).tlbiQ.length < 8 by omega)]
  refine ⟨_, (State.core_onCore_keeps (·.tlbiQ) (by intro; rfl) _ n n).trans (congrArg Core.tlbiQ ((core_setCore ..).trans (if_pos rfl))), rfl, ?_⟩
  simp only [scope]
  generalize he : Tlbi.mk _ _ _ _ _ _ _ = e
  have hscope : e.scope = v.toNat / 4 % 4 := by rw [← he]
  obtain ⟨-, all, one⟩ := widest_spec ((b.core n).tlbiQ ++ [e]) 0
  have last := all e (by simp)
  refine ⟨by omega, fun q hq => ⟨all q (by simp [hq]), List.mem_append_left _ (List.mem_map.2 ⟨q, by simp [hq], rfl⟩)⟩, ?_⟩
  rcases one with h | ⟨q, hq, h⟩
  · exact .inl (by omega)
  · rcases List.mem_append.1 hq with hq | hq
    · exact .inr ⟨q, hq, h⟩
    · rw [List.mem_singleton.1 hq] at h
      exact .inl (by omega)

end

/-- A word whose trigger only adds a pending result. -/
theorem Issued.pend {s t : State} {n k : Nat} {p : Pending}
    (h : Issued s ((s.arrivals n k).onCase n k fun c => c.addPending p) n k t) :
    (t.case n k).pend = (s.reg n k).pend ++ [{ p with due := (s.reg n k).icount + p.due }] ∧ t.mem = s.mem := by
  have put : ((s.arrivals n k).onCase n k fun c => c.addPending p).case n k = (s.reg n k).addPending p := by
    rw [case_onCase, if_pos ⟨rfl, rfl⟩]; rfl
  refine ⟨?_, ?_⟩
  · rw [h.reg (·.pend) (by intros; rfl), put, pend_addPending]
  · rw [h.block (·.mem) (by intros; rfl)]; simp

end Sys2Proof.Machine

open Sys2Proof Sys2Proof.Machine

/-- Settles O23, by the scope of the command and by the room in the queue; the barrier waits for what is outstanding. -/
theorem tlbiRows : Obligations.TlbiRows := by
  intro core v s k h hcalm n b who scope
  refine ⟨fun i kind hi => ?_, ?_⟩
  · have rows {kind : Nat} (hk : kind < 3) :
        (scope < 3 → (b.core n).tlbiQ.length < 8 → ∃ (t : State) (e : Tlbi), (.next (s.issueMove n 0x491 (setFld v 0 2 kind)) : Out) = .next t ∧
          (t.core n).tlbiQ = (b.core n).tlbiQ ++ [e] ∧
          e.kind = kind ∧ e.scope = scope ∧ e.tag = v.toNat / 2 ^ 48 ∧ e.ia = v.toNat / 2 ^ 16 % 2 ^ 32 * 65536 ∧
          e.owners = [who] ∧ t.mem = s.mem ∧ (t.case n k).pend = (s.reg n k).pend ∧ (t.case n k).pc = (s.reg n k).pc + 4) ∧
        (scope < 3 → (b.core n).tlbiQ.length = 8 → ∃ (t : State) (e : Tlbi), (.next (s.issueMove n 0x491 (setFld v 0 2 kind)) : Out) = .next t ∧
          (t.core n).tlbiQ = [e] ∧ e.kind = 2 ∧
          scope ≤ e.scope ∧ (∀ q ∈ (b.core n).tlbiQ, q.scope ≤ e.scope ∧ q.num ∈ e.absorbed) ∧
          (e.scope = scope ∨ ∃ q ∈ (b.core n).tlbiQ, q.scope = e.scope)) ∧
        (scope = 3 → (.next (s.issueMove n 0x491 (setFld v 0 2 kind)) : Out) = .next (b.raise n k { cls := clsILLEGAL } false)) := by
      have issues (hs : scope < 3) := issueMove_issued (sock := 0x491) h hcalm (by decide) (by decide) rfl rfl
        ((fire_sys rfl _ _ _ _ _).trans (State.tlbi_queues (b := b) (n := n) (k := k) hk hs))
      refine ⟨fun hs hroom => ?_, fun hs hfull => ?_, fun hs => ?_⟩
      · obtain ⟨e, he, hkind, hscope, htag, hia, howners, hmem, hcase⟩ := State.queueTlbi_room (k := k) (v := v) hk hroom who
        obtain ⟨t, ht, issued⟩ := issues hs
        refine ⟨t, e, ht, ?_, hkind, hscope, htag, hia, howners, ?_, ?_, issued.pc.1⟩
        · rw [issued.core (·.tlbiQ) (by intros; rfl)]; exact he
        · rw [issued.block (·.mem) (by intros; rfl)]; exact hmem.trans (State.arrivals_mem s n k)
        · rw [issued.reg (·.pend) (by intros; rfl)]; exact congrArg Casement.pend hcase
      · obtain ⟨e, he, rest⟩ := State.queueTlbi_full (v := v) hk hfull who
        obtain ⟨t, ht, issued⟩ := issues hs
        exact ⟨t, e, ht, by rw [issued.core (·.tlbiQ) (by intros; rfl)]; exact he, rest⟩
      · exact issueMove_fault (sock := 0x491) (f := fltIllegal) h (by decide) rfl (.inl rfl)
          ((fire_sys rfl _ _ _ _ _).trans (State.tlbi_reserved hk hs))
    simp only [List.mem_cons, Prod.mk.injEq, List.not_mem_nil, or_false] at hi
    rcases hi with ⟨rfl, rfl⟩ | ⟨rfl, rfl⟩ | ⟨rfl, rfl⟩
    · exact rows (kind := 0) (by decide)
    · exact rows (kind := 1) (by decide)
    · exact rows (kind := 2) (by decide)
  · obtain ⟨t, ht, issued⟩ := issueMove_issued (sock := 0x492) (v := v) h hcalm (by decide) (by decide) rfl rfl
      (fire_sys rfl _ _ _ _ _)
    obtain ⟨pend, mem⟩ := issued.pend
    refine ⟨t, _, ht, pend, rfl, rfl, rfl, ?_, issued.pc.1, mem⟩
    show (if ((b.core n).outstanding who).isEmpty then Await.ready else .barrier ((b.core n).outstanding who)) = .ready ↔ _
    cases (b.core n).outstanding who <;> simp

end

section
/-! PROOF. Wickets. -/

set_option Elab.async false

namespace Sys2Proof.Machine

/-! ### Words that set the program counter themselves -/

/-- The state that a word of sys.wkt or sys.wret answers where its effect leaves s1, part by part. -/
structure Jumped (s1 : State) (n k : Nat) (t : State) : Prop where
  case : t.case n k = Casement.touch { ((s1.case n k).settleRegs) with
    icount := (s1.case n k).icount + 1, held := [], waiting := none, first := false, switched := false, frameRet := false } 0
  core : ∀ {α : Type} (g : Core → α), (∀ c cs cy ws ki ts,
    g { c with cases := cs, cycle := cy, walks := ws, keeperIssues := ki, tasks := ts } = g c) → ∀ m, g (t.core m) = g (s1.core m)
  block : ∀ {α : Type} (g : State → α), (∀ s n f, g (State.onCore s n f) = g s) → g t = g s1

theorem State.issues_jump {s : State} {n k sock : Nat} (v : Word) (s1 : State) (hsock : sock = 0x494 ∨ sock = 0x495)
    (hcalm : s.calm n k = true) : ∃ t, s.issues n k sock v s1 = .next t ∧ Jumped s1 n k t := by
  have hs : sock < 4096 := by omega
  have hd : dstOk sock = true := by rcases hsock with rfl | rfl <;> rfl
  simp only [State.calm, State.free_, State.reg, Bool.and_eq_true, Bool.not_eq_true'] at hcalm
  obtain ⟨⟨⟨⟨-, hbody⟩, hfirst⟩, hframe⟩, hswitched⟩ := hcalm
  have jumps : (s.arrivals n k).wrote n k (.move (BitVec.ofNat 12 sock) v) (fun d => d == 0x494 || d == 0x495) = true := by
    rw [State.wrote_move _ _ _ _ _ _ hs hd]; simpa using hsock
  have goesOn : (s.arrivals n k).wrote n k (.move (BitVec.ofNat 12 sock) v) (· == 0x496) = false :=
    State.wrote_move_false _ _ _ _ _ _ hs (by simp; omega)
  have commit : s1.commit (s.arrivals n k) n k (.move (BitVec.ofNat 12 sock) v) = s1.afterIssue n k ((s.arrivals n k).whoIs n k) := by
    by_cases h8 : k = 8
    · subst h8; simp [State.commit, jumps, goesOn]
    · simp [State.commit, jumps, hfirst, hframe, hswitched, hbody, h8]
  refine ⟨_, rfl, ?_, ?_, ?_⟩
  · rw [commit, State.case_afterIssue]
  · intro α g hg m
    rw [commit, State.core_afterIssue_keeps g hg]
  · intro α g hg
    rw [commit, State.afterIssue_keeps g hg]

/-- A part of the registers that the end of such a word does not touch. -/
theorem Jumped.reg {s1 t : State} {n k : Nat} (h : Jumped s1 n k t) {α : Type} (g : Casement → α)
    (hg : ∀ c i, g (Casement.touch { c.settleRegs with
      icount := i, held := [], waiting := none, first := false, switched := false, frameRet := false } 0) = g c) :
    g (t.case n k) = g (s1.case n k) := by
  rw [h.case, hg]

/-! ### Wickets (R286–R288) -/

theorem Casement.key_setKey (c : Casement) (i : Nat) (key : Key) (isLent : Bool) (j : Nat) :
    (c.setKey i key isLent).key j = if j = i then key else c.key j := tabGet_tabSet ..

/-- A part of a core that the casements play no part in. -/
theorem State.core_onCase_keeps {α : Type} (g : Core → α) (hg : ∀ c cs, g { c with cases := cs } = g c) (s : State) (n k : Nat)
    (f : Casement → Casement) (m : Nat) : g ((s.onCase n k f).core m) = g (s.core m) := by
  rw [State.onCase, State.setCase]
  exact State.core_onCore_keeps g (fun c => hg c _) s n m

/-- Clearing keys leaves the other keys, and every other register, as they are. -/
theorem Casement.clearKeys_key (p : Nat → Bool) (l : List Nat) (c : Casement) (j : Nat) :
    (l.foldl (fun (x : Casement) i => if p i then x.setKey i 0 false else x) c).key j = if j ∈ l ∧ p j = true then 0 else c.key j := by
  induction l generalizing c with
  | nil => simp
  | cons i l ih =>
    rw [List.foldl_cons, ih]
    by_cases hi : p i = true
    · by_cases hj : j = i
      · subst hj; simp [hi, Casement.key_setKey]
      · simp [hi, Casement.key_setKey, hj]
    · by_cases hj : j = i
      · subst hj; simp [hi]
      · simp [hi, hj]

theorem Casement.clearKeys_keeps {α : Type} (g : Casement → α) (hg : ∀ c i, g (Casement.setKey c i 0 false) = g c) (p : Nat → Bool)
    (l : List Nat) (c : Casement) : g (l.foldl (fun (x : Casement) i => if p i then x.setKey i 0 false else x) c) = g c := by
  induction l generalizing c with
  | nil => rfl
  | cons i l ih =>
    rw [List.foldl_cons, ih]
    split
    · exact hg c i
    · rfl

/-- R288: the end of a call gives k15 and x15 back and takes the lent keys away. -/
theorem Casement.endCall_spec (c : Casement) (w : Call) :
    (c.endCall w).key 15 = w.k15 ∧ (c.endCall w).ext 15 = w.x15 ∧ (c.endCall w).call = none ∧ (c.endCall w).xpend = c.xpend ∧
    (∀ j, j < 15 → (c.endCall w).key j = if c.lent.getLsbD j then 0 else c.key j) ∧ (∀ j, j ≠ 15 → (c.endCall w).ext j = c.ext j) ∧
    (c.endCall w).s2ctl = c.s2ctl ∧ (c.endCall w).d = c.d := by
  have keeps {α : Type} (g : Casement → α) (hg : ∀ c i, g (Casement.setKey c i 0 false) = g c) :=
    Casement.clearKeys_keeps g hg c.lent.getLsbD (List.range 16) c
  refine ⟨?_, ?_, rfl, keeps (·.xpend) (by intros; rfl), fun j hj => ?_, fun j hj => ?_, keeps (·.s2ctl) (by intros; rfl),
    keeps (·.d) (by intros; rfl)⟩
  · exact (Casement.key_setKey _ 15 w.k15 false 15).trans (if_pos rfl)
  · exact (tabGet_tabSet ..).trans (if_pos rfl)
  · refine ((Casement.key_setKey _ 15 w.k15 false j).trans (if_neg (by omega))).trans ((Casement.clearKeys_key ..).trans ?_)
    simp [show j < 16 by omega]
  · exact (tabGet_tabSet ..).trans ((if_neg hj).trans (congrFun (keeps Casement.ext (by intros; rfl)) j))

/-- The casement that a wicket's entry leaves (R286). -/
def Casement.enterWicket (c : Casement) (num : Nat) (wk : Wicket) : Casement :=
  let c := { c with call := some { wicket := num, at_ := c.pc, ret := c.pc + 4, k15 := c.key 15, x15 := c.ext 15 } }
  let c := c.setKey 15 wk.key false
  { c with x := tabSet {} c.x 15 wk.ext, pc := wk.entry }

theorem Casement.enterWicket_key (c : Casement) (num : Nat) (wk : Wicket) (j : Nat) :
    (c.enterWicket num wk).key j = if j = 15 then wk.key else c.key j := tabGet_tabSet ..

theorem Casement.enterWicket_ext (c : Casement) (num : Nat) (wk : Wicket) (j : Nat) :
    (c.enterWicket num wk).ext j = if j = 15 then wk.ext else c.ext j := tabGet_tabSet ..

section
variable {b : State} {n k : Nat} {c : Casement} {v : Word} (hc : (b.serialise n k).case n k = c)
include hc

theorem State.wkt_inCall (hcall : c.call ≠ none) : b.wkt n k 4 v = .fault (some (State.serialise · n k)) fltIllegal := by
  simp only [State.wkt, hc]
  exact if_pos (Option.isSome_iff_ne_none.2 hcall)

theorem State.wkt_empty (hcall : c.call = none) (hw : tabFind ((b.serialise n k).core n).wickets (v.toNat % 16) = none) :
    b.wkt n k 4 v = .fault (some (State.serialise · n k)) fltKey := by
  have num : fld v 0 4 = v.toNat % 16 := by rw [fld_eq_div_mod, Nat.pow_zero, Nat.div_one]; rfl
  simp only [State.wkt, hc, hcall, num, hw]
  rfl

theorem State.wkt_enters {wk : Wicket} (hcall : c.call = none) (hw : tabFind ((b.serialise n k).core n).wickets (v.toNat % 16) = some wk)
    (hdue : c.keyDue = false) (hbad : c.kBad.getLsbD 15 = false) :
    b.wkt n k 4 v = .done ((b.serialise n k).onCase n k fun c => c.enterWicket (v.toNat % 16) wk) := by
  have num : fld v 0 4 = v.toNat % 16 := by rw [fld_eq_div_mod, Nat.pow_zero, Nat.div_one]; rfl
  simp only [State.wkt, hc, hcall, num, hw, hdue, hbad]
  rfl

end

/-- A control word whose trigger faults with a part of its effect that stays raises the fault on that. -/
theorem issueMove_controlFault {s : State} {n k sock : Nat} {v : Word} {u : Unit_} {f : Flt} {keep : State → State}
    (h : s.ready n k = true) (hfree : s.free_ n k = true) (hs : sock < 4096) (hu : sockOf sock = some (.trig u))
    (hcls : (f.cls == clsASYNC) = false) (hf : (s.arrivals n k).fire n k 4 sock v = .fault (some keep) f) :
    (.next (s.issueMove n sock v) : Out) = .next ((keep (s.arrivals n k)).raise n k f false) := by
  rw [issueMove_ready h hs hu (.inr hfree), hf, ← hcls]; rfl

theorem State.free_of_calm {s : State} {n k : Nat} (h : s.calm n k = true) : s.free_ n k = true := by
  simp only [State.calm, Bool.and_eq_true] at h
  exact h.1.1.1

/-- A word of sys.wkt or sys.wret that is done. -/
theorem issueMove_jump {s s1 : State} {n k sock : Nat} {v : Word} {u : Unit_} (h : s.ready n k = true) (hcalm : s.calm n k = true)
    (hsock : sock = 0x494 ∨ sock = 0x495) (hu : sockOf sock = some (.trig u)) (hf : (s.arrivals n k).fire n k 4 sock v = .done s1) :
    ∃ t, (.next (s.issueMove n sock v) : Out) = .next t ∧ Jumped s1 n k t := by
  obtain ⟨t, ht, jumped⟩ := State.issues_jump v s1 hsock hcalm
  exact ⟨t, (issueMove_done h (by omega) hu (.inr (State.free_of_calm hcalm)) hf).trans ht, jumped⟩

theorem getLsbD_setFld_zero (v : Word) {x : Nat} : (setFld v 0 1 x).getLsbD 0 = x.testBit 0 := by
  rw [getLsbD_setFld _ _ _ _ (by decide), if_pos (by decide)]

theorem trigSys_wkt (b : State) (n k len : Nat) (v : Word) : trigSys b n k 0x494 len v = b.wkt n k len v := rfl

theorem trigSys_wret (b : State) (n k len : Nat) (v : Word) : trigSys b n k 0x495 len (setFld v 0 1 0) = b.wicketReturn n k := by
  exact if_neg (by rw [getLsbD_setFld_zero]; decide)

end Sys2Proof.Machine

open Sys2Proof Sys2Proof.Machine

/-- Settles O24, by what the entry and the return of a wicket leave in the casement of the serialised task. -/
theorem wicketCalls : Obligations.WicketCalls := by
  intro core v s k h hcalm n b c
  have hfree := State.free_of_calm hcalm
  have hc : (b.serialise n k).case n k = c := (case_onCase ..).trans (if_pos ⟨rfl, rfl⟩)
  have wickets : ((b.serialise n k).core n).wickets = (b.core n).wickets := by
    rw [State.serialise, State.core_onCase_keeps (·.wickets) (by intros; rfl)]
  have call : (b.case n k).call = c.call := (Casement.serialise_keeps (·.call) (by intros; rfl) _).symm
  have keyDue : (b.case n k).keyDue = c.keyDue := (Casement.serialise_keeps (·.keyDue) (by intros; rfl) _).symm
  have settled : c.xpend = [] := rfl
  have same : b.onCase n k Casement.serialise = b.serialise n k := rfl
  rw [same]
  clear_value c
  have fire (len : Nat) : b.fire n k len 0x494 v = b.wkt n k len v := (fire_sys rfl _ _ _ _ _).trans (trigSys_wkt ..)
  have fireRet (len : Nat) : b.fire n k len 0x495 (setFld v 0 1 0) = b.wicketReturn n k := (fire_sys rfl _ _ _ _ _).trans (trigSys_wret ..)
  refine ⟨fun w hw hcall hdue hbad => ?_, fun hcall => ?_, fun hcall hw => ?_, fun w hcall hdue => ?_, fun hcall => ?_⟩
  · obtain ⟨t, ht, jumped⟩ := issueMove_jump (sock := 0x494) (v := v) h hcalm (.inl rfl) rfl
      ((fire 4).trans (State.wkt_enters hc hcall (by rw [wickets]; exact hw) hdue hbad))
    have put : ((b.serialise n k).onCase n k fun c => c.enterWicket (v.toNat % 16) w).case n k = c.enterWicket (v.toNat % 16) w := by
      rw [case_onCase, if_pos ⟨rfl, rfl⟩, hc]
    have reg {α : Type} (g : Casement → α) (hg : ∀ c i, g (Casement.touch { c.settleRegs with
      icount := i, held := [], waiting := none, first := false, switched := false, frameRet := false } 0) = g c) :
        g (t.case n k) = g (c.enterWicket (v.toNat % 16) w) := (jumped.reg g hg).trans (congrArg g put)
    refine ⟨t, ht, reg (·.pc) (by intros; rfl), ?_, ?_, (reg (·.xpend) (by intros; rfl)).trans settled, reg (·.call) (by intros; rfl), fun j hj => ⟨?_, ?_⟩,
      reg (·.s2ctl) (by intros; rfl), reg (·.d) (by intros; rfl), ?_⟩
    · rw [reg (Casement.key · 15) (by intros; rfl), Casement.enterWicket_key, if_pos rfl]
    · rw [reg (Casement.ext · 15) (by intros; rfl), Casement.enterWicket_ext, if_pos rfl]
    · rw [reg (Casement.key · j) (by intros; rfl), Casement.enterWicket_key, if_neg hj]
    · rw [reg (Casement.ext · j) (by intros; rfl), Casement.enterWicket_ext, if_neg hj]
    · rw [jumped.block (·.mem) (by intros; rfl)]; simp [b, State.serialise]
  · exact issueMove_controlFault (sock := 0x494) (f := fltIllegal) (keep := (State.serialise · n k)) h hfree (by decide) rfl rfl
      ((fire 4).trans (State.wkt_inCall hc hcall))
  · exact issueMove_controlFault (sock := 0x494) (f := fltKey) (keep := (State.serialise · n k)) h hfree (by decide) rfl rfl
      ((fire 4).trans (State.wkt_empty hc hcall (by rw [wickets]; exact hw)))
  · have done : b.wicketReturn n k = .done ((b.serialise n k).onCase n k fun c => { c.endCall w with pc := w.ret }) := by
      rw [State.wicketReturn, call.trans hcall]
      exact if_neg (by rw [keyDue, hdue]; decide)
    obtain ⟨t, ht, jumped⟩ := issueMove_jump (sock := 0x495) (v := setFld v 0 1 0) h hcalm (.inr rfl) rfl ((fireRet 4).trans done)
    have put : ((b.serialise n k).onCase n k fun c => { c.endCall w with pc := w.ret }).case n k = { c.endCall w with pc := w.ret } := by
      rw [case_onCase, if_pos ⟨rfl, rfl⟩, hc]
    have reg {α : Type} (g : Casement → α) (hg : ∀ c i, g (Casement.touch { c.settleRegs with
      icount := i, held := [], waiting := none, first := false, switched := false, frameRet := false } 0) = g c) :
        g (t.case n k) = g { c.endCall w with pc := w.ret } := (jumped.reg g hg).trans (congrArg g put)
    obtain ⟨k15, x15, nocall, xpend, keys, exts, s2ctl, d⟩ := Casement.endCall_spec c w
    refine ⟨t, ht, reg (·.pc) (by intros; rfl), ?_, ?_, ?_, ?_, fun j hj => ?_, fun j hj => ?_, ?_, ?_, ?_⟩
    · rw [reg (Casement.key · 15) (by intros; rfl)]; exact k15
    · rw [reg (Casement.ext · 15) (by intros; rfl)]; exact x15
    · rw [reg (·.call) (by intros; rfl)]; exact nocall
    · rw [reg (·.xpend) (by intros; rfl)]; exact xpend.trans settled
    · rw [reg (Casement.key · j) (by intros; rfl)]; exact keys j hj
    · rw [reg (Casement.ext · j) (by intros; rfl)]; exact exts j hj
    · rw [reg (·.s2ctl) (by intros; rfl)]; exact s2ctl
    · rw [reg (·.d) (by intros; rfl)]; exact d
    · rw [jumped.block (·.mem) (by intros; rfl)]; simp [b, State.serialise]
  · refine issueMove_fault (sock := 0x495) (f := fltIllegal) h (by decide) rfl (.inr hfree) ?_
    rw [fireRet, State.wicketReturn, call.trans hcall]

end

section
/-! PROOF. Sound reads, and a return that empties a casement. -/

set_option Elab.async false

namespace Sys2Proof.Machine

/-! ### Sound reads of the core's own bank -/

/-- The line of a range within one line. -/
theorem unitsOf_line {pa len : Nat} (hlen : 0 < len) (hfit : pa % 64 + len ≤ 64) : unitsOf 64 pa len = [pa / 64] := by
  rw [unitsOf, if_neg (by simpa using Nat.pos_iff_ne_zero.1 hlen), show (pa + len - 1) / 64 - pa / 64 + 1 = 1 by omega]
  rfl

theorem State.readStore_sound {s : State} {pa len : Nat} (hb : s.eccBad = []) (hc : s.eccCorr = []) (hlen : 0 < len)
    (hfit : pa % 64 + len ≤ 64) (hp : pa / 64 ∉ s.poison) : s.readStore pa len = (s, false, s.bytes pa len) := by
  simp [State.readStore, hb, hc, unitsOf_line hlen hfit, hp]

theorem State.readPa_sound {s : State} {n pa len : Nat} (h : s.sound n pa len) :
    s.readPa pa len (some n) = (s, .ok, s.bytes pa len) := by
  obtain ⟨⟨off, hplace, -, hspill⟩, hon, hlen, hfit, hb, hc, hp, hbond⟩ := h
  have located : s.locate pa len (some n) = (pa, .ok) := by simp [State.locate, hplace, hon, hspill]
  simp only [State.readPa, located, State.readStore_sound hb hc hlen hfit hp, State.bondNote, State.bondBad, hbond]
  rfl

theorem Touched.sound {s t : State} (h : Touched s t) {n pa len : Nat} (hs : s.sound n pa len) : t.sound n pa len := by
  obtain ⟨mem, poison, eccBad, eccCorr⟩ := h.storage
  have spill (off : Nat) : t.inSpill n off len = s.inSpill n off len := by
    simp only [State.inSpill, h.core (·.spa) (by intros; rfl)]
  simpa only [State.sound, h.place, spill, h.block (·.clusterOn n) (by intros; rfl), poison, eccBad, eccCorr,
    h.core (·.badBond) (by intros; rfl) n] using hs

/-! ### A return that empties a casement -/

/-- Core 0 runs casement 0, which the table lists twice; the first entry differs from an empty casement only in the one return
address of its hardware stack. -/
def listedTwice : State :=
  { State.reset with
    beat := { running := true }, start := { phase := 7, filled := true, classified := true, libReady := true }
    clusters := [(0, { dst := .on })]
    cores := [(0, { running := some 0, cases := [(0, { rstack := [0] }), (0, { pc := 4 })] })] }

/-- The entries of core 0's table of casements. -/
def Out.listed (out : Out) : Nat :=
  match out with
  | .next t => (t.core 0).cases.length
  | _ => 0

theorem listedTwice_ready : listedTwice.ready 0 0 = true ∧ listedTwice.free_ 0 0 = true ∧ (listedTwice.reg 0 0).rstack = [0] := by
  decide +kernel

/-- The return pops the stack before it notes its transfer. Popped, the casement is empty, so both entries leave the table. -/
theorem listedTwice_ret : Out.listed (exec (.bruRet 0 0) listedTwice) = 1 := by decide +kernel

theorem listedTwice_changed : Out.listed (listedTwice.changes 0 0 0xCC 0 fun x =>
    Casement.touch { ({ x with rstack := [] } : Casement) with xfer := some { target := 0, slots := 2, call := false } } 0) = 2 := by
  decide +kernel

end Sys2Proof.Machine

open Sys2Proof Sys2Proof.Machine

/-- Refutes O15: of a state whose table lists a casement twice, a ret that pops the last thing in that casement drops both
entries before it notes the transfer, where the statement's one change of the casement keeps the second. -/
theorem not_transferRows : ¬ Obligations.TransferRows := by
  intro h
  obtain ⟨ready, free, stack⟩ := listedTwice_ready
  have ret := (h.1 0 0 listedTwice 0 ready free).2.2 0 [] stack rfl
  exact absurd ((listedTwice_ret.symm.trans (congrArg Out.listed ret)).trans listedTwice_changed) (by decide)

end

section
/-! PROOF. The keeper's end, waits and the timer. -/

set_option Elab.async false

namespace Sys2Proof.Machine

/-! ### The end of the keeper's handler (R274) -/

/-- R264: what the settling of a change of idleness leaves of the cores. -/
theorem State.core_settle_keeps {α : Type} (g : Core → α)
    (hg : ∀ c f e o t, g { c with fresh := f, eligible := e, tmrOwner := o, tmrCount := t } = g c) (was : Bool) (s : State) (n m : Nat) :
    g ((State.settle was s n).core m) = g (s.core m) := by
  unfold State.settle
  extract_lets c
  have same (f e : Bool) (o : TimerOwner) (t : BitVec 32) :
      g ((s.setCore n { c with fresh := f, eligible := e, tmrOwner := o, tmrCount := t }).core m) = g (s.core m) := by
    rw [core_setCore]
    split
    · next h => rw [hg, h]
    · rfl
  split
  · exact same false false _ c.tmrCount
  split
  · exact same c.fresh c.eligible _ _
  · rfl

/-- A core that no task was woken on has none to release. -/
theorem State.releaseIdle_none (s : State) (n : Nat) (h : (s.core n).woken = []) : s.releaseIdle n = s := by
  simp [State.releaseIdle, State.releaseHeld, h]

theorem State.releaseIdle_busy (s : State) (n : Nat) {k : Nat} (h : (s.core n).running = some k) : s.releaseIdle n = s := by
  simp [State.releaseIdle, h]

/-- A core whose queue is empty runs nothing. -/
theorem State.selectNext_empty (s : State) (n : Nat) (h : (s.core n).readyQ = []) :
    (s.selectNext n).core n = { s.core n with running := none } := by
  have idle : ((s.onCore n fun c => { c with running := none }).core n) = { s.core n with running := none } :=
    (core_onCore ..).trans (if_pos rfl)
  unfold State.selectNext
  extract_lets s1
  split
  · exact idle
  · rw [show (s1.core n).readyQ = [] from (congrArg Core.readyQ idle).trans h]
    exact ((core_onCore ..).trans (if_pos rfl)).trans (by rw [idle])

/-- R266: what SCAUSE holds once its VALID is cleared. -/
theorem valid_cleared (w : Word) : (w &&& ~~~BitVec.ofNat 64 (2 ^ 22)).getLsbD 22 = false := by
  rw [getLsbD_and_not_bitMask w 22 (by decide)]; rfl

/-- The state in which the keeper has given the core up. -/
def State.handled (s : State) (n : Nat) : State :=
  s.onCore n fun c => { c with scause := c.scause &&& ~~~(BitVec.ofNat 64 (2 ^ 22)), running := none }

theorem State.core_handled (s : State) (n : Nat) : (s.handled n).core n =
    { s.core n with scause := (s.core n).scause &&& ~~~(BitVec.ofNat 64 (2 ^ 22)), running := none } :=
  (core_onCore ..).trans (if_pos rfl)

theorem State.task_handled (s : State) (n t : Nat) : (s.handled n).task n t = s.task n t :=
  congrArg (fun l => tabFind l t) (State.core_onCore_keeps (·.tasks) (by intro; rfl) s n n)

theorem State.keeperEnd_gone {s : State} {n : Nat} (hq : (s.core n).readyQ = []) (hw : (s.core n).woken = [])
    (ht : s.task n (fld (s.core n).scause 16 6) = none) :
    ((s.keeperEnd n).core n).running = none ∧ ((s.keeperEnd n).core n).scause.getLsbD 22 = false := by
  have core := s.core_handled n
  have selected := State.selectNext_empty (s.handled n) n ((congrArg Core.readyQ core).trans hq)
  have ends : s.keeperEnd n = State.settle (s.core n).isIdle ((s.handled n).selectNext n) n := by
    rw [← State.releaseIdle_none ((s.handled n).selectNext n) n (by rw [selected, core]; exact hw)]
    unfold State.keeperEnd
    extract_lets t was s1 s2
    have found : s1.task n t = none := (s.task_handled n t).trans ht
    have next : s2 = s1.selectNext n := by simp only [s2, found]
    rw [next]; rfl
  rw [ends]
  constructor
  · rw [State.core_settle_keeps (·.running) (by intros; rfl), selected]
  · rw [State.core_settle_keeps (fun c => c.scause.getLsbD 22) (by intros; rfl), selected, core]
    exact valid_cleared _

theorem State.core_onCase_same (s : State) (n k : Nat) (f : Casement → Casement) :
    (s.onCase n k f).core n = { s.core n with cases := tabSet {} (s.core n).cases k (f (s.case n k)) } :=
  (core_onCore ..).trans (if_pos rfl)

/-- R259: what a task that takes the slot leaves of the core. -/
theorem State.core_runTask (s : State) (n t j : Nat) {x : Task} (h : s.task n t = some x) : ∃ cs, (s.runTask n t j).core n =
    { s.core n with running := some j, readyQ := (s.core n).readyQ.filter (· != t), cases := cs
                    tasks := tabPut (s.core n).tasks t { x with st := .running, mask := 0 } } := by
  have ran : (s.onTask n t fun x => { x with st := .running, mask := 0 }).core n =
      { s.core n with tasks := tabPut (s.core n).tasks t { x with st := .running, mask := 0 } } := by
    simp only [State.onTask, h]
    exact (core_onCore ..).trans (if_pos rfl)
  unfold State.runTask
  rw [State.core_onCase_same, core_onCore, if_pos rfl, ran]
  exact ⟨_, rfl⟩

theorem State.case_runTask (s : State) (n t j : Nat) : ∃ b, (s.runTask n t j).case n j = { s.case n j with switched := b } := by
  refine ⟨!(s.core n).woken.isEmpty, ((case_onCase ..).trans (if_pos ⟨rfl, rfl⟩)).trans ?_⟩
  rw [State.case_onCore_keeps (by intro; rfl)]
  have same : (s.onTask n t fun x => { x with st := .running, mask := 0 }).case n j = s.case n j := by
    unfold State.onTask
    split
    · rfl
    · exact State.case_onCore_keeps (by intro; rfl) _ _ _ _
  rw [same]

theorem State.case_settle (was : Bool) (s : State) (n m j : Nat) : (State.settle was s n).case m j = s.case m j :=
  congrArg (fun l => tabGet ({} : Casement) l j) (State.core_settle_keeps (·.cases) (by intros; rfl) was s n m)

theorem State.keeperEnd_resumes {s : State} {n j : Nat} {x : Task} (ht : s.task n (fld (s.core n).scause 16 6) = some x)
    (hst : x.st = .ready) (hloc : x.loc = some j) :
    let t := s.keeperEnd n
    let i := fld (s.core n).scause 16 6
    (t.core n).running = some j ∧ t.task n i = some { x with st := .running, mask := 0 } ∧ (t.core n).scause.getLsbD 22 = false ∧
      (t.core n).readyQ = (s.core n).readyQ.filter (· != i) ∧ (t.core n).woken = (s.core n).woken ∧
      (t.case n j).pc = (s.case n j).pc ∧ (t.case n j).d = (s.case n j).d := by
  intro t i
  have found : (s.handled n).task n i = some x := (s.task_handled n i).trans ht
  obtain ⟨cs, core⟩ := State.core_runTask (s.handled n) n i j found
  obtain ⟨b, case⟩ := State.case_runTask (s.handled n) n i j
  rw [s.core_handled n] at core
  have ends : t = State.settle (s.core n).isIdle ((s.handled n).runTask n i j) n := by
    rw [← State.releaseIdle_busy ((s.handled n).runTask n i j) n (congrArg Core.running core)]
    obtain ⟨st, loc, prof⟩ := x
    subst hst hloc
    show s.keeperEnd n = _
    unfold State.keeperEnd
    extract_lets was s1 s2
    have next : s2 = s1.runTask n i j := by
      simp only [s2]
      rw [show s1.task n i = _ from found]
    rw [next]; rfl
  clear_value t
  subst ends
  have same : ((s.handled n).case n j) = s.case n j := State.case_onCore_keeps (by intro; rfl) _ _ _ _
  refine ⟨?_, ?_, ?_, ?_, ?_, ?_, ?_⟩
  · rw [State.core_settle_keeps (·.running) (by intros; rfl), core]
  · refine (congrArg (fun l => tabFind l i) (State.core_settle_keeps (·.tasks) (by intros; rfl) _ _ n n)).trans ?_
    rw [core, tabFind_tabPut, if_pos rfl]
  · rw [State.core_settle_keeps (fun c => c.scause.getLsbD 22) (by intros; rfl), core]
    exact valid_cleared _
  · rw [State.core_settle_keeps (·.readyQ) (by intros; rfl), core]
  · rw [State.core_settle_keeps (·.woken) (by intros; rfl), core]
  · rw [State.case_settle, case, same]
  · rw [State.case_settle, case, same]

/-! ### Words that write a register -/

/-- A word of one long move to a register writes it. -/
theorem runWord_write {s : State} {n k sock : Nat} {v : Word} (hs : sock < 4096) (hu : sockOf sock = some .reg)
    (hf : ∀ s : State, s.fire n k 4 sock v = .done s) (ho : (s.case n k).otherBad = false) (hc : isControl sock = false) :
    s.runWord n k (.move (BitVec.ofNat 12 sock) v) = .done (s.writeSock n k sock v) := by
  have hn : (BitVec.ofNat 12 sock).toNat = sock := by simp; omega
  have hg : (s.case n k).guardBad [{ src := .imm v, dst := sock }] = false := by simp [Casement.guardBad, Casement.guardBit]
  unfold State.runWord
  simp only [CodeWord.moves, hn, dstOk, hu, Sock.writable, if_true, Casement.liveMoves, Casement.guardTrue, Bool.not_true,
    Bool.false_eq_true, if_false, List.any_cons, List.any_nil, Bool.or_false, hc, Bool.and_false, ho, hg, State.readAll,
    State.readSrc, State.writeAll, State.fireAll, CodeWord.bytes, hf]
  rfl

theorem issueMove_write {s : State} {n k sock : Nat} {v : Word} (h : s.ready n k = true) (hs : sock < 4096)
    (hu : sockOf sock = some .reg) (hf : ∀ s : State, s.fire n k 4 sock v = .done s) (hc : isControl sock = false) :
    (.next (s.issueMove n sock v) : Out) = s.issues n k sock v ((s.arrivals n k).writeSock n k sock v) := by
  obtain ⟨h1, h2, h3, h4, h5⟩ := State.ready_parts h
  simp only [State.issueMove, h1, h2, h3, State.issueWord, Option.isSome_none, Bool.false_eq_true, if_false]
  have ha : ((s.arrivals n k).case n k).asyncNow = false := by simpa [State.reg] using h4
  simp only [ha, Bool.false_and, Bool.false_eq_true, if_false]
  rw [runWord_write hs hu hf (by simpa [State.reg] using h5) hc]
  rfl

/-! ### Writes of sys.tmr (R263) -/

/-- A write of sys.tmr changes the timer alone, and with it not whether the core is idle. -/
theorem State.writeSock_tmr (b : State) (n k : Nat) (v : Word) :
    b.writeSock n k 0x482 v = b.onCore n fun c => tmrWrite c (b.whoIs n k) v := by
  have idle (c : Core) (t : Option Nat) : (tmrWrite c t v).isIdle = c.isIdle := by
    unfold tmrWrite
    extract_lets
    repeat' split
    all_goals rfl
  have same : ((b.onCore n fun c => tmrWrite c (b.whoIs n k) v).core n).isIdle = (b.core n).isIdle := by
    rw [core_onCore, if_pos rfl, idle]
  show State.settle (b.core n).isIdle (b.onCore n fun c => tmrWrite c (b.whoIs n k) v) n = _
  simp only [State.settle, same]
  cases (b.core n).isIdle <;> simp

/-- R263: what a write of sys.tmr by task i leaves of the timer. -/
theorem tmrWrite_task (c : Core) (i : Nat) (v : Word) :
    let off := v.getLsbD 32 || v.toNat % 2 ^ 32 == 0
    let t := tmrWrite c (some i) v
    ((c.tmrOwner = .none ∨ c.tmrOwner = .detector) → off = false → t.tmrOwner = .task i ∧ t.tmrCount = v.setWidth 32) ∧
    (c.tmrOwner = .task i → off = false → t.tmrOwner = .task i ∧ t.tmrCount = v.setWidth 32) ∧
    (c.tmrOwner = .task i → off = true → t.tmrOwner = .none) ∧
    (∀ j, c.tmrOwner = .task j → j ≠ i → t.tmrOwner = c.tmrOwner ∧ t.tmrCount = c.tmrCount) ∧
    ((c.tmrOwner = .none ∨ c.tmrOwner = .detector) → off = true → t.tmrOwner = c.tmrOwner ∧ t.tmrCount = c.tmrCount) := by
  intro off
  have hoff : off = (bitAt v 32 || (v.setWidth 32 : BitVec 32) == 0) := by
    simp only [off, bitAt]
    congr 1
    rw [Bool.eq_iff_iff, beq_iff_eq, beq_iff_eq, ← BitVec.toNat_inj]
    simp
  clear_value off
  simp only [tmrWrite, ← hoff]
  cases hown : c.tmrOwner <;> cases off <;> simp_all

/-- A write of sys.tmr in a calm casement. -/
theorem issueMove_tmr {s : State} {n k : Nat} (v : Word) (h : s.ready n k = true) (hcalm : s.calm n k = true) :
    ∃ t, (.next (s.issueMove n 0x482 v) : Out) = .next t ∧
      Issued s ((s.arrivals n k).onCore n fun c => tmrWrite c ((s.arrivals n k).whoIs n k) v) n k t := by
  obtain ⟨t, ht, issued⟩ := State.issues_calm (sock := 0x482) v ((s.arrivals n k).writeSock n k 0x482 v) (by decide) (by decide)
    (by decide) (by intro; decide) hcalm
  exact ⟨t, (issueMove_write h (by decide) rfl (fun _ => rfl) rfl).trans ht, State.writeSock_tmr _ n k v ▸ issued⟩

/-! ### sys.wait (R258, R261) -/

/-- The events that a sys.wait selects: ERROR always (R261). -/
def waitMask (v : Word) : BitVec 8 := BitVec.ofNat 8 (fld v 0 8) ||| 0x20

theorem getLsbD_waitMask (v : Word) {j : Nat} (hj : j < 8) : (waitMask v).getLsbD j = (v.getLsbD j || j == 5) := by
  rw [waitMask, BitVec.getLsbD_or, BitVec.getLsbD_ofNat, fld, testBit_bitsOf]
  simp only [hj, decide_true, Bool.true_and, Nat.zero_add]
  congr 1
  interval_cases j <;> rfl

/-- Whether an event that the task selects is set. -/
theorem waits_any (mask : BitVec 8) (c : Casement) :
    (((List.range 6).any fun j => mask.getLsbD j && c.bit (3064 + j)) || (mask.getLsbD 6 && c.bit 3070) || (mask.getLsbD 7 && c.bit 3071)) =
      true ↔ ∃ j, j < 8 ∧ mask.getLsbD j = true ∧ c.bit (3064 + j) = true := by
  simp only [Bool.or_eq_true, List.any_eq_true, List.mem_range, Bool.and_eq_true]
  constructor
  · rintro ((⟨j, hj, h⟩ | h) | h)
    · exact ⟨j, by omega, h⟩
    · exact ⟨6, by decide, h⟩
    · exact ⟨7, by decide, h⟩
  · rintro ⟨j, hj, h⟩
    obtain hj | rfl | rfl : j < 6 ∨ j = 6 ∨ j = 7 := by omega
    · exact .inl (.inl ⟨j, hj, h⟩)
    · exact .inl (.inr h)
    · exact .inr h

section
variable {b : State} {n k t : Nat} {v : Word} (hk : k ≠ 8)
include hk

theorem State.sysWait_bad (hg : (b.case n k).gBad.getLsbD 47 = true) : b.sysWait n k v = .fault none fltParity := by
  unfold State.sysWait
  rw [if_neg (by simpa using hk)]
  exact if_pos hg

variable (hg : (b.case n k).gBad.getLsbD 47 = false)
include hg

theorem State.sysWait_set (h : ∃ j, j < 8 ∧ (waitMask v).getLsbD j = true ∧ (b.case n k).bit (3064 + j) = true) :
    b.sysWait n k v = .done b := by
  have any := (waits_any (waitMask v) (b.case n k)).2 h
  unfold State.sysWait
  rw [if_neg (by simpa using hk)]
  extract_lets c mask
  rw [if_neg (by simpa [c] using hg)]
  split
  · rfl
  next h6 =>
  rw [Bool.or_assoc, Bool.or_eq_true] at any
  exact if_pos (any.resolve_left h6)

theorem State.sysWait_waits (hwho : b.whoIs n k = some t)
    (h : ∀ j, j < 8 → (waitMask v).getLsbD j = true → (b.case n k).bit (3064 + j) = false) :
    b.sysWait n k v = .done ((((b.issuesNow n t).onTask n t fun x => { x with st := .waiting, mask := waitMask v }).leaveSlot n).settle
      (b.core n).isIdle n) := by
  have none : ¬ _ := (waits_any (waitMask v) (b.case n k)).not.2 fun ⟨j, hj, hm, hb⟩ => by simp [h j hj hm] at hb
  unfold State.sysWait
  rw [if_neg (by simpa using hk)]
  extract_lets c mask
  rw [Bool.or_assoc, Bool.or_eq_true, not_or] at none
  rw [if_neg (by simpa [c] using hg)]
  refine (if_neg none.1).trans ((if_neg none.2).trans ?_)
  simp only [hwho]
  rfl

end

/-- A ready word of one move to sys.wait answers what the trigger does in the state of arrivals. -/
theorem issueMove_waits {s s1 : State} {n k : Nat} {v : Word} (h : s.ready n k = true)
    (hwait : (s.arrivals n k).sysWait n k v = .done s1) :
    (.next (s.issueMove n 0x496 v) : Out) = s.issues n k 0x496 v s1 :=
  issueMove_done h (by decide) rfl (.inl rfl) ((fire_sys rfl _ _ _ _ _).trans hwait)

theorem issueMove_waitFault {s : State} {n k : Nat} {v : Word} (h : s.ready n k = true)
    (hwait : (s.arrivals n k).sysWait n k v = .fault none fltParity) :
    (.next (s.issueMove n 0x496 v) : Out) = .next ((s.arrivals n k).raise n k fltParity false) :=
  issueMove_fault h (by decide) rfl (.inl rfl) ((fire_sys rfl _ _ _ _ _).trans hwait)

/-- R274: the keeper's sys.wait ends its handler. -/
theorem State.commit_keeperWait (s b : State) (n : Nat) (w : CodeWord) (hj : b.wrote n 8 w (fun d => d == 0x494 || d == 0x495) = false)
    (hr : b.wrote n 8 w (· == 0xC1) = false) (hw : b.wrote n 8 w (· == 0x496) = true) :
    s.commit b n 8 w = ((s.onCase n 8 fun c => c.advance (b.case n 8) w.bytes false).afterIssue n 8 (b.whoIs n 8)).keeperEnd n := by
  simp [State.commit, hj, hr, hw]

theorem State.issues_keeperWait {s : State} {n : Nat} (v : Word) :
    s.issues n 8 0x496 v (s.arrivals n 8) =
      .next ((((s.arrivals n 8).onCase n 8 fun c => c.advance (s.reg n 8) 4 false).afterIssue n 8 ((s.arrivals n 8).whoIs n 8)).keeperEnd n) := by
  rw [State.issues, State.reg, State.commit_keeperWait _ _ _ _ (State.wrote_move _ _ _ _ _ _ (by decide) rfl)
    (State.wrote_move _ _ _ _ _ _ (by decide) rfl) (State.wrote_move _ _ _ _ _ _ (by decide) rfl), CodeWord.bytes]

end Sys2Proof.Machine

open Sys2Proof Sys2Proof.Machine

/-- Settles O27: of the keeper, by whether the task of SCAUSE can run; of a task, by its selected events; of sys.tmr, by who
holds the timer. -/
theorem waitForEvents : Obligations.WaitForEvents := by
  refine ⟨⟨?keeper, ?gone, ?resumes, ?task⟩, ?timer⟩
  case keeper =>
    intro core v s h hcalm n b
    exact (issueMove_waits h (if_pos rfl)).trans (State.issues_keeperWait v)
  case gone =>
    intro s n hq hw ht
    obtain ⟨running, valid⟩ := State.keeperEnd_gone hq hw (by rwa [fld_eq_div_mod])
    exact ⟨running, valid, State.keeperEnd_mem s n⟩
  case resumes =>
    intro s n j x ht hst hloc t i
    have field : fld (s.core n).scause 16 6 = i := fld_eq_div_mod ..
    obtain ⟨running, task, valid, queue, woken, pc, d⟩ := State.keeperEnd_resumes (field.symm ▸ ht : s.task n (fld (s.core n).scause 16 6) = some x) hst hloc
    rw [field] at task queue
    exact ⟨running, task, valid, queue, woken, pc, d, State.keeperEnd_mem s n⟩
  case task =>
    intro core v s k t h hk n b c hwho
    refine ⟨fun hg => issueMove_waitFault h (State.sysWait_bad hk hg), fun hg => ?_⟩
    intro sel
    refine ⟨fun ⟨j, hj, hsel, hbit⟩ => ?_, fun hnone => ?_⟩
    · exact issueMove_waits h (State.sysWait_set hk hg ⟨j, hj, (getLsbD_waitMask v hj).trans hsel, hbit⟩)
    · exact ⟨waitMask v, fun j hj => getLsbD_waitMask v hj, issueMove_waits h
        (State.sysWait_waits hk hg hwho fun j hj hm => hnone j hj ((getLsbD_waitMask v hj).symm.trans hm))⟩
  case timer =>
    intro core v s k h hcalm n b off
    obtain ⟨t, ht, issued⟩ := issueMove_tmr v h hcalm
    have core : (b.onCore n fun c => tmrWrite c (b.whoIs n k) v).core n = tmrWrite (b.core n) (b.whoIs n k) v :=
      (core_onCore ..).trans (if_pos rfl)
    have owner : (t.core n).tmrOwner = (tmrWrite (b.core n) (b.whoIs n k) v).tmrOwner :=
      (issued.core (·.tmrOwner) (by intros; rfl) n).trans (congrArg Core.tmrOwner core)
    have count : (t.core n).tmrCount = (tmrWrite (b.core n) (b.whoIs n k) v).tmrCount :=
      (issued.core (·.tmrCount) (by intros; rfl) n).trans (congrArg Core.tmrCount core)
    have mem : t.mem = s.mem := (issued.block (·.mem) (by intros; rfl)).trans (State.arrivals_mem s n k)
    refine ⟨t, ht, issued.pc.1, mem, fun o ho => ⟨fun i hi => ?_, fun hi => ?_⟩⟩
    · rw [owner, count, hi, ← ho]
      exact tmrWrite_task (b.core n) i v
    · rw [owner, count, hi]
      exact ⟨ho, rfl⟩

end

section
/-! PROOF. Fetch, issue and waits. -/

set_option Elab.async false

namespace Sys2Proof.Machine

/-! ### What the arrivals at a word leave of the registers (R43) -/

/-- A change of every register image of a core that leaves a part of each as it was. -/
theorem State.case_mapCtx {α : Type} (f : Casement → α) {g : Casement → Casement} (hg : ∀ c, f (g c) = f c) (hempty : g {} = {})
    (s : State) (n m j : Nat) : f ((s.mapCtx n g).case m j) = f (s.case m j) := by
  rw [State.mapCtx, State.case, core_onCore]
  split
  · next h =>
    refine (congrArg f (tabGet_tabMap (fun _ x => g x) (d := ({} : Casement)) _ j hempty)).trans ?_
    rw [hg, h, State.case]
  · rfl

/-- The end of TLB invalidations completes barriers: it touches pending results alone. -/
theorem State.case_barrierDone {α : Type} (f : Casement → α) (hp : ∀ c p, f { c with pend := p } = f c) (s : State) (n num m j : Nat) :
    f ((s.barrierDone n num).case m j) = f (s.case m j) := by
  refine State.case_mapCtx f (fun c => ?_) rfl s n m j
  split
  · exact hp c _
  · rfl

theorem State.case_tlbiSweep {α : Type} (f : Casement → α) (hp : ∀ c p, f { c with pend := p } = f c) (s : State) (n m j : Nat) :
    f ((s.tlbiSweep n).case m j) = f (s.case m j) := by
  unfold State.tlbiSweep
  generalize (s.core n).tlbiOpen = l
  induction l generalizing s with
  | nil => rfl
  | cons e l ih =>
    obtain ⟨num, w, ids⟩ := e
    rw [List.foldl_cons, ih]
    dsimp only
    split
    · rfl
    · rw [State.case_barrierDone f hp, State.case_onCore_keeps (by intro; rfl)]

/-- A part of the registers that no arrival touches. -/
theorem State.reg_keeps {α : Type} (f : Casement → α) (hp : ∀ c p, f { c with pend := p } = f c)
    (hs : ∀ c p, f { c with shown := p } = f c) (hl : ∀ c x, f (Casement.land c x) = f c)
    (hk : ∀ c i k l, f (Casement.setKey c i k l) = f c) (s : State) (n k : Nat) : f (s.reg n k) = f (s.case n k) := by
  rw [State.reg, State.arrivals, case_onCase, if_pos ⟨rfl, rfl⟩, deliver_keeps f hp hs hl hk, State.case_tlbiSweep f hp]

/-- What decides whether and how the next word issues, and the data registers. -/
def Casement.course (c : Casement) : Option Transfer × Word × Bool × Bool × Bool × (Bool × List StoreFail) × Bool × BitVec 32 × Tab Word × BitVec 48 × Nat :=
  (c.xfer, c.rptc, c.first, c.frameRet, c.switched, (c.asyncDue, c.fails), c.otherBad, c.dBad, c.d, c.pc, c.icount)

theorem State.reg_course (s : State) (n k : Nat) : (s.reg n k).course = (s.case n k).course :=
  State.reg_keeps Casement.course (by intros; rfl) (by intros; rfl) (fun c x => by unfold Casement.land; split <;> rfl) (by intros; rfl) s n k

theorem State.calm_of_course {s t : State} {n k : Nat} (h : (t.case n k).course = (s.case n k).course) : t.calm n k = s.calm n k := by
  have same : (t.reg n k).course = (s.reg n k).course := by rw [State.reg_course, State.reg_course, h]
  simp only [Casement.course, Prod.mk.injEq] at same
  obtain ⟨hx, hr, hf, hfr, hs, -⟩ := same
  simp only [State.calm, State.free_, Casement.inSlot, Casement.inBody, hx, hr, hf, hfr, hs]

/-! ### The word 0 -/

/-- The word 0 copies d0 onto itself. -/
theorem runWord_zero {s : State} {n k : Nat} (ho : (s.case n k).otherBad = false) (hd : (s.case n k).dBad = 0) :
    s.runWord n k (.code 0 0) = .done (s.onCase n k (·.setD 0 ((s.case n k).dreg 0))) := by
  have moves : CodeWord.moves (.code 0 0) = some [{ long := true, guard := 0, src := .sock 0, dst := 0 }] := by decide
  have guards : (s.case n k).guardBad [{ long := true, guard := 0, src := .sock 0, dst := 0 }] = false := by
    simp [Casement.guardBad, Casement.guardBit]
  have reads : s.readSrc n k (.sock 0) = .val ((s.case n k).dreg 0) := by
    simp [State.readSrc, sockOf, hd, State.readReg, inR]
  have control : isControl 0 = false := rfl
  have writes (v : Word) : s.writeSock n k 0 v = s.onCase n k (·.setD 0 v) := rfl
  have fires (t : State) (v : Word) : t.fire n k 4 0 v = .done t := rfl
  unfold State.runWord
  simp only [moves, ho, guards, Bool.or_self, Bool.false_eq_true, if_false, Casement.liveMoves, Casement.guardTrue, Bool.not_true,
    if_true, List.any_cons, List.any_nil, control, Bool.or_false, Bool.and_false, State.readAll, reads, State.writeAll, writes,
    State.fireAll, CodeWord.bytes]
  rfl

/-- The word 0 in a calm casement is past, and the data registers are as they were. -/
theorem State.issueWord_zero {s : State} {n k : Nat} (hcalm : s.calm n k = true) (ha : (s.reg n k).asyncNow = false)
    (ho : (s.reg n k).otherBad = false) (hd : (s.reg n k).dBad = 0) :
    let t := s.issueWord n k (.code 0 0)
    (t.case n k).pc = (s.case n k).pc + 4 ∧ (t.case n k).icount = (s.case n k).icount + 1 ∧ t.mem = s.mem ∧
      ∀ j, (t.case n k).dreg j = (s.case n k).dreg j := by
  have ran := runWord_zero (s := s.arrivals n k) (n := n) (k := k) ho hd
  have course := s.reg_course n k
  simp only [Casement.course, Prod.mk.injEq] at course
  obtain ⟨-, -, -, -, -, -, -, -, hregs, hpc, hcount⟩ := course
  have word : s.issueWord n k (.code 0 0) = (((s.arrivals n k).onCase n k (·.setD 0 ((s.reg n k).dreg 0))).commit
      (s.arrivals n k) n k (.code 0 0)) := by
    have now : ((s.arrivals n k).case n k).asyncNow = false := ha
    simp only [State.issueWord, now, Bool.false_and, Bool.false_eq_true, if_false, ran]
    rfl
  have wrote (p : Nat → Bool) (hp : p 0 = false) : (s.arrivals n k).wrote n k (.code 0 0) p = false := by
    have moves : CodeWord.moves (.code 0 0) = some [{ long := true, guard := 0, src := .sock 0, dst := 0 }] := by decide
    unfold State.wrote
    rw [moves]
    simp [Casement.liveMoves, Casement.guardTrue, hp]
  have issued := State.commit_issued ((s.arrivals n k).onCase n k (·.setD 0 ((s.reg n k).dreg 0))) (w := .code 0 0) rfl
    (wrote _ rfl) (fun _ => wrote _ rfl) hcalm
  have set : ((s.arrivals n k).onCase n k (·.setD 0 ((s.reg n k).dreg 0))).case n k = (s.reg n k).setD 0 ((s.reg n k).dreg 0) :=
    (case_onCase ..).trans (if_pos ⟨rfl, rfl⟩)
  intro t
  have ht : t = _ := word
  clear_value t
  subst ht
  refine ⟨issued.pc.1.trans (by rw [hpc]), ?_, ?_, fun j => ?_⟩
  · rw [issued.pc.2, set, Casement.setD_icount, hcount]
  · exact (issued.block (·.mem) (by intros; rfl)).trans ((State.onCase_mem ..).trans (State.arrivals_mem s n k))
  · rw [issued.reg (·.dreg j) (by intros; rfl), set, dreg_setD]
    have reg (i : Nat) : (s.reg n k).dreg i = (s.case n k).dreg i := by rw [Casement.dreg, hregs, Casement.dreg]
    split
    · next h => rw [h, reg]
    · exact reg j

/-! ### The fetch of a word -/

/-- A word of uncached code in the core's own bank. -/
theorem State.fetch4_here {s : State} {n k va : Nat} {x : Xl} (hva : va % 4 = 0) (hx : s.xlateWord n k va .fetch = .inl x)
    (htype : x.type ≠ .cached) (h : s.sound n x.pa 4) :
    s.fetch4 n k va = .word (s.touchTlb n x.tag x.ia) (BitVec.ofNat 32 (leToNat (s.bytes x.pa 4))) := by
  have touched := Touched.touchTlb s n x.tag x.ia
  have read := State.readPa_sound (touched.sound h)
  have near : (s.touchTlb n x.tag x.ia).near n x.pa = true := by
    obtain ⟨⟨off, hplace, -⟩, -⟩ := h
    rw [touched.near, State.near, hplace]
    simp
  have bytes : (s.touchTlb n x.tag x.ia).bytes x.pa 4 = s.bytes x.pa 4 := State.bytes_of_mem touched.storage.1 _ _
  have uncached : (x.type == .cached) = false := by simpa using htype
  simp only [State.fetch4, hva, hx, uncached, near, read, bytes]
  rfl

theorem exec_instructionWord_here {core : CoreId} {s : State} {k : Nat} {x : Xl} (hissuer : s.issuer core.val = some k)
    (hwait : (s.case core.val k).waiting = none) (hskip : (s.case core.val k).skip = false)
    (hva : (s.case core.val k).pc.toNat % 4 = 0) (hx : s.xlateWord core.val k (s.case core.val k).pc.toNat .fetch = .inl x)
    (htype : x.type ≠ .cached) (h : s.sound core.val x.pa 4) (hlen : wordBytes (BitVec.ofNat 32 (leToNat (s.bytes x.pa 4))) = 4) :
    exec (.instructionWord core) s = .next ((s.touchTlb core.val x.tag x.ia).issueWord core.val k
      (.code (BitVec.ofNat 32 (leToNat (s.bytes x.pa 4))) 0)) := by
  show (.next (s.fetchIssue core.val) : Out) = _
  simp only [State.fetchIssue, hissuer, hwait, State.issueNext, hskip, Bool.false_eq_true, if_false, State.withWord,
    State.fetch4_here hva hx htype h, hlen]
  exact congrArg (fun t => (.next t : Out)) (if_neg (by decide))

theorem isControl_data {sock : Nat} (h : sock < 32) : isControl sock = false := by
  simp only [isControl, inR, Bool.or_eq_false_iff, Bool.and_eq_false_iff, decide_eq_false_iff_not, beq_eq_false_iff_ne]
  omega

theorem State.writeSock_data {sock : Nat} (s : State) (n k : Nat) (h : sock < 32) (v : Word) :
    s.writeSock n k sock v = s.onCase n k (·.setD sock v) := by
  have reg : sockOf sock = some .reg := if_pos h
  unfold State.writeSock
  rw [reg]
  exact if_pos h

/-! ### Waits -/

section
variable {core : CoreId} {s : State} {k : Nat} (hissuer : s.issuer core.val = some k)
include hissuer

theorem State.heldWord_some {w : Waiting} (h : (s.case core.val k).waiting = some w) : s.heldWord core.val = some (k, w) := by
  simp [State.heldWord, hissuer, h]

theorem State.heldWord_none (h : (s.case core.val k).waiting = none) : s.heldWord core.val = none := by
  simp [State.heldWord, hissuer, h]

omit hissuer in
/-- A word that waits for something other than its own fetch is carried out again. -/
theorem State.retry_word (s : State) (n k : Nat) (w : Waiting) (h : (w.kind == .fetch) = false) :
    s.retry n k w = s.issueWord n k w.word := if_neg (by rw [h]; decide)

/-- A command that issues a move leaves a core whose word waits as it is. -/
theorem State.issueMove_held (h : (s.case core.val k).waiting ≠ none) (sock : Nat) (v : Word) : s.issueMove core.val sock v = s := by
  simp [State.issueMove, hissuer, Option.isSome_iff_ne_none.2 h]

theorem exec_resultDelivery : exec (.resultDelivery core) s = .next (s.arrivals core.val k) := by
  have parts : s.coreOn core.val = true ∧ (s.core core.val).running = some k := by
    unfold State.issuer at hissuer
    dsimp only at hissuer
    split at hissuer
    · next h =>
      simp only [Bool.and_eq_true] at h
      refine ⟨h.1.1.1, ?_⟩
      split at hissuer
      · cases hissuer
      · next hr =>
        split at hissuer
        · cases hissuer
        · rw [hr]; exact hissuer
    · cases hissuer
  have power : s.hasPower core.val = true := by
    have on := parts.1
    simp only [State.coreOn, State.clusterOn, Bool.and_eq_true] at on
    simp only [State.hasPower, on.1, on.2, Bool.true_and, Bool.true_or]
  show execResultDelivery core s = _
  simp only [execResultDelivery, power, Bool.not_true, Bool.false_eq_true, if_false, parts.2]

end

/-- A register image other than that of the running word is touched by no fetch ahead. -/
theorem State.aheadLine_regs (s : State) (n k va : Nat) : (s.aheadLine n k va).regs = s.regs := by
  unfold State.aheadLine
  extract_lets job
  split
  · next h => rw [← State.xlateNow_regs s n (.ahead true ((s.case n k).extFor .fetch va) job) (s.case n k) va .fetch false false, h]
  · next h =>
    have same := State.xlateNow_regs s n (.ahead true ((s.case n k).extFor .fetch va) job) (s.case n k) va .fetch false false
    rw [h] at same
    split
    · exact same
    · rw [State.aheadWant_regs, same]
  · rfl

theorem execFetchAhead_regs (core : CoreId) (s : State) :
    ∃ t : State, exec (.fetchAhead core) s = .next t ∧ t.mem = s.mem ∧ t.regs = s.regs := by
  show ∃ t : State, execFetchAhead core s = .next t ∧ _
  unfold execFetchAhead
  split
  · exact ⟨s, rfl, rfl, rfl⟩
  · extract_lets c s1
    have mem : s1.mem = s.mem := by simp only [s1, State.aheadLine_mem]
    have regs : s1.regs = s.regs := by simp only [s1, State.aheadLine_regs]
    split
    · exact ⟨s1, rfl, mem, regs⟩
    · exact ⟨_, rfl, by rw [State.aheadLine_mem, mem], by rw [State.aheadLine_regs, regs]⟩

end Sys2Proof.Machine

open Sys2Proof Sys2Proof.Machine

/-- Settles O40, by the row: a fetch of uncached code, a write of a data register, a wait's end, what is due. -/
theorem issueRows : Obligations.IssueRows := by
  refine ⟨⟨?fetch, ?again, ?write⟩, ?waits⟩
  case fetch =>
    intro core s k x hissuer hwait hskip n pc w hva hx htype hsound hlen
    have touched := Touched.touchTlb s n x.tag x.ia
    refine ⟨s.touchTlb n x.tag x.ia, exec_instructionWord_here hissuer hwait hskip hva hx htype hsound hlen, touched.storage.1,
      touched.case, fun hzero hcalm ha ho hd => ?_⟩
    have course : ((s.touchTlb n x.tag x.ia).case n k).course = (s.case n k).course := by rw [touched.case]
    have reg : ((s.touchTlb n x.tag x.ia).reg n k).course = (s.reg n k).course := by
      rw [State.reg_course, State.reg_course, course]
    have calm : (s.touchTlb n x.tag x.ia).calm n k = true := (State.calm_of_course course).trans hcalm
    simp only [Casement.course, Prod.mk.injEq] at reg
    obtain ⟨-, -, hfirst, -, -, ⟨hdue, hfails⟩, hother, hbad, -⟩ := reg
    rw [hzero]
    obtain ⟨hpc, hcount, hmem, hd⟩ := State.issueWord_zero calm (by simpa only [Casement.asyncNow, hfirst, hdue, hfails] using ha)
      (hother.trans ho) (hbad.trans hd)
    rw [touched.case] at hpc hcount
    exact ⟨hpc, hcount, hmem.trans touched.storage.1, fun j => (hd j).trans (by rw [touched.case])⟩
  case again =>
    intro core s k hissuer
    have target : exec (.transferTargetIssue core) s = match (s.case core.val k).xfer with
        | none => .next s
        | some x => if x.slots == 0 then .next (s.fetchIssue core.val) else .next s := by
      show execTransferTargetIssue core s = _
      simp only [execTransferTargetIssue, hissuer] <;> rfl
    have body : exec (.repeatBodyExecution core) s =
        if (s.case core.val k).inBody then .next (s.fetchIssue core.val) else .next s := by
      show execRepeatBodyExecution core s = _
      simp only [execRepeatBodyExecution, hissuer]
    refine ⟨fun y hy hslots => ?_, fun hnone => ?_, fun h => ?_, fun h => ?_⟩
    · rw [target, hy]; exact if_pos (by simp [hslots])
    · rw [target, hnone]
    · rw [body, if_pos h]; rfl
    · rw [body, if_neg (by simp [h])]
  case write =>
    intro core sock v s k h hsock
    have reg : sockOf sock.toNat = some .reg := if_pos hsock
    have fires (t : State) : t.fire core.val k 4 sock.toNat v = .done t := by simp [State.fire, trigUnit, reg]
    have control : isControl sock.toNat = false := isControl_data hsock
    exact (issueMove_write h (by omega) reg fires control).trans (by rw [State.writeSock_data _ _ _ hsock v, State.changes])
  case waits =>
    intro core s k hissuer n
    refine ⟨fun w hw => ?_, fun w hw => ?_, fun w hw => ?_, fun hnone => ?_, fun sock v w hw => ?_, ?_, ?_⟩
    · have held := State.heldWord_some hissuer hw
      constructor
      · show execReadWaitResume core s = _
        simp only [execReadWaitResume, held]
        exact (if_pos rfl).trans (congrArg (fun t => (.next t : Out)) (State.retry_word s n k ⟨.read, w⟩ rfl))
      · show execTriggerWaitResume core s = _
        simp only [execTriggerWaitResume, held]
    · have held := State.heldWord_some hissuer hw
      constructor
      · show execTriggerWaitResume core s = _
        simp only [execTriggerWaitResume, held]
        exact congrArg (fun t => (.next t : Out)) (State.retry_word s n k ⟨.trigger, w⟩ rfl)
      · show execReadWaitResume core s = _
        simp only [execReadWaitResume, held]
        exact if_neg (by decide)
    · have held := State.heldWord_some hissuer hw
      have core : (s.clearBusy n).core n = { s.core n with divLeft := 0, vxuLeft := 0 } := (core_onCore ..).trans (if_pos rfl)
      refine ⟨s.clearBusy n, ?_, by rw [core], by rw [core], rfl, State.case_onCore_keeps (by intro; rfl) s n, fun m hm => ?_⟩
      · show execTriggerWaitResume _ s = _
        simp only [execTriggerWaitResume, held]
        exact congrArg (fun t => (.next t : Out)) (State.retry_word (s.clearBusy n) n k ⟨.busy, w⟩ rfl)
      · exact (core_onCore ..).trans (if_neg hm)
    · have held := State.heldWord_none hissuer hnone
      constructor
      · show execReadWaitResume core s = _
        simp only [execReadWaitResume, held]
      · show execTriggerWaitResume core s = _
        simp only [execTriggerWaitResume, held]
    · exact ⟨congrArg (fun t => (.next t : Out)) (State.issueMove_held hissuer hw _ _), congrArg (fun t => (.next t : Out)) (State.issueMove_held hissuer hw _ _)⟩
    · refine ⟨_, exec_resultDelivery hissuer, State.arrivals_mem s n k, fun hnone => ?_⟩
      have swept : s.tlbiSweep core.val = s := by
        rw [State.tlbiSweep, show (s.core core.val).tlbiOpen = [] from hnone, List.foldl_nil]
      rw [State.arrivals, swept]
    · obtain ⟨t, ht, hmem, hregs⟩ := execFetchAhead_regs core s
      exact ⟨t, ht, hmem, fun m j => State.case_of_regs hregs m j⟩

end

section
/-! PROOF. Clusters that lose their state. -/

set_option Elab.async false

namespace Sys2Proof.Machine

/-! ### Clusters that lose their state -/

/-- Core 0 is listed twice: the entry that counts is not locked up, the one behind it is. Its cluster's domain is in state d. -/
def lockedBehind (d : DomSt) (mail : Mail) : State :=
  { State.reset with
    beat := { running := true }, start := { phase := 7, filled := true, classified := true, libReady := true }
    clusters := [(0, { dst := d, released := true })], mail := mail
    cores := [(0, {}), (0, { lockCause := 3 })] }

/-- The lockup cause of core 0. -/
def Out.locked (out : Out) : BitVec 4 :=
  match out with
  | .next t => (t.core 0).lockCause
  | _ => 0

/-- Mailbox 0 asks MP1 to switch cluster 0 on. -/
def switchesOn : Mail where
  boxes := [(0, { st := .taken, opcode := 0x12, len := 8, payload := [(0, 0), (1, 0), (2, 1)] })]
  work := [(0, { owner := 1, op := 0x12, arg := 0 })]

theorem lockedBehind_fences : (lockedBehind .fencing {}).live = true ∧ ((lockedBehind .fencing {}).cluster 0).dst = .fencing ∧
    ((lockedBehind .fencing {}).cluster 0).released = true ∧ (∀ n ∈ (lockedBehind .fencing {}).banksOf 0, ((lockedBehind .fencing {}).engine n).ready = [] ∧
      ((lockedBehind .fencing {}).engine n).held = []) := by decide +kernel

/-- What the cluster loses is listed entry by entry: the locked entry stays and now counts. -/
theorem lockedBehind_fenced : Out.locked (exec (.clusterFenceComplete 0) (lockedBehind .fencing {})) = 3 := by decide +kernel

theorem lockedBehind_off : (lockedBehind .off switchesOn).startable 0 0x12 = true ∧
    ((lockedBehind .off switchesOn).box 0).req 2 1 = 1 ∧ ((lockedBehind .off switchesOn).box 0).req 0 2 < 160 ∧
    ((lockedBehind .off switchesOn).cluster (((lockedBehind .off switchesOn).box 0).req 0 2)).dst = .off ∧
    0 / 64 = ((lockedBehind .off switchesOn).box 0).req 0 2 := by decide +kernel

theorem lockedBehind_waking : Out.locked (exec (.domainSwitchOn 0) (lockedBehind .off switchesOn)) = 3 := by decide +kernel

end Sys2Proof.Machine

open Sys2Proof Sys2Proof.Machine

/-- Refutes O52: of a core that the table lists twice, first without a lockup, then with one, the fence drops the first entry
alone, so that a cluster gone OFF has a core with a lockup cause it did not have. -/
theorem not_drainRows : ¬ Obligations.DrainRows := by
  intro h
  obtain ⟨live, fencing, released, banks⟩ := lockedBehind_fences
  obtain ⟨-, fence, -⟩ := h.2 0 (lockedBehind .fencing {}) live
  obtain ⟨t, ht, -, -, -, core, -⟩ := fence fencing (.inl released) banks
  have locked := lockedBehind_fenced
  rw [ht] at locked
  have kept : (t.core 0).lockCause = 0 := by rw [core 0 rfl]; rfl
  exact absurd (locked.symm.trans kept) (by decide)

/-- Refutes O57: of a core that the table lists twice, first without a lockup, then with one, the switch drops the first entry
alone, so that a cluster switched on has a core with a lockup cause it did not have. -/
theorem not_controlCommands : ¬ Obligations.ControlCommands := by
  intro h
  obtain ⟨startable, on, field, off, zero⟩ := lockedBehind_off
  obtain ⟨-, switch, -⟩ := h 0 (lockedBehind .off switchesOn)
  obtain ⟨-, -, -, wakes, -⟩ := switch startable
  obtain ⟨u, hu, -, core⟩ := wakes on field off
  have locked := lockedBehind_waking
  rw [show exec _ _ = _ from hu] at locked
  have kept : (u.core 0).lockCause = 0 := by rw [core 0 zero]; rfl
  exact absurd (locked.symm.trans kept) (by decide)

end

section
/-! PROOF. Link control. -/

set_option Elab.async false

namespace Sys2Proof.Machine

/-! ### What the retry notice and the records leave of the links -/

@[simp] theorem State.countOrder_links (s : State) (k : EngAt) (c : Nat) : (s.countOrder k c).links = s.links := by
  simp only [State.countOrder]; (repeat' split) <;> simp
@[simp] theorem State.setEng_links (s : State) (k : EngAt) (e : Engine) : (s.setEng k e).links = s.links := by
  unfold State.setEng; split <;> simp
@[simp] theorem State.wakeHeld_links (s : State) (k : EngAt) (el : Nat × Nat) : (s.wakeHeld k el).links = s.links := by
  simp [State.wakeHeld]
@[simp] theorem State.noticeStart_links (s : State) : s.noticeStart.links = s.links :=
  foldl_keeps (·.links) (fun _ k => foldl_keeps (·.links) (fun u el => State.wakeHeld_links u k el) _ _) _ _
@[simp] theorem State.noticeEnd_links (s : State) : s.noticeEnd.links = s.links :=
  foldl_keeps (·.links) (fun t k => State.setEng_links t k _) _ _
@[simp] theorem State.addHistory_links (s : State) (u k g : Nat) (f : Bool) (c : BitVec 32) :
    (s.addHistory u k g f c).links = s.links := rfl
@[simp] theorem State.startDrain_links (s : State) (c : DrainCause) (u : Nat) : (s.startDrain c u).links = s.links := by
  unfold State.startDrain; simp only []; split <;> rfl
@[simp] theorem State.makePermanent_links (s : State) (u : Nat) : (s.makePermanent u).links = s.links := by
  unfold State.makePermanent; split <;> rfl
@[simp] theorem State.record_links (s : State) (u k g : Nat) (r : Bool) : (s.record u k g r).links = s.links := by
  simp only [State.record]
  repeat' split
  all_goals simp

/-! ### One module among the links -/

theorem State.link_onLink (s : State) (k m : Nat) (f : Link → Link) : (s.onLink k f).link m = if m = k then f (s.link k) else s.link m :=
  tabGet_tabSet _ _ _ _ _

theorem State.link_onLink_same (s : State) (k : Nat) (f : Link → Link) : (s.onLink k f).link k = f (s.link k) :=
  (State.link_onLink s k k f).trans (if_pos rfl)

theorem State.link_of_links {s t : State} (h : t.links = s.links) (k : Nat) : t.link k = s.link k := by
  rw [State.link, h, State.link]

/-- A response that nobody is to have. -/
theorem State.comesBack_none (s : State) (st : RStat) (bs : List Byte) : s.comesBack .none st bs = s := rfl

/-- R316: what a reset leaves of a module that has no request outstanding. -/
theorem State.resetLink_link {s : State} {k : Nat} (hst : (s.link k).st = .up ∨ (s.link k).st = .training) (hreqs : (s.link k).reqs = []) :
    ((s.resetLink k).link k).st = .resetting ∧ ((s.resetLink k).link k).waiting = [] ∧ ((s.resetLink k).link k).replay = [] ∧
      ((s.resetLink k).link k).held = [] ∧ ((s.resetLink k).link k).resets = bump (s.link k).resets ∧
      (s.resetLink k).mem = s.mem := by
  have order : (s.link k).reqOrder = [] := by simp [Link.reqOrder, hreqs]
  have live : ¬ ((s.link k).st == .off || (s.link k).st == .resetting) = true := by
    rcases hst with h | h <;> simp [h]
  unfold State.resetLink
  extract_lets l rs s1 s2 s3
  rw [if_neg live]
  have none : s3 = s2 := by simp only [s3, rs, l, order, List.foldl_nil]
  have parts : s2.links = s1.links ∧ s2.mem = s.mem := by
    simp only [s2]
    split
    · exact ⟨by simp, by simp [s1]⟩
    · exact ⟨rfl, rfl⟩
  rw [none, State.link_of_links ((State.addLog_links ..).trans parts.1) k, State.link_onLink_same]
  exact ⟨rfl, rfl, rfl, rfl, rfl, parts.2⟩

/-- With nothing owed and nothing waiting there is nothing to send (R310). -/
theorem Link.pump_idle {l : Link} (howed : l.owed = []) (hwait : l.waiting = []) : l.pump = l := by
  unfold Link.pump
  split
  · rfl
  · simp only [howed, Link.payOwed, List.isEmpty_nil, if_true, hwait, Link.drainWait]
    cases l
    simp_all

theorem replayOf_length (l : List Msg) : (replayOf l).length = l.length := by
  cases h : l.getLast? with
  | none => simp [replayOf, List.getLast?_eq_none_iff.1 h]
  | some m =>
    have pos : l ≠ [] := by rintro rfl; cases h
    have := List.length_pos_iff.2 pos
    simp [replayOf, h]
    omega

/-! ### The rows of link control (R310–R312, R315, R316) -/

section
variable {m : LinkId} {s : State} (hlive : s.live = true)
include hlive

section
variable (hst : (s.link m.val).st = .up)
include hst

theorem up_here : (s.live && (s.link m.val).st == .up) = true := by simp [hlive, hst]

theorem exec_linkCrd_refused {ch : Fin 8} (u : Nat) (hch : chOk ch.val ((s.link m.val).role == 2) = false) :
    exec (.linkCrd m ch u) s = .next (s.resetLink m.val) :=
  (if_pos (up_here hlive hst)).trans (if_pos (by rw [hch]; rfl))

theorem exec_linkCrd_credit {ch : Fin 8} (u : Nat) (hch : chOk ch.val ((s.link m.val).role == 2) = true) :
    exec (.linkCrd m ch u) s = .next (s.onLink m.val fun l =>
      Link.pump { l with credits := tabSet 0 l.credits ch.val (tabGet 0 l.credits ch.val + u) }) :=
  (if_pos (up_here hlive hst)).trans (if_neg (by rw [hch]; decide))

/-- R312: LACK frees what it names. -/
theorem exec_linkLack_frees (seq : BitVec 24) (hwait : (s.link m.val).waiting = []) (howed : (s.link m.val).owed = []) :
    ∃ t : State, exec (.linkLack m seq) s = .next t ∧
      (t.link m.val).replay = (s.link m.val).replay.filter (fun x => 2 ^ 23 ≤ (seq - x.seq).toNat) ∧
      (t.link m.val).wire = (s.link m.val).wire ∧ t.mem = s.mem := by
  have kept : (fun x : Msg => decide (2 ^ 23 ≤ (seq - x.seq).toNat)) = fun x => !seqLe x.seq seq := by
    funext x
    simp only [seqLe, ← decide_not, Nat.not_lt]
  refine ⟨_, if_pos (up_here hlive hst), ?_⟩
  rw [State.link_onLink_same, kept]
  split
  · next hnone =>
    rw [Link.pump_idle howed hwait]
    refine ⟨(List.filter_eq_self.2 fun x hx => ?_).symm, rfl, by simp⟩
    have not : x ∉ (s.link m.val).replay.filter fun x => seqLe x.seq seq := by
      rw [List.isEmpty_iff.1 hnone]; exact List.not_mem_nil
    simpa [hx] using not
  · rw [State.link_onLink_same, Link.pump_idle (by exact howed) (by exact hwait)]
    exact ⟨rfl, rfl, by simp⟩

theorem exec_linkNak_replays {seq : BitVec 24} {x : Msg} {rest : List Msg} (hstalls : (s.link m.val).stalls < 8)
    (hgo : (s.link m.val).replay.filter (fun y => (y.seq - seq).toNat < 2 ^ 23) = x :: rest) :
    ∃ t : State, exec (.linkNak m seq) s = .next t ∧ s.replayFrom m.val seq = t ∧ (t.link m.val).replays = bump (s.link m.val).replays ∧
      (t.link m.val).stalls = (s.link m.val).stalls + 1 ∧ (t.link m.val).replay = (s.link m.val).replay ∧
      (t.link m.val).wire.length = (s.link m.val).wire.length + (x :: rest).length := by
  have go : ((s.link m.val).replay.filter fun m => seqLe seq m.seq) = x :: rest := hgo
  refine ⟨_, if_pos (up_here hlive hst), rfl, ?_⟩
  unfold State.replayFrom
  extract_lets l list
  have hlist : list = x :: rest := go
  rw [if_neg (by simp [hlist]), if_neg (by simpa [l] using hstalls), State.link_onLink_same]
  refine ⟨rfl, rfl, rfl, ?_⟩
  rw [List.length_append, replayOf_length, hlist]

theorem exec_replayTimeout_from {x : Msg} (hx : (s.link m.val).replay.head? = some x) :
    exec (.replayTimeout m) s = .next (s.replayFrom m.val x.seq) := by
  refine (if_pos (up_here hlive hst)).trans ?_
  cases h : (s.link m.val).replay with
  | nil => rw [h] at hx; cases hx
  | cons y rest => rw [h] at hx; cases hx; rfl

theorem State.replayFrom_resets {x : Msg} (hstalls : 8 ≤ (s.link m.val).stalls) (hx : (s.link m.val).replay.head? = some x) :
    s.replayFrom m.val x.seq = s.resetLink m.val := by
  have mem : x ∈ (s.link m.val).replay.filter fun m => seqLe x.seq m.seq :=
    List.mem_filter.2 ⟨List.mem_of_mem_head? hx, by simp [seqLe]⟩
  unfold State.replayFrom
  extract_lets l list
  have mem : x ∈ list := mem
  rw [if_neg (by intro h; rw [List.isEmpty_iff.1 h] at mem; cases mem), if_pos hstalls]

end

end

section
variable {m : LinkId} {s : State} (hlive : s.live = true)
include hlive

/-- R315: a request that times out leaves its module; nobody waits for it. -/
theorem execRequestTimeout_leaves {i : Nat} {r : LinkReq} (hst : (s.link m.val).st = .up) (hr : (s.link m.val).reqs[i]? = some r)
    (hsent : r.sent = true) (hfirst : ∀ x ∈ (s.link m.val).reqs.take i, x.sent = false ∨ x.msg.ch ≠ r.msg.ch) (hret : r.ret = .none)
    (hwait : (s.link m.val).waiting = []) (hstrict : r.msg.strict = false) :
    ∃ t : State, exec (.requestTimeout m i) s = .next t ∧ (t.link m.val).reqs = dropAt (s.link m.val).reqs i ∧
      (t.link m.val).tmo = bump (s.link m.val).tmo ∧ t.mem = s.mem := by
  have first : ((s.link m.val).reqs.take i).any (fun x => x.sent && x.msg.ch == r.msg.ch) = false := by
    rw [List.any_eq_false]
    intro x hx
    rcases hfirst x hx with h | h <;> simp [h]
  have none : voidsOf r.msg = [] := by simp [voidsOf, hstrict]
  show ∃ t : State, execRequestTimeout m i s = .next t ∧ _
  simp only [execRequestTimeout, hr]
  rw [if_pos (by simp [hlive, hst, hsent, first]), hret, State.comesBack_none]
  simp only [none, List.foldl_nil]
  refine ⟨_, rfl, ?_, ?_, State.onLink_mem ..⟩ <;> rw [State.link_onLink_same]

/-- R316 step 7: a module that has retrained comes up with nothing sent and nothing received. -/
theorem execModuleRetrainComplete_up {rate : BitVec 3} (d : Bool) (hst : (s.link m.val).st = .resetting ∨ (s.link m.val).st = .training)
    (hin : (s.link m.val).inbound = []) (howed : (s.link m.val).owed = []) (hrate : rate.toNat < 6) :
    ∃ t : State, exec (.moduleRetrainComplete m rate d) s = .next t ∧ (t.link m.val).st = .up ∧ (t.link m.val).rate = rate ∧
      (t.link m.val).degr = d ∧ (t.link m.val).txSeq = 0 ∧ (t.link m.val).rxSeq = 0 ∧ (t.link m.val).replay = [] ∧ t.mem = s.mem := by
  have due : (s.live && ((s.link m.val).st == .resetting || (s.link m.val).st == .training) && s.inboundSettled m.val &&
      decide (rate < 6)) = true := by
    have settled : s.inboundSettled m.val = true := by simp [State.inboundSettled, hin]
    have slow : rate < 6 := hrate
    rcases hst with h | h <;> simp only [hlive, h, settled, decide_eq_true slow] <;> rfl
  refine ⟨_, if_pos due, ?_⟩
  rw [State.link_onLink_same, Link.comeUp, Link.pump_idle (by exact howed) rfl]
  exact ⟨rfl, rfl, rfl, rfl, rfl, rfl, rfl⟩

/-- R316: a module that has not retrained goes OFF; what it owes goes to another module or stays. -/
theorem execModuleRetrainTimeout_off (hst : (s.link m.val).st = .resetting) :
    ∃ t : State, exec (.moduleRetrainTimeout m) s = .next t ∧ (t.link m.val).st = .off ∧ t.mem = s.mem := by
  refine ⟨_, if_pos (by simp [hlive, hst]), ?_⟩
  refine List.foldlRecOn (motive := fun u : State => (u.link m.val).st = .off ∧ u.mem = s.mem) _ _
    ⟨by rw [State.link_onLink_same], rfl⟩ fun u hu v _ => ?_
  obtain ⟨hoff, hmem⟩ := hu
  split
  · next j hj =>
    have other : (j != m.val && (u.link j).st == .up) = true := List.find?_some (p := fun j => j != m.val && (u.link j).st == .up) hj
    simp only [Bool.and_eq_true, bne_iff_ne] at other
    exact ⟨by rw [State.link_onLink, if_neg other.1.symm]; exact hoff, hmem⟩
  · exact ⟨by rw [State.link_onLink_same]; exact hoff, hmem⟩

/-- R302: a route entry that waits is written once nothing that went the old way is outstanding. -/
theorem execRouteEntryUpdate_writes {i b : Nat} {v : BitVec 64} (hnext : s.routeNext[i]? = some (b, v))
    (hclear : s.routeClear b ((tabGet 0 s.routes b).toNat % 2 ^ 16) = true) :
    ∃ t : State, exec (.routeEntryUpdate i) s = .next t ∧ (∀ c, tabGet 0 t.routes c = if c = b then v else tabGet 0 s.routes c) ∧
      t.routeNext = dropAt s.routeNext i ∧ t.mem = s.mem := by
  have field : fld (tabGet 0 s.routes b) 0 16 = (tabGet 0 s.routes b).toNat % 2 ^ 16 := by rw [fld_eq_div_mod]; simp
  refine ⟨{ s with routes := tabSet 0 s.routes b v, routeNext := dropAt s.routeNext i }, ?_, fun c => tabGet_tabSet _ _ _ _ _, rfl, rfl⟩
  show execRouteEntryUpdate i s = _
  simp only [execRouteEntryUpdate, hnext]
  exact if_pos (by rw [hlive, field, hclear]; rfl)

end

/-! ### Messages out of turn (R304, R312, R313) -/

/-- The sequenced messages that a row receives, each with its type. -/
def sequenced (m : LinkId) (msg : Msg) : List (Instr × Nat) :=
  [(.linkPut m msg, 1), (.linkGet m msg, 2), (.linkAccp m msg, 3), (.linkSignal m msg, 4), (.linkGetr m msg, 5), (.linkAck m msg, 6),
    (.linkVoid m msg, 7), (.linkHreq m msg, 0xB), (.linkDbell m msg, 0xD), (.linkEsc m msg, 0xE)]

theorem exec_sequenced {m : LinkId} {msg : Msg} {i : Instr} {ty : Nat} (h : (i, ty) ∈ sequenced m msg) (s : State) :
    ∃ f, exec i s = .next (s.linkIn m.val ty msg f) := by
  simp only [sequenced, List.mem_cons, Prod.mk.injEq, List.not_mem_nil, or_false] at h
  rcases h with ⟨rfl, rfl⟩ | ⟨rfl, rfl⟩ | ⟨rfl, rfl⟩ | ⟨rfl, rfl⟩ | ⟨rfl, rfl⟩ | ⟨rfl, rfl⟩ | ⟨rfl, rfl⟩ | ⟨rfl, rfl⟩ | ⟨rfl, rfl⟩ |
    ⟨rfl, rfl⟩ <;> exact ⟨_, rfl⟩

/-- R304: a message of type ty is well formed for a module of its role. -/
def Link.wellFormed (l : Link) (ty : Nat) (msg : Msg) : Prop :=
  msg.type ≠ 0 ∧ msg.type ≠ 15 ∧ msgFieldsOk { msg with type := BitVec.ofNat 4 ty } ty (l.role == 2) = true

section
variable {s : State} {k ty : Nat} {msg : Msg} {f : State → Msg → State} (hlive : s.live = true) (hst : (s.link k).st = .up)
include hlive hst

theorem State.linkIn_corrupt (hc : msg.corrupt = true) : s.linkIn k ty msg f = (s.record (unitLink k) 3 0).linkGap k := by
  unfold State.linkIn
  extract_lets l reserved q
  rw [if_neg (by simp [hlive, l, hst])]
  exact if_pos hc

theorem State.linkIn_malformed (hc : msg.corrupt = false) (hok : ¬ (s.link k).wellFormed ty msg) :
    s.linkIn k ty msg f = s.resetLink k := by
  unfold State.linkIn
  extract_lets l reserved q
  rw [if_neg (by simp [hlive, l, hst]), if_neg (by simp [q, hc]), if_pos]
  simp only [Link.wellFormed] at hok
  simp only [reserved, q, l, Bool.or_eq_true, beq_iff_eq, Bool.not_eq_true']
  by_contra hno
  simp only [not_or, Bool.not_eq_false] at hno
  exact hok ⟨hno.1.1, hno.1.2, hno.2⟩

theorem State.linkIn_turn (hc : msg.corrupt = false) (hok : (s.link k).wellFormed ty msg) (hne : msg.seq ≠ (s.link k).rxSeq) :
    s.linkIn k ty msg f = if seqLe msg.seq (s.link k).rxSeq then s else s.linkGap k := by
  obtain ⟨h0, h15, hfields⟩ := hok
  unfold State.linkIn
  extract_lets l reserved q
  rw [if_neg (by simp [hlive, l, hst]), if_neg (by simp [q, hc]), if_neg, if_neg]
  · simpa [q, l] using hne
  · simp only [reserved, q, l, Bool.or_eq_true, beq_iff_eq, Bool.not_eq_true', not_or]
    exact ⟨⟨h0, h15⟩, by rw [hfields]; decide⟩

end

/-- R312: the first message that cannot be taken asks for a replay and begins the notice; a further one does nothing. -/
theorem State.linkGap_again (s : State) (k : Nat) (h : (s.link k).gap = true) : s.linkGap k = s := if_pos h

theorem State.linkGap_first (s : State) (k : Nat) (h : (s.link k).gap = false) :
    ((s.linkGap k).link k).gap = true ∧ ((s.linkGap k).link k).retry = true ∧ ((s.linkGap k).link k).rxSeq = (s.link k).rxSeq ∧
      ((s.linkGap k).link k).wire = (s.link k).wire ++ [nakMsg (s.link k).rxSeq] := by
  unfold State.linkGap
  extract_lets l s1
  rw [if_neg (by simp [l, h])]
  have links : (if l.retry = true then s1 else s1.noticeStart).links = s1.links := by
    split
    · rfl
    · simp
  rw [State.link_of_links links k, State.link_onLink_same]
  exact ⟨rfl, rfl, rfl, rfl⟩

/-- What a message that is not the next one, or is none at all, does. -/
theorem exec_outOfTurn {m : LinkId} {msg : Msg} {i : Instr} {ty : Nat} {s : State} (hmem : (i, ty) ∈ sequenced m msg)
    (hlive : s.live = true) (hst : (s.link m.val).st = .up) :
    let l := s.link m.val
    (msg.corrupt = false → l.wellFormed ty msg → 1 ≤ (l.rxSeq - msg.seq).toNat → (l.rxSeq - msg.seq).toNat < 2 ^ 23 →
      exec i s = .next s) ∧
    ((msg.corrupt = true ∨ (l.wellFormed ty msg ∧ 2 ^ 23 ≤ (l.rxSeq - msg.seq).toNat)) →
      (l.gap = true → msg.corrupt = false → exec i s = .next s) ∧
      (l.gap = true → ∃ t : State, exec i s = .next t ∧ t.link m.val = l ∧ t.mem = s.mem) ∧
      (l.gap = false → ∃ t : State, exec i s = .next t ∧ (t.link m.val).gap = true ∧ (t.link m.val).retry = true ∧
        (t.link m.val).rxSeq = l.rxSeq ∧ (t.link m.val).wire = l.wire ++ [nakMsg l.rxSeq] ∧ t.mem = s.mem)) ∧
    (msg.corrupt = false → ¬l.wellFormed ty msg → l.reqs = [] → ∃ t : State, exec i s = .next t ∧ (t.link m.val).st = .resetting ∧
      (t.link m.val).resets = bump l.resets ∧ t.mem = s.mem) := by
  intro l
  obtain ⟨f, hexec⟩ := exec_sequenced hmem s
  have other (hfar : 1 ≤ (l.rxSeq - msg.seq).toNat) : msg.seq ≠ l.rxSeq := by
    rintro h; rw [h] at hfar; simp at hfar
  have recorded : (s.record (unitLink m.val) 3 0).link m.val = l := State.link_of_links (State.record_links ..) _
  refine ⟨fun hc hok hfar hnear => ?_, fun hlost => ⟨fun hgap hc => ?_, fun hgap => ?_, fun hgap => ?_⟩, fun hc hok hreqs => ?_⟩
  · rw [hexec, State.linkIn_turn hlive hst hc hok (other hfar), if_pos (by simpa [seqLe] using hnear)]
  · obtain ⟨hok, hfar⟩ := hlost.resolve_left (by simp [hc])
    rw [hexec, State.linkIn_turn hlive hst hc hok (other (by omega)), if_neg (by simpa [seqLe] using hfar), State.linkGap_again s _ hgap]
  · refine ⟨_, hexec, ?_⟩
    cases hc : msg.corrupt with
    | true =>
      rw [State.linkIn_corrupt hlive hst hc, State.linkGap_again _ _ (by rw [recorded]; exact hgap)]
      exact ⟨recorded, by simp⟩
    | false =>
      obtain ⟨hok, hfar⟩ := hlost.resolve_left (by simp [hc])
      rw [State.linkIn_turn hlive hst hc hok (other (by omega)), if_neg (by simpa [seqLe] using hfar), State.linkGap_again s _ hgap]
      exact ⟨rfl, rfl⟩
  · refine ⟨_, hexec, ?_⟩
    cases hc : msg.corrupt with
    | true =>
      rw [State.linkIn_corrupt hlive hst hc]
      obtain ⟨gap, retry, rx, wire⟩ := State.linkGap_first (s.record (unitLink m.val) 3 0) m.val (by rw [recorded]; exact hgap)
      rw [recorded] at rx wire
      exact ⟨gap, retry, rx, wire, by simp⟩
    | false =>
      obtain ⟨hok, hfar⟩ := hlost.resolve_left (by simp [hc])
      rw [State.linkIn_turn hlive hst hc hok (other (by omega)), if_neg (by simpa [seqLe] using hfar)]
      obtain ⟨gap, retry, rx, wire⟩ := State.linkGap_first s m.val hgap
      exact ⟨gap, retry, rx, wire, by simp⟩
  · refine ⟨_, hexec, ?_⟩
    rw [State.linkIn_malformed hlive hst hc hok]
    obtain ⟨st, -, -, -, resets, mem⟩ := State.resetLink_link (.inl hst) hreqs
    exact ⟨st, resets, mem⟩

/-! ### The clock at a module -/

/-- R312: the NAK of a gap that lasts is repeated. -/
theorem State.link_tick {s : State} (hlive : s.live = true) (k : Nat) : s.tick.link k = (s.link k).tick (s.now + 1) := by
  rw [State.tick, if_pos hlive]
  exact tabGet_tabMap (fun _ l => l.tick (s.now + 1)) (d := ({} : Link)) s.links k rfl

theorem Link.tick_parts (l : Link) (now : Nat) : (l.tick now).rxSeq = l.rxSeq ∧ (l.tick now).gap = l.gap ∧
    (l.tick now).wire = if l.st = .up ∧ l.gap = true ∧ l.nakAt + 1000 * l.rto.toNat ≤ now then l.wire ++ [nakMsg l.rxSeq] else l.wire := by
  unfold Link.tick
  by_cases h : (l.st == .up && l.gap && decide (l.nakAt + 1000 * l.rto.toNat ≤ now)) = true
  · rw [if_pos h, if_pos (by simpa [and_assoc] using h)]
    exact ⟨rfl, rfl, rfl⟩
  · rw [if_neg h, if_neg (by simpa [and_assoc] using h)]
    exact ⟨rfl, rfl, rfl⟩

end Sys2Proof.Machine

open Sys2Proof Sys2Proof.Machine

/-- Settles O51, by the row: what each leaves of its module; of a message out of turn, by whether it is intact and well formed,
and where its SEQ lies. -/
theorem linkControl : Obligations.LinkControl := by
  refine ⟨fun m s hlive => ?_, ?turn⟩
  case turn =>
    intro m msg s hlive hst k l i ty hmem
    exact exec_outOfTurn hmem hlive hst
  intro k l
  refine ⟨fun ch u hst hch hreqs => ?_, fun ch u hst hch hwait howed => ?_, fun seq hst hwait howed => ?_,
    fun seq x rest hst hstalls hgo => ?_, fun hnone => ?_, fun hpend => ?_, fun x hst hstalls hx hreqs => ?_, fun hst hlack => ?_,
    fun i r hst hr hsent hfirst hret hwait hstrict => ?_, fun hst hreqs => ?_, fun rate d hst hin howed hrate => ?_, fun hst => ?_,
    fun i b v hnext hclear => ?_⟩
  · obtain ⟨st, -, -, -, -, mem⟩ := State.resetLink_link (.inl hst) hreqs
    exact ⟨_, exec_linkCrd_refused hlive hst u hch, st, mem⟩
  · refine ⟨_, exec_linkCrd_credit hlive hst u hch, fun c => ?_, by simp⟩
    rw [State.link_onLink_same, Link.pump_idle (by exact howed) (by exact hwait), tabGet_tabSet]
    split
    · next h => rw [h]
    · rfl
  · exact exec_linkLack_frees hlive hst seq hwait howed
  · obtain ⟨t, ht, hfrom, hreplays, hst', hreplay, hwire⟩ := exec_linkNak_replays hlive hst hstalls hgo
    refine ⟨t, ht, hreplays, hst', hreplay, hwire, fun hhead => ?_⟩
    obtain ⟨y, hy, rfl⟩ := Option.map_eq_some_iff.1 hhead
    rw [exec_replayTimeout_from hlive hst hy, hfrom]
  · show execReplayTimeout m s = _
    unfold execReplayTimeout
    rw [show (s.link m.val).replay = [] from hnone]
    split <;> rfl
  · refine ⟨s.tick, by rw [Machine.step, hpend], State.tick_mem s, ?_⟩
    rw [State.link_tick hlive]
    exact Link.tick_parts _ _
  · refine ⟨_, exec_replayTimeout_from hlive hst hx, ?_⟩
    rw [State.replayFrom_resets hlive hst hstalls hx]
    exact (State.resetLink_link (.inl hst) hreqs).1
  · refine ⟨_, if_pos (up_here hlive hst), ?_⟩
    rw [State.link_onLink_same, Link.lackNow, if_neg (by simpa using hlack)]
    exact ⟨rfl, rfl, by simp⟩
  · exact execRequestTimeout_leaves hlive hst hr hsent hfirst hret hwait hstrict
  · obtain ⟨st, waiting, replay, held, resets, mem⟩ := State.resetLink_link hst hreqs
    exact ⟨_, if_pos hlive, st, waiting, replay, held, resets, mem⟩
  · exact execModuleRetrainComplete_up hlive d hst hin howed hrate
  · exact execModuleRetrainTimeout_off hlive hst
  · exact execRouteEntryUpdate_writes hlive hnext hclear

end

section
/-! PROOF. Stack ports and digests. -/

set_option Elab.async false

namespace Sys2Proof.Machine

/-! ### What a retry notice and an engine leave of a port -/

/-- A change of a state that, at every port, keeps all but its engine and the count of its order errors. -/
def keepsPort {α : Type} (g : Stack → α) : Prop := (∀ x e, g { x with eng := e } = g x) ∧ ∀ x c, g { x with orderErr := c } = g x

section
variable {α : Type} {g : Stack → α} (hg : keepsPort g) (j : Nat)
include hg

theorem State.setEng_port (s : State) (k : EngAt) (e : Engine) : g ((s.setEng k e).port j) = g (s.port j) := by
  cases k with
  | bank n => rfl
  | port p =>
    simp only [State.setEng, port_onPort]
    split
    · next h => rw [hg.1, h]
    · rfl

theorem State.countOrder_port (s : State) (k : EngAt) (c : Nat) : g ((s.countOrder k c).port j) = g (s.port j) := by
  unfold State.countOrder
  split
  · rfl
  · cases k with
    | bank n => rfl
    | port p =>
      simp only [port_onPort]
      split
      · next h => rw [hg.2, h]
      · rfl

theorem State.wakeHeld_port (s : State) (k : EngAt) (el : Nat × Nat) : g ((s.wakeHeld k el).port j) = g (s.port j) := by
  simp only [State.wakeHeld, State.countOrder_port hg, State.setEng_port hg]

theorem State.noticeStart_port (s : State) : g (s.noticeStart.port j) = g (s.port j) :=
  foldl_keeps (fun s => g (s.port j)) (fun _ k => foldl_keeps (fun s => g (s.port j)) (fun u el => State.wakeHeld_port hg j u k el) _ _) _ _

theorem State.noticeEnd_port (s : State) : g (s.noticeEnd.port j) = g (s.port j) :=
  foldl_keeps (fun s => g (s.port j)) (fun t k => State.setEng_port hg j t k _) _ _
end

/-- The end of a notice changes no port's queue, state, rate or count of digest marks. -/
theorem State.endNotice_port {α : Type} {g : Stack → α} (hg : keepsPort g) (hn : ∀ x b, g { x with notice := b } = g x)
    (s : State) (k j : Nat) : g ((s.endNotice k).port j) = g (s.port j) := by
  simp only [State.endNotice]
  split
  · rw [State.noticeEnd_port hg, port_onPort]
    split
    · next h => rw [hn, h]
    · rfl
  · rfl

theorem keepsPort_queue : keepsPort (·.queue) := ⟨fun _ _ => rfl, fun _ _ => rfl⟩
theorem keepsPort_st : keepsPort (·.st) := ⟨fun _ _ => rfl, fun _ _ => rfl⟩

/-- An engine without rounds stays as it is when a notice ends. -/
theorem State.noticeEnd_eng_empty {s : State} {p : Nat} (h : (s.port p).eng = {}) : (s.noticeEnd.port p).eng = {} := by
  have fold (l : List EngAt) : ∀ t : State, (t.port p).eng = {} →
      ((l.foldl (fun s k => s.setEng k ((s.getEng k).settle (s.noticeFor k))) t).port p).eng = {} := by
    induction l with
    | nil => exact fun t ht => ht
    | cons k l ih =>
      intro t ht
      refine ih _ ?_
      cases k with
      | bank n => exact ht
      | port q =>
        simp only [State.setEng, State.getEng, port_onPort]
        split
        · next h => rw [← h, ht]; rfl
        · exact ht
  exact fold _ s h

/-! ### Ports of a state whose records change -/

theorem State.port_of_ports {s t : State} (h : t.ports = s.ports) (k : Nat) : t.port k = s.port k := by
  simp only [State.port, h]

@[simp] theorem State.addHistory_ports (s : State) (u k g : Nat) (f : Bool) (c : BitVec 32) :
    (s.addHistory u k g f c).ports = s.ports := rfl
@[simp] theorem State.startDrain_ports (s : State) (c : DrainCause) (u : Nat) : (s.startDrain c u).ports = s.ports := by
  unfold State.startDrain; simp only []; split <;> rfl
@[simp] theorem State.makePermanent_ports (s : State) (u : Nat) : (s.makePermanent u).ports = s.ports := by
  unfold State.makePermanent; split <;> rfl
@[simp] theorem State.record_ports (s : State) (u k g : Nat) (r : Bool) : (s.record u k g r).ports = s.ports := by
  simp only [State.record]
  (repeat' split) <;> simp

/-! ### Requests of a port -/

@[simp] theorem State.setEng_responses (s : State) (k : EngAt) (e : Engine) : (s.setEng k e).responses = s.responses := by
  unfold State.setEng; split <;> rfl
@[simp] theorem State.noticeEnd_responses (s : State) : s.noticeEnd.responses = s.responses :=
  foldl_keeps (·.responses) (fun t k => State.setEng_responses t k _) _ _
@[simp] theorem State.endNotice_responses (s : State) (k : Nat) : (s.endNotice k).responses = s.responses := by
  simp only [State.endNotice]; split <;> simp [State.onPort]
@[simp] theorem State.noteDigest_responses (s : State) (a n : Nat) : (s.noteDigest a n).responses = s.responses := by
  simp only [State.noteDigest]; (repeat' split) <;> rfl
@[simp] theorem State.dropRows_responses (s : State) (a n : Nat) : (s.dropRows a n).responses = s.responses := by
  simp only [State.dropRows]; (repeat' split) <;> rfl

theorem State.writeStore_responses {s : State} (hb : s.eccBad = []) (hc : s.eccCorr = []) (a : Nat) (bs : List Byte) (bad : Bool) :
    (s.writeStore a bs bad).responses = s.responses := by
  simp [State.writeStore, hb, hc]

@[simp] theorem State.noteDigest_queue (s : State) (a n k : Nat) : ((s.noteDigest a n).port k).queue = (s.port k).queue := by
  simp only [State.noteDigest]
  split
  · split
    · rfl
    · simp only [port_onPort]
      split
      · next h => rw [h]; rfl
      · rfl
  · rfl
@[simp] theorem State.dropRows_ports (s : State) (a n : Nat) : (s.dropRows a n).ports = s.ports := by
  simp only [State.dropRows]; (repeat' split) <;> rfl

theorem State.writeStore_queue {s : State} (hb : s.eccBad = []) (hc : s.eccCorr = []) (a : Nat) (bs : List Byte) (bad : Bool) (k : Nat) :
    ((s.writeStore a bs bad).port k).queue = (s.port k).queue := by
  simp only [State.writeStore, hb, hc, State.noteDigest_queue]
  rw [State.port_of_ports (State.dropRows_ports _ _ _)]
  rfl

theorem State.readStore_clean {s : State} {a len : Nat} (hb : s.eccBad = []) (hc : s.eccCorr = [])
    (hp : ∀ l ∈ unitsOf 64 a len, l ∉ s.poison) : s.readStore a len = (s, false, s.bytes a len) := by
  have none_bad : ((unitsOf 64 a len).any s.poison.contains) = false := by
    simpa [List.any_eq_false] using hp
  simp [State.readStore, hb, hc, -List.any_eq_false, none_bad]

theorem State.portPerform_read {s : State} {q : Packet} {pa len : Nat} (hb : s.eccBad = []) (hc : s.eccCorr = [])
    (hop : q.op = .read pa len) (hp : ∀ l ∈ unitsOf 64 (s.storeAddr pa) len, l ∉ s.poison) :
    s.portPerform q = s.answer q .ok (s.bytes (s.storeAddr pa) len) := by
  simp only [State.portPerform, hop, State.readStore_clean hb hc hp]
  rfl

theorem State.portPerform_write {s : State} {q : Packet} {pa : Nat} {bs : List Byte} (hb : s.eccBad = []) (hc : s.eccCorr = [])
    (hop : q.op = .write pa bs false) (k : Nat) :
    ((s.portPerform q).port k).queue = (s.port k).queue ∧
      (∀ b, (s.portPerform q).byte b = if s.storeAddr pa ≤ b ∧ b < s.storeAddr pa + bs.length then bs.getD (b - s.storeAddr pa) 0 else s.byte b) ∧
      (s.portPerform q).responses = s.responses ++ [{ num := q.id, src := q.dst, dst := q.src, ret := q.ret, stat := .ok }] := by
  simp only [State.portPerform, hop]
  refine ⟨State.writeStore_queue hb hc _ _ _ k, fun b => State.writeStore_byte _ _ _ _ _, ?_⟩
  rw [State.answer, State.writeStore_responses hb hc]

/-- R427: a request at the head of its lines is taken from the queue and performed. -/
theorem exec_stackRequest {s : State} {port : StackId} {i : Nat} {q : Packet} (hl : s.live = true)
    (hq : (s.port port.val).queue[i]? = some q) (hup : (s.port port.val).st = .up) (hf : s.portFirst port.val i q = true) :
    ∃ u : State, exec (.stackRequest port i) s = .next ((u.portPerform q).endNotice port.val) ∧
      (u.port port.val).queue = dropAt (s.port port.val).queue i ∧ u.mem = s.mem ∧ u.eccBad = s.eccBad ∧ u.eccCorr = s.eccCorr ∧
      u.poison = s.poison ∧ u.responses = s.responses ∧ ∀ pa, u.storeAddr pa = s.storeAddr pa := by
  change ∃ u : State, execStackRequest port i s = _ ∧ _
  simp only [execStackRequest, hq, hl, hup, hf, BEq.rfl, Bool.and_self, if_true]
  refine ⟨_, rfl, ?_, rfl, rfl, rfl, rfl, rfl, fun _ => rfl⟩
  rw [port_onPort, if_pos rfl]

theorem State.endNotice_queue (s : State) (k j : Nat) : ((s.endNotice k).port j).queue = (s.port j).queue :=
  State.endNotice_port (g := (·.queue)) keepsPort_queue (fun _ _ => rfl) s k j

/-! ### Scrubs -/

@[simp] theorem State.addHistory_eccCorr (s : State) (u k g : Nat) (f : Bool) (c : BitVec 32) :
    (s.addHistory u k g f c).eccCorr = s.eccCorr := rfl
@[simp] theorem State.startDrain_eccCorr (s : State) (c : DrainCause) (u : Nat) : (s.startDrain c u).eccCorr = s.eccCorr := by
  unfold State.startDrain; simp only []; split <;> rfl
@[simp] theorem State.makePermanent_eccCorr (s : State) (u : Nat) : (s.makePermanent u).eccCorr = s.eccCorr := by
  unfold State.makePermanent; split <;> rfl
@[simp] theorem State.record_eccCorr (s : State) (u k g : Nat) (r : Bool) : (s.record u k g r).eccCorr = s.eccCorr := by
  simp only [State.record]
  (repeat' split) <;> simp
@[simp] theorem State.countUe_eccCorr (s : State) (a : Nat) : (s.countUe a).eccCorr = s.eccCorr := by
  unfold State.countUe; split <;> simp [State.onPort, State.onCluster]
@[simp] theorem State.countCe_eccCorr (s : State) (a : Nat) : (s.countCe a).eccCorr = s.eccCorr := by
  unfold State.countCe; split <;> rfl

/-- A word of error correction lies in one line. -/
theorem eccWordOf_line (x : Nat) : eccWordOf x / 8 = x / 8 := by
  have units : eccUnits (8 * x) = 4 ∨ eccUnits (8 * x) = 1 := by unfold eccUnits; split <;> simp
  unfold eccWordOf
  rcases units with h | h <;> rw [h] <;> omega

/-- A word that has been read holds no correctable error, and no other word gains one. -/
theorem State.scrubWord_eccCorr {s : State} {w x : Nat} (h : x ∈ (s.scrubWord w).eccCorr) : x ∈ s.eccCorr ∧ eccWordOf x ≠ w := by
  simp only [State.scrubWord] at h
  split at h
  · simp only [State.countUe_eccCorr, List.mem_filter, bne_iff_ne] at h
    refine ⟨h.1, fun hw => h.2 ?_⟩
    rw [← hw, eccWordOf_line]
  · split at h
    · simpa only [State.countCe_eccCorr, List.mem_filter, bne_iff_ne] using h
    · next hnone =>
      refine ⟨h, fun hw => hnone ?_⟩
      simpa using ⟨x, h, hw⟩

theorem State.scrubWords_eccCorr (l : List Nat) : ∀ {s : State} {x : Nat}, x ∈ (s.scrubWords l).eccCorr →
    x ∈ s.eccCorr ∧ eccWordOf x ∉ l := by
  induction l with
  | nil => exact fun h => ⟨h, List.not_mem_nil⟩
  | cons w l ih =>
    intro s x h
    obtain ⟨hin, hout⟩ := ih (s := s.scrubWord w) h
    obtain ⟨hs, hw⟩ := State.scrubWord_eccCorr hin
    exact ⟨hs, by simp [hw, hout]⟩

/-- A scrub of a range leaves no correctable error in it. -/
theorem State.scrubRange_eccCorr {s : State} {lo hi x : Nat} (h : x ∈ (s.scrubRange lo hi).eccCorr) :
    x ∈ s.eccCorr ∧ ¬(lo ≤ x ∧ x < hi) := by
  obtain ⟨hs, hw⟩ := State.scrubWords_eccCorr _ h
  refine ⟨hs, fun hr => hw ?_⟩
  rw [mem_setAddAll]
  exact .inr (List.mem_map.2 ⟨x, by simp [hs, hr], rfl⟩)

theorem State.countUe_port {α : Type} {g : Stack → α} (hc : ∀ x c, g { x with ue := c } = g x) (s : State) (a j : Nat) :
    g ((s.countUe a).port j) = g (s.port j) := by
  unfold State.countUe
  split
  · rw [State.port_of_ports (State.record_ports _ _ _ _ _), port_onPort]
    split
    · next h => rw [hc, h]
    · rfl
  · simp only []
    rw [State.port_of_ports (State.record_ports _ _ _ _ _)]; rfl

theorem State.countCe_port {α : Type} {g : Stack → α} (hc : ∀ x c, g { x with ce := c } = g x) (s : State) (a j : Nat) :
    g ((s.countCe a).port j) = g (s.port j) := by
  unfold State.countCe
  split
  · change g ((s.onPort (a / 2 ^ 37) fun p => { p with ce := bump p.ce }).port j) = _
    rw [port_onPort]
    split
    · next h => rw [hc, h]
    · rfl
  · rfl

/-- A word that is read changes no more of a port than its counts of errors. -/
theorem State.scrubWords_port {α : Type} {g : Stack → α} (hu : ∀ x c, g { x with ue := c } = g x) (hc : ∀ x c, g { x with ce := c } = g x)
    (s : State) (l : List Nat) (j : Nat) : g ((s.scrubWords l).port j) = g (s.port j) := by
  refine foldl_keeps (fun s => g (s.port j)) (fun s w => ?_) l s
  simp only [State.scrubWord]
  split
  · rw [State.countUe_port hu]; rfl
  · split
    · rw [State.countCe_port hc]; rfl
    · rfl

/-- R322: the patrol scrub of a port that is up. -/
theorem exec_patrolScrub {s : State} {port : StackId} (hl : s.live = true) (hup : (s.port port.val).st = .up) :
    ∃ t : State, exec (.patrolScrub port) s = .next t ∧ (t.port port.val).scrubs = bump (s.port port.val).scrubs ∧ t.mem = s.mem ∧
      ∀ w ∈ t.eccCorr, w ∈ s.eccCorr ∧ ¬(port.val * 2 ^ 34 ≤ w ∧ w < (port.val + 1) * 2 ^ 34) := by
  change ∃ t : State, execPatrolScrub port s = .next t ∧ _
  rw [execPatrolScrub, if_pos (by rw [hl, hup]; rfl)]
  refine ⟨_, rfl, ?_, State.scrubRange_mem _ _ _, fun w hw => State.scrubRange_eccCorr hw⟩
  rw [port_onPort, if_pos rfl]
  exact congrArg bump (State.scrubWords_port (g := (·.scrubs)) (fun _ _ => rfl) (fun _ _ => rfl) _ _ _)

/-! ### Ports that retrain or fail -/

theorem State.answers_of (l : List Packet) (s : State) (st : RStat) :
    (l.foldl (fun s q => s.answer q st []) s).mem = s.mem ∧ (l.foldl (fun s q => s.answer q st []) s).ports = s.ports :=
  ⟨foldl_keeps (f := fun s q => s.answer q st []) (·.mem) (fun _ _ => rfl) l s,
    foldl_keeps (f := fun s q => s.answer q st []) (·.ports) (fun _ _ => rfl) l s⟩

/-- R326: a port that fails with no addend at its engine answers its queue and is empty. -/
theorem State.failPort_spec {s : State} {k : Nat} (hr : (s.port k).eng.ready = []) (hh : (s.port k).eng.held = []) :
    ((s.failPort k).port k).st = .failed ∧ ((s.failPort k).port k).queue = [] ∧ ((s.failPort k).port k).eng = {} ∧
      (s.failPort k).mem = s.mem := by
  simp only [State.failPort, hr, hh, List.append_nil, List.foldl_nil, State.record_mem, State.addLog_mem, State.noticeEnd_mem]
  obtain ⟨hm, hp⟩ := State.answers_of (s.port k).queue
    (s.onPort k fun x => { x with st := .failed, queue := [], eng := {}, notice := false }) .busErr
  have now := (State.port_of_ports hp k).trans ((port_onPort _ _ _ _).trans (if_pos rfl))
  simp only [State.port_of_ports (State.record_ports _ _ _ _ _), State.port_of_ports (State.addLog_ports _ _ _ _ _ _)]
  refine ⟨?_, ?_, State.noticeEnd_eng_empty (by rw [now]), hm⟩
  · rw [State.noticeEnd_port (g := (·.st)) keepsPort_st, now]
  · rw [State.noticeEnd_port (g := (·.queue)) keepsPort_queue, now]

theorem State.retrain_port {α : Type} {g : Stack → α} (hg : keepsPort g) (s : State) (k : Nat) :
    g ((s.retrain k).port k) = g { s.port k with
      st := .retrain, retrains := bump (s.port k).retrains, notice := true
      recent := s.beat.count.toNat :: (s.port k).recent.filter fun b => s.beat.count.toNat < b + 1000 } := by
  rw [State.retrain, State.noticeStart_port hg, port_onPort, if_pos rfl]

/-- A notice wakes nothing at an engine that holds nothing. -/
theorem State.noticeStart_idle {s : State} {p : Nat} (h : (s.port p).eng.ready = [] ∧ (s.port p).eng.held = []) :
    (s.noticeStart.port p).eng.ready = [] ∧ (s.noticeStart.port p).eng.held = [] := by
  have wake (k : EngAt) (hk : k ≠ .port p) (l : List (Nat × Nat)) (t : State) :
      ((l.foldl (fun s el => s.wakeHeld k el) t).port p).eng = (t.port p).eng := by
    refine foldl_keeps (f := fun s el => State.wakeHeld s k el) (fun s => (s.port p).eng) (fun u el => ?_) l t
    cases k with
    | bank n => simp only [State.wakeHeld, State.countOrder, State.setEng]; split <;> rfl
    | port q =>
      have hq : p ≠ q := fun h => hk (h ▸ rfl)
      simp only [State.wakeHeld, State.countOrder, State.setEng]
      split <;> simp [hq]
  have fold (l : List EngAt) : ∀ t : State, (t.port p).eng.ready = [] ∧ (t.port p).eng.held = [] →
      let u := l.foldl (fun s k => ((s.getEng k).held.map Addend.elem).foldl (fun s el => s.wakeHeld k el) s) t
      (u.port p).eng.ready = [] ∧ (u.port p).eng.held = [] := by
    induction l with
    | nil => exact fun t ht => ht
    | cons k l ih =>
      intro t ht
      refine ih _ ?_
      by_cases hk : k = .port p
      · subst hk
        beta_reduce
        rw [show t.getEng (.port p) = (t.port p).eng from rfl, ht.2]
        exact ht
      · beta_reduce
        rw [wake k hk]; exact ht
  exact fold _ s h

/-- R325: a port that is up enters RETRAIN, and fails at the ninth time within 1,000 beats. -/
theorem exec_portRetrain {s : State} {port : StackId} (hl : s.live = true) (hup : (s.port port.val).st = .up) :
    exec (.portRetrain port) s = .next (let t := (s.retrain port.val).addLog 6 (unitPort port.val) 0 0 0
      if 9 ≤ ((s.port port.val).recent.filter fun b => s.beat.count.toNat < b + 1000).length + 1 then t.failPort port.val else t) := by
  change execPortRetrain port s = _
  have recent : (((s.retrain port.val).addLog 6 (unitPort port.val) 0 0 0).port port.val).recent.length =
      ((s.port port.val).recent.filter fun b => s.beat.count.toNat < b + 1000).length + 1 := by
    rw [State.port_of_ports (State.addLog_ports _ _ _ _ _ _), State.retrain_port (g := (·.recent)) ⟨fun _ _ => rfl, fun _ _ => rfl⟩]
    rfl
  simp only [execPortRetrain, hl, hup, recent, BEq.rfl, Bool.and_self, if_true, ge_iff_le]

/-- R325: a retrained port comes up at its new rate with its queue. -/
theorem exec_portRetrainComplete {s : State} {port : StackId} {rate : BitVec 2} (hl : s.live = true)
    (hst : (s.port port.val).st = .retrain) (hrate : rate ≠ 0) : ∃ t : State, exec (.portRetrainComplete port rate) s = .next t ∧
      (t.port port.val).st = .up ∧ (t.port port.val).rate = rate ∧ (t.port port.val).queue = (s.port port.val).queue ∧ t.mem = s.mem := by
  change ∃ t : State, execPortRetrainComplete port rate s = .next t ∧ _
  rw [execPortRetrainComplete, if_pos (by rw [hl, hst]; simpa using hrate)]
  refine ⟨_, rfl, ?_, ?_, ?_, State.endNotice_mem _ _⟩
  · rw [State.endNotice_port (g := (·.st)) keepsPort_st fun _ _ => rfl, port_onPort, if_pos rfl]
  · rw [State.endNotice_port (g := (·.rate)) ⟨fun _ _ => rfl, fun _ _ => rfl⟩ fun _ _ => rfl, port_onPort, if_pos rfl]
  · rw [State.endNotice_queue, port_onPort, if_pos rfl]

/-- R325: fewer than eight retrains in the last 1,000 beats leave the port in RETRAIN. -/
theorem exec_portRetrain_few {s : State} {port : StackId} (hl : s.live = true) (hup : (s.port port.val).st = .up)
    (hn : ((s.port port.val).recent.filter fun b => s.beat.count.toNat < b + 1000).length < 8) :
    ∃ t : State, exec (.portRetrain port) s = .next t ∧ (t.port port.val).st = .retrain ∧
      (t.port port.val).retrains = bump (s.port port.val).retrains ∧ (t.port port.val).notice = true ∧
      (t.port port.val).queue = (s.port port.val).queue ∧ t.mem = s.mem := by
  rw [exec_portRetrain hl hup]
  refine ⟨_, rfl, ?_⟩
  rw [if_neg (by omega)]
  simp only [State.port_of_ports (State.addLog_ports _ _ _ _ _ _)]
  exact ⟨by rw [State.retrain_port (g := (·.st)) keepsPort_st],
    by rw [State.retrain_port (g := (·.retrains)) ⟨fun _ _ => rfl, fun _ _ => rfl⟩],
    by rw [State.retrain_port (g := (·.notice)) ⟨fun _ _ => rfl, fun _ _ => rfl⟩],
    by rw [State.retrain_port (g := (·.queue)) keepsPort_queue], by rw [State.addLog_mem, State.retrain_mem]⟩

/-- R326: the ninth retrain makes a port without addends FAILED. -/
theorem exec_portRetrain_ninth {s : State} {port : StackId} (hl : s.live = true) (hup : (s.port port.val).st = .up)
    (hr : (s.port port.val).eng.ready = []) (hh : (s.port port.val).eng.held = [])
    (hn : 8 ≤ ((s.port port.val).recent.filter fun b => s.beat.count.toNat < b + 1000).length) :
    ∃ t : State, exec (.portRetrain port) s = .next t ∧ (t.port port.val).st = .failed ∧ t.mem = s.mem := by
  rw [exec_portRetrain hl hup]
  refine ⟨_, rfl, ?_⟩
  rw [if_pos (by omega)]
  have empty : ((s.retrain port.val).port port.val).eng.ready = [] ∧ ((s.retrain port.val).port port.val).eng.held = [] :=
    State.noticeStart_idle (by rw [port_onPort, if_pos rfl]; exact ⟨hr, hh⟩)
  obtain ⟨hst, -, -, hmem⟩ := State.failPort_spec (s := (s.retrain port.val).addLog 6 (unitPort port.val) 0 0 0) empty.1 empty.2
  exact ⟨hst, by rw [hmem, State.addLog_mem, State.retrain_mem]⟩

/-! ### Digests -/

/-- What decides whether a digest ends and which bytes it covers. -/
def State.digesting (s : State) : Digest × BitVec 2 × BitVec 4 × Bool := (s.digest, s.ilv, s.cap, s.live)

@[simp] theorem State.startDrain_digesting (s : State) (c : DrainCause) (u : Nat) : (s.startDrain c u).digesting = s.digesting := by
  unfold State.startDrain; simp only []; split <;> rfl
@[simp] theorem State.makePermanent_digesting (s : State) (u : Nat) : (s.makePermanent u).digesting = s.digesting := by
  unfold State.makePermanent; split <;> rfl
@[simp] theorem State.record_digesting (s : State) (u k g : Nat) (r : Bool) : (s.record u k g r).digesting = s.digesting := by
  simp only [State.record]
  repeat' split
  any_goals simp
  all_goals rfl
@[simp] theorem State.countUe_digesting (s : State) (a : Nat) : (s.countUe a).digesting = s.digesting := by
  unfold State.countUe; split <;> simp <;> rfl
@[simp] theorem State.countCe_digesting (s : State) (a : Nat) : (s.countCe a).digesting = s.digesting := by
  unfold State.countCe; split <;> rfl
@[simp] theorem State.scrubWord_digesting (s : State) (w : Nat) : (s.scrubWord w).digesting = s.digesting := by
  unfold State.scrubWord
  (repeat' split) <;> simp <;> rfl
theorem State.digestErrors_digesting (s : State) : s.digestErrors.digesting = s.digesting :=
  foldl_keeps (·.digesting) (fun s w => State.scrubWord_digesting s w) _ _

/-- The digest of a port depends on the bytes of its stack and on where addresses lie. -/
theorem State.portDigest_of {s t : State} (hm : t.mem = s.mem) (hd : t.digesting = s.digesting) (k n : Nat) :
    ∀ (pa : Nat) (a b : BitVec 64 × Bool), a.1 = b.1 → (t.portDigest k pa n a).1 = (s.portDigest k pa n b).1 := by
  obtain ⟨-, hilv, hcap, -⟩ := by simpa only [State.digesting, Prod.mk.injEq] using hd
  have place (pa : Nat) : t.place pa = s.place pa := by simp only [State.place, State.stackTop, hilv, hcap] <;> rfl
  have byte (a : Nat) : t.byte a = s.byte a := by rw [State.byte, hm, State.byte]
  induction n with
  | zero => exact fun _ _ _ h => h
  | succ n ih =>
    rintro pa ⟨c, bad⟩ ⟨c', bad'⟩ h
    obtain rfl : c = c' := h
    simp only [State.portDigest, place]
    split
    · split
      · exact ih _ _ _ (by rw [byte])
      · exact ih _ _ _ rfl
    · exact ih _ _ _ rfl

/-- One change per port, port by port. -/
theorem State.port_eachPort (s : State) (f : Nat → Stack → Stack) (n k : Nat) :
    ((List.range n).foldl (fun s p => s.onPort p (f p)) s).port k = if k < n then f k (s.port k) else s.port k := by
  induction n with
  | zero => rfl
  | succ n ih =>
    rw [List.range_succ, List.foldl_append, List.foldl_cons, List.foldl_nil, port_onPort]
    by_cases hk : k = n
    · subst hk; simp [ih]
    · rw [if_neg hk, ih]
      exact if_congr (by omega) rfl rfl

theorem State.eachPort_keeps {α : Type} (g : State → α) (hg : ∀ s p f, g (s.onPort p f) = g s) (s : State) (f : Nat → Stack → Stack) (l : List Nat) :
    g (l.foldl (fun s p => s.onPort p (f p)) s) = g s :=
  foldl_keeps (f := fun s p => s.onPort p (f p)) g (fun _ _ => hg _ _ _) l s

/-- The row a digest writes for one region. -/
theorem tabGet_digestRow (b j : Nat) (l : List (BitVec 64 × Bool)) : ∀ (n : Nat) (t : Tab Word),
    tabGet 0 ((l.zipIdx n).foldl (fun t (x, k) => tabSet 0 t (b + k) x.1) t) j =
      if b + n ≤ j then ((l[j - (b + n)]?).map Prod.fst).getD (tabGet 0 t j) else tabGet 0 t j := by
  induction l with
  | nil => simp
  | cons x l ih =>
    intro n t
    rw [List.zipIdx_cons, List.foldl_cons, ih, tabGet_tabSet]
    by_cases hj : j = b + n
    · subst hj; simp
    · rw [if_neg hj]
      by_cases hlt : b + n ≤ j
      · obtain ⟨d, rfl⟩ : ∃ d, j = b + n + 1 + d := ⟨j - (b + n + 1), by omega⟩
        rw [if_pos (by omega), if_pos hlt, show b + n + 1 + d - (b + (n + 1)) = d by omega,
          show b + n + 1 + d - (b + n) = d + 1 by omega, List.getElem?_cons_succ]
      · rw [if_neg (by omega), if_neg hlt]

/-- A digest's values: eight for each region, in order. -/
theorem tabGet_digestValues (all : List (List (BitVec 64 × Bool))) : ∀ (n : Nat) (t : Tab Word), (∀ l ∈ all, l.length = 8) → ∀ r k, k < 8 →
    tabGet 0 ((all.zipIdx n).foldl (fun t (l, r) => l.zipIdx.foldl (fun t (x, k) => tabSet 0 t (r * 8 + k) x.1) t) t) (r * 8 + k) =
      if n ≤ r then (((all[r - n]?).bind fun l => l[k]?).map Prod.fst).getD (tabGet 0 t (r * 8 + k)) else tabGet 0 t (r * 8 + k) := by
  induction all with
  | nil => simp
  | cons l all ih =>
    intro n t hall r k hk
    have hl : l.length = 8 := hall l List.mem_cons_self
    rw [List.zipIdx_cons, List.foldl_cons, ih _ _ (fun x hx => hall x (List.mem_cons_of_mem _ hx)) r k hk]
    simp only [tabGet_digestRow, Nat.add_zero]
    rcases lt_trichotomy r n with h | rfl | h
    · rw [if_neg (by omega), if_neg (by omega), if_neg (by omega)]
    · rw [if_neg (by omega), if_pos (by omega), if_pos (by omega)]
      simp
    · obtain ⟨d, rfl⟩ : ∃ d, r = n + 1 + d := ⟨r - (n + 1), by omega⟩
      rw [if_pos (by omega), if_pos (by omega), if_pos (by omega), List.getElem?_eq_none (l := l) (by omega),
        show n + 1 + d - (n + 1) = d by omega, show n + 1 + d - n = d + 1 by omega, List.getElem?_cons_succ]
      rfl

theorem tabGet_mem {α : Type} (d : α) {t : Tab α} {k : Nat} (h : k ∈ t.map (·.1)) : (k, tabGet d t k) ∈ t := by
  induction t with
  | nil => cases h
  | cons c t ih =>
    obtain ⟨j, x⟩ := c
    by_cases hj : j = k
    · subst hj; simp [tabGet]
    · simpa [tabGet, hj] using Or.inr (ih (by simpa [Ne.symm hj] using h))

/-- No port retrains. -/
def State.settledPorts (s : State) : Prop := ∀ x ∈ s.ports, x.2.st ≠ .retrain

theorem State.settledPorts.port {s : State} (h : s.settledPorts) (p : Nat) : (s.port p).st ≠ .retrain := by
  by_cases hp : p ∈ s.ports.map (·.1)
  · exact h _ (tabGet_mem {} hp)
  · rw [State.port, tabGet_eq_of_not_mem {} hp]
    decide

theorem State.settledPorts.onPort {s : State} (h : s.settledPorts) (p : Nat) {f : Stack → Stack} (hf : ∀ x, (f x).st = x.st) :
    (s.onPort p f).settledPorts := by
  intro x hx
  simp only [State.onPort, tabSet] at hx
  split at hx
  · rw [tabErase_eq_filter] at hx
    exact h x (List.mem_filter.1 hx).1
  · rcases mem_tabPut _ _ _ _ hx with rfl | hx
    · rw [hf]; exact h.port p
    · exact h x hx

theorem State.settledPorts.of_ports {s t : State} (h : s.settledPorts) (hp : t.ports = s.ports) : t.settledPorts := by
  rwa [State.settledPorts, hp]

theorem State.settledPorts.countUe {s : State} (h : s.settledPorts) (a : Nat) : (s.countUe a).settledPorts := by
  unfold State.countUe
  split
  · exact .of_ports (h.onPort (a / 2 ^ 37) (f := fun p => { p with ue := bump p.ue }) fun _ => rfl) (State.record_ports _ _ _ _ _)
  · exact .of_ports h (by simp only [State.record_ports]; rfl)

theorem State.settledPorts.countCe {s : State} (h : s.settledPorts) (a : Nat) : (s.countCe a).settledPorts := by
  unfold State.countCe
  split
  · exact .of_ports (h.onPort (a / 2 ^ 37) (f := fun p => { p with ce := bump p.ce }) fun _ => rfl) rfl
  · exact .of_ports h rfl

theorem State.settledPorts.scrubWord {s : State} (h : s.settledPorts) (w : Nat) : (s.scrubWord w).settledPorts := by
  simp only [State.scrubWord]
  split
  · apply State.settledPorts.countUe
    exact h.of_ports rfl
  · split
    · apply State.settledPorts.countCe
      exact h.of_ports rfl
    · exact h

theorem State.settledPorts.digestErrors {s : State} (h : s.settledPorts) : s.digestErrors.settledPorts := by
  have fold (l : List Nat) : ∀ {t : State}, t.settledPorts → (t.scrubWords l).settledPorts := by
    induction l with
    | nil => exact id
    | cons w l ih => exact fun ht => ih (ht.scrubWord w)
  exact fold _ h

theorem State.settledPorts.any {s : State} (h : s.settledPorts) : (s.ports.any fun (_, p) => p.st == .retrain) = false := by
  simpa [List.any_eq_false] using fun a b hm => h (a, b) hm

/-- A digest that must not start leaves the state as it is. -/
theorem State.digestStart_early {s : State} (h : s.digest.marks < s.digest.interval.toNat) : s.digestStart = s := by
  simp [State.digestStart, h]

/-- A mark is counted on every port, and starts a digest where one is due. -/
theorem State.digestMark_counts (s : State) : ∃ m : State, s.digestMark = m.digestStart ∧
    m.digest = { s.digest with marks := s.digest.marks + 1 } ∧ ∀ k, k < 8 → (m.port k).dgMarks = bump (s.port k).dgMarks := by
  refine ⟨_, rfl, State.eachPort_keeps (·.digest) (fun _ _ _ => rfl) _ (fun _ p => { p with dgMarks := bump p.dgMarks }) _,
    fun k hk => ?_⟩
  rw [State.mapPorts, State.port_eachPort _ (fun _ p => { p with dgMarks := bump p.dgMarks }), if_pos hk]
  rfl

theorem State.digestStart_due {s : State} (hb : s.digest.busy = false) (h0 : s.digest.interval ≠ 0)
    (h : s.digest.interval.toNat ≤ s.digest.marks) (hr : s.digest.regions ≠ []) :
    s.digestStart.digest.busy = true ∧ ∀ k, k < 8 → (s.digestStart.port k).dgMarks = 0 := by
  rw [State.digestStart, if_neg (by simpa [hb, hr, h] using h0)]
  refine ⟨?_, fun k hk => ?_⟩
  · rw [State.mapPorts, State.eachPort_keeps (·.digest) (fun _ _ _ => rfl) _
      (fun _ p => { p with dgBusy := true, dgDirty := false, dgPoisoned := false, dgMarks := 0 })]
  · rw [State.mapPorts, State.port_eachPort _
      (fun _ p => { p with dgBusy := true, dgDirty := false, dgPoisoned := false, dgMarks := 0 }), if_pos hk]

/-- R329: the end of a digest whose successor is not due. -/
theorem exec_digestComplete {s : State} (hl : s.live = true) (hb : s.digest.busy = true)
    (hm : s.digest.marks < s.digest.interval.toNat) (hp : s.settledPorts) :
    ∃ t : State, exec .digestComplete s = .next t ∧ t.digest.busy = false ∧ t.digest.number = s.digest.number + 1 ∧ t.mem = s.mem ∧
      t.digest.values = (s.digest.regions.map s.digestErrors.regionDigests).zipIdx.foldl (fun t (l, r) =>
        l.zipIdx.foldl (fun t (x, k) => tabSet 0 t (r * 8 + k) x.1) t) [] := by
  change ∃ t : State, execDigestComplete s = .next t ∧ _
  obtain ⟨digest, -, -, live⟩ := by simpa only [State.digesting, Prod.mk.injEq] using State.digestErrors_digesting s
  have go : (s.live && s.digest.busy && !(s.ports.any fun (_, p) => p.st == .retrain)) = true := by
    rw [hl, hb, hp.any]; rfl
  have go' : (s.digestErrors.live && s.digest.busy && !(s.digestErrors.ports.any fun (_, p) => p.st == .retrain)) = true := by
    rw [live, hl, hb, hp.digestErrors.any]; rfl
  simp only [execDigestComplete, if_pos go, digest]
  rw [if_pos go']
  refine ⟨_, rfl, ?_⟩
  have ended (v : State) (f : Nat → Stack → Stack) : ((List.range 8).foldl (fun s k => s.onPort k (f k)) v).digest = v.digest :=
    State.eachPort_keeps (·.digest) (fun _ _ _ => rfl) v f _
  rw [State.digestStart_early (by rw [ended]; exact hm), ended]
  refine ⟨rfl, rfl, ?_, rfl⟩
  rw [State.eachPort_keeps (·.mem) (fun _ _ _ => rfl)]
  exact State.digestErrors_mem s

end Sys2Proof.Machine

open Sys2Proof Sys2Proof.Machine

/-- Settles O48: each row of a port is the frame of its one effect; the values of a digest are read off the two folds that write
them. -/
theorem stackPortRows : Obligations.StackPortRows := by
  refine ⟨fun port s hl => ?_, fun s hl => ?_⟩
  · refine ⟨?_, fun i q hq hup hf hb hc => ?_, fun hup => ?_, exec_portRetrain_few hl, exec_portRetrain_ninth hl,
      fun rate => exec_portRetrainComplete hl, fun hst hr hh => ?_⟩
    · change execStackRefresh port s = _
      by_cases hoff : (s.port port.val).st = .off <;> simp [execStackRefresh, hl, hoff]
    · obtain ⟨u, hu, hqueue, hm, hbad, hcorr, hpoison, hresp, haddr⟩ := exec_stackRequest hl hq hup hf
      rw [hu]
      refine ⟨fun pa len hop hp => ⟨_, rfl, ?_⟩, fun pa bs hop => ⟨_, rfl, ?_⟩⟩
      · rw [State.portPerform_read (hbad.trans hb) (hcorr.trans hc) hop (by rw [haddr, hpoison]; exact hp), State.endNotice_queue,
          State.endNotice_mem, State.endNotice_responses, haddr]
        refine ⟨hqueue, hm, ?_⟩
        rw [State.answer, hresp]
        simp only [State.bytes_of_mem hm]
      · obtain ⟨hkeep, hbytes, hnew⟩ := State.portPerform_write (hbad.trans hb) (hcorr.trans hc) hop port.val
        simp only [State.endNotice_queue, State.endNotice_responses, State.byte, State.endNotice_mem, haddr, hm] at hbytes ⊢
        refine ⟨hkeep.trans hqueue, fun j hj => ?_, fun b hout => ?_, hnew.trans (by rw [hresp])⟩
        · rw [hbytes, if_pos (by omega), Nat.add_sub_cancel_left]
        · rw [hbytes, if_neg (by omega)]
    · obtain ⟨t, ht, hscrubs, hm, hw⟩ := exec_patrolScrub hl hup
      refine ⟨t, ht, hscrubs, hm, fun w hin => ?_⟩
      obtain ⟨hs, hr⟩ := hw w hin
      exact ⟨hs, by intro k; omega⟩
    · change ∃ t : State, execPortFailed port s = .next t ∧ _
      rw [execPortFailed, if_pos (by rw [hl]; simpa using hst)]
      exact ⟨_, rfl, State.failPort_spec hr hh⟩
  · refine ⟨?_, fun hb hm hp => ?_, by decide +kernel⟩
    · obtain ⟨m, hm, hd, hk⟩ := s.digestMark_counts
      refine ⟨s.digestMark, ?_, State.digestMark_mem s, fun h => ?_, fun hb h0 h hr => ?_⟩
      · change execDigestMark s = _
        rw [execDigestMark, if_pos hl]
      · rw [hm, State.digestStart_early (by rw [hd]; exact h)]
        exact ⟨hd, hk⟩
      · rw [hm]
        exact State.digestStart_due (by rw [hd]; exact hb) (by rw [hd]; exact h0) (by rw [hd]; exact h) (by rw [hd]; exact hr)
    · obtain ⟨t, ht, hbusy, hnum, hmem, hvals⟩ := exec_digestComplete hl hb hm hp
      refine ⟨t, ht, hbusy, hnum, hmem, fun r g k hg hk => ?_⟩
      rw [hvals, tabGet_digestValues _ 0 [] ?_ r k hk]
      · simp [hg, State.regionDigests, hk]
        exact State.portDigest_of (State.digestErrors_mem s) (State.digestErrors_digesting s) k g.length _ _ _ rfl
      · simp [State.regionDigests]

end

section
/-! PROOF. The mesh. -/

set_option Elab.async false

namespace Sys2Proof.Machine

/-! ### What an error's record leaves of the mesh -/

@[simp] theorem State.startDrain_packets (s : State) (c : DrainCause) (u : Nat) : (s.startDrain c u).packets = s.packets := by
  unfold State.startDrain; simp only []; split <;> rfl
@[simp] theorem State.makePermanent_packets (s : State) (u : Nat) : (s.makePermanent u).packets = s.packets := by
  unfold State.makePermanent; split <;> rfl
@[simp] theorem State.record_packets (s : State) (u k g : Nat) (r : Bool) : (s.record u k g r).packets = s.packets := by
  simp only [State.record]
  repeat' split
  any_goals simp
  all_goals rfl
@[simp] theorem State.startDrain_responses (s : State) (c : DrainCause) (u : Nat) : (s.startDrain c u).responses = s.responses := by
  unfold State.startDrain; simp only []; split <;> rfl
@[simp] theorem State.makePermanent_responses (s : State) (u : Nat) : (s.makePermanent u).responses = s.responses := by
  unfold State.makePermanent; split <;> rfl
@[simp] theorem State.record_responses (s : State) (u k g : Nat) (r : Bool) : (s.record u k g r).responses = s.responses := by
  simp only [State.record]
  repeat' split
  any_goals simp
  all_goals rfl
@[simp] theorem State.startDrain_clusters (s : State) (c : DrainCause) (u : Nat) : (s.startDrain c u).clusters = s.clusters := by
  unfold State.startDrain; simp only []; split <;> rfl
@[simp] theorem State.makePermanent_clusters (s : State) (u : Nat) : (s.makePermanent u).clusters = s.clusters := by
  unfold State.makePermanent; split <;> rfl
@[simp] theorem State.record_clusters (s : State) (u k g : Nat) (r : Bool) : (s.record u k g r).clusters = s.clusters := by
  simp only [State.record]
  repeat' split
  any_goals simp
  all_goals rfl

/-- What is sound to read in one state is in another with the same storage, cores, clusters and map. -/
theorem State.sound_of {s t : State} (hst : t.stored = s.stored) (hd : t.digesting = s.digesting) (hcl : t.clusters = s.clusters)
    {n pa len : Nat} (h : s.sound n pa len) : t.sound n pa len := by
  obtain ⟨hm, hp, hb, hc, hcores⟩ := by simpa only [State.stored, Prod.mk.injEq] using hst
  obtain ⟨-, hilv, hcap, -⟩ := by simpa only [State.digesting, Prod.mk.injEq] using hd
  have place (pa : Nat) : t.place pa = s.place pa := by simp only [State.place, State.stackTop, hilv, hcap] <;> rfl
  have core (m : Nat) : t.core m = s.core m := State.core_of_cores hcores m
  have spill (off : Nat) : t.inSpill n off len = s.inSpill n off len := by simp only [State.inSpill, core]
  have on : t.clusterOn n = s.clusterOn n := by simp only [State.clusterOn, State.cluster, hcl]
  simpa only [State.sound, place, spill, on, hp, hb, hc, core] using h

theorem State.noteFlit_sound {s : State} (u : Nat) (f : FlitErr) {n pa len : Nat} (h : s.sound n pa len) :
    (s.noteFlit u f).sound n pa len := by
  unfold State.noteFlit
  split
  · exact State.sound_of (State.record_stored _ _ _ _ _) (State.record_digesting _ _ _ _ _) (State.record_clusters _ _ _ _ _) h
  · exact h

/-- A request of no stated core reads a sound place of a bank. -/
theorem State.readPa_outside {s : State} {n pa len : Nat} (h : s.sound n pa len) : s.readPa pa len = (s, .ok, s.bytes pa len) := by
  obtain ⟨⟨off, hplace, -, hspill⟩, hon, hlen, hfit, hb, hc, hp, -⟩ := h
  have located : s.locate pa len = (pa, .ok) := by simp [State.locate, hplace, hon, hspill]
  simp only [State.readPa, located, State.readStore_sound hb hc hlen hfit hp]
  rfl

theorem State.dropRows_badBond (s : State) (a len n : Nat) : ((s.dropRows a len).core n).badBond = (s.core n).badBond := by
  simp only [State.dropRows]
  repeat' split
  · rfl
  · apply State.core_onCore_keeps (·.badBond)
    intro; rfl
  · rfl

@[simp] theorem State.noteDigest_cores (s : State) (a n : Nat) : (s.noteDigest a n).cores = s.cores := by
  simp only [State.noteDigest]; (repeat' split) <;> rfl

theorem State.writeStore_badBond {s : State} (hb : s.eccBad = []) (hc : s.eccCorr = []) (a : Nat) (bs : List Byte) (bad : Bool) (n : Nat) :
    ((s.writeStore a bs bad).core n).badBond = (s.core n).badBond := by
  simp only [State.writeStore, hb, hc]
  rw [State.core_of_cores (State.noteDigest_cores _ _ _), State.dropRows_badBond]
  rfl

theorem State.writePa_sound {s : State} {n pa : Nat} {bs : List Byte} (h : s.sound n pa bs.length) {own : Option Nat}
    (hown : own = none ∨ own = some n) : s.writePa pa bs false own = (s.writeStore pa bs false, .ok) := by
  obtain ⟨⟨off, hplace, -, hspill⟩, hon, -, -, hb, hc, -, hbond⟩ := h
  have located : s.locate pa bs.length own = (pa, .ok) := by simp [State.locate, hplace, hon, hspill]
  have after : ((s.writeStore pa bs false).core n).badBond = false := (State.writeStore_badBond hb hc pa bs false n).trans hbond
  have bad : s.bondBad own = false := by rcases hown with rfl | rfl <;> simp [State.bondBad, hbond]
  have note : (s.writeStore pa bs false).bondNote own = s.writeStore pa bs false := by
    rcases hown with rfl | rfl <;> simp [State.bondNote, after]
  simp only [State.writePa, located, bad, Bool.or_false, note]

theorem Packet.homeward_or (p : Packet) (n : Nat) : p.homeward n = none ∨ p.homeward n = some n := by
  unfold Packet.homeward
  split
  · split
    · exact .inr rfl
    · exact .inl rfl
  · exact .inl rfl

/-! ### Requests -/

/-- R295: the first request of its pair of agents reaches its stop. -/
theorem exec_meshRequest {s : State} {i : Nat} {p : Packet} (hl : s.live = true) (hp : s.packets[i]? = some p)
    (hm : s.meshFirst p.src p.dst p.id = true) (ha : s.addendFirst p.src p.dst p.id = true) (hb : s.bankFirst p = true) :
    exec (.meshRequest i) s = .next (State.deliver { s with packets := dropAt s.packets i } p) := by
  change execMeshRequest i s = _
  simp only [execMeshRequest, hp, hl, hm, ha, hb, Bool.and_self, if_true]

theorem Packet.delivered_intact {p : Packet} (h : p.flit = .none) : p.delivered = p := by simp [Packet.delivered, h]

theorem State.deliver_intact {s : State} {p : Packet} (h : p.flit = .none) : s.deliver p = s.serve p := by
  simp [State.deliver, State.noteFlit, Packet.unusable, h, Packet.delivered_intact h]

theorem State.deliver_read {s : State} {p : Packet} {n pa len : Nat} (hf : p.flit ≠ .header) (hd : p.dst = .bank n)
    (hop : p.op = .read pa len) (h : s.sound n pa len) :
    s.deliver p = (s.noteFlit p.dst.unit p.flit).answer p .ok (s.bytes pa len) := by
  have same : p.delivered = p := by simp [Packet.delivered, hop]
  have mem : (s.noteFlit p.dst.unit p.flit).mem = s.mem := by unfold State.noteFlit; split <;> simp
  have note := State.readPa_outside (State.noteFlit_sound p.dst.unit p.flit h)
  rw [State.bytes_of_mem mem] at note
  simp [State.deliver, hf, Packet.unusable, hop, same, State.serve, hd, State.serveBank]
  rw [← hd, note]

@[simp] theorem State.noteDigest_packets (s : State) (a n : Nat) : (s.noteDigest a n).packets = s.packets := by
  simp only [State.noteDigest]; (repeat' split) <;> rfl
@[simp] theorem State.dropRows_packets (s : State) (a n : Nat) : (s.dropRows a n).packets = s.packets := by
  simp only [State.dropRows]; (repeat' split) <;> rfl

theorem State.writeStore_packets {s : State} (hb : s.eccBad = []) (hc : s.eccCorr = []) (a : Nat) (bs : List Byte) (bad : Bool) :
    (s.writeStore a bs bad).packets = s.packets := by
  simp [State.writeStore, hb, hc]

theorem State.deliver_write {s : State} {p : Packet} {n pa : Nat} {bs : List Byte} (hf : p.flit = .none) (hd : p.dst = .bank n)
    (hop : p.op = .write pa bs false) (h : s.sound n pa bs.length) :
    s.deliver p = (s.writeStore pa bs false).answer p .ok [] := by
  simp only [State.deliver_intact hf, State.serve, hd, State.serveBank, hop, State.writePa_sound h (p.homeward_or n)]

theorem State.deliver_stack {s : State} {p : Packet} {k pa len : Nat} (hf : p.flit = .none) (hd : p.dst = .stack k)
    (hop : p.op.span = some (pa, len)) :
    s.deliver p = if (s.locate pa len).2 = .ok
      then s.fresh.2.onPort k fun x => { x with queue := x.queue ++ [{ p with arr := s.nextId }] } else s.answer p .busErr [] := by
  simp only [State.deliver_intact hf, State.serve, hd, State.servePort, hop]
  by_cases h : (s.locate pa len).2 = .ok
  · simp only [h, BEq.rfl, Bool.not_true, Bool.false_eq_true, if_false, if_true]
    rfl
  · rw [if_neg h, if_pos (by simpa using h)]

/-! ### Responses -/

theorem State.discardLoad_task (s : State) (n pid t : Nat) : (s.discardLoad n pid).task n t = s.task n t := by
  have tasks : ((s.discardLoad n pid).core n).tasks = (s.core n).tasks := by
    apply State.core_onCore_keeps (·.tasks)
    intro; rfl
  simp only [State.task, tasks]

/-- What a task waits for is not discarded. -/
theorem State.discardLoad_case {s : State} {n k pid : Nat} (h : (s.case n k).task ≠ some noTask) :
    (s.discardLoad n pid).case n k = s.case n k := by
  simp only [State.discardLoad, State.case, core_onCore, if_pos]
  refine (tabGet_tabMap _ (d := ({} : Casement)) (e := ({} : Casement)) _ _ (by rfl)).trans ?_
  exact if_neg fun hb => h (eq_of_beq hb)

/-- A load whose data comes is due: what it waits for is there, the rest of its task's loads waits on. -/
theorem State.arriveLoad_pend {s : State} {n tk pid : Nat} {y : Task} (st : RStat) (bs : List Byte) (htk : tk < 64)
    (hy : s.task n tk = some y) (hloc : ∀ k, y.loc = some k → (s.case n k).task = some tk) :
    ((s.arriveLoad n (some tk) pid st bs).ctx n (some tk)).pend = (s.ctx n (some tk)).pend.map fun e : Pending =>
      if e.await = .access ∧ e.id = pid then e.arrive st bs else e := by
  have arrived (f : Casement → Casement) (hf : ∀ c, (f c).task = c.task) :
      ((s.onCtx n (some tk) f).discardLoad n pid).ctx n (some tk) = f (s.ctx n (some tk)) := by
    rw [← State.ctx_onCtx_self hy f]
    simp only [State.ctx, State.discardLoad_task]
    cases hloc' : y.loc with
    | none => simp [State.onCtx, hy, hloc', State.task_onTask]
    | some k =>
      have here : (s.onCtx n (some tk) f).case n k = f (s.case n k) := by simp [State.onCtx, hy, hloc']
      have same : (s.onCtx n (some tk) f).task n tk = some y := by simp [State.onCtx, hy, hloc', State.task_onCase]
      simp only [same, hloc']
      refine State.discardLoad_case ?_
      rw [here, hf, hloc k hloc']
      simp [noTask]
      omega
  have after := arrived (fun c => Casement.touch
    { c with pend := c.pend.map fun e => if e.await == .access && e.id == pid then e.arrive st bs else e } 0) fun _ => rfl
  rw [State.arriveLoad, after]
  simp [Casement.touch]

/-- R298: the first response of its pair of agents reaches its requester. -/
theorem exec_meshResponse {s : State} {i : Nat} {r : Response} (hl : s.live = true) (hr : s.responses[i]? = some r)
    (hfirst : ∀ x ∈ s.responses.take i, ¬(x.src = r.src ∧ x.dst = r.dst)) :
    exec (.meshResponse i) s = .next (State.deliverBack { s with responses := dropAt s.responses i } r) := by
  change execMeshResponse i s = _
  have none_before : ((s.responses.take i).any fun x => x.src == r.src && x.dst == r.dst) = false := by
    simpa [List.any_eq_false] using fun x hx h => fun h' => hfirst x hx ⟨h, h'⟩
  simp only [execMeshResponse, hr, hl, none_before, Bool.not_false, Bool.and_self, if_true]

/-- An intact response of a load that its core still takes is delivered to its task. -/
theorem State.deliverBack_load {s : State} {r : Response} {n pid : Nat} {who : Option Nat} (hf : r.flit = .none)
    (hd : s.dropsBack r.ret = false) (hret : r.ret = .load n who pid) :
    ∃ u : State, s.deliverBack r = u.arriveLoad n who pid r.stat r.data ∧ u.responses = s.responses ∧ u.mem = s.mem ∧
      (∀ m t, u.task m t = s.task m t) ∧ (∀ m k, u.case m k = s.case m k) ∧ ∀ m w, u.ctx m w = s.ctx m w := by
  have kept (u : State) (h : u.dropsBack r.ret = false) : u.comesBack r.ret r.stat r.data = u.arriveLoad n who pid r.stat r.data := by
    rw [State.comesBack, h, hret]; rfl
  have note : s.noteFlit r.dst.unit r.flit = s := by rw [State.noteFlit, hf]; rfl
  have stat : (if r.flit == .data && r.stat == .ok && !r.data.isEmpty then RStat.poisoned else r.stat) = r.stat := by rw [hf]; rfl
  have whole : ¬(r.flit == .header) = true := by rw [hf]; decide
  simp only [State.deliverBack, note, stat]
  rw [if_neg whole]
  split
  · exact ⟨_, kept _ hd, rfl, rfl, fun _ _ => rfl, fun _ _ => rfl, fun _ _ => rfl⟩
  · exact ⟨_, kept _ hd, rfl, rfl, fun _ _ => rfl, fun _ _ => rfl, fun _ _ => rfl⟩

@[simp] theorem State.onCtx_responses (s : State) (n : Nat) (who : Option Nat) (f : Casement → Casement) :
    (s.onCtx n who f).responses = s.responses := by
  unfold State.onCtx State.onTask
  (repeat' split) <;> rfl

theorem State.arriveLoad_responses (s : State) (n : Nat) (who : Option Nat) (pid : Nat) (st : RStat) (bs : List Byte) :
    (s.arriveLoad n who pid st bs).responses = s.responses := by
  rw [State.arriveLoad]
  exact State.onCtx_responses _ _ _ _

theorem State.noteFlit_packets (s : State) (u : Nat) (f : FlitErr) : (s.noteFlit u f).packets = s.packets := by
  unfold State.noteFlit; split <;> simp
theorem State.noteFlit_responses (s : State) (u : Nat) (f : FlitErr) : (s.noteFlit u f).responses = s.responses := by
  unfold State.noteFlit; split <;> simp

end Sys2Proof.Machine

open Sys2Proof Sys2Proof.Machine

/-- Settles O47: a request is served by the stop it names, and a response ends the load it belongs to. -/
theorem meshRows : Obligations.MeshRows := by
  refine fun i s hl => ⟨fun p hp hm ha hb => ?_, fun r n tk y pid hr hfirst hflit hdrop hret htk hy hloc => ?_⟩
  · simp only [exec_meshRequest hl hp hm ha hb]
    have packets : ({ s with packets := dropAt s.packets i } : State).packets = dropAt s.packets i := rfl
    have responses : ({ s with packets := dropAt s.packets i } : State).responses = s.responses := rfl
    have mem : ({ s with packets := dropAt s.packets i } : State).mem = s.mem := rfl
    have bytes (a n : Nat) : ({ s with packets := dropAt s.packets i } : State).bytes a n = s.bytes a n := State.bytes_of_mem mem a n
    have byte (a : Nat) : ({ s with packets := dropAt s.packets i } : State).byte a = s.byte a := rfl
    have located (a n : Nat) : ({ s with packets := dropAt s.packets i } : State).locate a n = s.locate a n := by
      unfold State.locate; rfl
    have port (k : Nat) : ({ s with packets := dropAt s.packets i } : State).port k = s.port k := rfl
    have sound (n a b : Nat) (h : s.sound n a b) : ({ s with packets := dropAt s.packets i } : State).sound n a b := h
    generalize ({ s with packets := dropAt s.packets i } : State) = u at *
    obtain ⟨hpk, hre, hme⟩ : u.packets = _ ∧ u.responses = _ ∧ u.mem = _ := ⟨packets, responses, mem⟩
    refine ⟨fun hf => ?_, fun n pa len hf hd hop hs => ?_, fun n pa bs hf hd hop hs => ?_, fun k pa len hf hd hop => ⟨fun hok => ?_, fun hbad => ?_⟩⟩
    · refine ⟨_, ⟨rfl, ?_⟩, ?_, ?_⟩ <;> rw [State.deliver, if_pos (by simpa using hf), State.badHeader] <;> simp [*]
    · rw [State.deliver_read hf hd hop (sound _ _ _ hs)]
      refine ⟨_, ⟨rfl, ?_⟩, ?_, ?_⟩
      · rw [← hpk]; exact State.noteFlit_packets _ _ _
      · rw [State.answer, State.noteFlit_responses, hre, bytes]
      · rw [← hme]; exact State.noteFlit_mem _ _ _
    · obtain ⟨-, -, -, -, hb, hc, -, -⟩ := sound _ _ _ hs
      rw [State.deliver_write hf hd hop (sound _ _ _ hs)]
      refine ⟨_, ⟨rfl, ?_⟩, ?_, fun j hj => ?_, fun a hout => ?_⟩
      · rw [← hpk]; exact State.writeStore_packets hb hc _ _ _
      · rw [State.answer, State.writeStore_responses hb hc, hre]
      · exact (State.writeStore_byte _ _ _ _ _).trans (by rw [if_pos (by omega), Nat.add_sub_cancel_left])
      · exact (State.writeStore_byte _ _ _ _ _).trans (by rw [if_neg (by omega), byte])
    · rw [State.deliver_stack hf hd hop, if_pos (by rw [located]; exact hok)]
      refine ⟨_, { p with arr := u.nextId }, ⟨rfl, hpk⟩, ?_, rfl, rfl, rfl, hme⟩
      rw [port_onPort, if_pos rfl]
      exact congrArg (·.queue ++ _) (port k)
    · rw [State.deliver_stack hf hd hop, if_neg (by rw [located]; exact hbad)]
      exact ⟨_, ⟨rfl, hpk⟩, by rw [State.answer, hre], hme⟩
  · rw [exec_meshResponse hl hr hfirst]
    have responses : ({ s with responses := dropAt s.responses i } : State).responses = dropAt s.responses i := rfl
    have mem : ({ s with responses := dropAt s.responses i } : State).mem = s.mem := rfl
    have drop : ({ s with responses := dropAt s.responses i } : State).dropsBack r.ret = false := hdrop
    have task : ({ s with responses := dropAt s.responses i } : State).task n tk = some y := hy
    have loc : ∀ k, y.loc = some k → (({ s with responses := dropAt s.responses i } : State).case n k).task = some tk := hloc
    have ctx : ({ s with responses := dropAt s.responses i } : State).ctx n (some tk) = s.ctx n (some tk) := rfl
    generalize ({ s with responses := dropAt s.responses i } : State) = u at *
    obtain ⟨v, hv, hvr, hvm, hvt, hvc, hvx⟩ := State.deliverBack_load (s := u) (r := r) hflit drop hret
    rw [hv]
    refine ⟨_, rfl, ?_, ?_, ?_⟩
    · rw [State.arriveLoad_responses, hvr, responses]
    · rw [State.arriveLoad_mem, hvm, mem]
    · rw [State.arriveLoad_pend r.stat r.data htk (by rw [hvt]; exact task) (fun k hk => by rw [hvc]; exact loc k hk), hvx, ctx]

end

section
/-! PROOF. The scheduler by itself. -/

set_option Elab.async false

namespace Sys2Proof.Machine

/-! ### A task that is filled into a casement -/

theorem tabGet_setRange {α : Type} [DecidableEq α] (d : α) (f : Nat → α) (n i : Nat) :
    tabGet d ((List.range n).foldl (fun t i => tabSet d t i (f i)) []) i = if i < n then f i else d := by
  induction n with
  | zero => rfl
  | succ n ih =>
    rw [List.range_succ, List.foldl_append, List.foldl_cons, List.foldl_nil, tabGet_tabSet, ih]
    by_cases h : i = n
    · subst h; simp
    · rw [if_neg h]
      exact if_congr (by omega) rfl rfl

/-- A table cut down to some keys reads as it did at them. -/
theorem tabGet_filter {α : Type} (d : α) (p : Nat × α → Bool) {k : Nat} (hp : ∀ a, p (k, a) = true) (t : Tab α) :
    tabGet d (t.filter p) k = tabGet d t k := by
  induction t with
  | nil => rfl
  | cons c t ih =>
    obtain ⟨j, a⟩ := c
    by_cases h : j = k
    · subst h; simp [hp, tabGet]
    · by_cases hq : p (j, a) = true <;> simp [hq, tabGet, h, ih]

theorem State.bytes_eq_map (s : State) (a n : Nat) : s.bytes a n = (List.range n).map fun j => s.byte (a + j) := by
  induction n generalizing a with
  | zero => rfl
  | succ n ih =>
    rw [State.bytes, ih, List.range_succ_eq_map, List.map_cons, List.map_map]
    exact congrArg (_ :: ·) (List.map_congr_left fun j _ => congrArg s.byte (by simp; omega))

/-- R273: the data registers of a filled casement are those of its slot. -/
theorem State.takeGroups_dreg (s : State) (n off prof : Nat) (img : Casement) {i : Nat} (hi : i < 32) :
    (s.takeGroups n off prof img).dreg i = BitVec.ofNat 64 (leToNat (s.bytes (bankPa n (off + 0x800 + 8 * i)) 8)) := by
  have fits : 2560 ≤ imgBytes prof := by
    unfold imgBytes; split <;> decide
  have d : (s.takeGroups n off prof img).d = (List.range 32).foldl (fun t i => tabSet 0 t i (BitVec.ofNat 64 (leToNat
      ((List.range 8).map fun j => (tabGet 0 (s.mem.filter fun c => bankPa n off ≤ c.1 && c.1 < bankPa n off + imgBytes prof)
        (bankPa n off + (0x800 + 8 * i) + j) : Byte))))) [] := by
    simp only [State.takeGroups, apply_ite Casement.d, ite_self]
  rw [Casement.dreg, d, tabGet_setRange, if_pos hi, State.bytes_eq_map]
  refine congrArg (fun l => BitVec.ofNat 64 (leToNat l)) (List.map_congr_left fun j hj => ?_)
  have hj := List.mem_range.1 hj
  rw [tabGet_filter _ _ (fun a => by simp; omega)]
  exact congrArg (tabGet 0 s.mem) (by simp only [bankPa]; omega)

/-- What a fill puts into a casement. -/
def State.filled (s : State) (n t : Nat) (x : Task) : Casement :=
  { s.takeGroups n (x.slot * 256) x.prof x.image with dirty := 0, tCorr := [], tErr := [], task := some t }

section
variable {s : State} {n t k : Nat} {x : Task} (hx : s.task n t = some x)
include hx

theorem State.fillIn_case (j : Nat) : (s.fillIn n t k).case n j = if j = k then s.filled n t x else s.case n j := by
  simp only [State.fillIn, hx, case_setCase]
  by_cases h : j = k
  · subst h; simp [State.filled]
  · rw [if_neg (by simp [h]), if_neg h, State.case_onTask, State.case_onCore_keeps (by intro; rfl)]

theorem State.fillIn_task (u : Nat) : ∃ last, (s.fillIn n t k).task n u =
    if u = t then some { x with loc := some k, lastIssue := last, image := {} } else s.task n u := by
  have cycled (m u : Nat) : (s.onCore n fun c => { c with cycle := c.cycle + 1 }).task m u = s.task m u := by
    rw [State.task, State.core_onCore_keeps (·.tasks) (by intro; rfl)]; rfl
  refine ⟨((s.onCore n fun c => { c with cycle := c.cycle + 1 }).core n).cycle, ?_⟩
  simp only [State.fillIn, hx]
  have stored (r : State) (c : Casement) : (r.setCase n k c).task n u = r.task n u := by
    rw [State.task, State.setCase, State.core_onCore_keeps (·.tasks) (by intro; rfl)]; rfl
  rw [stored, State.task_onTask, cycled]
  by_cases h : u = t
  · subst h; simp [hx]
  · simp [h]

/-- A fill changes no more of a core than its casements, its tasks and its count. -/
theorem State.fillIn_core {α : Type} (g : Core → α) (hg : ∀ c cs ts cy, g { c with cases := cs, tasks := ts, cycle := cy } = g c) (m : Nat) :
    g ((s.fillIn n t k).core m) = g (s.core m) := by
  simp only [State.fillIn, hx]
  rw [State.setCase, State.core_onCore_keeps g (fun c => hg c _ c.tasks c.cycle)]
  unfold State.onTask
  split
  · exact State.core_onCore_keeps g (fun c => hg c c.cases c.tasks _) _ _ _
  · exact (State.core_onCore_keeps g (fun c => hg c c.cases _ c.cycle) _ _ _).trans
      (State.core_onCore_keeps g (fun c => hg c c.cases c.tasks _) _ _ _)
end

@[simp] theorem State.fillIn_rest (s : State) (n t k : Nat) : (s.fillIn n t k).rest = s.rest := by
  unfold State.fillIn
  split <;> simp

/-! ### A task that leaves the slot for another -/

theorem Casement.stopRows_lasting (c : Casement) : c.stopRows.lasting = c.lasting := Scheduled.stopRows_lasting c

theorem State.parkRunning_case (s : State) (n m j : Nat) : ((s.parkRunning n).case m j).lasting = (s.case m j).lasting := by
  unfold State.parkRunning
  split
  · rfl
  · split
    · rw [State.case_onCore_keeps (by intro; rfl)]
    · rw [case_onCase]
      have same (l k : Nat) (u : Nat) (f : Task → Task) (g : Core → Core) (hg : ∀ c, (g c).cases = c.cases) :
          (((s.onTask n u f).onCore n g).case l k) = s.case l k := by
        rw [State.case_onCore_keeps hg, State.case_onTask]
      split
      · next h =>
        rw [Casement.stopRows_lasting, same _ _ _ _ _ (by intro; rfl), h.1, h.2]
      · rw [same _ _ _ _ _ (by intro; rfl)]

/-- What leaves the slot takes the first place of the queue. -/
theorem State.parkRunning_core (s : State) (n : Nat) : ((s.parkRunning n).core n).taskFill = (s.core n).taskFill ∧
    ∀ j x, (s.core n).running = some j → (s.case n j).task = some x → ((s.parkRunning n).core n).readyQ = x :: (s.core n).readyQ := by
  have tasked {α : Type} (g : Core → α) (hg : ∀ c ts, g { c with tasks := ts } = g c) (u : Nat) (f : Task → Task) :
      g ((s.onTask n u f).core n) = g (s.core n) := by
    unfold State.onTask
    split
    · rfl
    · exact State.core_onCore_keeps g (fun c => hg c _) _ _ _
  unfold State.parkRunning
  split
  · next h => exact ⟨rfl, fun j x hj => by rw [h] at hj; cases hj⟩
  · next k hk =>
    split
    · next h => exact ⟨State.core_onCore_keeps (·.taskFill) (by intro; rfl) _ _ _, fun j x hj hx => by
        rw [hk] at hj; cases hj; rw [h] at hx; cases hx⟩
    · next u hu =>
      rw [State.core_onCase_same, core_onCore, if_pos rfl]
      refine ⟨tasked (·.taskFill) (fun _ _ => rfl) u _, fun j x hj hx => ?_⟩
      rw [hk] at hj; cases hj
      rw [hu] at hx; cases hx
      exact congrArg (u :: ·) (tasked (·.readyQ) (fun _ _ => rfl) u _)

/-- R273: the end of the hardware fill of task t into casement k. -/
theorem exec_hardwareFill {core : CoreId} {s : State} {t k : Nat} {x : Task} (hon : s.coreOn core.val = true)
    (hlock : (s.core core.val).lockCause = 0) (hrun : s.drain.st = .run) (hbar : s.wakesBarred core.val = false)
    (hfill : (s.core core.val).taskFill = some (t, k)) (hx : s.task core.val t = some x) (hgood : s.slotBad core.val x = (s, false)) :
    exec (.hardwareFill core) s =
      .next ((((s.fillIn core.val t k).onCore core.val fun c => { c with taskFill := none }).parkRunning core.val).runTask core.val t k) := by
  change execHardwareFill core s = _
  simp only [execHardwareFill, hon, hlock, hrun, BEq.rfl, Bool.and_self, if_true, State.hwFill, hbar, hfill, hx, hgood, Bool.false_eq_true,
    if_false]

theorem State.task_onCore_keeps {f : Core → Core} (hf : ∀ c, (f c).tasks = c.tasks) (s : State) (n m t : Nat) :
    (s.onCore n f).task m t = s.task m t := by
  rw [State.task, State.core_onCore_keeps (·.tasks) hf, State.task]

/-- A task that takes the slot runs in the casement it is in, and leaves the queue. -/
theorem State.runTask_spec {p : State} {n t k : Nat} {z : Task} (hz : p.task n t = some z) :
    ((p.runTask n t k).core n).running = some k ∧ (p.runTask n t k).task n t = some { z with st := .running, mask := 0 } ∧
      ((p.runTask n t k).core n).taskFill = (p.core n).taskFill ∧ ((p.runTask n t k).case n k).lasting = (p.case n k).lasting ∧
      ((p.runTask n t k).core n).readyQ = (p.core n).readyQ.filter (· != t) := by
  obtain ⟨cs, core⟩ := State.core_runTask p n t k hz
  obtain ⟨b, case⟩ := State.case_runTask p n t k
  refine ⟨by rw [core], ?_, by rw [core], by rw [case]; rfl, by rw [core]⟩
  rw [State.task, core]
  simp [tabFind_tabPut]

/-- The filled task runs in its casement; who ran before it is first in the queue. -/
theorem State.fillRuns_spec {s : State} {n t k : Nat} {x : Task} (hx : s.task n t = some x) :
    let u := (((s.fillIn n t k).onCore n fun c => { c with taskFill := none }).parkRunning n).runTask n t k
    (u.core n).running = some k ∧ (∃ z, u.task n t = some z ∧ z.loc = some k ∧ z.st = .running) ∧ (u.core n).taskFill = none ∧
      (u.case n k).lasting = (s.filled n t x).lasting ∧
      ∀ j y, j ≠ k → (s.core n).running = some j → (s.case n j).task = some y → y ≠ t → (u.core n).readyQ.head? = some y := by
  obtain ⟨last, filled⟩ := State.fillIn_task (k := k) hx t
  rw [if_pos rfl] at filled
  have cases := State.fillIn_case (k := k) hx
  have running : ((s.fillIn n t k).core n).running = (s.core n).running := State.fillIn_core hx (·.running) (fun _ _ _ _ => rfl) n
  generalize s.fillIn n t k = f at filled cases running ⊢
  have cleared : ((f.onCore n fun c => { c with taskFill := none }).core n) = { f.core n with taskFill := none } :=
    (core_onCore ..).trans (if_pos rfl)
  have caseKept (j : Nat) : (f.onCore n fun c => { c with taskFill := none }).case n j = f.case n j :=
    State.case_onCore_keeps (by intro; rfl) _ _ _ _
  have taskKept : (f.onCore n fun c => { c with taskFill := none }).task n t = f.task n t :=
    State.task_onCore_keeps (by intro; rfl) _ _ _ _
  generalize (f.onCore n fun c => { c with taskFill := none }) = g at cleared caseKept taskKept ⊢
  obtain ⟨fillKept, queued⟩ := State.parkRunning_core g n
  have parkedCase := State.parkRunning_case g n n k
  have parkedTask := (Scheduled.parkRunning g n).task n t
  rw [taskKept, filled] at parkedTask
  rw [caseKept, cases, if_pos rfl] at parkedCase
  rw [cleared] at fillKept queued
  generalize g.parkRunning n = p at fillKept queued parkedCase parkedTask ⊢
  generalize hz : p.task n t = z at parkedTask
  cases parkedTask with
  | some onward =>
    obtain ⟨loc, -⟩ := onward
    obtain ⟨runs, task, fill, case, queue⟩ := State.runTask_spec (k := k) hz
    refine ⟨runs, ⟨_, task, loc, rfl⟩, fill.trans fillKept, case.trans parkedCase, fun j y hj hrun hy hne => ?_⟩
    rw [queue, queued j y (running.trans hrun) (by rw [caseKept, cases, if_neg hj]; exact hy)]
    simp [hne]

/-! ### A core that is tested -/

/-- The test slot of a cluster. -/
def State.slotOf (s : State) (c : Nat) : Option Nat × Nat := ((s.cluster c).slot, (s.cluster c).slotSeg)

theorem State.slotOf_recorded (s : State) (m u k g c : Nat) {f : Cluster → Cluster} (hf : ∀ x, ((f x).slot, (f x).slotSeg) = (x.slot, x.slotSeg)) :
    ((s.onCluster m f).record u k g).slotOf c = s.slotOf c := by
  have cluster : ((s.onCluster m f).record u k g).cluster c = (s.onCluster m f).cluster c := by
    simp only [State.cluster, State.record_clusters]
  rw [State.slotOf, cluster, cluster_onCluster]
  split
  · next h => rw [hf, h, State.slotOf]
  · rfl

theorem State.evictLine_slotOf (s : State) (n : Nat) (l : Line) (c : Nat) : (s.evictLine n l).slotOf c = s.slotOf c := by
  simp only [State.evictLine]
  split
  · exact State.slotOf_recorded _ _ _ _ _ _ fun _ => rfl
  · split
    · rfl
    · simp only [State.wbParity]
      split
      · exact State.slotOf_recorded _ _ _ _ _ _ fun _ => rfl
      · rfl

/-- R251, R339: emptying a core's caches leaves the test slots of the clusters. -/
theorem State.emptyCaches_slotOf (s : State) (n c : Nat) : (s.emptyCaches n).slotOf c = s.slotOf c := by
  have tags := foldl_keeps (State.slotOf · c) (f := fun s _ => s.reportTag n)
    (fun s (_ : Nat × Line) => State.slotOf_recorded s _ _ _ _ c fun _ => rfl)
  have lines := foldl_keeps (State.slotOf · c) (f := fun s p => s.evictLine n p.2)
    (fun s (p : Nat × Line) => State.evictLine_slotOf s n p.2 c)
  exact (lines _ _).trans (tags _ _)

theorem State.emptyCaches_core (s : State) (n : Nat) : ((s.emptyCaches n).core n).dcache = [] ∧ ((s.emptyCaches n).core n).icache = [] := by
  simp only [State.emptyCaches, core_onCore, if_pos]
  exact ⟨trivial, trivial⟩

/-- What the grant of a test slot leaves of a state in which the slot has been given. -/
theorem State.underTest_spec {u : State} {n c : Nat} {p : Option Nat × Nat} (h : u.slotOf c = p) :
    let t := (u.emptyCaches n).onCore n fun x => { x with underTest := true }
    (t.cluster c).slot = p.1 ∧ (t.cluster c).slotSeg = p.2 ∧ (t.core n).underTest = true ∧ (t.core n).dcache = [] ∧
      (t.core n).icache = [] ∧ t.mem = u.mem := by
  intro t
  have kept : t.slotOf c = p := (State.emptyCaches_slotOf u n c).trans h
  have core : t.core n = { (u.emptyCaches n).core n with underTest := true } := (core_onCore ..).trans (if_pos rfl)
  obtain ⟨hd, hi⟩ := State.emptyCaches_core u n
  exact ⟨congrArg Prod.fst kept, congrArg Prod.snd kept, by rw [core], by rw [core]; exact hd, by rw [core]; exact hi,
    State.emptyCaches_mem u n⟩

/-- R340: the first core of the list that may be tested gets the slot, its caches empty. -/
theorem exec_testSlotGrant {cl : ClusterId} {s : State} {i seg : Nat} (hl : s.live = true) (hon : (s.cluster cl.val).dst = .on)
    (hnone : (s.cluster cl.val).slot = none) (hrun : s.drain.st = .run)
    (hfind : (s.cluster cl.val).testList.find? (fun p => s.grantable cl.val p.1) = some (i, seg)) :
    ∃ t : State, exec (.testSlotGrant cl) s = .next t ∧ (t.cluster cl.val).slot = some i ∧ (t.cluster cl.val).slotSeg = seg ∧
      (t.core (cl.val * 64 + i)).underTest = true ∧ (t.core (cl.val * 64 + i)).dcache = [] ∧ (t.core (cl.val * 64 + i)).icache = [] ∧
      t.mem = s.mem := by
  change ∃ t : State, execTestSlotGrant cl s = .next t ∧ _
  simp only [execTestSlotGrant, hl, hon, hnone, hrun, BEq.rfl, Option.isNone_none, Bool.and_self, Bool.not_true, Bool.false_eq_true, if_false]
  rw [hfind]
  refine ⟨_, rfl, State.underTest_spec (p := (some i, seg)) ?_⟩
  rw [State.slotOf, cluster_onCluster, if_pos rfl]

theorem exec_testSlotEnd_waits {cl : ClusterId} {s : State} {i : Nat} (pass : Bool) (hslot : (s.cluster cl.val).slot = some i)
    (hev : (s.core (cl.val * 64 + i)).evicts ≠ []) : exec (.testSlotEnd cl pass) s = .next s := by
  change execTestSlotEnd cl pass s = _
  simp [execTestSlotEnd, hslot, hev]

/-- What the end of a test leaves of a state that has taken its result. -/
theorem State.testEnds_spec (v : State) (n : Nat) (was : Bool) :
    let t := (((v.onCore n fun x => { x with underTest := false }).releaseHeld n).kick n).settle was n
    (t.core n).underTest = false ∧ t.mem = v.mem ∧ ∀ c, t.cluster c = v.cluster c := by
  intro t
  have posts := (((Scheduled.releaseHeld (v.onCore n fun x => { x with underTest := false }) n).trans (Scheduled.kick _ n)).trans
    (Scheduled.settle was _ n)).posts n
  refine ⟨(congrArg Core.underTest posts).trans ?_, by simp [t], fun c => ?_⟩
  · rw [core_onCore, if_pos rfl]; rfl
  · have rest : t.rest = v.rest := by simp [t]
    have same : t.rest.cluster c = v.rest.cluster c := by rw [rest]
    exact same

theorem State.testLogged_spec (v : State) (n seg : Nat) (again : Bool) (d : Word) :
    ((v.record n 1 seg again).addLog 2 n d 0 0).mem = v.mem ∧ ∀ c, ((v.record n 1 seg again).addLog 2 n d 0 0).cluster c = v.cluster c := by
  refine ⟨by simp, fun c => ?_⟩
  have same : ((v.record n 1 seg again).addLog 2 n d 0 0).clusters = v.clusters := State.record_clusters v n 1 seg again
  simp only [State.cluster, same]

/-- R341, R342: a test whose write-backs have gone ends with its result in the lists of its cluster. -/
theorem exec_testSlotEnd {cl : ClusterId} {s : State} {i : Nat} (pass : Bool) (hl : s.live = true) (hslot : (s.cluster cl.val).slot = some i)
    (hev : (s.core (cl.val * 64 + i)).evicts = []) : ∃ t : State, exec (.testSlotEnd cl pass) s = .next t ∧
      (t.core (cl.val * 64 + i)).underTest = false ∧ t.mem = s.mem ∧
      t.cluster cl.val = { s.cluster cl.val with
        slot := none
        retests := if pass then (s.cluster cl.val).retests.filter (· != (i, (s.cluster cl.val).slotSeg))
          else if (s.cluster cl.val).retests.contains (i, (s.cluster cl.val).slotSeg) then (s.cluster cl.val).retests
          else (s.cluster cl.val).retests ++ [(i, (s.cluster cl.val).slotSeg)]
        ages := if pass then tabSet 0xFFFF (s.cluster cl.val).ages (i * 4 + (s.cluster cl.val).slotSeg) 0 else (s.cluster cl.val).ages } := by
  change ∃ t : State, execTestSlotEnd cl pass s = .next t ∧ _
  simp only [execTestSlotEnd, hslot, hl, hev, List.isEmpty_nil, Bool.not_true, Bool.or_self, Bool.false_eq_true, if_false]
  refine ⟨_, rfl, ?_⟩
  obtain ⟨under, mem, cluster⟩ := State.testEnds_spec _ (cl.val * 64 + i) _
  refine ⟨under, mem.trans ?_, (cluster _).trans ?_⟩
  · split
    · rfl
    · exact (State.testLogged_spec _ _ _ _ _).1
  · split
    · rw [cluster_onCluster, if_pos rfl]
    · rw [(State.testLogged_spec _ _ _ _ _).2, cluster_onCluster, if_pos rfl]

/-! ### The end of a job -/

/-- From s to t no task has come, and none has another job. -/
def State.fewer (s t : State) : Prop := ∀ m u z, t.task m u = some z → ∃ y, s.task m u = some y ∧ z.job = y.job

theorem State.fewer_trans {s t u : State} (h : s.fewer t) (g : t.fewer u) : s.fewer u := fun m k z hz => by
  obtain ⟨y, hy, hj⟩ := g m k z hz
  obtain ⟨x, hx, hk⟩ := h m k y hy
  exact ⟨x, hx, hj.trans hk⟩

theorem Scheduled.fewer {s t : State} (h : Scheduled s t) : s.fewer t := fun m u z hz => by
  have onward := h.task m u
  rw [hz] at onward
  generalize s.task m u = y at onward
  cases onward with
  | some o =>
    obtain ⟨-, -, -, same⟩ := o
    exact ⟨_, rfl, congrArg (·.2.2.1) same⟩

/-- A task that is killed is gone, and no other comes. -/
theorem State.killTask_fewer (s : State) (n t : Nat) : s.fewer (s.killTask n t) ∧ (s.killTask n t).task n t = none := by
  unfold State.killTask
  split
  · next h => exact ⟨fun m u z hz => ⟨z, hz, rfl⟩, h⟩
  · next x hx =>
    extract_lets was regs xq k mine filled u
    have erased (m j : Nat) : u.task m j = if m = n ∧ j = t then none else s.task m j := by
      simp only [u, State.task, core_onCore]
      by_cases hm : m = n
      · subst hm
        rw [if_pos rfl, tabFind_tabErase]
        simp
      · rw [if_neg hm, if_neg (fun h => hm h.1)]
    have left : s.fewer u := fun m j z hz => by
      rw [erased] at hz
      split at hz
      · cases hz
      · exact ⟨z, hz, rfl⟩
    have sched : Scheduled u (((if filled then u.releaseHeld n else u.releaseIdle n).kick n).settle was n) :=
      ((Scheduled.ite_of (Scheduled.releaseHeld u n) (Scheduled.releaseIdle u n)).trans (Scheduled.kick _ n)).trans
        (Scheduled.settle was _ n)
    refine ⟨State.fewer_trans left sched.fewer, ?_⟩
    have onward := sched.task n t
    rw [erased, if_pos ⟨rfl, rfl⟩] at onward
    generalize (((if filled then u.releaseHeld n else u.releaseIdle n).kick n).settle was n).task n t = z at onward
    cases onward with
    | none => rfl

@[simp] theorem State.killTask_rest (s : State) (n t : Nat) : (s.killTask n t).rest = s.rest := by
  unfold State.killTask
  split
  · rfl
  · simp only [State.settle_rest, State.kick_rest]
    split <;> simp

theorem State.killTasks_spec (n : Nat) (l : List Nat) : ∀ s : State, s.fewer (l.foldl (fun s t => s.killTask n t) s) ∧
    ∀ t ∈ l, (l.foldl (fun s t => s.killTask n t) s).task n t = none := by
  induction l with
  | nil => exact fun s => ⟨fun m u z hz => ⟨z, hz, rfl⟩, fun t ht => absurd ht List.not_mem_nil⟩
  | cons t l ih =>
    intro s
    obtain ⟨kill, gone⟩ := State.killTask_fewer s n t
    obtain ⟨rest, dead⟩ := ih (s.killTask n t)
    refine ⟨State.fewer_trans kill rest, fun u hu => ?_⟩
    rcases List.mem_cons.1 hu with rfl | hu
    · refine Option.eq_none_iff_forall_not_mem.2 fun z hz => ?_
      obtain ⟨y, hy, -⟩ := rest n u z hz
      rw [gone] at hy
      cases hy
    · exact dead u hu

theorem State.killAll_spec (l : List (Nat × List Nat)) : ∀ s : State,
    s.fewer (l.foldl (fun s p => p.2.foldl (fun s t => s.killTask p.1 t) s) s) ∧
      ∀ p ∈ l, ∀ t ∈ p.2, (l.foldl (fun s p => p.2.foldl (fun s t => s.killTask p.1 t) s) s).task p.1 t = none := by
  induction l with
  | nil => exact fun s => ⟨fun m u z hz => ⟨z, hz, rfl⟩, fun p hp => absurd hp List.not_mem_nil⟩
  | cons q l ih =>
    intro s
    obtain ⟨kill, gone⟩ := State.killTasks_spec q.1 q.2 s
    obtain ⟨rest, dead⟩ := ih (q.2.foldl (fun s t => s.killTask q.1 t) s)
    refine ⟨State.fewer_trans kill rest, fun p hp t ht => ?_⟩
    rcases List.mem_cons.1 hp with rfl | hp
    · refine Option.eq_none_iff_forall_not_mem.2 fun z hz => ?_
      obtain ⟨y, hy, -⟩ := rest p.1 t z hz
      rw [gone t ht] at hy
      cases hy
    · exact dead p hp t ht

/-- A change of every listed core that keeps its tasks. -/
theorem State.task_mapCores {s : State} {f : Core → Core} (hf : ∀ c, (f c).tasks = c.tasks) (m t : Nat) :
    State.task { s with cores := s.cores.map fun (n, c) => (n, f c) } m t = s.task m t := by
  have core : ∀ l : Tab Core, (tabGet (Core.reset m) (l.map fun (n, c) => (n, f c)) m).tasks = (tabGet (Core.reset m) l m).tasks := by
    intro l
    induction l with
    | nil => rfl
    | cons p l ih =>
      obtain ⟨j, c⟩ := p
      by_cases h : j = m
      · subst h; simp [tabGet, hf]
      · simpa [tabGet, h] using ih
  simp only [State.task, State.core, core]

/-- R337: no task of an ended job is left. -/
theorem State.endJob_spec (s : State) (job : BitVec 12) : (∀ n t z, (s.endJob job).task n t = some z → z.job ≠ job) ∧
    (s.endJob job).drain = s.drain ∧ (s.endJob job).jobs.reports = s.jobs.reports := by
  obtain ⟨fewer, gone⟩ := State.killAll_spec (s.cores.map fun (n, c) => (n, c.tasksOf job)) s
  have rest : ((s.cores.map fun (n, c) => (n, c.tasksOf job)).foldl (fun s p => p.2.foldl (fun s t => s.killTask p.1 t) s) s).rest = s.rest :=
    foldl_keeps (f := fun s (p : Nat × List Nat) => p.2.foldl (fun s t => s.killTask p.1 t) s) (·.rest)
      (fun s p => foldl_keeps (f := fun s t => State.killTask s p.1 t) (·.rest) (fun s t => State.killTask_rest s p.1 t) _ _) _ _
  refine ⟨fun n t z hz hjob => ?_, ?_, ?_⟩
  · rw [State.endJob] at hz
    have hz := (State.task_mapCores (s := (s.cores.map fun (n, c) => (n, c.tasksOf job)).foldl
      (fun s p => p.2.foldl (fun s t => s.killTask p.1 t) s) s) (f := fun c => if c.wickets.any (fun (_, w) => keyJob w.key == job.toNat)
        then { c with wickets := c.wickets.filter fun (_, w) => keyJob w.key != job.toNat } else c)
        (fun c => by split <;> rfl) n t).symm.trans hz
    obtain ⟨y, hy, hj⟩ := fewer n t z hz
    have listed : (n, s.core n) ∈ s.cores := by
      by_cases hin : n ∈ s.cores.map (·.1)
      · exact tabGet_mem _ hin
      · rw [State.task, State.core, tabGet_eq_of_not_mem _ hin] at hy
        cases hy
    have named : t ∈ (s.core n).tasksOf job := by
      simp only [Core.tasksOf, List.mem_filterMap]
      exact ⟨(t, y), mem_of_tabFind hy, by simp [← hj, hjob]⟩
    have dead := gone (n, (s.core n).tasksOf job) (List.mem_map.2 ⟨_, listed, rfl⟩) t named
    rw [dead] at hz
    cases hz
  · have same := congrArg State.drain rest
    exact same
  · have same := congrArg State.jobs rest
    have reports := congrArg Jobs.reports same
    exact reports

theorem Drain.jobEnd_lastJob (d : Drain) (w : Word) : ({ d with lastJob := w } : Drain).jobEnd = d.jobEnd := rfl

theorem State.logReport_drain (s : State) (r : JobReport) : (s.logReport r).drain = { s.drain with lastJob := r.detail } := rfl

theorem State.logReports_spec (l : List JobReport) (s : State) : (l.foldl State.logReport s).jobs = s.jobs ∧
    (l.foldl State.logReport s).drain.jobEnd = s.drain.jobEnd ∧ (l.foldl State.logReport s).mem = s.mem :=
  ⟨foldl_keeps (f := State.logReport) (·.jobs) (fun _ _ => rfl) l s,
    foldl_keeps (f := State.logReport) (·.drain.jobEnd)
      (fun s r => by rw [State.logReport_drain, Drain.jobEnd_lastJob]) l s,
    foldl_keeps (f := State.logReport) (·.mem) (fun _ _ => rfl) l s⟩

/-- R336: the sequencer takes the reports of the job at their front, and ends the job. -/
theorem exec_jobSequencerEnd {s : State} {r : JobReport} {rs : List JobReport} (hl : s.live = true) (hr : s.jobs.reports = r :: rs) :
    ∃ t : State, exec .jobSequencerEnd s = .next t ∧ t.jobs.reports = rs.filter (·.job != r.job) ∧
      (∀ n tk z, t.task n tk = some z → z.job ≠ r.job) ∧ t.drain.jobEnd = bump s.drain.jobEnd ∧ t.mem = s.mem := by
  have ends : ∃ u : State, execJobSequencerEnd s = .next (u.endJob r.job) ∧ u.jobs.reports = rs.filter (·.job != r.job) ∧
      u.drain.jobEnd = bump s.drain.jobEnd ∧ u.mem = s.mem := by
    obtain ⟨jobs, ends, mem⟩ := State.logReports_spec (s.jobs.reports.filter (·.job == r.job))
      { s with jobs := { s.jobs with reports := s.jobs.reports.filter (·.job != r.job) } }
    simp only [execJobSequencerEnd, hl, Bool.not_true, Bool.false_eq_true, if_false]
    split
    · next h => rw [hr] at h; cases h
    · next q qs h =>
      rw [hr] at h
      cases h
      refine ⟨_, rfl, (congrArg Jobs.reports jobs).trans ?_, congrArg bump ends, mem⟩
      rw [hr]
      simp
  obtain ⟨u, hu, reports, count, mem⟩ := ends
  obtain ⟨gone, drain, kept⟩ := State.endJob_spec u r.job
  exact ⟨_, hu, kept.trans reports, gone, by rw [drain, count], (State.endJob_mem u r.job).trans mem⟩

/-- R275: what a lockup leaves. -/
theorem State.lockup_spec {s : State} {n : Nat} (h : (s.core n).lockCause = 0) (cause : BitVec 4) :
    ((s.lockup n cause).core n).lockCause = cause := by
  simp only [State.lockup, h]
  rw [if_neg (by decide), State.core_of_cores (State.record_cores _ _ _ _ _)]
  change ((s.onCore n fun c => { c with lockCause := cause, eligible := false }).core n).lockCause = cause
  rw [core_onCore, if_pos rfl]

end Sys2Proof.Machine

open Sys2Proof Sys2Proof.Machine

/-- Settles O46: each row by what its one function leaves of tasks, casements and cores. -/
theorem schedulerRows : Obligations.SchedulerRows := by
  refine ⟨fun core s tk k y hon hlock hrun hbar hfill hy hgood => ?_, fun core s hon => ⟨fun hruns hlim hlock => ?_, fun hlim => ?_,
    fun hlock hidle htmr => ?_⟩, fun cl s i seg hl hon => ⟨fun hnone hrun hfind => ?_, fun pass hslot hev => ?_,
    fun pass hslot hseg hev => ?_⟩, fun s r rs hl hr => exec_jobSequencerEnd hl hr⟩
  · obtain ⟨runs, ⟨z, hz, loc, st⟩, fill, case, queue⟩ := State.fillRuns_spec (k := k) hy
    rw [exec_hardwareFill hon hlock hrun hbar hfill hy hgood]
    refine ⟨_, z, rfl, runs, hz, loc, st, ?_, fill, by simp, queue, fun i hi => ?_⟩
    · refine (Casement.of_lasting (·.pc) (fun _ => rfl) case).trans ?_
      simp only [State.filled, State.takeGroups, apply_ite Casement.pc, ite_self]
    · refine (Casement.of_lasting (·.dreg i) (fun _ => rfl) case).trans ?_
      exact State.takeGroups_dreg s _ _ _ _ hi
  · change ∃ t : State, execKeeperCycleLimit core s = .next t ∧ _
    simp only [execKeeperCycleLimit, hon, Core.keeperRuns, hruns, BEq.rfl, Bool.and_self, Bool.true_and, decide_eq_true hlim, gt_iff_lt, if_true]
    exact ⟨_, rfl, State.lockup_spec hlock 6, State.lockup_mem _ _ _⟩
  · change execKeeperCycleLimit core s = _
    simp [execKeeperCycleLimit, hlim]
  · change ∃ t : State, execIdleDetectorExpiry core s = .next t ∧ _
    simp only [execIdleDetectorExpiry, hon, hlock, Core.detecting, hidle, htmr, BEq.rfl, Bool.and_self, Bool.true_or, if_true]
    have after : ((s.onCore core.val fun c => { c with tmrOwner := .none, tmrCount := 0, fresh := false, eligible := !c.texcl }).core core.val) =
        { s.core core.val with tmrOwner := .none, tmrCount := 0, fresh := false, eligible := !(s.core core.val).texcl } :=
      (core_onCore ..).trans (if_pos rfl)
    exact ⟨_, rfl, by rw [after], by rw [after], by rw [after], fun j => State.case_onCore_keeps (by intro; rfl) _ _ _ _, rfl⟩
  · exact exec_testSlotGrant hl hon hnone hrun hfind
  · exact exec_testSlotEnd_waits pass hslot hev
  · obtain ⟨t, ht, under, mem, cluster⟩ := exec_testSlotEnd pass hl hslot hev
    refine ⟨t, ht, by rw [cluster], under, mem, fun hp => ?_, fun hp => ?_⟩
    · subst hp hseg
      rw [cluster]
      simp
    · subst hp hseg
      rw [cluster]
      by_cases hin : (i, (s.cluster cl.val).slotSeg) ∈ (s.cluster cl.val).retests <;> simp [hin]

end

section
/-! PROOF. Commands of the scheduler block. -/

set_option Elab.async false

namespace Sys2Proof.Machine

/-! ### Bytes of words -/

theorem leToNat_natToLe (x n : Nat) : leToNat (natToLe x n) = x % 256 ^ n := by
  induction n generalizing x with
  | zero => simp [natToLe, leToNat, Nat.mod_one]
  | succ n ih =>
    rw [natToLe, leToNat, ih, pow_succ', Nat.mod_mul]
    simp

/-- Memory that holds a list holds it. -/
theorem State.bytes_of_getD (s : State) (l : List Byte) : ∀ a, (∀ j, j < l.length → s.byte (a + j) = l.getD j 0) → s.bytes a l.length = l := by
  induction l with
  | nil => exact fun _ _ => rfl
  | cons b l ih =>
    intro a h
    rw [List.length_cons, State.bytes, ih (a + 1) fun j hj => by rw [Nat.add_assoc, Nat.add_comm 1, h (j + 1) (by simpa using hj)]; rfl]
    exact congrArg (· :: l) (h 0 (by simp))

theorem State.bytes_drop (s : State) (a n i : Nat) : (s.bytes a n).drop i = s.bytes (a + i) (n - i) := by
  induction i generalizing a n with
  | zero => rfl
  | succ i ih =>
    cases n with
    | zero => simp [State.bytes]
    | succ n => rw [State.bytes, List.drop_succ_cons, ih]; congr 1 <;> omega

theorem State.bytes_take (s : State) (a n i : Nat) (h : i ≤ n) : (s.bytes a n).take i = s.bytes a i := by
  induction i generalizing a n with
  | zero => rfl
  | succ i ih =>
    cases n with
    | zero => omega
    | succ n => rw [State.bytes, List.take_succ_cons, ih _ _ (by omega)]; rfl

/-- A list of pieces of one length, piece by piece. -/
theorem getD_pieces (f : Nat → List Byte) {w : Nat} (hw : ∀ i, (f i).length = w) {n i j : Nat} (hi : i < n) (hj : j < w) :
    (((List.range n).map f).flatten).getD (w * i + j) 0 = (f i).getD j 0 := by
  have length (n : Nat) : (((List.range n).map f).flatten).length = w * n := by
    simp [List.length_flatten, Function.comp_def, hw, Nat.mul_comm]
  induction n with
  | zero => omega
  | succ n ih =>
    rw [List.range_succ, List.map_append, List.flatten_append]
    by_cases h : i < n
    · have inside : w * i + j < w * n := by
        calc w * i + j < w * i + w := by omega
          _ = w * (i + 1) := by ring
          _ ≤ w * n := Nat.mul_le_mul_left _ h
      rw [List.getD_append _ _ _ _ (by rw [length]; exact inside), ih h]
    · obtain rfl : i = n := by omega
      rw [List.getD_append_right _ _ _ _ (by rw [length]; omega), length]
      simp

/-! ### Groups of an image in its slot (R273) -/

/-- The bytes of a group. -/
def groupSize (g : Nat) : Nat := if g = 0 then 2048 else if g ≤ 4 then 64 else if g = 5 then 256 else if g = 6 then 1152 else 1024

theorem length_pieces (f : Nat → List Byte) {w : Nat} (hw : ∀ i, (f i).length = w) (n : Nat) : (((List.range n).map f).flatten).length = w * n := by
  simp [List.length_flatten, Function.comp_def, hw, Nat.mul_comm]

theorem length_groupBytes (c : Casement) {g : Nat} (hg : g ≠ 0) : (c.groupBytes g).length = groupSize g := by
  have vectors (j : Nat) : (((List.range 4).map fun i => natToLe (c.vreg (4 * j + i)).toNat 256).flatten).length = 1024 :=
    length_pieces _ (fun _ => length_natToLe _ _) 4
  unfold Casement.groupBytes groupSize
  rw [if_neg hg]
  by_cases h4 : g ≤ 4
  · rw [if_pos h4, if_pos h4]; exact length_pieces _ (fun _ => length_natToLe _ _) 8
  by_cases h5 : g = 5
  · subst h5; exact length_pieces (fun i => natToLe (c.key i).toNat 16) (fun _ => length_natToLe _ _) 16
  by_cases h6 : g = 6
  · subst h6
    exact (List.length_append).trans (congrArg₂ (· + ·) (vectors 0) (length_pieces _ (fun _ => length_natToLe _ _) 4))
  rw [if_neg h4, if_neg h4, if_neg h5, if_neg h6]
  simp only [beq_iff_eq, h5, h6, if_false]
  split
  · exact vectors _
  · exact length_natToLe _ _

theorem State.byte_marked (w : State) (l : List Nat) (f x : Nat) :
    State.byte { w with tags := l } x = w.byte x ∧ State.byte { w with free := f } x = w.byte x := ⟨rfl, rfl⟩

theorem State.core_marked (w : State) (l : List Nat) (f m : Nat) :
    State.core { w with tags := l } m = w.core m ∧ State.core { w with free := f } m = w.core m := ⟨rfl, rfl⟩

section
variable (s : State) (n off : Nat) (c : Casement)

theorem State.putGroup_byte (g x : Nat) : ∃ bs : List Byte, bs.length = groupSize g ∧ (g ≠ 0 → bs = c.groupBytes g) ∧
    (s.putGroup n off c g).byte x = if bankPa n (off + groupOff g) ≤ x ∧ x < bankPa n (off + groupOff g) + groupSize g
      then bs.getD (x - bankPa n (off + groupOff g)) 0 else s.byte x := by
  unfold State.putGroup
  by_cases h : g = 0
  · subst h
    have length : (((List.range 256).map fun i => natToLe (Config.freeWord (s.free + i)).toNat 8).flatten).length = groupSize 0 :=
      length_pieces _ (fun _ => length_natToLe _ _) 256
    refine ⟨_, length, fun h => absurd rfl h, ?_⟩
    rw [if_pos (by rfl), (State.byte_marked _ [] _ x).2, State.writeStore_byte, length]
  · have length := length_groupBytes c h
    refine ⟨_, length, fun _ => rfl, ?_⟩
    have written := State.writeStore_byte s (bankPa n (off + groupOff g)) (c.groupBytes g) false x
    rw [length] at written
    simp only [beq_iff_eq, h, if_false]
    split
    · rw [(State.byte_marked _ _ 0 x).1]; exact written
    · exact written

/-- A write to storage changes no more of a core than the line buffers of its DFM. -/
theorem State.writeStore_core {α : Type} (g : Core → α) (hg : ∀ c x y, g { c with dfmX := x, dfmY := y } = g c) (a : Nat) (bs : List Byte)
    (bad : Bool) (m : Nat) : g ((s.writeStore a bs bad).core m) = g (s.core m) := by
  have drop (u : State) (a len : Nat) : g ((u.dropRows a len).core m) = g (u.core m) := by
    simp only [State.dropRows]
    repeat' split
    · rfl
    · exact State.core_onCore_keeps g (fun c => hg c _ _) u _ m
    · rfl
  simp only [State.writeStore]
  rw [State.core_of_cores (State.noteDigest_cores _ _ _), drop]
  split
  · rfl
  · exact congrArg g (State.core_of_cores (State.scrubWords_cores s _) m)

theorem State.putGroup_core {α : Type} (p : Core → α) (hp : ∀ c x y, p { c with dfmX := x, dfmY := y } = p c) (g m : Nat) :
    p ((s.putGroup n off c g).core m) = p (s.core m) := by
  unfold State.putGroup
  simp only []
  split
  · rw [(State.core_marked _ [] _ m).2]; exact State.writeStore_core s p hp _ _ _ m
  · split
    · rw [(State.core_marked _ _ 0 m).1]; exact State.writeStore_core s p hp _ _ _ m
    · exact State.writeStore_core s p hp _ _ _ m

theorem State.putGroups_core {α : Type} (p : Core → α) (hp : ∀ c x y, p { c with dfmX := x, dfmY := y } = p c) (gs : List Nat) (m : Nat) :
    p ((s.putGroups n off c gs).core m) = p (s.core m) :=
  foldl_keeps (f := fun s g => s.putGroup n off c g) (fun s => p (s.core m)) (fun s g => State.putGroup_core s n off c p hp g m) gs s

theorem State.putGroups_outside (gs : List Nat) {x : Nat}
    (h : ∀ g ∈ gs, x < bankPa n (off + groupOff g) ∨ bankPa n (off + groupOff g) + groupSize g ≤ x) :
    (s.putGroups n off c gs).byte x = s.byte x := by
  unfold State.putGroups
  induction gs generalizing s with
  | nil => rfl
  | cons g gs ih =>
    obtain ⟨bs, -, -, byte⟩ := State.putGroup_byte s n off c g x
    rw [List.foldl_cons, ih _ fun g hg => h g (List.mem_cons_of_mem _ hg), byte, if_neg]
    have := h g List.mem_cons_self
    omega
end

theorem groups_apart : ∀ g, g < 18 → ∀ i, i < 5 → i ≠ 0 → g ≠ i →
    groupOff g + groupSize g ≤ groupOff i ∨ groupOff i + groupSize i ≤ groupOff g := by decide

theorem group_inSlot {prof g : Nat} (hg : g < profGroups prof) : groupOff g + groupSize g ≤ slotSize prof ∧ g < 18 := by
  have small : (∀ g, g < 6 → groupOff g + groupSize g ≤ 2560) ∧ (∀ g, g < 10 → groupOff g + groupSize g ≤ 7168) ∧
    ∀ g, g < 18 → groupOff g + groupSize g ≤ 15360 := by decide
  obtain ⟨h0, h1, h2⟩ := small
  match prof with
  | 0 => exact ⟨h0 g hg, Nat.lt_trans hg (by decide)⟩
  | 1 => exact ⟨h1 g hg, Nat.lt_trans hg (by decide)⟩
  | _ + 2 => exact ⟨h2 g hg, hg⟩

theorem group_outside {n off prof g a : Nat} (hg : g < profGroups prof) (ha : a < bankPa n off ∨ bankPa n off + slotSize prof ≤ a) :
    a < bankPa n (off + groupOff g) ∨ bankPa n (off + groupOff g) + groupSize g ≤ a := by
  have fits := (group_inSlot hg).1
  simp only [bankPa] at ha ⊢
  omega

section
variable (s : State) (n off : Nat) (c : Casement)

/-- The bytes of a group of data registers, once written, stay as they were written. -/
theorem State.putGroups_inside {gs : List Nat} (h18 : ∀ g ∈ gs, g < 18) {g j : Nat} (hg : g ∈ gs) (h0 : g ≠ 0) (h4 : g ≤ 4)
    (hj : j < groupSize g) : (s.putGroups n off c gs).byte (bankPa n (off + groupOff g) + j) = (c.groupBytes g).getD j 0 := by
  unfold State.putGroups
  induction gs generalizing s with
  | nil => cases hg
  | cons i gs ih =>
    rw [List.foldl_cons]
    have rest : ∀ i ∈ gs, i < 18 := fun i hi => h18 i (List.mem_cons_of_mem _ hi)
    by_cases hin : g ∈ gs
    · exact ih _ rest hin
    · obtain rfl : g = i := (List.mem_cons.1 hg).resolve_right hin
      have after := State.putGroups_outside (s.putGroup n off c g) n off c gs (x := bankPa n (off + groupOff g) + j) fun i hi => by
        have apart := groups_apart i (rest i hi) g (by omega) h0 (fun h => hin (h ▸ hi))
        simp only [bankPa]
        omega
      obtain ⟨bs, -, same, byte⟩ := State.putGroup_byte s n off c g (bankPa n (off + groupOff g) + j)
      refine after.trans (byte.trans ?_)
      rw [if_pos (by omega), same h0, Nat.add_sub_cancel_left]

/-- A data register in its slot. -/
theorem State.putGroups_dreg {gs : List Nat} (h18 : ∀ g ∈ gs, g < 18) {i : Nat} (hi : i < 32) (hg : 1 + i / 8 ∈ gs) :
    leToNat ((s.putGroups n off c gs).bytes (bankPa n (off + 0x800 + 8 * i)) 8) = (c.dreg i).toNat := by
  have bytes : (s.putGroups n off c gs).bytes (bankPa n (off + 0x800 + 8 * i)) (natToLe (c.dreg i).toNat 8).length =
      natToLe (c.dreg i).toNat 8 := by
    refine State.bytes_of_getD _ _ _ fun j hj => ?_
    rw [length_natToLe] at hj
    have off4 : groupOff (1 + i / 8) = 0x800 + 64 * (i / 8) := by
      have h : 1 + i / 8 ≤ 4 := by omega
      simp [groupOff, h]
    have size : groupSize (1 + i / 8) = 64 := by
      have h : 1 + i / 8 ≤ 4 := by omega
      simp [groupSize, h]
    have inside := State.putGroups_inside s n off c h18 hg (by omega) (by omega) (j := 8 * (i % 8) + j) (by omega)
    rw [off4] at inside
    have place : bankPa n (off + 0x800 + 8 * i) + j = bankPa n (off + (0x800 + 64 * (i / 8))) + (8 * (i % 8) + j) := by
      simp only [bankPa]
      omega
    rw [place, inside]
    have group : c.groupBytes (1 + i / 8) = ((List.range 8).map fun r => natToLe (c.dreg (8 * (i / 8) + r)).toNat 8).flatten := by
      have h : 1 + i / 8 ≤ 4 := by omega
      simp [Casement.groupBytes, h]
    rw [group, getD_pieces (fun r => natToLe (c.dreg (8 * (i / 8) + r)).toNat 8) (fun _ => length_natToLe _ _) (by omega) hj,
      Nat.div_add_mod]
  rw [length_natToLe] at bytes
  rw [bytes, leToNat_natToLe]
  exact Nat.mod_eq_of_lt ((c.dreg i).isLt.trans_eq (by norm_num))
end

theorem State.takeGroups_dreg_beyond (s : State) (n off prof : Nat) (img : Casement) {i : Nat} (hi : 32 ≤ i) :
    (s.takeGroups n off prof img).dreg i = 0 := by
  have d : ∃ f : Nat → Word, (s.takeGroups n off prof img).d = (List.range 32).foldl (fun t i => tabSet 0 t i (f i)) [] := by
    simp only [State.takeGroups, apply_ite Casement.d, ite_self]
    exact ⟨_, rfl⟩
  obtain ⟨f, hd⟩ := d
  rw [Casement.dreg, hd, tabGet_setRange, if_neg (by omega)]

/-! ### Start records (R267) -/

theorem recWord_bytes (s : State) (a : Nat) {j : Nat} (hj : 8 * j + 8 ≤ 256) :
    recWord (s.bytes a 256) j = BitVec.ofNat 64 (leToNat (s.bytes (a + 8 * j) 8)) := by
  rw [recWord, State.bytes_drop, State.bytes_take _ _ _ _ (by omega)]

theorem recCase_pc (bs : List Byte) : (recCase bs).pc = (recWord bs 0).setWidth 48 := rfl

theorem recCase_dsp (bs : List Byte) : (recCase bs).dsp = (recWord bs 1).setWidth 48 := rfl

theorem recCase_dreg (bs : List Byte) (j : Nat) :
    (recCase bs).dreg j = if j = 1 then recWord bs 7 else if j = 0 then recWord bs 6 else 0 := by
  rw [Casement.dreg, recCase, tabGet_tabSet, tabGet_tabSet]
  rfl

theorem State.place_bankPa (s : State) {n off : Nat} (hn : n < 10240) (ho : off < 0x40000) : s.place (bankPa n off) = .bank n off := by
  have lo : ¬ bankPa n off ≥ 2 ^ 51 := by unfold bankPa; omega
  have high : ¬ bankPa n off < 2 ^ 40 := by unfold bankPa; omega
  have mid : bankPa n off < 0x18000000000 := by unfold bankPa; omega
  have core : (bankPa n off - 2 ^ 40) / 0x80000 = n := by unfold bankPa; omega
  have offset : (bankPa n off - 2 ^ 40) % 0x80000 = off := by unfold bankPa; omega
  rw [State.place, if_neg lo, if_neg high, if_pos mid, core, offset]
  exact if_pos (by rw [decide_eq_true hn, decide_eq_true ho]; rfl)

/-- The spill area begins and ends at multiples of 1 KiB. -/
theorem State.inSpill_wide {s : State} {n off : Nat} (h : off % 256 = 0) (hs : s.inSpill n off 64 = false) : s.inSpill n off 256 = false := by
  unfold State.inSpill at *
  generalize fld (s.core n).spa 0 8 = b at *
  generalize fld (s.core n).spa 8 9 = z at *
  simp only [Bool.and_eq_false_iff, bne_eq_false_iff_eq, decide_eq_false_iff_not] at hs ⊢
  omega

/-- The record of a task lies in the bank where it is sound, outside the spill area. -/
theorem State.startRecord_sound {s : State} {n r : Nat} {keeper : Bool} (hn : n < 10240) (hr : r < 1024)
    (hs : ∀ j, j < 4 → s.sound n (bankPa n (r * 256) + 64 * j) 64)
    (hk : recKeysBad (s.bytes (bankPa n (r * 256)) 256) ((List.range 4).map fun j => s.tags.contains (bankPa n (r * 256) / 16 + 4 + j)) keeper = false)
    (h2 : s2Allowed (recCase (s.bytes (bankPa n (r * 256)) 256)) (BitVec.ofNat 12 (keyJob (recKey (s.bytes (bankPa n (r * 256)) 256) 0)))
      (recCase (s.bytes (bankPa n (r * 256)) 256)).s2ctl = true) :
    s.startRecord n (r * 256) keeper = (s, .ok (recCase (s.bytes (bankPa n (r * 256)) 256),
      BitVec.ofNat 12 (keyJob (recKey (s.bytes (bankPa n (r * 256)) 256) 0)))) := by
  obtain ⟨⟨off, hplace, -, hspill⟩, -, -, -, hb, hc, -⟩ := hs 0 (by decide)
  have clean : s.readStore (bankPa n (r * 256)) 256 = (s, false, s.bytes (bankPa n (r * 256)) 256) := by
    refine State.readStore_clean hb hc fun l hl => ?_
    rw [mem_unitsOf (by decide)] at hl
    obtain ⟨j, hj, rfl⟩ : ∃ j, j < 4 ∧ l = (bankPa n (r * 256) + 64 * j) / 64 := by
      refine ⟨l - bankPa n (r * 256) / 64, ?_, ?_⟩ <;> simp only [bankPa] at hl ⊢ <;> omega
    exact (hs j hj).2.2.2.2.2.2.1
  have at_ : off = r * 256 := by
    have place : s.place (bankPa n (r * 256) + 64 * 0) = .bank n (r * 256) := State.place_bankPa s hn (by omega)
    rw [place] at hplace
    cases hplace
    rfl
  have outside : s.inSpill n (r * 256) 256 = false := State.inSpill_wide (by omega) (at_ ▸ hspill)
  simp only [State.startRecord, clean, hk, h2, outside]
  simp

/-! ### The commands of the scheduler block (R266) -/

/-- A core whose first command has ended with a code. -/
def Core.tcmdDone (c : Core) (w : Word) (code : BitVec 8) : Core :=
  { c with tcmdQ := c.tcmdQ.tail, tsCode := code, tsTask := BitVec.ofNat 6 (tcTask w) }

/-- A command that has been carried out leaves the queue, with its code in TSTAT. -/
structure State.tcmdEnds (u : State) (n : Nat) (w : Word) (code : BitVec 8) (t : State) : Prop where
  core : t.core n = (u.core n).tcmdDone w code
  mem : t.mem = u.mem
  task : ∀ k, t.task n k = u.task n k
  case : ∀ k, t.case n k = u.case n k

theorem State.tcmdEnds.ctx {u t : State} {n : Nat} {w : Word} {code : BitVec 8} (h : u.tcmdEnds n w code t) (k : Nat) :
    t.ctx n (some k) = u.ctx n (some k) := by
  simp only [State.ctx, h.task, h.case]

theorem State.runTcmd_ends {s u : State} {n : Nat} {e : Tcmd} {rest : List Tcmd} {ops : List Nat} {code : BitVec 8}
    {f : State → Tcmd → Option (State × BitVec 8)} (hp : s.hasPower n = true) (hq : (s.core n).tcmdQ = e :: rest) (hret : e.ret = .none)
    (hop : ops.contains (tcOp e.word) = true) (hf : f s e = some (u, code)) : u.tcmdEnds n e.word code (s.runTcmd n ops f) := by
  have done : s.runTcmd n ops f = u.onCore n (·.tcmdDone e.word code) := by
    simp only [State.runTcmd, hp, hq, hop, hf, Bool.not_true, Bool.false_eq_true, if_false, if_true, State.tcmdDone, hret]
    rfl
  rw [done]
  exact ⟨(core_onCore ..).trans (if_pos rfl), rfl, State.task_onCore_keeps (by intro; rfl) _ _ _, State.case_onCore_keeps (by intro; rfl) _ _ _⟩

section
variable {s : State} {n : Nat} {w : Word}

/-- R267, R273: a new task's registers are in a free casement, filled from its slot, or in its image. -/
theorem State.placed_spec {q r : State} {t : Nat} {x : Task} (hx : q.task n t = some x) (hloc : x.loc = none)
    (hr : r = q ∨ ∃ k, k < 8 ∧ r = q.fillIn n t k)
    (hslot : ∀ i, i < 32 → leToNat (q.bytes (bankPa n (x.slot * 256 + 0x800 + 8 * i)) 8) = (x.image.dreg i).toNat)
    (himg : ∀ j, 32 ≤ j → x.image.dreg j = 0) :
    (r.core n).tcmdQ = (q.core n).tcmdQ ∧ r.mem = q.mem ∧ ∃ y, r.task n t = some y ∧ y.loc ≠ some 8 ∧ y.st = x.st ∧
      (y.prof, y.slot, y.job) = (x.prof, x.slot, x.job) ∧ (r.ctx n (some t)).pc = x.image.pc ∧ (r.ctx n (some t)).dsp = x.image.dsp ∧
        ∀ j, (r.ctx n (some t)).dreg j = x.image.dreg j := by
  obtain rfl | ⟨k, hk, rfl⟩ := hr
  · refine ⟨rfl, rfl, x, hx, by rw [hloc]; decide, rfl, rfl, ?_⟩
    have ctx : r.ctx n (some t) = x.image := by simp only [State.ctx, hx, hloc]
    simp only [ctx]
    exact ⟨trivial, trivial, fun _ => trivial⟩
  · obtain ⟨last, task⟩ := State.fillIn_task (k := k) hx t
    rw [if_pos rfl] at task
    have case := State.fillIn_case (k := k) hx k
    rw [if_pos rfl] at case
    have ctx : (q.fillIn n t k).ctx n (some t) = q.filled n t x := by simp only [State.ctx, task, case]
    refine ⟨State.fillIn_core hx (·.tcmdQ) (fun _ _ _ _ => rfl) n, State.fillIn_mem q n t k, _, task, ?_, rfl, rfl, ?_⟩
    · intro h
      cases h
      omega
    · simp only [ctx]
      refine ⟨?_, ?_, fun j => ?_⟩
      · simp only [State.filled, State.takeGroups, apply_ite Casement.pc, ite_self]
      · simp only [State.filled, State.takeGroups, apply_ite Casement.dsp, ite_self]
      · change (q.takeGroups n (x.slot * 256) x.prof x.image).dreg j = _
        by_cases hj : j < 32
        · rw [State.takeGroups_dreg _ _ _ _ _ hj, hslot j hj, BitVec.ofNat_toNat, BitVec.setWidth_eq]
        · rw [State.takeGroups_dreg_beyond _ _ _ _ _ (by omega), himg j (by omega)]

theorem Core.freeCase_lt {c : Core} {k : Nat} (h : c.freeCase = some k) : k < 8 :=
  List.mem_range.1 (List.mem_of_find?_eq_some h)

/-- R267: CREATE makes a READY task of its record; its registers lie in its slot and in its image or casement. -/
theorem State.tcmdCreate_spec {img : Casement} {job : BitVec 12} (hfree : s.task n (tcTask w) = none) (hprof : tcProf w ≠ 3)
    (hslot : (s.core n).slotOk (tcSlot w) (tcProf w) = true) (hrec : s.startRecord n (tcRec w * 256) false = (s, .ok (img, job)))
    (himg : ∀ j, 32 ≤ j → img.dreg j = 0) :
    ∃ u : State, s.tcmdCreate n w = (u, 0) ∧ (u.core n).tcmdQ = (s.core n).tcmdQ ∧
      (∀ a, (a < bankPa n (tcSlot w * 256) ∨ bankPa n (tcSlot w * 256) + slotSize (tcProf w) ≤ a) → u.byte a = s.byte a) ∧
      ∃ z : Task, u.task n (tcTask w) = some z ∧ z.st ≠ .waiting ∧ z.prof = tcProf w ∧ z.slot = tcSlot w ∧ z.job = job ∧
        (u.ctx n (some (tcTask w))).pc = img.pc ∧ (u.ctx n (some (tcTask w))).dsp = img.dsp ∧
        ∀ j, (u.ctx n (some (tcTask w))).dreg j = img.dreg j := by
  have groups : ∀ g ∈ List.range (profGroups (tcProf w)), g < profGroups (tcProf w) := fun g hg => List.mem_range.1 hg
  have written (i : Nat) (hi : i < 32) : leToNat ((s.putGroups n (tcSlot w * 256) img (List.range (profGroups (tcProf w)))).bytes
      (bankPa n (tcSlot w * 256 + 0x800 + 8 * i)) 8) = (img.dreg i).toNat := by
    refine State.putGroups_dreg s n _ img (fun g hg => (group_inSlot (groups g hg)).2) hi (List.mem_range.2 ?_)
    have six : 6 ≤ profGroups (tcProf w) := by unfold profGroups; split <;> decide
    omega
  have outside (a : Nat) (ha : a < bankPa n (tcSlot w * 256) ∨ bankPa n (tcSlot w * 256) + slotSize (tcProf w) ≤ a) :
      (s.putGroups n (tcSlot w * 256) img (List.range (profGroups (tcProf w)))).byte a = s.byte a := by
    refine State.putGroups_outside s n _ img _ fun g hg => ?_
    exact group_outside (groups g hg) ha
  have queue : ((s.putGroups n (tcSlot w * 256) img (List.range (profGroups (tcProf w)))).core n).tcmdQ = (s.core n).tcmdQ :=
    State.putGroups_core s n _ img (·.tcmdQ) (fun _ _ _ => rfl) _ n
  have found : (tabFind (s.core n).tasks (tcTask w)).isSome = false := by
    rw [show tabFind (s.core n).tasks (tcTask w) = none from hfree]; rfl
  have prof : (tcProf w == 3) = false := by simpa using hprof
  generalize hp : s.putGroups n (tcSlot w * 256) img (List.range (profGroups (tcProf w))) = p at written outside queue
  obtain ⟨x, hx⟩ : ∃ x : Task, x = { st := .ready, loc := none, prof := tcProf w, slot := tcSlot w, job := job
                                     image := { img with task := some (tcTask w) }, lastIssue := (p.core n).cycle } := ⟨_, rfl⟩
  obtain ⟨q, hq⟩ : ∃ q, q = p.setCore n { p.core n with
    tasks := tabPut (p.core n).tasks (tcTask w) x, readyQ := (p.core n).readyQ ++ [tcTask w] } := ⟨_, rfl⟩
  have made : q.task n (tcTask w) = some x := by
    rw [hq, State.task, core_setCore, if_pos rfl, tabFind_tabPut, if_pos rfl]
  have madeQ : (q.core n).tcmdQ = (s.core n).tcmdQ := by
    rw [hq, core_setCore, if_pos rfl]; exact queue
  have madeMem : q.mem = p.mem := by rw [hq]; rfl
  have shape : ∃ r, (r = q ∨ ∃ k, k < 8 ∧ r = q.fillIn n (tcTask w) k) ∧
      s.tcmdCreate n w = ((r.kick n).settle (s.core n).isIdle n, 0) := by
    simp only [State.tcmdCreate, found, prof, hslot, hrec, Bool.false_eq_true, if_false, Bool.not_true, hp]
    rw [← hx, ← hq]
    cases hfc : (p.core n).freeCase with
    | none => exact ⟨q, .inl rfl, rfl⟩
    | some k => exact ⟨_, .inr ⟨k, Core.freeCase_lt hfc, rfl⟩, rfl⟩
  obtain ⟨r, hr, answer⟩ := shape
  refine ⟨_, answer, ?_⟩
  have settled (r : State) : Scheduled r ((r.kick n).settle (s.core n).isIdle n) := (Scheduled.kick r n).trans (Scheduled.settle _ _ n)
  obtain ⟨rq, rmem, y, hy, loc, st, same, pc, dsp, dreg⟩ := State.placed_spec made (by rw [hx]) hr
    (fun i hi => by rw [State.bytes_of_mem madeMem, hx]; exact written i hi) (by rw [hx]; exact himg)
  rw [hx] at st same pc dsp dreg
  have sched := settled r
  have kept : (((r.kick n).settle (s.core n).isIdle n).ctx n (some (tcTask w))).lasting = (r.ctx n (some (tcTask w))).lasting :=
    sched.ctx fun x hx => by rw [hy] at hx; cases hx; exact loc
  have onward := sched.task n (tcTask w)
  rw [hy] at onward
  have mem : ((r.kick n).settle (s.core n).isIdle n).mem = p.mem := by rw [State.settle_mem, State.kick_mem, rmem, madeMem]
  have posts := congrArg Core.tcmdQ (sched.posts n)
  generalize ((r.kick n).settle (s.core n).isIdle n) = v at kept onward mem posts ⊢
  generalize hz : v.task n (tcTask w) = z at onward
  cases onward with
  | some o =>
    obtain ⟨-, -, awake, profs⟩ := o
    have profs := (congrArg (fun p => (p.1, p.2.1, p.2.2.1)) profs).trans same
    refine ⟨posts.trans (rq.trans madeQ), fun a ha => by rw [State.byte, mem]; exact outside a ha, _, rfl, awake (fun h => by rw [st] at h; cases h),
      congrArg (·.1) profs, congrArg (·.2.1) profs, congrArg (·.2.2) profs, ?_, ?_, fun j => ?_⟩
    · exact (Casement.of_lasting (·.pc) (fun _ => rfl) kept).trans pc
    · exact (Casement.of_lasting (·.dsp) (fun _ => rfl) kept).trans dsp
    · exact (Casement.of_lasting (·.dreg j) (fun _ => rfl) kept).trans (dreg j)

/-- R268: a killed task is gone. -/
theorem State.killTask_queue (s : State) (n t : Nat) : ((s.killTask n t).core n).tcmdQ = (s.core n).tcmdQ := by
  unfold State.killTask
  split
  · rfl
  · next x hx =>
    extract_lets was regs xq k mine filled u
    have sched : Scheduled u (((if filled then u.releaseHeld n else u.releaseIdle n).kick n).settle was n) :=
      ((Scheduled.ite_of (Scheduled.releaseHeld u n) (Scheduled.releaseIdle u n)).trans (Scheduled.kick _ n)).trans
        (Scheduled.settle was _ n)
    have queue : (u.core n).tcmdQ = (s.core n).tcmdQ := by
      simp only [u, core_onCore, if_pos]
    exact (congrArg Core.tcmdQ (sched.posts n)).trans queue

/-- A tile register without a parity error is scanned for nothing. -/
theorem State.scanTiles_clean {s : State} {n k : Nat} (he : (s.case n k).tErr = []) (hc : (s.case n k).tCorr = []) (js : List Nat) :
    s.scanTiles n k js = s := by
  have one (j : Nat) : s.scanTile n k j (BitVec.allOnes 16) = s := by
    simp [State.scanTile, he, hc, tabGet, markedRows, bitsOf]
  unfold State.scanTiles
  induction js with
  | nil => rfl
  | cons j js ih => rw [List.foldl_cons, one, ih]

/-- R268, R273: SPILL writes the changed groups of the casement and leaves the rest of the registers in the image. -/
theorem State.spillOut_spec {s : State} {n t k : Nat} {x : Task} (hx : s.task n t = some x) :
    ((s.spillOut n t k).core n).tcmdQ = (s.core n).tcmdQ ∧
      (∀ a, (a < bankPa n (x.slot * 256) ∨ bankPa n (x.slot * 256) + slotSize x.prof ≤ a) → (s.spillOut n t k).byte a = s.byte a) ∧
      (s.spillOut n t k).task n t = some { x with loc := none, image := { s.case n k with dirty := 0 } } ∧
      ((s.spillOut n t k).case n k).task = none ∧
      ∀ i, i < 32 → (s.case n k).dirty.getLsbD (1 + i / 8) = true →
        leToNat ((s.spillOut n t k).bytes (bankPa n (x.slot * 256 + 0x800 + 8 * i)) 8) = ((s.case n k).dreg i).toNat := by
  obtain ⟨p, hp⟩ : ∃ p, p = s.putGroups n (x.slot * 256) (s.case n k)
    ((List.range (profGroups x.prof)).filter (s.case n k).dirty.getLsbD) := ⟨_, rfl⟩
  have spilled : s.spillOut n t k = (p.onTask n t fun x => { x with loc := none, image := { s.case n k with dirty := 0 } }).onCore n fun c =>
      { c with cases := tabErase c.cases k, walks := c.walks.filter (·.use != .word k) } := by
    simp only [State.spillOut, hx, ← hp]
  have groups : ∀ g ∈ (List.range (profGroups x.prof)).filter (s.case n k).dirty.getLsbD, g < profGroups x.prof :=
    fun g hg => List.mem_range.1 (List.mem_filter.1 hg).1
  have tasks : (p.core n).tasks = (s.core n).tasks := by
    rw [hp]; exact State.putGroups_core s n _ _ (·.tasks) (fun _ _ _ => rfl) _ n
  have queue : (p.core n).tcmdQ = (s.core n).tcmdQ := by
    rw [hp]; exact State.putGroups_core s n _ _ (·.tcmdQ) (fun _ _ _ => rfl) _ n
  have task : p.task n t = some x := by rw [State.task, tasks]; exact hx
  have mem : (s.spillOut n t k).mem = p.mem := by rw [spilled]; simp [State.onTask, task]
  refine ⟨?_, fun a ha => ?_, ?_, ?_, fun i hi hd => ?_⟩
  · rw [spilled, core_onCore, if_pos rfl, ← queue]
    simp [State.onTask, task]
  · rw [State.byte, mem, hp]
    exact State.putGroups_outside s n _ _ _ fun g hg => group_outside (groups g hg) ha
  · rw [spilled, State.task_onCore_keeps (by intro; rfl), State.task_onTask, if_pos ⟨rfl, rfl⟩, task]
    rfl
  · rw [spilled, State.case, core_onCore, if_pos rfl]
    simp [tabGet_tabErase]
  · rw [State.bytes_of_mem mem, hp]
    refine State.putGroups_dreg s n _ _ (fun g hg => (group_inSlot (groups g hg)).2) hi (List.mem_filter.2 ⟨List.mem_range.2 ?_, hd⟩)
    have six : 6 ≤ profGroups x.prof := by unfold profGroups; split <;> decide
    omega
end

end Sys2Proof.Machine

open Sys2Proof Sys2Proof.Machine

/-- Settles O45: each command is its one function followed by its end; the slot's bytes are read off the groups that are written. -/
theorem taskCommands : Obligations.TaskCommands := by
  intro core s e rest hp hq hret
  have op : tcOp e.word = e.word.toNat % 8 := by simp [tcOp, fld_eq_div_mod]
  have task : tcTask e.word = e.word.toNat / 2 ^ 8 % 64 := fld_eq_div_mod ..
  have case : tcCase e.word = e.word.toNat / 2 ^ 16 % 16 := fld_eq_div_mod ..
  have prof : tcProf e.word = e.word.toNat / 2 ^ 20 % 4 := fld_eq_div_mod ..
  have slot : tcSlot e.word = e.word.toNat / 2 ^ 24 % 1024 := fld_eq_div_mod ..
  have record : tcRec e.word = e.word.toNat / 2 ^ 36 % 1024 := fld_eq_div_mod ..
  have ntask : (BitVec.ofNat 6 (tcTask e.word)).toNat = tcTask e.word := by
    rw [BitVec.toNat_ofNat, task]; omega
  rw [← op, ← task, ← case, ← prof, ← slot, ← record]
  have past {u t : State} {code : BitVec 8} (h : u.tcmdEnds core.val e.word code t) (hu : (u.core core.val).tcmdQ = (s.core core.val).tcmdQ) :
      (t.core core.val).tcmdQ = rest ∧ (t.core core.val).tsCode = code ∧ (t.core core.val).tsTask.toNat = tcTask e.word := by
    rw [h.core]
    exact ⟨by rw [Core.tcmdDone, hu, hq]; rfl, rfl, ntask⟩
  have rlt : tcRec e.word < 1024 := by rw [record]; omega
  have klt : keyJob (recKey (s.bytes (bankPa core.val (tcRec e.word * 256)) 256) 0) < 4096 := Nat.mod_lt _ (by decide)
  refine ⟨fun hop hfree hprof hslot hs hk h2 => ?_, fun hop htask => ?_, fun hop htask => ?_, fun hop htask => ?_,
    fun j y hop hk hkeep htask hy hloc hbusy he hc hfit => ?_, fun y hop hk hkeep hy hloc hfree hfit hgood => ?_, fun hop hken hs hk h2 => ?_,
    fun hop hken => ?_⟩
  · obtain ⟨u, hu, queue, outside, z, hz, awake, zprof, zslot, zjob, pc, dsp, dreg⟩ :=
      State.tcmdCreate_spec hfree hprof hslot (State.startRecord_sound core.isLt rlt hs hk h2) fun j hj => by
        rw [recCase_dreg, if_neg (by omega), if_neg (by omega)]
    have ends : u.tcmdEnds core.val e.word 0 _ := State.runTcmd_ends (ops := [0, 5, 6, 7])
      (f := fun s e => if tcOp e.word == 0 then some (s.tcmdCreate core.val e.word) else some (s, clsILLEGAL)) hp hq hret
      (by rw [hop]; rfl) (by rw [hop, hu]; rfl)
    refine ⟨_, z, rfl, past ends queue, fun a ha => ?_, (ends.task _).trans hz, awake, zprof, zslot, ?_, ?_, ?_, ?_, ?_, fun j hj => ?_⟩
    · rw [State.byte, ends.mem]; exact outside a ha
    · rw [zjob, BitVec.toNat_ofNat, Nat.mod_eq_of_lt klt]
    all_goals rw [ends.ctx]
    · rw [pc, recCase_pc, recWord_bytes _ _ (by decide)]
    · rw [dsp, recCase_dsp, recWord_bytes _ _ (by decide)]
    · rw [dreg, recCase_dreg, if_neg (by decide), if_pos rfl, recWord_bytes _ _ (by decide)]
    · rw [dreg, recCase_dreg, if_pos rfl, recWord_bytes _ _ (by decide)]
    · rw [dreg, recCase_dreg, if_neg (by omega), if_neg (by omega)]
  · have found : s.tcmdCreate core.val e.word = (s, 0x81) := by
      have there : (tabFind (s.core core.val).tasks (tcTask e.word)).isSome = true := Option.isSome_iff_ne_none.2 htask
      rw [State.tcmdCreate, if_pos there]
    have ends : s.tcmdEnds core.val e.word 0x81 _ := State.runTcmd_ends (ops := [0, 5, 6, 7])
      (f := fun s e => if tcOp e.word == 0 then some (s.tcmdCreate core.val e.word) else some (s, clsILLEGAL)) hp hq hret
      (by rw [hop]; rfl) (by rw [hop, found]; rfl)
    exact ⟨_, rfl, past ends rfl, ends.mem⟩
  · have ends : (s.killTask core.val (tcTask e.word)).tcmdEnds core.val e.word 0 _ := State.runTcmd_ends (ops := [1])
      (f := fun s e => if (s.task core.val (tcTask e.word)).isNone then some (s, 0x82) else some (s.killTask core.val (tcTask e.word), 0)) hp hq hret
      (by rw [hop]; rfl) (by rw [if_neg (by simpa using htask)])
    exact ⟨_, rfl, ⟨past ends (State.killTask_queue s _ _), ends.mem.trans (State.killTask_mem s _ _)⟩,
      (ends.task _).trans (State.killTask_fewer s _ _).2⟩
  · have ends : s.tcmdEnds core.val e.word 0x82 _ := State.runTcmd_ends (ops := [1])
      (f := fun s e => if (s.task core.val (tcTask e.word)).isNone then some (s, 0x82) else some (s.killTask core.val (tcTask e.word), 0)) hp hq hret
      (by rw [hop]; rfl) (by rw [if_pos (by rw [htask]; rfl)])
    exact ⟨_, rfl, past ends rfl, ends.mem⟩
  · obtain ⟨queue, outside, task', case', bytes⟩ := State.spillOut_spec (k := tcCase e.word) hy
    have spills : s.tcmdSpill core.val e = some (s.spillOut core.val j (tcCase e.word), 0) := by
      have low : ¬(decide (tcCase e.word ≥ 8) || !e.fromKeeper) = true := by rw [hkeep]; simpa using hk
      have none_bad : (((List.range 8).filter fun i => (s.case core.val (tcCase e.word)).dirty.getLsbD (10 + i)).any fun i =>
          tabGet (0 : BitVec 128) (s.case core.val (tcCase e.word)).tErr i != 0) = false := by
        rw [he]
        simp [tabGet]
      simp only [State.tcmdSpill, htask, hy, hbusy, none_bad, State.scanTiles_clean he hc]
      rw [if_neg low, if_neg (by decide), if_neg (by omega), if_neg (by decide)]
    have ends : (s.spillOut core.val j (tcCase e.word)).tcmdEnds core.val e.word 0 _ := State.runTcmd_ends (ops := [2])
      (f := fun s e => s.tcmdSpill core.val e) hp hq hret (by rw [hop]; rfl) spills
    refine ⟨_, _, rfl, past ends queue, fun a ha => ?_, (ends.task _).trans task', rfl, rfl, ?_, fun i hi hd => ?_⟩
    · rw [State.byte, ends.mem]; exact outside a ha
    · rw [ends.case]; exact case'
    · rw [State.bytes_of_mem ends.mem]; exact bytes i hi hd
  · have fills : s.tcmdFill core.val e = (s.fillIn core.val (tcTask e.word) (tcCase e.word), 0) := by
      have low : ¬(decide (tcCase e.word ≥ 8) || !e.fromKeeper) = true := by rw [hkeep]; simpa using hk
      have free : ¬(y.loc.isSome || !(s.core core.val).caseFree (tcCase e.word)) = true := by rw [hloc, hfree]; decide
      simp only [State.tcmdFill, hy, hgood]
      rw [if_neg low, if_neg free, if_neg (by omega)]
    have ends : (s.fillIn core.val (tcTask e.word) (tcCase e.word)).tcmdEnds core.val e.word 0 _ := State.runTcmd_ends (ops := [3])
      (f := fun s e => some (s.tcmdFill core.val e)) hp hq hret (by rw [hop]; rfl) (by rw [fills])
    obtain ⟨last, task'⟩ := State.fillIn_task (k := tcCase e.word) hy (tcTask e.word)
    rw [if_pos rfl] at task'
    have case' := State.fillIn_case (k := tcCase e.word) hy (tcCase e.word)
    rw [if_pos rfl] at case'
    refine ⟨_, _, rfl, ⟨past ends (State.fillIn_core hy (·.tcmdQ) (fun _ _ _ _ => rfl) _), ends.mem.trans (State.fillIn_mem _ _ _ _)⟩,
      (ends.task _).trans task', rfl, (ends.case _).trans case', fun i hi => ?_⟩
    rw [ends.case, case']
    exact State.takeGroups_dreg s _ _ _ _ hi
  · have starts := State.startRecord_sound core.isLt rlt hs hk h2
    generalize hbs : s.bytes (bankPa core.val (tcRec e.word * 256)) 256 = bs at starts hk h2
    have word (j : Nat) (hj : 8 * j + 8 ≤ 256) :
        recWord bs j = BitVec.ofNat 64 (leToNat (s.bytes (bankPa core.val (tcRec e.word * 256) + 8 * j) 8)) :=
      hbs ▸ recWord_bytes s _ hj
    have made : s.tcmdKstart core.val e.word = ((s.setCase core.val 8 (recCase bs)).onCore core.val fun c =>
        { c with ken := true, keeperPc := (recCase bs).pc, keeperJob := BitVec.ofNat 12 (keyJob (recKey bs 0)) }, 0) := by
      rw [State.tcmdKstart, if_neg (by rw [hken]; decide), starts]
    have ends := State.runTcmd_ends (ops := [4]) (f := fun s e => some (s.tcmdKstart core.val e.word)) hp hq hret (by rw [hop]; rfl)
      (by rw [made])
    have core' : (((s.setCase core.val 8 (recCase bs)).onCore core.val fun c =>
        { c with ken := true, keeperPc := (recCase bs).pc, keeperJob := BitVec.ofNat 12 (keyJob (recKey bs 0)) }).core core.val) =
        { s.core core.val with cases := tabSet {} (s.core core.val).cases 8 (recCase bs), ken := true, keeperPc := (recCase bs).pc
                               keeperJob := BitVec.ofNat 12 (keyJob (recKey bs 0)) } := by
      rw [core_onCore, if_pos rfl, State.setCase, core_onCore, if_pos rfl]
    have case' : (((s.setCase core.val 8 (recCase bs)).onCore core.val fun c =>
        { c with ken := true, keeperPc := (recCase bs).pc, keeperJob := BitVec.ofNat 12 (keyJob (recKey bs 0)) }).case core.val 8) =
        recCase bs := by
      rw [State.case, core']
      simp
    refine ⟨_, rfl, ⟨past ends (by rw [core']), ends.mem⟩, ?_, ?_, ?_, ?_⟩
    · rw [ends.core, core']; rfl
    · have pc : (recCase bs).pc = (BitVec.ofNat 64 (leToNat (s.bytes (bankPa core.val (tcRec e.word * 256) + 8 * 0) 8))).setWidth 48 :=
        congrArg (BitVec.setWidth 48) (word 0 (by decide))
      rw [ends.core, core']
      exact pc
    · rw [ends.case, case', recCase_dreg, if_neg (by decide), if_pos rfl]
      exact word 6 (by decide)
    · rw [ends.case, case', recCase_dreg, if_pos rfl]
      exact word 7 (by decide)
  · have ends : s.tcmdEnds core.val e.word 0x0B _ := State.runTcmd_ends (ops := [4])
      (f := fun s e => some (s.tcmdKstart core.val e.word)) hp hq hret (by rw [hop]; rfl) (by rw [State.tcmdKstart, if_pos hken]; rfl)
    exact ⟨_, rfl, past ends rfl, ends.mem⟩

end

section
/-! PROOF. Engines. -/

set_option Elab.async false

namespace Sys2Proof.Machine

/-! ### Engines of a state -/

@[simp] theorem State.getEng_setEng (s : State) (k : EngAt) (e : Engine) : (s.setEng k e).getEng k = e := by
  cases k with
  | bank n => simp [State.setEng, State.getEng, State.engine]
  | port p => simp [State.setEng, State.getEng]

@[simp] theorem State.getEng_countOrder (s : State) (k : EngAt) (c : Nat) : (s.countOrder k c).getEng k = s.getEng k := by
  unfold State.countOrder
  split
  · rfl
  · cases k with
    | bank n => rfl
    | port p => simp [State.getEng]

@[simp] theorem State.setEng_addends (s : State) (k : EngAt) (e : Engine) : (s.setEng k e).addends = s.addends := by
  cases k <;> rfl

@[simp] theorem State.countOrder_addends (s : State) (k : EngAt) (c : Nat) : (s.countOrder k c).addends = s.addends := by
  unfold State.countOrder
  split
  · rfl
  · cases k <;> rfl

theorem bumpBy_one {n : Nat} (c : BitVec n) : bumpBy c 1 = bump c := by
  have h := c.isLt
  unfold bumpBy bump
  apply BitVec.eq_of_toNat_eq
  split
  · next hc =>
    subst hc
    simp only [BitVec.toNat_ofNat, BitVec.toNat_allOnes]
    rw [Nat.min_eq_right (by omega), Nat.mod_eq_of_lt (by omega)]
  · next hc =>
    have below : c.toNat ≠ 2 ^ n - 1 := fun e => hc (BitVec.eq_of_toNat_eq (by simpa using e))
    rw [BitVec.toNat_ofNat, Nat.min_eq_left (by omega), BitVec.toNat_add]
    cases n with
    | zero => omega
    | succ n => simp

/-- A bank's order error is counted in its cluster. -/
theorem State.countOrder_bank (s : State) (n : Nat) (e : Engine) :
    (((s.setEng (.bank n) e).countOrder (.bank n) 1).cluster (n / 64)).orderErr = bump (s.cluster (n / 64)).orderErr := by
  rw [State.countOrder, if_neg (by decide)]
  change (((s.setEng (.bank n) e).onCluster (n / 64) fun x => { x with orderErr := bumpBy x.orderErr 1 }).cluster (n / 64)).orderErr = _
  rw [cluster_onCluster, if_pos rfl, bumpBy_one]
  rfl

/-- Without a notice none is held at any engine. -/
theorem State.noticeFor_none {s : State} (h : s.notice = false) (k : EngAt) : s.noticeFor k = false := by
  simp only [State.notice, Bool.or_eq_false_iff] at h
  obtain ⟨links, ports⟩ := h
  cases k with
  | bank n => exact (congrArg (· || _) links).trans ports
  | port p =>
    change (s.links.any (fun (_, l) => l.retry) || (s.port p).notice) = false
    rw [links, Bool.false_or]
    by_cases hp : p ∈ s.ports.map (·.1)
    · have none_ := List.any_eq_false.1 ports _ (tabGet_mem {} hp)
      exact Bool.eq_false_of_not_eq_true none_
    · exact congrArg Stack.notice (tabGet_eq_of_not_mem {} hp)

/-! ### Where an addend goes (R187) -/

theorem Engine.length_entries_le (e : Engine) : e.entries.length ≤ e.held.length := by
  have fold (l : List Addend) : ∀ m : List (Nat × Nat × Nat × Nat),
      (l.foldl (fun l a => if l.contains a.entry then l else l ++ [a.entry]) m).length ≤ m.length + l.length := by
    induction l with
    | nil => exact fun _ => Nat.le_refl _
    | cons a l ih =>
      intro m
      refine (ih _).trans ?_
      beta_reduce
      split
      · simp
      · simp only [List.length_append, List.length_cons, List.length_nil]; omega
  exact (fold e.held []).trans (Nat.le_of_eq (Nat.zero_add _))

section
variable {e : Engine} {k : EngAt} {a : Addend}

theorem Engine.classify_unranked (b : Bool) (h : a.ranked = false) : e.classify k b a = .ready a := by
  simp [Engine.classify, h]

section
variable (hr : a.ranked = true) (hlate : (e.round a.elem).late = [])
include hlate

theorem Engine.waits_free : e.waits false a = false := by simp [Engine.waits, hlate]
theorem Engine.relaxed_free : e.relaxed false a = false := by simp [Engine.relaxed, Round.isLate, hlate]

include hr

theorem Engine.classify_clash (h : e.overlaps a.elem = true) : e.classify k false a = .error { a with err := true } := by
  simp [Engine.classify, hr, h, Engine.relaxed_free hlate]

variable (hclear : e.overlaps a.elem = false)
include hclear

theorem Engine.classify_turn (hcap : e.tableLines.length < k.tableCap) (h : e.inTurn a = true) :
    e.classify k false a = .ready { a with loose := false } := by
  have room : e.tableFull k a = false := by
    simp only [Engine.tableFull, Bool.and_eq_false_iff, decide_eq_false_iff_not]
    right
    omega
  simp [Engine.classify, hr, hclear, Engine.relaxed_free hlate, Engine.waits_free hlate, h, room]

theorem Engine.classify_later (hcap : e.held.length < k.holdCap) (hlater : (e.round a.elem).next < a.rank) (hfits : e.fits a = true) :
    e.classify k false a = .hold := by
  have room : e.holdFull k a = false := by
    simp only [Engine.holdFull, Bool.and_eq_false_iff, decide_eq_false_iff_not]
    right
    have := e.length_entries_le
    omega
  have notNow : e.inTurn a = false := by
    simp only [Engine.inTurn, Bool.and_eq_false_iff, beq_eq_false_iff_ne]
    exact .inl (by omega)
  simp [Engine.classify, hr, hclear, Engine.relaxed_free hlate, notNow, hfits, hlater.le, room]

theorem Engine.classify_error (h : a.rank < (e.round a.elem).next ∨ e.fits a = false) :
    e.classify k false a = .error { a with err := true } := by
  have notNow : e.inTurn a = false := by
    simp only [Engine.inTurn, Bool.and_eq_false_iff, beq_eq_false_iff_ne]
    exact h.imp (by omega) id
  have notLater : (decide (a.rank ≥ (e.round a.elem).next) && e.fits a) = false := by
    simp only [Bool.and_eq_false_iff, decide_eq_false_iff_not]
    exact h.imp (by omega) id
  simp [Engine.classify, hr, hclear, Engine.relaxed_free hlate, notNow, notLater, Round.isLate, hlate]
end

theorem State.engineFor_own {s : State} {pa : Nat} (h : s.engineFor pa = .inl k) (own : Option Nat) : s.engineFor pa own = .inl k := by
  unfold State.engineFor at *
  split at h
  · next n off hp =>
    split at h
    · cases h
    · next hon =>
      have on : s.clusterOn n = true := by simpa using hon
      simp only [hp, on, Bool.true_or, Bool.not_true, Bool.false_eq_true, if_false]
      exact h
  · next hp => simp only [hp]; exact h
  · cases h

/-- What an addend leaves where it reaches its engine, by what it is found to be. -/
structure State.addendGoes (s : State) (k : EngAt) (a : Addend) (t : State) : Prop where
  ready : ∀ x, (s.getEng k).classify k (s.noticeFor k) { a with id := s.nextId, born := some a.birth } = .ready x →
    t = s.fresh.2.setEng k { s.getEng k with ready := (s.getEng k).ready ++ [x] }
  error : ∀ x, (s.getEng k).classify k (s.noticeFor k) { a with id := s.nextId, born := some a.birth } = .error x →
    t = (s.fresh.2.setEng k { s.getEng k with ready := (s.getEng k).ready ++ [x] }).countOrder k 1
  hold : (s.getEng k).classify k (s.noticeFor k) { a with id := s.nextId, born := some a.birth } = .hold →
    t = s.fresh.2.setEng k { s.getEng k with held := (s.getEng k).held ++ [{ a with id := s.nextId, born := some a.birth }] }

theorem State.addendIn_goes {s : State} (hk : s.engineFor a.pa = .inl k) : s.addendGoes k a (s.addendIn a) := by
  have found := State.engineFor_own hk a.agent.core?
  have eng : s.fresh.2.getEng k = s.getEng k := by cases k <;> rfl
  have notice : s.fresh.2.noticeFor k = s.noticeFor k := by cases k <;> rfl
  have shape : s.addendIn a = match (s.fresh.2.getEng k).classify k (s.fresh.2.noticeFor k) { a with id := s.nextId, born := some a.birth } with
      | .ready a => s.fresh.2.setEng k { s.fresh.2.getEng k with ready := (s.fresh.2.getEng k).ready ++ [a] }
      | .error a => (s.fresh.2.setEng k { s.fresh.2.getEng k with ready := (s.fresh.2.getEng k).ready ++ [a] }).countOrder k 1
      | .hold => s.fresh.2.setEng k { s.fresh.2.getEng k with
          held := (s.fresh.2.getEng k).held ++ [{ a with id := s.nextId, born := some a.birth }] }
      | .refuse => { s.fresh.2 with refused := s.fresh.2.refused ++ [{ a with id := s.nextId, born := some a.birth }] } := by
    simp only [State.addendIn, found] <;> rfl
  rw [eng, notice] at shape
  exact ⟨fun x hx => by rw [shape, hx], fun x hx => by rw [shape, hx], fun hx => by rw [shape, hx]⟩

/-- R187: an intact addend that is first of its pair of agents reaches its engine. -/
theorem exec_addendArrival {s : State} {i : Nat} (hl : s.live = true) (ha : s.addends[i]? = some a)
    (hvoid : a.void = false) (hflit : a.flit = .none) (hmesh : s.meshFirst a.agent (s.addendDst a) a.id = true)
    (hfirst : s.addendFirst a.agent (s.addendDst a) a.id = true) (hk : s.engineFor a.pa = .inl k) :
    ∃ (p : Bool) (t : State), exec (.addendArrival i) s = .next t ∧
      State.addendGoes { s with addends := dropAt s.addends i } k { a with poison := p, flit := .none } t := by
  have waits : s.voidWaits a = false := by simp [State.voidWaits, hvoid]
  have arrives : exec (.addendArrival i) s = .next (State.addendAt { s with addends := dropAt s.addends i } a) := by
    change execAddendArrival i s = _
    simp only [execAddendArrival, ha, hl, waits, hmesh, hfirst, Bool.not_false, Bool.and_self, if_true]
  have same : ({ a with poison := a.poison, flit := .none } : Addend) = a := by rw [← hflit]
  have kept : ({ s with addends := dropAt s.addends i } : State).engineFor a.pa = .inl k := hk
  generalize ({ s with addends := dropAt s.addends i } : State) = u at arrives kept ⊢
  refine ⟨a.poison, _, arrives, ?_⟩
  have at_ : u.addendAt a = u.addendIn a := by
    have data : (a.flit == .data) = false := by rw [hflit]; rfl
    unfold State.addendAt
    split
    · rfl
    · rw [if_neg (by rw [hflit]; decide), if_neg (by rw [hvoid]; decide), State.noteFlit, data, if_neg (by decide), Bool.or_false, same]
  rw [at_, same]
  exact State.addendIn_goes kept
end

/-! ### The read-modify-write (R185) -/

theorem FFmt.decode_nan (f : FFmt) (c : Nat) (h : f.isNan c = true) : f.decode c = .nan := by simp [FFmt.decode, h]

theorem xadd_nan (rm : Nat) (x y : XV) (h : x = .nan ∨ y = .nan) : xadd rm x y = .nan := by
  rcases h with rfl | rfl
  · cases y <;> rfl
  · cases x <;> rfl

/-- R104: a sum with a NaN is the default NaN. -/
theorem engineFinish_add (f : FFmt) (old v : Nat) : engineFinish f (xadd 0 (f.decode old) (f.decode v)) =
    if f.isNan old || f.isNan v then f.nan else engineFinish f (xadd 0 (f.decode old) (f.decode v)) := by
  split
  · next h =>
    rw [Bool.or_eq_true] at h
    rw [xadd_nan 0 _ _ (h.imp (FFmt.decode_nan f old) (FFmt.decode_nan f v))]
    rfl
  · rfl

theorem signedOf_eq_toInt (x : Nat) : signedOf x 64 = (BitVec.ofNat 64 x).toInt := by
  rw [BitVec.toInt_eq_toNat_cond, BitVec.toNat_ofNat, signedOf]
  have bound := Nat.mod_lt x (show 0 < 2 ^ 64 by decide)
  split <;> split <;> simp <;> omega

theorem State.remember_lists (e : Engine) (a : Addend) : (e.remember a).ready = e.ready ∧ (e.remember a).held = e.held := by
  unfold Engine.remember
  split
  · exact ⟨rfl, rfl⟩
  · simp only []
    repeat' split
    all_goals exact ⟨rfl, rfl⟩

theorem Engine.setRound_lists (e : Engine) (b : Bool) (r : Round) : (e.setRound b r).ready = e.ready ∧ (e.setRound b r).held = e.held := ⟨rfl, rfl⟩

/-- An addend that takes its turn leaves what is ready and what is held. -/
theorem Engine.turn_lists (e : Engine) (b : Bool) (a : Addend) : (e.turn b a).1.ready = e.ready ∧ (e.turn b a).1.held = e.held := by
  obtain ⟨hr, hh⟩ := State.remember_lists e a
  rw [← hr, ← hh]
  unfold Engine.turn Engine.advance
  simp only []
  repeat' split
  all_goals exact ⟨rfl, rfl⟩

theorem Engine.pick_none {e : Engine} (h : e.held = []) (b : Bool) (el : Nat × Nat) : e.pick b el = none := by
  simp [Engine.pick, h, findIdx]

theorem State.setEng_storage (s : State) (k : EngAt) (e : Engine) (bad : Nat) : ((s.setEng k e).countOrder k bad).mem = s.mem := by
  rw [State.countOrder_mem, State.setEng_mem]

/-- An addend whose requester waits for no answer ends without a change of memory or of its engine. -/
theorem State.addendEnds_none {a : Addend} (h : a.ret = .none) (s : State) (st : RStat) (bs : List Byte) :
    (s.addendEnds a st bs).mem = s.mem ∧ ∀ k, (s.addendEnds a st bs).getEng k = s.getEng k := by
  unfold State.addendEnds
  split
  · rw [h]; exact ⟨rfl, fun _ => rfl⟩
  · exact ⟨rfl, fun k => by cases k <;> rfl⟩

/-- R185: one addend at a bank whose line is sound. -/
theorem State.applyAddend_sound {s : State} {a : Addend} {n : Nat} (hz : s.sound n a.elem.1 a.elem.2) (hp : a.poison = false)
    (hin : a.elem.1 % 64 + a.elem.2 ≤ 64) :
    (s.applyAddend a).1 = s.writeStore a.elem.1 (natToLe (engineOp a.af (leToNat (s.bytes a.elem.1 a.elem.2))
      (a.val.toNat % 2 ^ (8 * a.elem.2)) a.cmp.toNat) a.elem.2) false := by
  obtain ⟨⟨off, hplace, -⟩, -, hlen, -, hb, hc, hpo, -⟩ := hz
  have addr : s.storeAddr a.elem.1 = a.elem.1 := by simp [State.storeAddr, hplace]
  have read : s.readStore (a.elem.1 / 64 * 64) 64 = (s, false, s.bytes (a.elem.1 / 64 * 64) 64) :=
    State.readStore_sound hb hc (by decide) (by omega) (by rw [Nat.mul_div_cancel _ (by decide)]; exact hpo)
  have size : a.elem.2 = afBytes a.af := rfl
  simp only [State.applyAddend, addr, read, hp, Bool.or_false, ← size]
  split <;> rfl

theorem State.writeStore_engines {s : State} (hb : s.eccBad = []) (hc : s.eccCorr = []) (a : Nat) (bs : List Byte) (bad : Bool) :
    (s.writeStore a bs bad).engines = s.engines := by
  have digest (u : State) (x l : Nat) : (u.noteDigest x l).engines = u.engines := by
    simp only [State.noteDigest]; (repeat' split) <;> rfl
  have rows (u : State) (x l : Nat) : (u.dropRows x l).engines = u.engines := by
    simp only [State.dropRows]; (repeat' split) <;> rfl
  simp only [State.writeStore, hb, hc, digest, rows]
  rfl

/-- R185: a single addend is applied, takes its turn and ends; none that is held follows. -/
theorem State.applyAll_one {u : State} {k : EngAt} {a : Addend} (hvoid : a.void = false) (hret : a.ret = .none)
    (hheld : ((u.applyAddend a).1.getEng k).held = []) (fuel : Nat) :
    (u.applyAll k (fuel + 2) [a]).mem = (u.applyAddend a).1.mem ∧
      ((u.applyAll k (fuel + 2) [a]).getEng k).ready = ((u.applyAddend a).1.getEng k).ready := by
  obtain ⟨ready, held⟩ := Engine.turn_lists ((u.applyAddend a).1.getEng k) ((u.applyAddend a).1.noticeFor k) a
  rw [State.applyAll, if_neg (by rw [hvoid]; decide)]
  simp only []
  rw [if_neg (by rw [hvoid]; decide)]
  generalize (u.applyAddend a).1 = w at *
  generalize (w.getEng k).turn (w.noticeFor k) a = p at *
  obtain ⟨mem, eng⟩ := State.addendEnds_none hret ((w.setEng k p.1).countOrder k (b2n p.2)) (u.applyAddend a).2.1 (u.applyAddend a).2.2
  have kept := (eng k).trans ((State.getEng_countOrder ..).trans (State.getEng_setEng ..))
  rw [Engine.pick_none (by rw [kept, held, hheld])]
  refine ⟨?_, ?_⟩
  · exact mem.trans (State.setEng_storage w k p.1 _)
  · rw [State.applyAll, kept, ready]
    exact Nat.succ_ne_zero fuel

/-- R185: the read-modify-write of a line on which one addend is ready. -/
theorem State.engineLine_one {s : State} {n : Nat} {a : Addend} (hpow : s.hasPower n = true) (hready : (s.engine n).ready = [a])
    (hheld : (s.engine n).held = []) (hvoid : a.void = false) (hret : a.ret = .none) (hp : a.poison = false)
    (hs : s.sound n a.elem.1 a.elem.2) :
    ((s.engineLine (.bank n) (a.pa / 64)).engine n).ready = [] ∧ ∀ b, (s.engineLine (.bank n) (a.pa / 64)).byte b =
      if a.elem.1 ≤ b ∧ b < a.elem.1 + a.elem.2 then (natToLe (engineOp a.af (leToNat (s.bytes a.elem.1 a.elem.2))
        (a.val.toNat % 2 ^ (8 * a.elem.2)) a.cmp.toNat) a.elem.2).getD (b - a.elem.1) 0 else s.byte b := by
  have takes : s.mayApply (.bank n) (a.pa / 64) a = true := by simp [State.mayApply, Addend.line]
  have eng : s.getEng (.bank n) = s.engine n := rfl
  obtain ⟨u, hu⟩ : ∃ u, u = s.setEng (.bank n) { s.engine n with ready := [] } := ⟨_, rfl⟩
  have line : s.engineLine (.bank n) (a.pa / 64) = u.applyAll (.bank n) 2 [a] := by
    simp only [State.engineLine, State.engineRuns, hpow, Bool.not_true, Bool.false_eq_true, if_false, eng, hready, hheld, List.filter_cons,
      takes, List.filter_nil, if_true, List.length_cons, List.length_nil, State.engineNotice, hu]
  have sound : u.sound n a.elem.1 a.elem.2 := by rw [hu]; exact hs
  have applied := State.applyAddend_sound sound hp hs.2.2.2.1
  have bytes : u.bytes a.elem.1 a.elem.2 = s.bytes a.elem.1 a.elem.2 := State.bytes_of_mem (by rw [hu]; rfl) _ _
  have engine : (u.applyAddend a).1.getEng (.bank n) = { s.engine n with ready := [] } := by
    rw [applied, State.getEng, State.engine, State.writeStore_engines sound.2.2.2.2.1 sound.2.2.2.2.2.1, hu]
    exact State.getEng_setEng s (.bank n) _
  obtain ⟨mem, ready⟩ := State.applyAll_one hvoid hret (by rw [engine]; exact hheld) 0
  rw [line]
  refine ⟨(congrArg Engine.ready rfl).trans (ready.trans (by rw [engine])), fun b => ?_⟩
  rw [State.byte, mem, applied]
  refine (State.writeStore_byte _ _ _ _ _).trans ?_
  rw [length_natToLe, bytes, State.byte, hu]
  rfl

/-! ### The scrub of a bank and of the tiles beneath its core (R331) -/

theorem bitsOf_zero_all {x : BitVec 128} (h : ∀ r, r < 16 → bitsOf x.toNat (8 * r) 8 = 0) : x = 0 := by
  apply BitVec.eq_of_getLsbD_eq
  intro i hi
  have byte := h (i / 8) (by omega)
  have bit : (bitsOf x.toNat (8 * (i / 8)) 8).testBit (i % 8) = x.toNat.testBit i := by
    rw [testBit_bitsOf]
    have : i % 8 < 8 := Nat.mod_lt _ (by decide)
    rw [show 8 * (i / 8) + i % 8 = i by omega]
    simp [this]
  rw [byte] at bit
  simp only [BitVec.getLsbD]
  rw [← bit]
  simp

/-- A tile whose every row has been scanned holds no error. -/
theorem scanRows_all (c : Casement) (j : Nat) : tabGet 0 (c.scanRows j (BitVec.allOnes 16)).tCorr j = 0 ∧
    tabGet 0 (c.scanRows j (BitVec.allOnes 16)).tErr j = 0 := by
  have keep : BitVec.ofNat 128 ((List.range 16).foldl (fun a r => if (BitVec.allOnes 16).getLsbD r then a else a + 0xFF * 2 ^ (8 * r)) 0) =
      (0 : BitVec 128) := by decide
  simp only [Casement.scanRows, tabGet_tabSet, if_true, keep]
  exact ⟨BitVec.and_zero, BitVec.and_zero⟩

theorem scanRows_other (c : Casement) {i j : Nat} (h : i ≠ j) (rows : BitVec 16) :
    tabGet 0 (c.scanRows j rows).tCorr i = tabGet 0 c.tCorr i ∧ tabGet 0 (c.scanRows j rows).tErr i = tabGet 0 c.tErr i := by
  simp only [Casement.scanRows, tabGet_tabSet, if_neg h]
  exact ⟨trivial, trivial⟩

/-- A tile holds no error. -/
def Casement.tileClean (c : Casement) (j : Nat) : Prop := tabGet 0 c.tCorr j = 0 ∧ tabGet 0 c.tErr j = 0

theorem tileClean_scanRows {c : Casement} {i : Nat} (h : c.tileClean i) (j : Nat) : (c.scanRows j (BitVec.allOnes 16)).tileClean i := by
  by_cases hi : i = j
  · exact hi ▸ scanRows_all c j
  · obtain ⟨hc, he⟩ := scanRows_other c hi (BitVec.allOnes 16)
    exact ⟨hc.trans h.1, he.trans h.2⟩

/-- What a tile's scan counts leaves the cores and the errors of storage. -/
theorem State.tileCounts (s : State) (a : Nat) (l m : List Nat) :
    let u := m.foldl (fun s _ => s.countUe a) (l.foldl (fun s _ => s.countCe a) s)
    u.cores = s.cores ∧ u.eccCorr = s.eccCorr := by
  have ue (s : State) : (s.countUe a).cores = s.cores := by
    unfold State.countUe; split <;> exact State.record_cores _ _ _ _ _
  have ce (s : State) : (s.countCe a).cores = s.cores := by
    unfold State.countCe; split <;> rfl
  exact ⟨(foldl_keeps (f := fun s (_ : Nat) => s.countUe a) (·.cores) (fun s _ => ue s) _ _).trans
      (foldl_keeps (f := fun s (_ : Nat) => s.countCe a) (·.cores) (fun s _ => ce s) _ _),
    (foldl_keeps (f := fun s (_ : Nat) => s.countUe a) (·.eccCorr) (fun s _ => State.countUe_eccCorr s a) _ _).trans
      (foldl_keeps (f := fun s (_ : Nat) => s.countCe a) (·.eccCorr) (fun s _ => State.countCe_eccCorr s a) _ _)⟩

/-- A tile in which no row and no word is marked holds no error. -/
theorem tileClean_of_unmarked {c : Casement} {j : Nat} (hbad : markedRows (tabGet 0 c.tErr j) (BitVec.allOnes 16) = [])
    (hcorr : ((List.range 128).filter fun w => (tabGet (0 : BitVec 128) c.tCorr j).getLsbD w && (BitVec.allOnes 16).getLsbD (w / 8)) = []) :
    c.tileClean j := by
  constructor
  · apply BitVec.eq_of_getLsbD_eq
    intro w hw
    have off := List.filter_eq_nil_iff.1 hcorr w (List.mem_range.2 hw)
    rw [BitVec.getLsbD_allOnes, decide_eq_true (show w / 8 < 16 by omega), Bool.and_true] at off
    exact (Bool.eq_false_of_not_eq_true off).trans BitVec.getLsbD_zero.symm
  · refine bitsOf_zero_all fun r hr => ?_
    have off := List.filter_eq_nil_iff.1 hbad r (List.mem_range.2 hr)
    rw [BitVec.getLsbD_allOnes, decide_eq_true hr, Bool.true_and] at off
    simpa using off

/-- A scan leaves a tile without errors, every other tile no worse, and the errors of storage as they were. -/
theorem State.scanTile_spec (s : State) (n k j : Nat) : ((s.scanTile n k j (BitVec.allOnes 16)).case n k).tileClean j ∧
    (∀ m i, (s.case n m).tileClean i → ((s.scanTile n k j (BitVec.allOnes 16)).case n m).tileClean i) ∧
    (s.scanTile n k j (BitVec.allOnes 16)).eccCorr = s.eccCorr := by
  simp only [State.scanTile]
  split
  · next h =>
    rw [Bool.and_eq_true, List.isEmpty_iff, List.isEmpty_iff] at h
    obtain ⟨hbad, hcorr⟩ := h
    refine ⟨tileClean_of_unmarked hbad ?_, fun _ _ h => h, rfl⟩
    rw [hbad] at hcorr
    simpa using hcorr
  · generalize markedRows (tabGet 0 (s.case n k).tErr j) (BitVec.allOnes 16) = bad
    generalize ((List.range 128).filter fun w => (tabGet (0 : BitVec 128) (s.case n k).tCorr j).getLsbD w &&
      (BitVec.allOnes 16).getLsbD (w / 8) && !bad.contains (w / 8)) = corr
    obtain ⟨cores, ecc⟩ := State.tileCounts s (bankPa n 0) corr bad
    generalize bad.foldl (fun s _ => s.countUe (bankPa n 0)) (corr.foldl (fun s _ => s.countCe (bankPa n 0)) s) = u at cores ecc ⊢
    have case (m : Nat) : u.case n m = s.case n m := State.case_of_cores cores n m
    refine ⟨?_, fun m i h => ?_, ecc⟩
    · rw [case_onCase, if_pos ⟨rfl, rfl⟩]; exact scanRows_all _ j
    · rw [case_onCase]
      split
      · next hm =>
        rw [← hm.2, case]
        exact tileClean_scanRows h j
      · rw [case]; exact h

theorem State.scanTiles_spec (n k : Nat) (js : List Nat) : ∀ s : State, (∀ j ∈ js, ((s.scanTiles n k js).case n k).tileClean j) ∧
    (∀ m i, (s.case n m).tileClean i → ((s.scanTiles n k js).case n m).tileClean i) ∧ (s.scanTiles n k js).eccCorr = s.eccCorr := by
  unfold State.scanTiles
  induction js with
  | nil => exact fun s => ⟨fun j hj => absurd hj List.not_mem_nil, fun _ _ h => h, rfl⟩
  | cons j js ih =>
    intro s
    obtain ⟨clean, keeps, ecc⟩ := State.scanTile_spec s n k j
    obtain ⟨rest, after, ecc'⟩ := ih (s.scanTile n k j (BitVec.allOnes 16))
    refine ⟨fun i hi => ?_, fun m i h => after m i (keeps m i h), ecc'.trans ecc⟩
    rcases List.mem_cons.1 hi with rfl | hi
    · exact after k i clean
    · exact rest i hi

theorem State.scanCases_spec (n : Nat) (js ks : List Nat) : ∀ s : State,
    (∀ k ∈ ks, ∀ j ∈ js, ((ks.foldl (fun s k => s.scanTiles n k js) s).case n k).tileClean j) ∧
      (∀ m i, (s.case n m).tileClean i → ((ks.foldl (fun s k => s.scanTiles n k js) s).case n m).tileClean i) ∧
      (ks.foldl (fun s k => s.scanTiles n k js) s).eccCorr = s.eccCorr := by
  induction ks with
  | nil => exact fun s => ⟨fun k hk => absurd hk List.not_mem_nil, fun _ _ h => h, rfl⟩
  | cons k ks ih =>
    intro s
    obtain ⟨clean, keeps, ecc⟩ := State.scanTiles_spec n k js s
    obtain ⟨rest, after, ecc'⟩ := ih (s.scanTiles n k js)
    rw [List.foldl_cons]
    refine ⟨fun i hi j hj => ?_, fun m i h => after m i (keeps m i h), ecc'.trans ecc⟩
    rcases List.mem_cons.1 hi with rfl | hi
    · exact after i j (clean j hj)
    · exact rest i hi j hj

/-- R331: the scrub of a bank corrects its words and leaves the tiles beneath its core clean. -/
theorem exec_bankScrub {s : State} {core : CoreId} (hon : s.coreOn core.val = true) : ∃ t : State, exec (.bankScrub core) s = .next t ∧
    t.mem = s.mem ∧ (∀ w ∈ t.eccCorr, w ∈ s.eccCorr ∧ ¬(bankPa core.val 0 / 8 ≤ w ∧ w < bankPa core.val 0 / 8 + 32768)) ∧
    ∀ k j, k < 8 → j < 8 → (t.case core.val k).tileClean j := by
  obtain ⟨u, hu⟩ : ∃ u, u = s.scrubRange (bankPa core.val 0 / 8) (bankPa core.val 0 / 8 + 32768) := ⟨_, rfl⟩
  obtain ⟨clean, -, ecc⟩ := State.scanCases_spec core.val (List.range 8) (List.range 8) u
  have mem := foldl_keeps (f := fun s k => State.scanTiles s core.val k (List.range 8)) (·.mem)
    (fun s k => State.scanTiles_mem s core.val k (List.range 8)) (List.range 8) u
  have runs : exec (.bankScrub core) s = .next ((List.range 8).foldl (fun s k => s.scanTiles core.val k (List.range 8)) u) := by
    change execBankScrub core s = _
    rw [execBankScrub, if_pos hon, hu]
  generalize (List.range 8).foldl (fun s k => s.scanTiles core.val k (List.range 8)) u = t at *
  refine ⟨t, runs, mem.trans (hu ▸ State.scrubRange_mem _ _ _), fun w hw => ?_, fun k j hk hj => clean k (List.mem_range.2 hk) j (List.mem_range.2 hj)⟩
  rw [ecc, hu] at hw
  exact State.scrubRange_eccCorr hw

/-! ### The clauses of the engines, one by one -/

theorem afBytes_eq (af : Nat) : afBytes af = if af = 1 ∨ af = 3 ∨ af = 7 then 4 else if af = 2 then 2 else 8 := by
  simp only [afBytes, Bool.or_eq_true, beq_iff_eq, or_assoc]

/-- An addend carries what another one carries. -/
def Addend.carries (x a : Addend) : Prop :=
  x.pa = a.pa ∧ x.af = a.af ∧ x.val = a.val ∧ x.rank = a.rank ∧ x.size = a.size ∧ x.ret = a.ret

/-- R187: an addend that goes to an engine leaves the memory, and joins the ready or the held ones as it is found. -/
theorem State.addendGoes.spec {s t : State} {k : EngAt} {a : Addend} (goes : s.addendGoes k a t) :
    ∃ x : Addend, x.carries a ∧
      (∀ y, (s.getEng k).classify k (s.noticeFor k) x = .ready y → t.addends = s.addends ∧ t.mem = s.mem ∧
        (t.getEng k).ready = (s.getEng k).ready ++ [y] ∧ (t.getEng k).held = (s.getEng k).held) ∧
      (∀ y, (s.getEng k).classify k (s.noticeFor k) x = .error y → t.addends = s.addends ∧ t.mem = s.mem ∧
        (t.getEng k).ready = (s.getEng k).ready ++ [y] ∧
        ∀ n, k = .bank n → (t.cluster (n / 64)).orderErr = bump (s.cluster (n / 64)).orderErr) ∧
      ((s.getEng k).classify k (s.noticeFor k) x = .hold → t.addends = s.addends ∧ t.mem = s.mem ∧
        (t.getEng k).held = (s.getEng k).held ++ [x] ∧ (t.getEng k).ready = (s.getEng k).ready) := by
  refine ⟨{ a with id := s.nextId, born := some a.birth }, ⟨rfl, rfl, rfl, rfl, rfl, rfl⟩, fun y h => ?_, fun y h => ?_, fun h => ?_⟩
  · rw [goes.ready y h]
    exact ⟨State.setEng_addends _ _ _, State.setEng_mem _ _ _, by rw [State.getEng_setEng], by rw [State.getEng_setEng]⟩
  · rw [goes.error y h]
    refine ⟨(State.countOrder_addends _ _ _).trans (State.setEng_addends _ _ _), State.setEng_storage _ _ _ _, ?_, fun n hn => ?_⟩
    · rw [State.getEng_countOrder, State.getEng_setEng]
    · subst hn
      exact State.countOrder_bank _ n _
  · rw [goes.hold h]
    exact ⟨State.setEng_addends _ _ _, State.setEng_mem _ _ _, by rw [State.getEng_setEng], by rw [State.getEng_setEng]⟩

theorem Addend.carries.elem {x a : Addend} (h : x.carries a) : x.elem = a.elem := by
  obtain ⟨pa, af, -⟩ := h
  simp only [Addend.elem, pa, af]

theorem Addend.carries.ranked {x a : Addend} (h : x.carries a) : x.ranked = a.ranked := by
  obtain ⟨-, af, -, -, size, -⟩ := h
  simp only [Addend.ranked, af, size]

theorem Addend.carries.fits {x a : Addend} (h : x.carries a) (e : Engine) : e.fits x = e.fits a := by
  have size : x.size = a.size := by obtain ⟨-, -, -, -, size, -⟩ := h; exact size
  simp only [Engine.fits, h.elem, size]

theorem Addend.carries.rank {x a : Addend} (h : x.carries a) : x.rank = a.rank := by
  obtain ⟨-, -, -, rank, -⟩ := h
  exact rank

theorem Addend.carries.inTurn {x a : Addend} (h : x.carries a) {e : Engine} : e.inTurn x = e.inTurn a := by
  simp only [Engine.inTurn, h.rank, h.elem, h.fits]

theorem Engine.inTurn_of {e : Engine} {a : Addend} (hrank : a.rank = (e.round a.elem).next) (hfits : e.fits a = true) :
    e.inTurn a = true := by
  rw [Engine.inTurn, hfits, Bool.and_true, beq_iff_eq, hrank]

theorem Addend.ranked_eq_false {a : Addend} (h : a.size = 0 ∨ 2 < a.af) : a.ranked = false := by
  simp only [Addend.ranked, Bool.and_eq_false_iff, decide_eq_false_iff_not, bne_eq_false_iff_eq]
  exact h.symm.imp (by omega) fun h => h

theorem Addend.ranked_eq_true {a : Addend} (haf : a.af ≤ 2) (h : a.size ≠ 0) : a.ranked = true := by
  simp [Addend.ranked, haf, h]

theorem leToNat_lt (l : List Byte) : leToNat l < 256 ^ l.length := by
  induction l with
  | nil => simp [leToNat]
  | cons b l ih =>
    rw [leToNat, List.length_cons, pow_succ']
    have := b.isLt
    omega

/-- R185: the read-modify-write of a line leaves its element the number that the engine makes of it. -/
theorem exec_engineRmw {s : State} {n : CoreId} {a : Addend} (hpow : s.hasPower n.val = true) (hready : (s.engine n.val).ready = [a])
    (hheld : (s.engine n.val).held = []) (hvoid : a.void = false) (hret : a.ret = .none) (hp : a.poison = false)
    (hs : s.sound n.val a.elem.1 a.elem.2) : ∃ t : State, exec (.engineRmw (.bank n) (a.pa / 64)) s = .next t ∧
    (t.engine n.val).ready = [] ∧ (∀ b, (b < a.elem.1 ∨ a.elem.1 + a.elem.2 ≤ b) → t.byte b = s.byte b) ∧
    leToNat (t.bytes a.elem.1 a.elem.2) = engineOp a.af (leToNat (s.bytes a.elem.1 a.elem.2))
      (a.val.toNat % 2 ^ (8 * a.elem.2)) a.cmp.toNat % 256 ^ a.elem.2 := by
  obtain ⟨ready, bytes⟩ := State.engineLine_one hpow hready hheld hvoid hret hp hs
  refine ⟨s.engineLine (.bank n.val) (a.pa / 64), rfl, ready, fun b hb => ?_, ?_⟩
  · rw [bytes, if_neg (by omega)]
  · have written := State.bytes_of_getD _ (natToLe (engineOp a.af (leToNat (s.bytes a.elem.1 a.elem.2))
      (a.val.toNat % 2 ^ (8 * a.elem.2)) a.cmp.toNat) a.elem.2) a.elem.1 fun i hi => by
        rw [length_natToLe] at hi
        rw [bytes, if_pos (by omega), Nat.add_sub_cancel_left]
    rw [length_natToLe] at written
    rw [written, leToNat_natToLe]

/-- R185: a floating element takes the finished sum, or the default NaN. -/
theorem engineOp_sum (f : FFmt) (z old v : Nat) (hnan : f.nan < 2 ^ (8 * z)) :
    engineFinish f (xadd 0 (f.decode old) (f.decode v)) % 2 ^ (8 * z) = if f.isNan old || f.isNan v then f.nan
      else engineFinish f (xadd 0 (f.decode old) (f.decode v)) % 2 ^ (8 * z) := by
  split
  · next h => rw [engineFinish_add, if_pos h, Nat.mod_eq_of_lt hnan]
  · rfl

theorem engineMax_mod (f : FFmt) (z old v : Nat) (hnan : f.nan < 2 ^ (8 * z)) (hold : old < 2 ^ (8 * z)) (hv : v < 2 ^ (8 * z)) :
    engineMax f old v % 2 ^ (8 * z) = if f.isNan old || f.isNan v then f.nan
      else if xcmpZ (f.decode old) (f.decode v) < 0 then v else old := by
  rw [Nat.mod_eq_of_lt]
  · rfl
  · simp only [engineMax, fpick]
    repeat' split
    all_goals assumption

theorem leToNat_bytes_lt (s : State) (a n : Nat) : leToNat (s.bytes a n) < 256 ^ n := by
  have h := leToNat_lt (s.bytes a n)
  rwa [State.bytes_eq_map, List.length_map, List.length_range, ← State.bytes_eq_map] at h

/-- R184, R93, R104: what each operation of an engine makes of its element. -/
theorem Addend.new_spec (a : Addend) (old new : Nat)
    (h : new = engineOp a.af old (a.val.toNat % 2 ^ (8 * afBytes a.af)) a.cmp.toNat % 256 ^ afBytes a.af) (hold : old < 256 ^ afBytes a.af) :
    let v := a.val.toNat % 2 ^ (8 * afBytes a.af)
    let sum := fun (f : FFmt) => if f.isNan old || f.isNan v then f.nan
      else engineFinish f (xadd 0 (f.decode old) (f.decode v)) % 2 ^ (8 * afBytes a.af)
    let larger := fun (f : FFmt) => if f.isNan old || f.isNan v then f.nan
      else if xcmpZ (f.decode old) (f.decode v) < 0 then v else old
    (a.af = 0 → new = sum .fp64) ∧ (a.af = 1 → new = sum .fp32) ∧ (a.af = 2 → new = sum .w16) ∧
      (a.af = 6 → new = larger .fp64) ∧ (a.af = 7 → new = larger .fp32) ∧
      (a.af = 3 → new = (old + a.val.toNat % 2 ^ 32) % 2 ^ 32) ∧
      (a.af = 4 → new = if (BitVec.ofNat 64 old).toInt < a.val.toInt then a.val.toNat else old) ∧
      (a.af = 5 → new = max old a.val.toNat) ∧ (a.af = 8 → new = if old = a.cmp.toNat then a.val.toNat else old) := by
  have word := a.val.isLt
  subst h
  refine ⟨fun h => ?_, fun h => ?_, fun h => ?_, fun h => ?_, fun h => ?_, fun h => ?_, fun h => ?_, fun h => ?_, fun h => ?_⟩ <;>
    rw [h] at hold ⊢
  · exact engineOp_sum .fp64 8 old _ (by decide)
  · exact engineOp_sum .fp32 4 old _ (by decide)
  · exact engineOp_sum .w16 2 old _ (by decide)
  · exact engineMax_mod .fp64 8 old _ (by decide) hold (Nat.mod_lt _ (by decide))
  · exact engineMax_mod .fp32 4 old _ (by decide) hold (Nat.mod_lt _ (by decide))
  · exact Nat.mod_mod _ _
  · have full : a.val.toNat % 2 ^ (8 * afBytes 4) = a.val.toNat := Nat.mod_eq_of_lt word
    have small : engineOp 4 old a.val.toNat a.cmp.toNat < 256 ^ afBytes 4 := by
      simp only [engineOp]
      split
      · exact word
      · exact hold
    rw [full, Nat.mod_eq_of_lt small]
    simp only [engineOp, signedOf_eq_toInt, BitVec.ofNat_toNat, BitVec.setWidth_eq]
  · have full : a.val.toNat % 2 ^ (8 * afBytes 5) = a.val.toNat := Nat.mod_eq_of_lt word
    have larger : engineOp 5 old a.val.toNat a.cmp.toNat = max old a.val.toNat := by
      simp only [engineOp]
      split
      · next lt => exact (max_eq_right lt.le).symm
      · next ge => exact (max_eq_left (not_lt.1 ge)).symm
    rw [full, larger, Nat.mod_eq_of_lt (max_lt hold word)]
  · have full : a.val.toNat % 2 ^ (8 * afBytes 8) = a.val.toNat := Nat.mod_eq_of_lt word
    have small : engineOp 8 old a.val.toNat a.cmp.toNat < 256 ^ afBytes 8 := by
      simp only [engineOp]
      split
      · exact word
      · exact hold
    rw [full, Nat.mod_eq_of_lt small]
    simp only [engineOp, beq_iff_eq]

end Sys2Proof.Machine

open Sys2Proof Sys2Proof.Machine

/-- Settles O49: where an addend goes is what its engine finds it to be; the read-modify-write applies the one that is ready. -/
theorem engineRows : Obligations.EngineRows := by
  refine ⟨fun i s a k hl ha hvoid hflit hmesh hfirst hk hn => ?_, fun i s a hl ha => ?_,
    fun n s a hpow hready hheld hvoid hret hp => ?_, fun core s hon => ?_⟩
  · obtain ⟨p, t, ht, goes⟩ := exec_addendArrival hl ha hvoid hflit hmesh hfirst hk
    obtain ⟨x, carries, ready, error, hold⟩ := goes.spec
    have like : x.carries a := carries
    have quiet : State.noticeFor { s with addends := dropAt s.addends i } k = false := State.noticeFor_none hn k
    have eng : State.getEng { s with addends := dropAt s.addends i } k = s.getEng k := by cases k <;> rfl
    rw [quiet, eng] at ready error hold
    have elem : a.elem = (a.pa / afBytes a.af * afBytes a.af, afBytes a.af) := rfl
    simp only [← afBytes_eq, ← elem]
    refine ⟨fun h => ?_, fun haf hsz hlate hover => ?_, fun haf hsz hclear hlate hcap hroom => ⟨fun hrank hfits => ?_, fun hrank hfits => ?_, fun h => ?_⟩⟩
    · obtain ⟨add, mem, r, h'⟩ := ready x (Engine.classify_unranked false (like.ranked.trans (Addend.ranked_eq_false h)))
      exact ⟨t, x, ⟨ht, add, mem⟩, r, like, h'⟩
    · obtain ⟨add, mem, r, -⟩ := error _ (Engine.classify_clash (like.ranked.trans (Addend.ranked_eq_true haf hsz))
        (like.elem ▸ hlate) (like.elem ▸ hover))
      exact ⟨t, _, ⟨ht, add, mem⟩, r, like, rfl⟩
    · obtain ⟨add, mem, r, h'⟩ := ready _ (Engine.classify_turn (like.ranked.trans (Addend.ranked_eq_true haf hsz))
        (like.elem ▸ hlate) (like.elem ▸ hclear) hcap (like.inTurn.trans (Engine.inTurn_of hrank hfits)))
      exact ⟨t, _, ⟨ht, add, mem⟩, r, like, h'⟩
    · obtain ⟨add, mem, h', r⟩ := hold (Engine.classify_later (like.ranked.trans (Addend.ranked_eq_true haf hsz))
        (like.elem ▸ hlate) (like.elem ▸ hclear) hroom (like.elem ▸ like.rank ▸ hrank) ((like.fits _).trans hfits))
      exact ⟨t, x, ⟨ht, add, mem⟩, h', like, r⟩
    · obtain ⟨add, mem, r, count⟩ := error _ (Engine.classify_error (like.ranked.trans (Addend.ranked_eq_true haf hsz))
        (like.elem ▸ hlate) (like.elem ▸ hclear) (h.imp (fun h => like.elem ▸ like.rank ▸ h) (like.fits _).trans))
      exact ⟨t, _, ⟨ht, add, mem⟩, r, like, rfl, count⟩
  · refine ⟨{ s.fresh.2 with refused := dropAt s.refused i, addends := s.addends ++ [{ a with id := s.nextId }] },
      { a with id := s.nextId }, ?_, rfl, rfl, rfl, rfl, rfl, rfl, rfl, rfl, rfl⟩
    change execAddendResend i s = _
    rw [execAddendResend, ha]
    exact if_pos hl
  · have elem : a.elem = (a.pa / afBytes a.af * afBytes a.af, afBytes a.af) := rfl
    simp only [← afBytes_eq] at *
    intro hs
    obtain ⟨t, ht, ready, frame, new⟩ := exec_engineRmw hpow hready hheld hvoid hret hp hs
    refine ⟨t, ht, ready, frame, ?_⟩
    rw [elem] at new
    exact Addend.new_spec _ _ _ new (leToNat_bytes_lt _ _ _)
  · obtain ⟨t, ht, mem, ecc, clean⟩ := exec_bankScrub hon
    refine ⟨t, ht, mem, fun w hw => ⟨(ecc w hw).1, fun h => (ecc w hw).2 ?_⟩, clean⟩
    simp only [bankPa] at h ⊢
    omega

end

section
/-! PROOF. What an issued word leaves. -/

set_option Elab.async false

namespace Sys2Proof.Machine

/-! ### What an issued word leaves to the effect of its trigger -/

/-- What a casement holds beside what the end of a word changes. -/
def Casement.work (c : Casement) : Casement :=
  { c.lasting with
    pc := 0, icount := 0, rptc := 0, xfer := none, rstack := [], held := [], waiting := none, first := false, frameRet := false
    landed := {}, fpc := 0, rmax := 0, nsat := 0, nflz := 0 }

/-- What a core holds beside what the end of a word and the scheduler change. -/
def Core.works (c : Core) : Core := { c.posts with walks := [] }

theorem Casement.of_work {α : Type} (g : Casement → α) (hg : ∀ c : Casement, g c.work = g c) {c d : Casement}
    (h : c.work = d.work) : g c = g d := by rw [← hg c, ← hg d, h]

theorem Casement.work_of_lasting {c d : Casement} (h : c.lasting = d.lasting) : c.work = d.work := by
  simp only [Casement.work, h]

theorem Casement.advance_work (c old : Casement) (len : Nat) (wr : Bool) :
    (c.advance old len wr).work = c.work ∧ (c.advance old len wr).rowNext = c.rowNext ∧ (c.advance old len wr).tstart = c.tstart := by
  unfold Casement.advance
  simp only []
  repeat' split
  all_goals exact ⟨rfl, rfl, rfl⟩

/-- The row of TSTART is not among the bits that contributions set. -/
theorem or_shifted_mod (w x : Word) (h : x.toNat % 256 = 0) : (w ||| x).toNat % 256 = w.toNat % 256 := by
  have bits (y : Nat) : y % 256 = y % 2 ^ 8 := rfl
  rw [BitVec.toNat_or, bits, bits, Nat.or_mod_two_pow, ← bits x.toNat, h, Nat.or_zero]

theorem Casement.settled_work (c : Casement) (i : Nat) (g : Nat) :
    let d := Casement.touch { c.settleRegs with
      icount := i, held := [], waiting := none, first := false, switched := false, frameRet := false } g
    d.work = c.work ∧ d.rowNext = c.rowNext ∧ d.tstart.toNat % 256 = c.tstart.toNat % 256 :=
  ⟨rfl, rfl, or_shifted_mod _ _ (by rw [BitVec.toNat_ofNat]; omega)⟩

/-- A word of one move has ended: the work of its trigger, in s1, stands. -/
structure Passed (s1 : State) (n k : Nat) (t : State) : Prop where
  case : (t.case n k).work = (s1.case n k).work
  row : (s1.case n k).rowNext = none → (t.case n k).rowNext = none ∧ (t.case n k).tstart.toNat % 256 = (s1.case n k).tstart.toNat % 256
  core : ∀ m, (t.core m).works = (s1.core m).works
  task : ∀ m j, Option.Rel Task.onward (s1.task m j) (t.task m j)
  mem : t.mem = s1.mem

theorem Core.works_of_posts {c d : Core} (h : c.posts = d.posts) : c.works = d.works := by simp only [Core.works, h]

/-- A part of a core that a word's end leaves. -/
theorem Core.of_works {α : Type} (g : Core → α) (hg : ∀ c : Core, g c.works = g c) {c d : Core} (h : c.works = d.works) : g c = g d := by
  rw [← hg c, ← hg d, h]

theorem State.works_onCase (s : State) (n k : Nat) (f : Casement → Casement) (m : Nat) :
    ((s.onCase n k f).core m).works = (s.core m).works := Core.works_of_posts (Scheduled.posts_onCase s n k f m)

theorem State.task_afterIssue (s : State) (n k : Nat) (w : Option Nat) (m j : Nat) :
    Option.Rel Task.onward (s.task m j) ((s.afterIssue n k w).task m j) := by
  unfold State.afterIssue
  simp only []
  generalize hs : State.onCore (s.onCase n k _) n _ = u
  have same : u.task m j = s.task m j := by
    rw [← hs, State.task, State.core_onCore_keeps (·.tasks) (by intro; rfl)]
    exact State.task_onCase s n k _ m j
  cases w with
  | none => rw [same]; exact Task.onward_refl _
  | some t =>
    have moved := (Scheduled.onTask u n t (f := fun x => { x with lastIssue := (u.core n).cycle }) fun _ => ⟨rfl, rfl, id, rfl⟩).task m j
    rwa [same] at moved

/-- The end of a trigger's word that is no jump of a wicket and no wait of the keeper. -/
theorem State.commit_passed {b s1 : State} {n k : Nat} {w : CodeWord} (hwait : k = 8 → b.wrote n k w (· == 0x496) = false) :
    Passed s1 n k (s1.commit b n k w) := by
  obtain ⟨u, hu, case, row, works, task, mem⟩ : ∃ u, u = (if b.wrote n k w (fun d => d == 0x494 || d == 0x495) then s1
      else s1.onCase n k fun c => c.advance (b.case n k) w.bytes (b.wrote n k w (· == 0xC1))) ∧
      (u.case n k).work = (s1.case n k).work ∧ ((u.case n k).rowNext = (s1.case n k).rowNext ∧ (u.case n k).tstart = (s1.case n k).tstart) ∧
      (∀ m, (u.core m).works = (s1.core m).works) ∧ (∀ m j, u.task m j = s1.task m j) ∧ u.mem = s1.mem := by
    refine ⟨_, rfl, ?_⟩
    split
    · exact ⟨rfl, ⟨rfl, rfl⟩, fun _ => rfl, fun _ _ => rfl, rfl⟩
    · obtain ⟨hwork, hrow, hts⟩ := Casement.advance_work (s1.case n k) (b.case n k) w.bytes (b.wrote n k w (· == 0xC1))
      rw [case_onCase, if_pos ⟨rfl, rfl⟩]
      exact ⟨hwork, ⟨hrow, hts⟩, State.works_onCase _ _ _ _, State.task_onCase _ _ _ _, rfl⟩
  obtain ⟨settled, kept, start⟩ := Casement.settled_work (u.case n k) ((u.case n k).icount + 1) 0
  have issued : Passed s1 n k (u.afterIssue n k (b.whoIs n k)) := by
    refine ⟨?_, fun h => ?_, fun m => ?_, fun m j => ?_, ?_⟩
    · rw [State.case_afterIssue]; exact settled.trans case
    · rw [State.case_afterIssue]
      exact ⟨kept.trans (row.1.trans h), start.trans (by rw [row.2])⟩
    · exact (State.core_afterIssue_keeps Core.works (fun _ _ _ _ _ _ => rfl) u n k _ m).trans (works m)
    · rw [← task]; exact State.task_afterIssue u n k _ m j
    · rw [State.afterIssue_mem, mem]
  unfold State.commit
  simp only [← hu]
  split
  · next h8 =>
    rw [hwait (by simpa using h8), if_neg Bool.false_ne_true]
    exact issued
  · next h8 =>
    have hk : k ≠ 8 := by simpa using h8
    split
    · have sched := Scheduled.releaseHeld (u.afterIssue n k (b.whoIs n k)) n
      refine ⟨(Casement.work_of_lasting (sched.case n k hk)).trans issued.case, fun h => ?_, fun m => ?_, fun m j => ?_, ?_⟩
      · obtain ⟨none_, ts⟩ := issued.row h
        obtain ⟨none_', ts'⟩ := sched.rows n k hk none_
        exact ⟨none_', (by rw [ts', ts])⟩
      · exact (Core.works_of_posts (sched.posts m)).trans (issued.core m)
      · exact Task.onward_trans (issued.task m j) (sched.task m j)
      · rw [State.releaseHeld_mem]; exact issued.mem
    · exact issued

theorem State.issues_passed {s : State} {n k sock : Nat} (v : Word) (s1 : State) (hs : sock < 4096) (hwait : k = 8 → sock ≠ 0x496) :
    ∃ t, s.issues n k sock v s1 = .next t ∧ Passed s1 n k t :=
  ⟨_, rfl, State.commit_passed fun hk => State.wrote_move_false _ _ _ _ _ _ hs (by simpa using hwait hk)⟩

end Sys2Proof.Machine

end

section
/-! PROOF. The vector datapath. -/

set_option Elab.async false

namespace Sys2Proof.Machine

/-! ### Elements of a packed number -/

theorem elemOf_lt (x w i : Nat) : elemOf x w i < 2 ^ w := Nat.mod_lt _ (by positivity)

theorem elemOf_setBitsOf {w : Nat} (x i v j : Nat) :
    elemOf (setBitsOf x (w * i) w v) w j = if i = j then v % 2 ^ w else elemOf x w j := by
  apply Nat.eq_of_testBit_eq
  intro b
  rw [testBit_elemOf, testBit_setBitsOf]
  by_cases hb : b < w
  · by_cases hij : i = j
    · subst hij
      rw [if_pos rfl, if_pos ⟨by omega, by omega⟩, Nat.testBit_mod_two_pow, Nat.add_sub_cancel_left]
    · rw [if_neg hij, testBit_elemOf, if_neg]
      rintro ⟨lo, hi⟩
      rcases Nat.lt_or_gt_of_ne hij with h | h
      · have := Nat.mul_le_mul_left w (show i + 1 ≤ j from h)
        rw [Nat.mul_add, Nat.mul_one] at this; omega
      · have := Nat.mul_le_mul_left w (show j + 1 ≤ i from h)
        rw [Nat.mul_add, Nat.mul_one] at this; omega
  · rw [decide_eq_false hb, Bool.false_and]
    symm
    split
    · rw [Nat.testBit_mod_two_pow, decide_eq_false hb, Bool.false_and]
    · rw [testBit_elemOf, decide_eq_false hb, Bool.false_and]

theorem elemOf_mod {w j n : Nat} (x : Nat) (h : w * j + w ≤ n) : elemOf (x % 2 ^ n) w j = elemOf x w j := by
  apply Nat.eq_of_testBit_eq
  intro b
  rw [testBit_elemOf, testBit_elemOf, Nat.testBit_mod_two_pow]
  by_cases hb : b < w
  · have : w * j + b < n := by omega
    simp [this]
  · simp [hb]

/-- Elements put one after another: where those of index j agree, one of them stands, and without one the old element. -/
theorem elemOf_puts {w : Nat} (es : List Elem) (j : Nat) : ∀ x : Nat,
    (∀ r, (∃ e ∈ es, e.i = j) → (∀ e ∈ es, e.i = j → e.v % 2 ^ w = r) → elemOf (es.foldl (fun a e => setBitsOf a (w * e.i) w e.v) x) w j = r) ∧
    ((∀ e ∈ es, e.i ≠ j) → elemOf (es.foldl (fun a e => setBitsOf a (w * e.i) w e.v) x) w j = elemOf x w j) := by
  induction es with
  | nil => exact fun x => ⟨fun r ⟨e, he, _⟩ => absurd he List.not_mem_nil, fun _ => rfl⟩
  | cons e es ih =>
    intro x
    rw [List.foldl_cons]
    obtain ⟨put, kept⟩ := ih (setBitsOf x (w * e.i) w e.v)
    refine ⟨fun r hex hall => ?_, fun hall => ?_⟩
    · by_cases more : ∃ e ∈ es, e.i = j
      · exact put r more fun e he => hall e (List.mem_cons_of_mem _ he)
      · have here : e.i = j := by
          obtain ⟨d, hd, hj⟩ := hex
          rcases List.mem_cons.1 hd with rfl | hd
          · exact hj
          · exact absurd ⟨d, hd, hj⟩ more
        rw [kept fun d hd hj => more ⟨d, hd, hj⟩, elemOf_setBitsOf, if_pos here]
        exact hall e List.mem_cons_self here
    · rw [kept fun d hd => hall d (List.mem_cons_of_mem _ hd), elemOf_setBitsOf, if_neg (hall e List.mem_cons_self)]

/-- The value of a vector register after elements have been put into it. -/
theorem VVal.elem_put (x : VVal) {w j : Nat} (es : List Elem) (hj : j < 2048 / w) :
    (∀ r, (∃ e ∈ es, e.i = j) → (∀ e ∈ es, e.i = j → e.v % 2 ^ w = r) → elemOf (x.put w es).val.toNat w j = r) ∧
    ((∀ e ∈ es, e.i ≠ j) → elemOf (x.put w es).val.toNat w j = elemOf x.val.toNat w j) := by
  have fits : w * j + w ≤ 2048 := by
    have := Nat.mul_le_of_le_div w (j + 1) 2048 hj
    rw [Nat.mul_comm, Nat.mul_add, Nat.mul_one] at this
    exact this
  simp only [VVal.put, BitVec.toNat_ofNat, elemOf_mod _ fits]
  exact elemOf_puts es j _

theorem VVal.put_poisoned (x : VVal) (w : Nat) (es : List Elem) :
    (x.put w (es.map fun e => { e with bad := true, res := true })).val = (x.put w es).val := by
  simp only [VVal.put, List.foldl_map]

/-! ### Chained reads (R95) change nothing that is read -/

/-- The mark of R95 on the operations that a trigger reads. -/
def VxuOp.noted (hit : VxuOp → Bool) (o : VxuOp) : VxuOp := if hit o then { o with chained := true } else o

theorem VxuOp.noted_fields (hit : VxuOp → Bool) (o : VxuOp) :
    (o.noted hit).case = o.case ∧ (o.noted hit).vregs = o.vregs ∧ (o.noted hit).mreg = o.mreg ∧
      ({ o.noted hit with chained := false } : VxuOp) = { o with chained := false } := by
  unfold VxuOp.noted; split <;> exact ⟨rfl, rfl, rfl, rfl⟩

/-- From s to t the core n has only marked operations in flight. -/
structure Noted (s t : State) (n : Nat) : Prop where
  ops : ∃ hit, (t.core n).vxuOps = (s.core n).vxuOps.map (VxuOp.noted hit)
  core : { t.core n with vxuOps := [] } = { s.core n with vxuOps := [] }
  others : ∀ m, m ≠ n → t.core m = s.core m
  mem : t.mem = s.mem

theorem State.chain_noted (s : State) (n k : Nat) (vs ms : List Nat) : Noted s (s.chain n k vs ms) n := by
  unfold State.chain
  extract_lets hit
  split
  · refine ⟨⟨hit, ?_⟩, ?_, fun m hm => ?_, rfl⟩
    · rw [core_onCore, if_pos rfl]; rfl
    · rw [core_onCore, if_pos rfl]
    · rw [core_onCore, if_neg hm]
  · refine ⟨⟨fun _ => false, ?_⟩, rfl, fun _ _ => rfl, rfl⟩
    exact (List.map_id' _).symm

namespace Noted
variable {s t : State} {n : Nat} (h : Noted s t n)
include h

theorem part {α : Type} (g : Core → α) (hg : ∀ c ops, g { c with vxuOps := ops } = g c) (m : Nat) : g (t.core m) = g (s.core m) := by
  by_cases hm : m = n
  · subst hm
    exact (hg _ []).symm.trans ((congrArg g h.core).trans (hg _ []))
  · rw [h.others m hm]

theorem case (m k : Nat) : t.case m k = s.case m k := by
  simp only [State.case, h.part (·.cases) (fun _ _ => rfl) m]

theorem task (m k : Nat) : t.task m k = s.task m k := by
  simp only [State.task, h.part (·.tasks) (fun _ _ => rfl) m]

theorem vread (k j : Nat) : t.vread n k j = s.vread n k j := by
  obtain ⟨hit, ops⟩ := h.ops
  simp only [State.vread, h.case, ops, List.filter_map, List.getLast?_map]
  have same : ((fun o : VxuOp => o.case == k && o.vregs.any (·.1 == j)) ∘ VxuOp.noted hit) = fun o => o.case == k && o.vregs.any (·.1 == j) := by
    funext o
    obtain ⟨hc, hv, -⟩ := o.noted_fields hit
    simp only [Function.comp_apply, hc, hv]
  rw [same]
  cases ((s.core n).vxuOps.filter fun o => o.case == k && o.vregs.any (·.1 == j)).getLast? with
  | none => rfl
  | some o => simp only [Option.map_some, (o.noted_fields hit).2.1]

theorem mread (k j : Nat) : t.mread n k j = s.mread n k j := by
  obtain ⟨hit, ops⟩ := h.ops
  have same : ((fun o : VxuOp => if o.case == k then o.mreg else none) ∘ VxuOp.noted hit) = fun o => if o.case == k then o.mreg else none := by
    funext o
    obtain ⟨hc, -, hm, -⟩ := o.noted_fields hit
    simp only [Function.comp_apply, hc, hm]
  simp only [State.mread, h.case, ops, List.filterMap_map, same]

theorem marks (m : VCmd) (k i : Nat) : t.vxuOn n k m i = s.vxuOn n k m i := by simp only [State.vxuOn, h.mread]

theorem act (m : VCmd) (k : Nat) : t.vxuAct n k m = s.vxuAct n k m := by
  simp only [State.vxuAct, h.case]
  exact congrArg (fun f => List.filter f _) (funext fun i => h.marks m k i)

theorem zeros (m : VCmd) (k : Nat) : t.vxuZeros n k m = s.vxuZeros n k m := by simp only [State.vxuZeros, h.case, h.marks]

theorem el (m : VCmd) (k r i : Nat) : t.vxuEl n k m r i = s.vxuEl n k m r i := by simp only [State.vxuEl, h.vread]

theorem second (m : VCmd) (k i : Nat) : t.vxuB n k m i = s.vxuB n k m i := by simp only [State.vxuB, h.case, h.el]
end Noted

/-! ### Operations that go into flight -/

@[simp] theorem State.mismatch_cores (s : State) (n seg : Nat) : (s.mismatch n seg).cores = s.cores := by
  simp only [State.mismatch]
  exact (State.addLog_cores ..).trans (State.record_cores ..)

/-- From s to t an operation has gone into flight that writes the given elements and mask register, for so many cycles. -/
structure Flies (s : State) (n k occ : Nat) (outs : List (Nat × Nat × List Elem)) (mreg : Option (Nat × BitVec 256)) (t : State) : Prop where
  op : ∃ q : VxuOp, (t.core n).vxuOps = (s.core n).vxuOps ++ [q] ∧ q.case = k ∧ q.mreg = mreg ∧
    List.Forall₂ (fun (x : Nat × BitVec 2048 × BitVec 32 × BitVec 32) o => x.1 = o.1 ∧ x.2.1 = ((s.vread n k o.1).1.put o.2.1 o.2.2).val) q.vregs outs
  left : (t.core n).vxuLeft = occ
  rest : { t.core n with vxuOps := [], vxuLeft := 0 } = { s.core n with vxuOps := [], vxuLeft := 0 }
  mem : t.mem = s.mem

theorem State.vread_of_cores {s t : State} (h : t.cores = s.cores) (n k j : Nat) : t.vread n k j = s.vread n k j := by
  simp only [State.vread, State.case_of_cores h, State.core_of_cores h]

theorem State.vxuStart_flies (s : State) (n k occ : Nat) (outs : List (Nat × Nat × List Elem)) (mreg : Option (Nat × BitVec 256))
    (contrib : Contrib) (checked : Bool) : Flies s n k occ outs mreg (s.vxuStart n k occ outs mreg contrib checked) := by
  obtain ⟨u, hu, cores, mem⟩ : ∃ u, u = (if (checked && (s.core n).badVxu) = true then s.mismatch n 1 else s) ∧ u.cores = s.cores ∧ u.mem = s.mem := by
    refine ⟨_, rfl, ?_⟩
    split
    · exact ⟨State.mismatch_cores s n 1, State.mismatch_mem s n 1⟩
    · exact ⟨rfl, rfl⟩
  simp only [State.vxuStart, ← hu]
  have core := fun f => (core_onCore u n n f).trans (if_pos rfl)
  rw [State.core_of_cores cores] at core
  refine ⟨⟨_, congrArg Core.vxuOps (core _), rfl, rfl, ?_⟩, congrArg Core.vxuLeft (core _), ?_, mem⟩
  · rw [List.forall₂_map_left_iff]
    refine List.forall₂_same.2 fun o _ => ⟨rfl, ?_⟩
    rw [State.vread_of_cores cores]
    dsimp only
    split
    · exact congrArg VVal.val rfl |>.trans (VVal.put_poisoned _ _ _)
    · rfl
  · rw [core]

/-! ### What is put where (Table 07-3) -/

/-- The elements es give element j the value f j modulo 2^w, where f has one, and no other element. -/
def Puts (es : List Elem) (w : Nat) (f : Nat → Option Nat) : Prop :=
  ∀ j, (∀ x, f j = some x → (∃ e ∈ es, e.i = j) ∧ ∀ e ∈ es, e.i = j → e.v % 2 ^ w = x % 2 ^ w) ∧ (f j = none → ∀ e ∈ es, e.i ≠ j)

theorem Puts.value {es : List Elem} {w : Nat} {f : Nat → Option Nat} (h : Puts es w f) (x : VVal) {j : Nat} (hj : j < 2048 / w) :
    elemOf (x.put w es).val.toNat w j = match f j with | some r => r % 2 ^ w | none => elemOf x.val.toNat w j := by
  obtain ⟨put, kept⟩ := x.elem_put es hj
  obtain ⟨some_, none_⟩ := h j
  cases hf : f j with
  | none => exact kept (none_ hf)
  | some r => exact put _ (some_ r hf).1 (some_ r hf).2

theorem Puts.congr {es : List Elem} {w : Nat} {f g : Nat → Option Nat} (h : Puts es w f) (hfg : ∀ j, f j = g j) : Puts es w g := by
  rwa [← funext hfg]

/-- Some indices get a value each. -/
theorem Puts.of_map (l : List Nat) (w : Nat) (F : Nat → Elem) (hF : ∀ i, (F i).i = i) :
    Puts (l.map F) w fun j => if j ∈ l then some (F j).v else none := by
  intro j
  refine ⟨fun x hx => ?_, fun hn e he hj => ?_⟩
  · obtain ⟨hl, rfl⟩ : j ∈ l ∧ (F j).v = x := by simpa using hx
    refine ⟨⟨F j, List.mem_map_of_mem hl, hF j⟩, fun e he hj => ?_⟩
    obtain ⟨i, -, rfl⟩ := List.mem_map.1 he
    rw [← hj, hF]
  · obtain ⟨i, hi, rfl⟩ := List.mem_map.1 he
    rw [hF] at hj
    subst hj
    simp [hi] at hn

/-- Elements of two lists that share no index. -/
theorem Puts.append {es fs : List Elem} {w : Nat} {f g : Nat → Option Nat} (hf : Puts es w f) (hg : Puts fs w g)
    (apart : ∀ j, f j = none ∨ g j = none) : Puts (es ++ fs) w fun j => (f j).or (g j) := by
  intro j
  obtain ⟨fs_, fn⟩ := hf j
  obtain ⟨gs_, gn⟩ := hg j
  refine ⟨fun x hx => ?_, fun hn e he => ?_⟩
  · cases hfj : f j with
    | some y =>
      have none_ := (apart j).resolve_left (by rw [hfj]; exact Option.some_ne_none y)
      obtain rfl : y = x := by simpa [hfj] using hx
      obtain ⟨⟨e, he, hj⟩, all⟩ := fs_ y hfj
      exact ⟨⟨e, List.mem_append_left _ he, hj⟩, fun d hd hdj => (List.mem_append.1 hd).elim (fun h => all d h hdj)
        fun h => absurd hdj (gn none_ d h)⟩
    | none =>
      have hgj : g j = some x := by simpa [hfj] using hx
      obtain ⟨⟨e, he, hj⟩, all⟩ := gs_ x hgj
      exact ⟨⟨e, List.mem_append_right _ he, hj⟩, fun d hd hdj => (List.mem_append.1 hd).elim (fun h => absurd hdj (fn hfj d h))
        fun h => all d h hdj⟩
  · obtain ⟨hfj, hgj⟩ := Option.or_eq_none_iff.1 hn
    exact (List.mem_append.1 he).elim (fn hfj e) (gn hgj e)

/-- What the active elements and MZ give: element j of a destination whose active elements take F. -/
def State.vxuSel (b : State) (n k : Nat) (m : VCmd) (f : Nat → Nat) (j : Nat) : Option Nat :=
  if j < (b.case n k).vlen.toNat then (if b.vxuOn n k m j then some (f j) else if m.mz then some 0 else none) else none

theorem Puts.active (b : State) (n k : Nat) (m : VCmd) (w : Nat) (F : Nat → Elem) (hF : ∀ i, (F i).i = i) :
    Puts ((b.vxuAct n k m).map F ++ b.vxuZeros n k m) w (b.vxuSel n k m fun j => (F j).v) := by
  have zeros : Puts (b.vxuZeros n k m) w fun j =>
      if j < (b.case n k).vlen.toNat ∧ b.vxuOn n k m j = false ∧ m.mz = true then some 0 else none := by
    unfold State.vxuZeros
    split
    · next hz =>
      refine (Puts.of_map _ w (fun i => ({ i := i, v := 0 } : Elem)) fun _ => rfl).congr fun j => ?_
      simp [hz]
    · next hz =>
      exact fun j => ⟨fun x hx => by simp [hz] at hx, fun _ e he => absurd he List.not_mem_nil⟩
  refine ((Puts.of_map (b.vxuAct n k m) w F hF).append zeros fun j => ?_).congr fun j => ?_
  · simp only [State.vxuAct, List.mem_filter, List.mem_range]
    by_cases hon : b.vxuOn n k m j = true
    · right; simp [hon]
    · left; simp [hon]
  · simp only [State.vxuAct, List.mem_filter, List.mem_range, State.vxuSel]
    by_cases hj : j < (b.case n k).vlen.toNat <;> by_cases hon : b.vxuOn n k m j = true <;> by_cases hz : m.mz = true <;>
      simp [hj, hon, hz]

/-! ### The groups of operations -/

section
variable {b s : State} {n k : Nat} (h : Noted b s n) (m : VCmd) (occ : Nat)
include h

/-- One destination takes one value for each active element. -/
theorem Noted.puts (w : Nat) {F : Nat → Elem} {f : Nat → Nat} (hF : ∀ i, (F i).i = i) (hf : ∀ i, (F i).v = f i) :
    Puts ((s.vxuAct n k m).map F ++ s.vxuZeros n k m) w (b.vxuSel n k m f) := by
  rw [h.act, h.zeros, ← funext hf]
  exact Puts.active b n k m w F hF

theorem Noted.each : ∃ es, Flies s n k occ [(m.vd, m.fmt.width, es)] none (s.vxuEach n k m occ) ∧
    Puts es m.fmt.width (b.vxuSel n k m fun j =>
      (vElem m.opc m.fmt m.u (b.case n k).rm (b.vxuEl n k m m.va j) (b.vxuB n k m j) (b.vxuEl n k m m.vc j)).code) := by
  refine ⟨_, State.vxuStart_flies s n k occ _ none _ true, ?_⟩
  rw [List.map_map]
  exact h.puts m _ (fun _ => rfl) fun i => by simp only [Function.comp_apply, h.case, h.el, h.second]

theorem Noted.make : ∃ es, Flies s n k occ [(m.vd, m.fmt.width, es)] none (s.vxuMake n k m occ) ∧
    Puts es m.fmt.width (b.vxuSel n k m fun j => (if m.opc == 0x38 then ((b.case n k).opnd_ 0x183).toNat else j) % 2 ^ m.fmt.width) := by
  refine ⟨_, State.vxuStart_flies s n k occ _ none _ false, ?_⟩
  exact h.puts m _ (fun _ => rfl) fun i => by simp only [h.case]

theorem Noted.cvt : ∃ es, Flies s n k occ [(m.vd, ((vfmt m.df).getD m.fmt).width, es)] none (s.vxuCvt n k m occ) ∧
    Puts es ((vfmt m.df).getD m.fmt).width (b.vxuSel n k m fun j =>
      (convert (withU m.u m.fmt) (withU m.u ((vfmt m.df).getD m.fmt)) (b.case n k).rm (b.vxuEl n k m m.va j)).code) := by
  refine ⟨_, State.vxuStart_flies s n k occ _ none _ true, ?_⟩
  rw [List.map_map]
  exact h.puts m _ (fun _ => rfl) fun i => by simp only [Function.comp_apply, h.case, h.el]

/-- Where element i of a permutation comes from, as a value. -/
def State.vxuFrom (b : State) (n k : Nat) (m : VCmd) (i : Nat) : Nat :=
  match permSource m.opc (b.case n k).vlen.toNat (((b.case n k).opnd_ 0x183).toNat % 512) i (b.vxuEl n k m m.vb i) (b.vxuAct n k m) with
  | none => 0
  | some (fromB, j) => b.vxuEl n k m (if fromB then m.vb else m.va) j

theorem Noted.permute (hc : m.opc ≠ 0x3C) : ∃ es, Flies s n k occ [(m.vd, m.fmt.width, es)] none (s.vxuPermute n k m occ) ∧
    Puts es m.fmt.width (b.vxuSel n k m (b.vxuFrom n k m)) := by
  refine ⟨_, State.vxuStart_flies s n k occ _ none _ false, ?_⟩
  have off : (m.opc == 0x3C) = false := by simpa using hc
  simp only [off, Bool.false_eq_true, if_false]
  refine h.puts m _ (fun i => ?_) fun i => ?_
  · cases permSource m.opc (s.case n k).vlen.toNat (((s.case n k).opnd_ 0x183).toNat % 512) i (s.vxuEl n k m m.vb i) (s.vxuAct n k m) <;> rfl
  · rw [h.act, h.case, h.el, State.vxuFrom]
    cases permSource m.opc (b.case n k).vlen.toNat (((b.case n k).opnd_ 0x183).toNat % 512) i (b.vxuEl n k m m.vb i) (b.vxuAct n k m) with
    | none => rfl
    | some x => exact h.el m k _ _

theorem Noted.compress (hc : m.opc = 0x3C) : ∃ es, Flies s n k occ [(m.vd, m.fmt.width, es)] none (s.vxuPermute n k m occ) ∧
    Puts es m.fmt.width fun j => if j < (b.case n k).vlen.toNat then some (b.vxuFrom n k m j) else none := by
  refine ⟨_, State.vxuStart_flies s n k occ _ none _ false, ?_⟩
  have on_ : (m.opc == 0x3C) = true := by simpa using hc
  simp only [on_, if_true, List.append_nil]
  rw [h.act, h.case]
  refine (Puts.of_map (List.range (b.case n k).vlen.toNat) m.fmt.width _ fun i => ?_).congr fun j => ?_
  · cases permSource m.opc (b.case n k).vlen.toNat (((b.case n k).opnd_ 0x183).toNat % 512) i (s.vxuEl n k m m.vb i) (b.vxuAct n k m) <;> rfl
  · rw [h.el, State.vxuFrom]
    by_cases hj : j < (b.case n k).vlen.toNat
    · rw [if_pos (List.mem_range.2 hj), if_pos hj]
      cases permSource m.opc (b.case n k).vlen.toNat (((b.case n k).opnd_ 0x183).toNat % 512) j (b.vxuEl n k m m.vb j) (b.vxuAct n k m) with
      | none => rfl
      | some x => exact congrArg some (h.el m k _ _)
    · rw [if_neg (mt List.mem_range.1 hj), if_neg hj]

/-- The format of a pair operation. -/
def VCmd.pairFmt (m : VCmd) : FFmt := match m.fmt with | .flt .fp32 => .fp32 | _ => .fp64

/-- What a pair operation gives for element j. -/
def State.vxuTwo (b : State) (n k : Nat) (m : VCmd) (j : Nat) : FRes × Nat :=
  if m.opc == 0x18 then twoSum m.pairFmt (b.vxuEl n k m m.va j) (b.vxuB n k m j)
  else twoProd m.pairFmt (b.vxuEl n k m m.va j) (b.vxuB n k m j)

theorem Noted.pair : ∃ hs ls, Flies s n k occ [(m.vd, m.fmt.width, hs), (m.vc, m.fmt.width, ls)] none (s.vxuPair n k m occ) ∧
    Puts hs m.fmt.width (b.vxuSel n k m fun j => (b.vxuTwo n k m j).1.code) ∧
    Puts ls m.fmt.width (b.vxuSel n k m fun j => (b.vxuTwo n k m j).2) := by
  refine ⟨_, _, State.vxuStart_flies s n k occ _ none _ true, ?_, ?_⟩
  · rw [List.map_map]
    exact h.puts m _ (fun _ => rfl) fun i => by simp only [Function.comp_apply, h.el, h.second]; rfl
  · rw [List.map_map]
    exact h.puts m _ (fun _ => rfl) fun i => by simp only [Function.comp_apply, h.el, h.second]; rfl

/-- The mask register val of a destination d takes the bits f. -/
def Marks (val : BitVec 256) (d : BitVec 256) (f : Nat → Option Bool) : Prop :=
  ∀ j, j < 256 → val.getLsbD j = match f j with | some x => x | none => d.getLsbD j

omit h in
/-- Bits put as elements of one bit. -/
theorem Puts.marks {es : List Elem} {f : Nat → Option Nat} (hes : Puts es 1 f) (d : BitVec 256) :
    Marks (BitVec.ofNat 256 (es.foldl (fun a e => setBitsOf a e.i 1 e.v) d.toNat)) d fun j => (f j).map (·.testBit 0) := by
  intro j hj
  obtain ⟨put, kept⟩ := elemOf_puts es j d.toNat
  obtain ⟨some_, none_⟩ := hes j
  have bit (x : Nat) : x.testBit j = (elemOf x 1 j).testBit 0 := by rw [testBit_elemOf]; simp
  have units : (fun (a : Nat) (e : Elem) => setBitsOf a e.i 1 e.v) = fun a e => setBitsOf a (1 * e.i) 1 e.v := by
    funext a e; rw [Nat.one_mul]
  rw [BitVec.getLsbD_ofNat, decide_eq_true hj, Bool.true_and, bit, units]
  cases hf : f j with
  | none => rw [kept (none_ hf), ← bit]; simp only [hf, Option.map_none]; rfl
  | some r =>
    rw [put _ (some_ r hf).1 (some_ r hf).2, Nat.testBit_mod_two_pow]
    simp only [hf, Option.map_some, Nat.zero_lt_one, decide_true, Bool.true_and]

omit h in
theorem Marks.congr {val d : BitVec 256} {f g : Nat → Option Bool} (hm : Marks val d f) (hfg : ∀ j, f j = g j) : Marks val d g := by
  rwa [← funext hfg]

theorem Noted.compare : ∃ val, Flies s n k occ [] (some (m.vd, val)) (s.vxuCmp n k m occ) ∧
    Marks val (b.mread n k m.vd) fun j => if j < (b.case n k).vlen.toNat then
      if b.vxuOn n k m j then some (vCompare m.opc m.fmt m.u (b.vxuEl n k m m.va j) (b.vxuB n k m j)).1
      else if m.mz then some false else none else none := by
  refine ⟨_, State.vxuStart_flies s n k occ [] _ _ false, ?_⟩
  have puts := h.puts (k := k) m 1
    (F := fun i => { i := i, v := b2n (vCompare m.opc m.fmt m.u (s.vxuEl n k m m.va i) (s.vxuB n k m i)).1 })
    (f := fun i => b2n (vCompare m.opc m.fmt m.u (b.vxuEl n k m m.va i) (b.vxuB n k m i)).1)
    (fun _ => rfl) fun i => by simp only [h.el, h.second]
  have cleared (x : Nat) : (s.vxuZeros n k m).foldl (fun a e => setBitsOf a e.i 1 0) x =
      (s.vxuZeros n k m).foldl (fun a e => setBitsOf a e.i 1 e.v) x := by
    unfold State.vxuZeros
    split
    · simp only [List.foldl_map]
    · rfl
  have marks := puts.marks (b.mread n k m.vd)
  rw [List.foldl_append, List.foldl_map] at marks
  rw [cleared, List.foldl_map, h.mread]
  refine marks.congr fun j => ?_
  have bit (x : Bool) : (b2n x).testBit 0 = x := by cases x <;> rfl
  by_cases hj : j < (b.case n k).vlen.toNat <;> by_cases hon : b.vxuOn n k m j = true <;> by_cases hz : m.mz = true <;>
    simp only [State.vxuSel, hj, hon, hz, if_true, if_false, Option.map_some, Option.map_none, bit, Nat.zero_testBit, Bool.false_eq_true]

/-- A mask operation on one bit. -/
def maskBit (o : Nat) (x y : Bool) : Bool :=
  if o = 0x28 then x && y else if o = 0x29 then x || y else if o = 0x2A then x != y else x && !y

theorem Noted.mask : ∃ val, Flies s n k 1 [] (some (m.vd, val)) (s.vxuMask n k m) ∧
    Marks val (b.mread n k m.vd) fun j => if j < (b.case n k).vlen.toNat then
      some (maskBit m.opc ((b.mread n k m.va).getLsbD j) ((b.mread n k m.vb).getLsbD j)) else none := by
  refine ⟨_, State.vxuStart_flies s n k 1 [] _ _ false, fun j hj => ?_⟩
  rw [h.mread, h.mread, h.mread, h.case, BitVec.getLsbD_ofNat, decide_eq_true hj, Bool.true_and, testBit_setBitsOf, Nat.zero_add, Nat.sub_zero]
  have ones : (2 ^ 256 - 1).testBit j = true := by rw [Nat.testBit_two_pow_sub_one, decide_eq_true hj]
  by_cases hl : j < (b.case n k).vlen.toNat
  · simp only [hl, Nat.zero_le, and_self, if_true, testBit_bitsOf, decide_true, Bool.true_and, Nat.zero_add]
    split
    · next e => simp only [e, maskBit, if_true, Nat.testBit_and]; rfl
    · next e => simp only [e, maskBit, Nat.testBit_or]; rfl
    · next e => simp only [e, maskBit, Nat.testBit_xor]; rfl
    · next h1 h2 h3 => simp only [maskBit, if_neg h1, if_neg h2, if_neg h3, Nat.testBit_and, Nat.testBit_xor, ones, Bool.xor_true]; rfl
  · simp only [hl, and_false, if_false]
    rfl

end
end Sys2Proof.Machine

end

section
/-! PROOF. Vector operations, element by element. -/

set_option Elab.async false

namespace Sys2Proof.Machine

/-! ### A trigger of the vector unit (R365) -/

theorem isControl_vxu {sock : Nat} (h : 0x190 ≤ sock) (h' : sock ≤ 0x197) : isControl sock = false := by
  obtain ⟨i, rfl⟩ : ∃ i, sock = 0x190 + i := ⟨sock - 0x190, by omega⟩
  have hi : i ≤ 7 := by omega
  interval_cases i <;> decide

theorem sockOf_vxu {sock : Nat} (h : 0x190 ≤ sock) (h' : sock ≤ 0x197) : sockOf sock = some (.trig .vxu) := by
  obtain ⟨i, rfl⟩ : ∃ i, sock = 0x190 + i := ⟨sock - 0x190, by omega⟩
  have hi : i ≤ 7 := by omega
  interval_cases i <;> decide

/-- A trigger of the unit is fired by `trigVxu` where the brake path is quiet. -/
theorem fire_vxu {sock : Nat} (h : 0x190 ≤ sock) (h' : sock ≤ 0x197) {b : State} (hb : b.braked = false) (n k len : Nat) (v : Word) :
    b.fire n k len sock v = trigVxu b n k sock v := by
  simp [State.fire, trigUnit, sockOf_vxu h h', hb]

theorem State.vxuFree_parts {b : State} {n k : Nat} (h : b.vxuFree n k = true) :
    b.noVector n k = false ∧ b.braked = false ∧ (b.core n).vxuLeft = 0 := by
  simp only [State.vxuFree, Bool.and_eq_true, Bool.not_eq_true', beq_iff_eq] at h
  exact ⟨h.1.1, h.1.2, h.2⟩

/-- The keeper has no vector registers. -/
theorem State.vector_ne_keeper {b : State} {n k : Nat} (h : b.noVector n k = false) : k ≠ 8 := by
  rintro rfl
  simp [State.noVector, State.whoIs] at h

section
variable {s s1 : State} {n k sock : Nat} {v : Word} (hr : s.ready n k = true) (h : 0x190 ≤ sock) (h' : sock ≤ 0x197)
  (hb : (s.arrivals n k).braked = false) (hv : (s.arrivals n k).noVector n k = false)
include hr h h' hb hv

/-- The word of a trigger that is done is past. -/
theorem issueMove_vxu (hf : trigVxu (s.arrivals n k) n k sock v = .done s1) :
    ∃ t, (.next (s.issueMove n sock v) : Out) = .next t ∧ Passed s1 n k t := by
  obtain ⟨t, ht, passed⟩ := State.issues_passed (s := s) (n := n) (k := k) (sock := sock) v s1 (by omega)
    fun hk => absurd hk (State.vector_ne_keeper hv)
  exact ⟨t, (issueMove_done hr (by omega) (sockOf_vxu h h') (.inl (isControl_vxu h h')) ((fire_vxu h h' hb n k 4 v).trans hf)).trans ht, passed⟩

theorem issueMove_vxuCalm (hcalm : s.calm n k = true) (hf : trigVxu (s.arrivals n k) n k sock v = .done s1) :
    ∃ t, (.next (s.issueMove n sock v) : Out) = .next t ∧ Issued s s1 n k t :=
  issueMove_issued hr hcalm (by omega) (by omega) (sockOf_vxu h h') (isControl_vxu h h') ((fire_vxu h h' hb n k 4 v).trans hf)
end

theorem trigVxu_op {b : State} {n k : Nat} (hv : b.noVector n k = false) (v : Word) : trigVxu b n k 0x190 v = b.vxuOp n k v := by
  simp [trigVxu, hv]

/-- A vector operation whose checks pass goes into flight. -/
theorem State.vxuOp_flies {b : State} {n k w : Nat} {v : Word} (hm : isMaskOp (vcmdOf v).opc = false) (hleft : (b.core n).vxuLeft = 0)
    (hl : vLegal (vcmdOf v) (b.case n k).vlen.toNat = some w) (hbusy : b.vecBusy n k (vRegs (vcmdOf v)) = false)
    (hslot : b.slotFault n k (vOperands (vcmdOf v) (vcmdOf v).fmt.width (b.case n k).vlen.toNat (b.vxuAct n k (vcmdOf v))) = none) :
    b.vxuOp n k v = .done ((b.chain n k (vcmdOf v).reads (vcmdOf v).readsM).vxuFly n k (vcmdOf v) w) := by
  simp only [State.vxuOp, hl, hleft, gt_iff_lt, Nat.lt_irrefl, if_false, hbusy, hm, hslot, Bool.false_eq_true]

theorem State.vxuOp_mask {b : State} {n k w : Nat} {v : Word} (hm : isMaskOp (vcmdOf v).opc = true) (hleft : (b.core n).vxuLeft = 0)
    (hl : vLegal (vcmdOf v) (b.case n k).vlen.toNat = some w) (hbusy : b.vecBusy n k (vRegs (vcmdOf v)) = false) :
    b.vxuOp n k v = .done ((b.chain n k [] (vcmdOf v).readsM).vxuMask n k (vcmdOf v)) := by
  simp only [State.vxuOp, hl, hleft, gt_iff_lt, Nat.lt_irrefl, if_false, hbusy, hm, Bool.false_eq_true, if_true]

/-! ### What is in flight when the word is past -/

section
variable {s c s1 t : State} {n k occ : Nat} {outs : List (Nat × Nat × List Elem)} {mreg : Option (Nat × BitVec 256)}
  (noted : Noted (s.arrivals n k) c n) (flies : Flies c n k occ outs mreg s1) (passed : Passed s1 n k t)
include flies

theorem Flies.case (m j : Nat) (hm : m = n) : s1.case m j = c.case m j := by
  subst hm
  have cases_ := congrArg Core.cases flies.rest
  simp only [State.case]
  rw [show (s1.core m).cases = (c.core m).cases from cases_]

include noted passed

theorem Flies.keeps : t.mem = s.mem ∧ (t.case n k).v = (s.reg n k).v ∧ (t.case n k).m = (s.reg n k).m ∧ (t.case n k).d = (s.reg n k).d := by
  have case : s1.case n k = s.reg n k := (flies.case n k rfl).trans (noted.case n k)
  rw [← case]
  refine ⟨?_, Casement.of_work (·.v) (fun _ => rfl) passed.case, Casement.of_work (·.m) (fun _ => rfl) passed.case,
    Casement.of_work (·.d) (fun _ => rfl) passed.case⟩
  rw [passed.mem, flies.mem, noted.mem, State.arrivals_mem]

theorem Flies.queued : ∃ q : VxuOp, (t.core n).queues ((s.arrivals n k).core n) q ∧ q.case = k ∧ q.mreg = mreg ∧
    List.Forall₂ (fun (x : Nat × BitVec 2048 × BitVec 32 × BitVec 32) o =>
      x.1 = o.1 ∧ x.2.1 = (((s.arrivals n k).vread n k o.1).1.put o.2.1 o.2.2).val) q.vregs outs := by
  obtain ⟨q, hq, hcase, hmreg, hregs⟩ := flies.op
  obtain ⟨hit, ops⟩ := noted.ops
  refine ⟨q, ⟨(c.core n).vxuOps, ?_, ?_⟩, hcase, hmreg, ?_⟩
  · exact (Core.of_works (·.vxuOps) (fun _ => rfl) (passed.core n)).trans hq
  · rw [ops, List.map_map]
    exact List.map_congr_left fun o _ => (o.noted_fields hit).2.2.2
  · simpa only [noted.vread] using hregs

theorem Flies.writes {vd w : Nat} {es : List Elem} {f : Nat → Option Nat} {out : Out} (ht : out = .next t) (ho : outs = [(vd, w, es)])
    (hm : mreg = none) (puts : Puts es w f) : s.vxuWrites n k out vd w f := by
  obtain ⟨q, hq, hcase, hmreg, hregs⟩ := flies.queued noted passed
  subst ho hm
  obtain ⟨mem, hv, hm, hd⟩ := flies.keeps noted passed
  cases hvr : q.vregs with
  | nil => rw [hvr] at hregs; cases hregs
  | cons x l =>
    rw [hvr] at hregs
    obtain ⟨⟨hx, hval⟩, hnil⟩ := List.forall₂_cons.1 hregs
    cases hnil
    obtain ⟨r, val, bad, res⟩ := x
    obtain rfl : r = vd := hx
    refine ⟨t, q, val, bad, res, ht, hq, hcase, hmreg, hvr, fun j hj => ?_, mem, hv, hm, hd⟩
    rw [show val = _ from hval]
    exact puts.value _ hj

theorem Flies.marks {md : Nat} {val : BitVec 256} {f : Nat → Option Bool} {out : Out} (ht : out = .next t) (ho : outs = [])
    (hm : mreg = some (md, val)) (marks : Marks val ((s.arrivals n k).mread n k md) f) : s.vxuMarks n k out md f := by
  obtain ⟨q, hq, hcase, hmreg, hregs⟩ := flies.queued noted passed
  subst ho hm
  cases hvr : q.vregs with
  | nil => exact ⟨t, q, val, ht, hq, hcase, hvr, hmreg, marks, flies.keeps noted passed⟩
  | cons x l => rw [hvr] at hregs; cases hregs
end

/-! ### Command words -/

theorem vcmdOf_opc (v : Word) {o : Nat} (ho : o < 64) : (vcmdOf (setFld v 0 6 o)).opc = o := fld_setFld_same v ho (by decide)

section
variable {s : State} {n k w : Nat} {v : Word} (hr : s.ready n k = true) (ht : (s.arrivals n k).vxuTakes n k (vcmdOf v) w)
include hr ht

/-- A vector operation that its conditions allow is past, and in flight. -/
theorem exec_vxuOp (hm : isMaskOp (vcmdOf v).opc = false) : ∃ t, (.next (s.issueMove n 0x190 v) : Out) = .next t ∧
    Passed (((s.arrivals n k).chain n k (vcmdOf v).reads (vcmdOf v).readsM).vxuFly n k (vcmdOf v) w) n k t := by
  obtain ⟨free, legal, busy, slot, -⟩ := ht
  obtain ⟨hv, hb, left⟩ := State.vxuFree_parts free
  exact issueMove_vxu hr (by decide) (by decide) hb hv ((trigVxu_op hv v).trans (State.vxuOp_flies hm left legal busy slot))

/-- One destination, by the group its operation belongs to. -/
theorem vxuWrites_group (hm : isMaskOp (vcmdOf v).opc = false) {g : State → Nat → State} {w' : Nat} {f : Nat → Option Nat}
    (hfly : ∀ u : State, ∃ occ, u.vxuFly n k (vcmdOf v) w = g u occ)
    (hg : ∀ u occ, Noted (s.arrivals n k) u n → ∃ es, Flies u n k occ [((vcmdOf v).vd, w', es)] none (g u occ) ∧ Puts es w' f) :
    s.vxuWrites n k (.next (s.issueMove n 0x190 v)) (vcmdOf v).vd w' f := by
  obtain ⟨t, hx, passed⟩ := exec_vxuOp hr ht hm
  have noted := State.chain_noted (s.arrivals n k) n k (vcmdOf v).reads (vcmdOf v).readsM
  obtain ⟨occ, fly⟩ := hfly ((s.arrivals n k).chain n k (vcmdOf v).reads (vcmdOf v).readsM)
  rw [fly] at passed
  obtain ⟨es, flies, puts⟩ := hg _ occ noted
  exact flies.writes noted passed hx rfl rfl puts

theorem vxuMarks_compare (hm : isMaskOp (vcmdOf v).opc = false) (hc : isCompare (vcmdOf v).opc = true) :
    s.vxuMarks n k (.next (s.issueMove n 0x190 v)) (vcmdOf v).vd fun j => if j < (s.reg n k).vlen.toNat then
      if (s.arrivals n k).vxuOn n k (vcmdOf v) j then some (vCompare (vcmdOf v).opc (vcmdOf v).fmt (vcmdOf v).u
        ((s.arrivals n k).vxuEl n k (vcmdOf v) (vcmdOf v).va j) ((s.arrivals n k).vxuB n k (vcmdOf v) j)).1
      else if (vcmdOf v).mz then some false else none else none := by
  obtain ⟨t, hx, passed⟩ := exec_vxuOp hr ht hm
  have noted := State.chain_noted (s.arrivals n k) n k (vcmdOf v).reads (vcmdOf v).readsM
  simp only [State.vxuFly, hc, if_true] at passed
  obtain ⟨val, flies, marks⟩ := noted.compare (k := k) (vcmdOf v) _
  exact flies.marks noted passed hx rfl rfl marks

end

/-- The mask operations. -/
theorem vxuMarks_mask {s : State} {n k : Nat} {v : Word} (hr : s.ready n k = true) (free : (s.arrivals n k).vxuFree n k = true)
    (hm : isMaskOp (vcmdOf v).opc = true) (hd : (vcmdOf v).vd < 4) (ha : (vcmdOf v).va < 4) (hb : (vcmdOf v).vb < 4) :
    s.vxuMarks n k (.next (s.issueMove n 0x190 v)) (vcmdOf v).vd fun j => if j < (s.reg n k).vlen.toNat then
      some (maskBit (vcmdOf v).opc (((s.arrivals n k).mread n k (vcmdOf v).va).getLsbD j) (((s.arrivals n k).mread n k (vcmdOf v).vb).getLsbD j))
      else none := by
  obtain ⟨hv, quiet, left⟩ := State.vxuFree_parts free
  have legal : vLegal (vcmdOf v) ((s.arrivals n k).case n k).vlen.toNat = some 0 := by
    simp [vLegal, hm, Nat.div_eq_of_lt hd, Nat.div_eq_of_lt ha, Nat.div_eq_of_lt hb]
  have busy : (s.arrivals n k).vecBusy n k (vRegs (vcmdOf v)) = false := by
    simp [State.vecBusy, vRegs, VCmd.reads, VCmd.writes, hm]
  obtain ⟨t, hx, passed⟩ := issueMove_vxu hr (by decide) (by decide) quiet hv ((trigVxu_op hv v).trans (State.vxuOp_mask hm left legal busy))
  have noted := State.chain_noted (s.arrivals n k) n k [] (vcmdOf v).readsM
  obtain ⟨val, flies, marks⟩ := noted.mask (k := k) (vcmdOf v)
  exact flies.marks noted passed hx rfl rfl marks

theorem Puts.modulo {es : List Elem} {w : Nat} {f g : Nat → Option Nat} (h : Puts es w f)
    (hfg : ∀ j, (f j).map (· % 2 ^ w) = (g j).map (· % 2 ^ w)) : Puts es w g := by
  intro j
  obtain ⟨some_, none_⟩ := h j
  have same := hfg j
  cases hf : f j with
  | none =>
    have none' : g j = none := by rw [hf] at same; simpa using same.symm
    exact ⟨fun x hx => absurd (none'.symm.trans hx) (Option.some_ne_none x).symm, fun _ => none_ hf⟩
  | some y =>
    refine ⟨fun x hx => ?_, fun hx => absurd same (by rw [hf, hx]; exact Option.some_ne_none _)⟩
    rw [hf, hx] at same
    have eq : y % 2 ^ w = x % 2 ^ w := by simpa using same
    exact ⟨(some_ y hf).1, fun e he hj => ((some_ y hf).2 e he hj).trans eq⟩

/-! ### Element-wise operations of integers -/

theorem vElem_int (o w : Nat) (g u : Bool) (rm a b c : Nat) (ho : o ≠ 0x0A) :
    (vElem o (.int w g) u rm a b c).code = vInt o w (g && !(u && decide (16 ≤ w))) a b := by
  have abs : (o == 0x0A) = false := by simpa using ho
  simp [vElem, withU, abs]

/-- The operations of Table 07-3 that go element by element. -/
def elementwise : List Nat := [0x00, 0x01, 0x02, 0x03, 0x04, 0x05, 0x06, 0x07, 0x08, 0x09, 0x0A, 0x0B, 0x0C, 0x10, 0x11, 0x12, 0x13, 0x14, 0x15]

theorem elementwise_group : ∀ o ∈ elementwise, o < 64 ∧ isMaskOp o = false ∧ isCompare o = false ∧ isPair o = false ∧ isPermute o = false ∧
    (o == 0x38 || o == 0x3F) = false ∧ (o == 0x30) = false := by decide

theorem vxuWrites_each {s : State} {n k w o : Nat} {v : Word} (hr : s.ready n k = true)
    (ht : (s.arrivals n k).vxuTakes n k (vcmdOf (setFld v 0 6 o)) w) (ho : o ∈ elementwise) :
    (vcmdOf (setFld v 0 6 o)).opc = o ∧ s.vxuWrites n k (.next (s.issueMove n 0x190 (setFld v 0 6 o)))
      (vcmdOf (setFld v 0 6 o)).vd (vcmdOf (setFld v 0 6 o)).fmt.width ((s.arrivals n k).vxuSel n k (vcmdOf (setFld v 0 6 o)) fun j =>
        (vElem o (vcmdOf (setFld v 0 6 o)).fmt (vcmdOf (setFld v 0 6 o)).u (s.reg n k).rm
          ((s.arrivals n k).vxuEl n k (vcmdOf (setFld v 0 6 o)) (vcmdOf (setFld v 0 6 o)).va j)
          ((s.arrivals n k).vxuB n k (vcmdOf (setFld v 0 6 o)) j)
          ((s.arrivals n k).vxuEl n k (vcmdOf (setFld v 0 6 o)) (vcmdOf (setFld v 0 6 o)).vc j)).code) := by
  obtain ⟨small, hm, hc, hp, hperm, hmake, hcvt⟩ := elementwise_group o ho
  have opc := vcmdOf_opc v small
  refine ⟨opc, vxuWrites_group (w' := (vcmdOf (setFld v 0 6 o)).fmt.width) hr ht (by rw [opc]; exact hm)
    (g := fun u occ => u.vxuEach n k (vcmdOf (setFld v 0 6 o)) occ) (fun u => ?_) fun u occ noted => ?_⟩
  · refine ⟨vOccupancy (vcmdOf (setFld v 0 6 o)) (u.case n k).vlen.toNat w, ?_⟩
    simp only [State.vxuFly, opc, hc, hp, hperm, hmake, hcvt, Bool.false_eq_true, if_false]
  · have each := noted.each (k := k) (vcmdOf (setFld v 0 6 o)) occ
    rwa [opc] at each

end Sys2Proof.Machine

open Sys2Proof Sys2Proof.Machine

/-- Settles O30: the operation puts one result for each active element into its destination. -/
theorem vxuElementRows : Obligations.VxuElementRows := by
  refine ⟨fun core v s k w hr => ?_, fun w g u rm a b c hw ha hb => ?_⟩
  · intro n b len i o hio m takes
    have row : exec i s = .next (s.issueMove core.val 0x190 (setFld v 0 6 o)) ∧ o ∈ elementwise := by
      simp only [List.mem_cons, Prod.mk.injEq, List.not_mem_nil, or_false] at hio
      rcases hio with ⟨rfl, rfl⟩ | ⟨rfl, rfl⟩ | ⟨rfl, rfl⟩ | ⟨rfl, rfl⟩ | ⟨rfl, rfl⟩ | ⟨rfl, rfl⟩ | ⟨rfl, rfl⟩ | ⟨rfl, rfl⟩ | ⟨rfl, rfl⟩ | ⟨rfl, rfl⟩ | ⟨rfl, rfl⟩ | ⟨rfl, rfl⟩ | ⟨rfl, rfl⟩ | ⟨rfl, rfl⟩ | ⟨rfl, rfl⟩ | ⟨rfl, rfl⟩ | ⟨rfl, rfl⟩ | ⟨rfl, rfl⟩ | ⟨rfl, rfl⟩
      all_goals exact ⟨rfl, by decide⟩
    rw [row.1]
    exact vxuWrites_each hr takes row.2
  · have full : b % 2 ^ w = b := Nat.mod_eq_of_lt hb
    have each (o : Nat) (ho : o ≠ 0x0A) := vElem_int o w g u rm a b c ho
    refine ⟨each 0x00 (by decide), ?_, each 0x02 (by decide), each 0x08 (by decide), each 0x09 (by decide), ?_, each 0x0C (by decide),
      each 0x10 (by decide), each 0x11 (by decide), each 0x12 (by decide), (each 0x13 (by decide)).trans ?_, (each 0x14 (by decide)).trans ?_⟩
    · refine (congrArg (fun x => (x + b) % 2 ^ w) (each 0x01 (by decide))).trans ?_
      simp only [vInt, full]
      rw [Nat.mod_add_mod, Nat.sub_add_cancel (by omega), Nat.add_mod_right, Nat.mod_eq_of_lt ha]
    · refine (congrArg (fun x => (x + a) % 2 ^ w) (each 0x0B (by decide))).trans ?_
      simp only [vInt]
      rw [Nat.mod_add_mod, Nat.sub_add_cancel ha.le, Nat.mod_self]
    · rw [Nat.shiftLeft_eq]
      rfl
    · rw [Nat.shiftRight_eq_div_pow]
      rfl

end

section
/-! PROOF. Vector comparisons and mask operations. -/

set_option Elab.async false

namespace Sys2Proof.Machine

/-! ### Commands of the permuting, making and converting operations -/

section
variable {s : State} {n k w o : Nat} {v : Word} (hr : s.ready n k = true)
  (ht : (s.arrivals n k).vxuTakes n k (vcmdOf (setFld v 0 6 o)) w)
include hr ht

theorem vxuWrites_make (ho : o = 0x38 ∨ o = 0x3F) (f : Nat → Nat)
    (hf : ∀ j, f j = if o = 0x38 then ((s.reg n k).opnd_ 0x183).toNat else j) :
    s.vxuWrites n k (.next (s.issueMove n 0x190 (setFld v 0 6 o))) (vcmdOf (setFld v 0 6 o)).vd (vcmdOf (setFld v 0 6 o)).fmt.width
      ((s.arrivals n k).vxuSel n k (vcmdOf (setFld v 0 6 o)) f) := by
  have opc := vcmdOf_opc v (show o < 64 by omega)
  have group : isMaskOp o = false ∧ isCompare o = false ∧ isPair o = false ∧ isPermute o = false ∧ (o == 0x38 || o == 0x3F) = true := by
    rcases ho with rfl | rfl <;> decide
  obtain ⟨hm, hc, hp, hperm, hmake⟩ := group
  refine vxuWrites_group (w' := (vcmdOf (setFld v 0 6 o)).fmt.width) hr ht (by rw [opc]; exact hm)
    (g := fun u occ => u.vxuMake n k (vcmdOf (setFld v 0 6 o)) occ) (fun u => ?_) fun u occ noted => ?_
  · refine ⟨vOccupancy (vcmdOf (setFld v 0 6 o)) (u.case n k).vlen.toNat w, ?_⟩
    simp only [State.vxuFly, opc, hc, hp, hperm, hmake, Bool.false_eq_true, if_false, if_true]
  · obtain ⟨es, flies, puts⟩ := noted.make (k := k) (vcmdOf (setFld v 0 6 o)) occ
    refine ⟨es, flies, puts.modulo fun j => ?_⟩
    simp only [State.vxuSel, opc, beq_iff_eq, hf]
    split
    · split
      · exact congrArg some (Nat.mod_mod _ _)
      · rfl
    · rfl

theorem vxuWrites_permute (ho : o ∈ [0x39, 0x3A, 0x3B, 0x3D, 0x3E]) (f : Nat → Nat)
    (hf : ∀ j, (s.arrivals n k).vxuFrom n k (vcmdOf (setFld v 0 6 o)) j = f j) :
    s.vxuWrites n k (.next (s.issueMove n 0x190 (setFld v 0 6 o))) (vcmdOf (setFld v 0 6 o)).vd (vcmdOf (setFld v 0 6 o)).fmt.width
      ((s.arrivals n k).vxuSel n k (vcmdOf (setFld v 0 6 o)) f) := by
  have group : ∀ o ∈ [0x39, 0x3A, 0x3B, 0x3D, 0x3E], o < 64 ∧ isMaskOp o = false ∧ isCompare o = false ∧ isPair o = false ∧
    isPermute o = true ∧ o ≠ 0x3C := by decide
  obtain ⟨small, hm, hc, hp, hperm, hcomp⟩ := group o ho
  have opc := vcmdOf_opc v small
  refine vxuWrites_group (w' := (vcmdOf (setFld v 0 6 o)).fmt.width) hr ht (by rw [opc]; exact hm)
    (g := fun u occ => u.vxuPermute n k (vcmdOf (setFld v 0 6 o)) occ) (fun u => ?_) fun u occ noted => ?_
  · refine ⟨vOccupancy (vcmdOf (setFld v 0 6 o)) (u.case n k).vlen.toNat w, ?_⟩
    simp only [State.vxuFly, opc, hc, hp, hperm, Bool.false_eq_true, if_false, if_true]
  · rw [← funext hf]
    exact noted.permute (k := k) (vcmdOf (setFld v 0 6 o)) occ (by rw [opc]; exact hcomp)

theorem vxuWrites_compress (ho : o = 0x3C) (f : Nat → Nat) (hf : ∀ j, (s.arrivals n k).vxuFrom n k (vcmdOf (setFld v 0 6 o)) j = f j) :
    s.vxuWrites n k (.next (s.issueMove n 0x190 (setFld v 0 6 o))) (vcmdOf (setFld v 0 6 o)).vd (vcmdOf (setFld v 0 6 o)).fmt.width
      fun j => if j < (s.reg n k).vlen.toNat then some (f j) else none := by
  subst ho
  have opc := vcmdOf_opc v (show 0x3C < 64 by decide)
  refine vxuWrites_group (w' := (vcmdOf (setFld v 0 6 0x3C)).fmt.width) hr ht (by rw [opc]; decide)
    (g := fun u occ => u.vxuPermute n k (vcmdOf (setFld v 0 6 0x3C)) occ) (fun u => ?_) fun u occ noted => ?_
  · refine ⟨vOccupancy (vcmdOf (setFld v 0 6 0x3C)) (u.case n k).vlen.toNat w, ?_⟩
    simp only [State.vxuFly, opc]
    rfl
  · rw [← funext hf]
    exact noted.compress (k := k) (vcmdOf (setFld v 0 6 0x3C)) occ opc

theorem vxuWrites_cvt (ho : o = 0x30) {g : EFmt} (hg : vfmt (vcmdOf (setFld v 0 6 o)).df = some g) :
    s.vxuWrites n k (.next (s.issueMove n 0x190 (setFld v 0 6 o))) (vcmdOf (setFld v 0 6 o)).vd g.width
      ((s.arrivals n k).vxuSel n k (vcmdOf (setFld v 0 6 o)) fun j => (convert (withU (vcmdOf (setFld v 0 6 o)).u (vcmdOf (setFld v 0 6 o)).fmt)
        (withU (vcmdOf (setFld v 0 6 o)).u g) (s.reg n k).rm
        ((s.arrivals n k).vxuEl n k (vcmdOf (setFld v 0 6 o)) (vcmdOf (setFld v 0 6 o)).va j)).code) := by
  subst ho
  have opc := vcmdOf_opc v (show 0x30 < 64 by decide)
  refine vxuWrites_group (w' := g.width) hr ht (by rw [opc]; decide)
    (g := fun u occ => u.vxuCvt n k (vcmdOf (setFld v 0 6 0x30)) occ) (fun u => ?_) fun u occ noted => ?_
  · refine ⟨vOccupancy (vcmdOf (setFld v 0 6 0x30)) (u.case n k).vlen.toNat w, ?_⟩
    simp only [State.vxuFly, opc]
    rfl
  · have cvt := noted.cvt (k := k) (vcmdOf (setFld v 0 6 0x30)) occ
    rwa [hg] at cvt
end

end Sys2Proof.Machine

open Sys2Proof Sys2Proof.Machine

/-- Settles O32: each active element decides its bit; mask operations decide every bit below LEN. -/
theorem vxuMaskRows : Obligations.VxuMaskRows := by
  intro core v s k w hr n b len cmd
  refine ⟨fun i o hio takes => ?_, fun i o f hio free hd ha hb => ?_⟩
  · have row : exec i s = .next (s.issueMove core.val 0x190 (setFld v 0 6 o)) ∧ o < 64 ∧ isMaskOp o = false ∧ isCompare o = true := by
      simp only [List.mem_cons, Prod.mk.injEq, List.not_mem_nil, or_false] at hio
      rcases hio with ⟨rfl, rfl⟩ | ⟨rfl, rfl⟩ | ⟨rfl, rfl⟩ | ⟨rfl, rfl⟩ | ⟨rfl, rfl⟩
      all_goals exact ⟨rfl, by decide⟩
    obtain ⟨hx, small, hm, hc⟩ := row
    have opc := vcmdOf_opc v small
    have marks := vxuMarks_compare hr takes (by rw [opc]; exact hm) (by rw [opc]; exact hc)
    rw [opc] at marks
    rw [hx]
    exact marks
  · have row : exec i s = .next (s.issueMove core.val 0x190 (setFld v 0 6 o)) ∧ (o < 64 ∧ isMaskOp o = true) ∧ maskBit o = f := by
      simp only [List.mem_cons, Prod.mk.injEq, List.not_mem_nil, or_false] at hio
      rcases hio with ⟨rfl, rfl, rfl⟩ | ⟨rfl, rfl, rfl⟩ | ⟨rfl, rfl, rfl⟩ | ⟨rfl, rfl, rfl⟩
      all_goals exact ⟨rfl, by decide, rfl⟩
    obtain ⟨hx, ⟨small, hm⟩, rfl⟩ := row
    have opc := vcmdOf_opc v small
    have marks := vxuMarks_mask hr free (by rw [opc]; exact hm) hd ha hb
    rw [opc] at marks
    rw [hx]
    exact marks

end

section
/-! PROOF. Vector moves and ports. -/

set_option Elab.async false

namespace Sys2Proof.Machine

/-! ### What the checks of a command word say -/

/-- A legal command word that is no mask operation: its formats, and the width it counts. -/
theorem vLegal_parts {m : VCmd} {len w : Nat} (hm : isMaskOp m.opc = false) (h : vLegal m len = some w) :
    ∃ f g, vfmt m.ef = some f ∧ vFormatOk m.opc f = true ∧ (if m.opc == 0x30 then vfmt m.df = some g else g = f) ∧
      w = max f.width g.width ∧ len * w ≤ 2048 ∧ (isPair m.opc = true → m.vd ≠ m.vc) := by
  unfold vLegal at h
  rw [if_neg (by rw [hm]; decide)] at h
  cases hf : vfmt m.ef with
  | none => rw [hf] at h; cases h
  | some f =>
    simp only [hf] at h
    split at h
    · cases h
    next hok =>
    split at h
    · cases h
    split at h
    · cases h
    next hpair =>
    split at h
    · cases h
    split at h
    · cases h
    next g hg =>
    split at h
    · cases h
    next hlen =>
    refine ⟨f, g, rfl, by simpa using hok, ?_, (Option.some.inj h).symm, ?_, fun hp hd => hpair (by simp [hp, hd])⟩
    · split
      · next h30 =>
        rw [if_pos h30] at hg
        split at hg
        · cases hg
        · exact hg
      · next h30 => rw [if_neg h30] at hg; exact (Option.some.inj hg).symm
    · rw [← Option.some.inj h]; exact not_lt.1 hlen

theorem VCmd.fmt_of {m : VCmd} {f : EFmt} (h : vfmt m.ef = some f) : m.fmt = f := by simp [VCmd.fmt, h]

/-- The formats of vector elements (R161). -/
def vformats : List (Nat × EFmt) :=
  [(0, .flt .fp64), (1, .flt .fp32), (2, .flt .w16), (3, .flt .w8), (4, .flt .w8x), (7, .int 8 true), (8, .int 8 false),
    (9, .int 16 true), (10, .int 32 true), (11, .int 64 true)]

theorem mem_vformats {e : Nat} {f : EFmt} (h : vfmt e = some f) : (e, f) ∈ vformats := by
  rcases Nat.lt_or_ge e 12 with he | he
  · interval_cases e <;> (cases h <;> decide)
  · obtain ⟨i, rfl⟩ : ∃ i, e = i + 12 := ⟨e - 12, by omega⟩
    have off : (i + 12 == 5 || i + 12 == 6) = false := by
      rw [Bool.or_eq_false_iff, beq_eq_false_iff_ne, beq_eq_false_iff_ne]; omega
    rw [vfmt, off] at h
    cases h

theorem vformats_width : ∀ p ∈ vformats, 8 ≤ p.2.width ∧ p.2.width ≤ 64 ∧ 64 % p.2.width = 0 := by decide

/-- A pair operation works on FP64 or FP32. -/
theorem pair_fmt {m : VCmd} {f : EFmt} (hp : isPair m.opc = true) (hf : vfmt m.ef = some f) (hok : vFormatOk m.opc f = true) :
    f = .flt (if m.ef = 1 then .fp32 else .fp64) := by
  have opc : m.opc = 0x18 ∨ m.opc = 0x19 := by simpa [isPair] using hp
  have each : ∀ o ∈ [0x18, 0x19], ∀ p ∈ vformats, vFormatOk o p.2 = true → p.2 = .flt (if p.1 = 1 then .fp32 else .fp64) := by decide
  exact each m.opc (by simpa using opc) _ (mem_vformats hf) hok

/-! ### Pairs (R150) -/

theorem vxuTwo_written {s : State} {n k w o : Nat} {v : Word} (hr : s.ready n k = true) (ho : o = 0x18 ∨ o = 0x19)
    (ht : (s.arrivals n k).vxuTakes n k (vcmdOf (setFld v 0 6 o)) w) :
    let m := vcmdOf (setFld v 0 6 o)
    let g : FFmt := if m.ef = 1 then .fp32 else .fp64
    let two := fun (j : Nat) => if o = 0x18 then twoSum g ((s.arrivals n k).vxuEl n k m m.va j) ((s.arrivals n k).vxuB n k m j)
      else twoProd g ((s.arrivals n k).vxuEl n k m m.va j) ((s.arrivals n k).vxuB n k m j)
    ∃ t q h hb hr l lb lr, (.next (s.issueMove n 0x190 (setFld v 0 6 o)) : Out) = .next t ∧ (t.core n).queues ((s.arrivals n k).core n) q ∧
      q.case = k ∧ q.vregs = [(m.vd, h, hb, hr), (m.vc, l, lb, lr)] ∧
      ∀ j, j < (s.reg n k).vlen.toNat → (s.arrivals n k).vxuOn n k m j = true →
        elemOf h.toNat g.width j = (two j).1.code % 2 ^ g.width ∧ elemOf l.toNat g.width j = (two j).2 % 2 ^ g.width := by
  intro m g two
  have opc : m.opc = o := vcmdOf_opc v (show o < 64 by omega)
  obtain ⟨hm, hc, hp⟩ : isMaskOp o = false ∧ isCompare o = false ∧ isPair o = true := by rcases ho with rfl | rfl <;> decide
  have hm' : isMaskOp m.opc = false := by rw [opc]; exact hm
  obtain ⟨t, hx, passed⟩ := exec_vxuOp hr ht hm'
  obtain ⟨-, legal, -⟩ := ht
  obtain ⟨f, f', hf, hok, hg, hw, hlen, -⟩ := vLegal_parts hm' legal
  have fmt : m.fmt = .flt g := (VCmd.fmt_of hf).trans (pair_fmt (by rw [opc]; exact hp) hf hok)
  have width : m.fmt.width = g.width := by rw [fmt]; rfl
  have pairFmt : m.pairFmt = g := by
    simp only [VCmd.pairFmt, fmt, g]
    split <;> split <;> simp_all
  have noted := State.chain_noted (s.arrivals n k) n k m.reads m.readsM
  have fly : ((s.arrivals n k).chain n k m.reads m.readsM).vxuFly n k m w = ((s.arrivals n k).chain n k m.reads m.readsM).vxuPair n k m
      (vOccupancy m (((s.arrivals n k).chain n k m.reads m.readsM).case n k).vlen.toNat w) := by
    simp only [State.vxuFly, opc, hc, hp, Bool.false_eq_true, if_false, if_true]
  change Passed (((s.arrivals n k).chain n k m.reads m.readsM).vxuFly n k m w) n k t at passed
  rw [fly] at passed
  obtain ⟨hs, ls, flies, puth, putl⟩ := noted.pair (k := k) m _
  obtain ⟨q, hq, hcase, -, hregs⟩ := flies.queued noted passed
  obtain ⟨⟨r1, h, hb, hr⟩, rest, ⟨hd, hval⟩, tail, hregs⟩ := List.forall₂_cons_right_iff.1 hregs
  obtain ⟨⟨r2, l, lb, lr⟩, rest', ⟨hd', lval⟩, tail', rfl⟩ := List.forall₂_cons_right_iff.1 tail
  cases tail'
  obtain rfl : r1 = m.vd := hd
  obtain rfl : r2 = m.vc := hd'
  refine ⟨t, q, h, hb, hr, l, lb, lr, hx, hq, hcase, hregs, fun j hj hon => ?_⟩
  have below : j < 2048 / m.fmt.width := by
    rw [VCmd.fmt_of hf] at width ⊢
    have positive : 8 ≤ f.width := (vformats_width _ (mem_vformats hf)).1
    exact (Nat.le_div_iff_mul_le (by omega)).2 ((Nat.mul_le_mul hj (hw ▸ Nat.le_max_left _ _)).trans hlen)
  rw [← width]
  have selects (F : Nat → Nat) : (s.arrivals n k).vxuSel n k m F j = some (F j) := by
    simp only [State.vxuSel, hon, if_true]
    exact if_pos hj
  have high := puth.value ((s.arrivals n k).vread n k m.vd).1 below
  have low := putl.value ((s.arrivals n k).vread n k m.vc).1 below
  rw [selects] at high low
  rw [show h = _ from hval, show l = _ from lval, high, low]
  refine ⟨?_, ?_⟩ <;> simp only [State.vxuTwo, pairFmt, opc, beq_iff_eq, two]

/-! ### Element and mask ports (Table 07-5) -/

theorem Noted.refl (s : State) (n : Nat) : Noted s s n :=
  ⟨⟨fun _ => false, (List.map_id' _).symm⟩, rfl, fun _ _ => rfl, rfl⟩

/-- A result is due on the scalar port of the unit, the datapath occupied for so many cycles. -/
structure Shows (s : State) (n k occ : Nat) (p : Pending) (t : State) : Prop where
  pend : (t.case n k).pend = (s.case n k).pend ++ [{ p with due := (s.case n k).icount + p.due }]
  left : (t.core n).vxuLeft = occ
  ops : ∃ hit, (t.core n).vxuOps = (s.core n).vxuOps.map (VxuOp.noted hit)
  rest : { t.case n k with pend := [], dirty := 0 } = { s.case n k with pend := [], dirty := 0 }
  mem : t.mem = s.mem

theorem Noted.shows {b c : State} {n k occ : Nat} (h : Noted b c n) (p : Pending) :
    Shows b n k occ p ((c.onCore n fun x => { x with vxuLeft := occ }).onCase n k fun z => z.addPending p) := by
  have case : (c.onCore n fun x => { x with vxuLeft := occ }).case n k = b.case n k := by
    rw [← h.case, State.case, State.core_onCore_keeps (·.cases) (by intro; rfl)]
    rfl
  obtain ⟨hit, ops⟩ := h.ops
  refine ⟨?_, ?_, ⟨hit, ?_⟩, ?_, h.mem⟩
  · rw [case_onCase, if_pos ⟨rfl, rfl⟩, case]; rfl
  · rw [State.onCase, State.setCase, State.core_onCore_keeps (·.vxuLeft) (by intro; rfl), core_onCore, if_pos rfl]
  · rw [State.onCase, State.setCase, State.core_onCore_keeps (·.vxuOps) (by intro; rfl), core_onCore, if_pos rfl]
    exact ops
  · rw [case_onCase, if_pos ⟨rfl, rfl⟩, case]; rfl

theorem State.vxuGet_shows {b : State} {n k w i r : Nat} {v : Word} (hr : v.toNat % 16 = r) (hi : v.toNat / 16 % 256 = i)
    (hw : 8 * 2 ^ (v.toNat / 2 ^ 12 % 4) = w) (hleft : (b.core n).vxuLeft = 0) (hin : i * w < 2048) (hbusy : b.vecBusy n k [r] = false)
    (hslot : b.slotFault n k [(r, i * w / 64)] = none) :
    ∃ (t : State) (p : Pending), b.vxuGet n k v = .done t ∧ Shows b n k 1 p t ∧ p.port = .vxuSres ∧ p.due = 3 ∧ p.await = .ready ∧
      p.data.val = if v.getLsbD 14 then (BitVec.ofNat w (elemOf (b.vread n k r).1.val.toNat w i)).signExtend 64
        else BitVec.ofNat 64 (elemOf (b.vread n k r).1.val.toNat w i) := by
  have f0 : fld v 0 4 = r := by rw [fld_eq_div_mod, ← hr]; simp
  have f4 : fld v 4 8 = i := (fld_eq_div_mod v 4 8).trans hi
  have f12 : 8 * 2 ^ fld v 12 2 = w := (congrArg (8 * 2 ^ ·) (fld_eq_div_mod v 12 2)).trans hw
  unfold State.vxuGet
  simp only [f0, f4, f12]
  rw [if_neg (not_le.2 hin), hleft, if_neg (by decide), hbusy, if_neg (by decide), hslot]
  refine ⟨_, _, rfl, (State.chain_noted b n k [r] []).shows _, rfl, rfl, rfl, ?_⟩
  have lt := Nat.mod_eq_of_lt (elemOf_lt (b.vread n k r).1.val.toNat w i)
  have signed := arrived_val (elemOf (b.vread n k r).1.val.toNat w i) w true
  rw [lt, if_pos rfl, if_pos rfl] at signed
  simp only [bitAt, signed]

theorem State.vxuMrd_shows {b : State} {n k : Nat} {v : Word} (hleft : (b.core n).vxuLeft = 0) :
    ∃ (t : State) (p : Pending), b.vxuMrd n k v = .done t ∧ Shows b n k 1 p t ∧ p.port = .vxuSres ∧ p.due = 3 ∧ p.await = .ready ∧
      p.data.val = (b.mread n k (v.toNat % 4)).extractLsb' (64 * (v.toNat / 4 % 4)) 64 := by
  have f0 : fld v 0 2 = v.toNat % 4 := by rw [fld_eq_div_mod]; simp
  have f2 : fld v 2 2 = v.toNat / 4 % 4 := fld_eq_div_mod v 2 2
  unfold State.vxuMrd
  simp only [f0, f2]
  rw [hleft, if_neg (by decide)]
  refine ⟨_, { port := .vxuSres, due := 3, id := 0, data := { val := _ } }, rfl,
    (State.chain_noted b n k [] [v.toNat % 4]).shows _, rfl, rfl, rfl, ?_⟩
  apply BitVec.eq_of_getLsbD_eq
  intro i hi
  rw [BitVec.getLsbD_extractLsb', decide_eq_true hi, Bool.true_and, BitVec.getLsbD_ofNat, decide_eq_true hi, Bool.true_and, testBit_elemOf,
    decide_eq_true hi, Bool.true_and]
  rfl

theorem State.vxuPut_flies {b : State} {n k : Nat} {v : Word} (hleft : (b.core n).vxuLeft = 0)
    (hi : v.toNat / 16 % 256 * (8 * 2 ^ (v.toNat / 2 ^ 12 % 4)) < 2048) (hbusy : b.vecBusy n k [v.toNat % 16] = false) :
    ∃ t es, b.vxuPut n k v = .done t ∧ Flies b n k 1 [(v.toNat % 16, 8 * 2 ^ (v.toNat / 2 ^ 12 % 4), es)] none t ∧
      Puts es (8 * 2 ^ (v.toNat / 2 ^ 12 % 4)) fun j => if j = v.toNat / 16 % 256 then some ((b.case n k).opnd_ 0x183).toNat else none := by
  have f0 : fld v 0 4 = v.toNat % 16 := by rw [fld_eq_div_mod]; simp
  have f4 : fld v 4 8 = v.toNat / 16 % 256 := fld_eq_div_mod v 4 8
  have f12 : fld v 12 2 = v.toNat / 2 ^ 12 % 4 := fld_eq_div_mod v 12 2
  unfold State.vxuPut
  simp only [f0, f4, f12]
  generalize 8 * 2 ^ (v.toNat / 2 ^ 12 % 4) = w at *
  rw [if_neg (not_le.2 hi), hleft, if_neg (by decide), hbusy, if_neg (by decide)]
  refine ⟨_, _, rfl, State.vxuStart_flies b n k 1 _ none _ false, ?_⟩
  refine (Puts.of_map [v.toNat / 16 % 256] w (fun i => ({ i := i, v := ((b.case n k).opnd_ 0x183).toNat % 2 ^ w } : Elem))
    fun _ => rfl).modulo fun j => ?_
  simp only [List.mem_singleton]
  split
  · exact congrArg some (Nat.mod_mod _ _)
  · rfl

theorem State.vxuMwr_flies {b : State} {n k : Nat} {v : Word} (hleft : (b.core n).vxuLeft = 0) :
    ∃ t val, b.vxuMwr n k v = .done t ∧ Flies b n k 1 [] (some (v.toNat % 4, val)) t ∧
      Marks val (b.mread n k (v.toNat % 4)) fun j => if 64 * (v.toNat / 4 % 4) ≤ j ∧ j < 64 * (v.toNat / 4 % 4) + 64
        then some (((b.case n k).opnd_ 0x183).toNat.testBit (j - 64 * (v.toNat / 4 % 4))) else none := by
  have f0 : fld v 0 2 = v.toNat % 4 := by rw [fld_eq_div_mod]; simp
  have f2 : fld v 2 2 = v.toNat / 4 % 4 := fld_eq_div_mod v 2 2
  unfold State.vxuMwr
  simp only [f0, f2]
  rw [hleft, if_neg (by decide)]
  refine ⟨_, _, rfl, State.vxuStart_flies b n k 1 [] _ _ false, fun j hj => ?_⟩
  rw [BitVec.getLsbD_ofNat, decide_eq_true hj, Bool.true_and, testBit_setBitsOf]
  beta_reduce
  split <;> rfl

theorem trigVxu_ports {b : State} {n k : Nat} (hv : b.noVector n k = false) (v : Word) : trigVxu b n k 0x194 v = b.vxuGet n k v ∧
    trigVxu b n k 0x195 v = b.vxuPut n k v ∧ trigVxu b n k 0x196 v = b.vxuMrd n k v ∧ trigVxu b n k 0x197 v = b.vxuMwr n k v := by
  simp [trigVxu, hv]

theorem vxu_illegal {b : State} {n k : Nat} {v : Word} (hi : 2048 ≤ v.toNat / 16 % 256 * (8 * 2 ^ (v.toNat / 2 ^ 12 % 4))) :
    b.vxuGet n k v = .fault none fltIllegal ∧ b.vxuPut n k v = .fault none fltIllegal := by
  have f4 : fld v 4 8 = v.toNat / 16 % 256 := fld_eq_div_mod v 4 8
  have f12 : fld v 12 2 = v.toNat / 2 ^ 12 % 4 := fld_eq_div_mod v 12 2
  have past : fld v 4 8 * (8 * 2 ^ fld v 12 2) ≥ 2048 := by rw [f4, f12]; exact hi
  exact ⟨if_pos past, if_pos past⟩

/-- The word of a port read is past: its result is due. -/
theorem Shows.passed {s s1 t : State} {n k occ : Nat} {p : Pending} (shows_ : Shows (s.arrivals n k) n k occ p s1) (passed : Passed s1 n k t) :
    (∃ q : Pending, (t.case n k).pend = (s.reg n k).pend ++ [q] ∧ q.port = p.port ∧ q.due = (s.reg n k).icount + p.due ∧ q.await = p.await ∧
      q.data = p.data ∧ q.contrib = p.contrib) ∧ (t.core n).vxuLeft = occ ∧ t.mem = s.mem :=
  ⟨⟨_, (Casement.of_work (·.pend) (fun _ => rfl) passed.case).trans shows_.pend, rfl, rfl, rfl, rfl, rfl⟩,
    (Core.of_works (·.vxuLeft) (fun _ => rfl) (passed.core n)).trans shows_.left,
    passed.mem.trans (shows_.mem.trans (State.arrivals_mem s n k))⟩

/-! ### Where the elements of a permutation come from -/

section
variable {b : State} {n k : Nat} {m : VCmd}

theorem vxuFrom_slideup (h : m.opc = 0x39) (j : Nat) : b.vxuFrom n k m j = if ((b.case n k).opnd_ 0x183).toNat % 512 ≤ j
    then b.vxuEl n k m m.va (j - ((b.case n k).opnd_ 0x183).toNat % 512) else 0 := by
  by_cases hj : ((b.case n k).opnd_ 0x183).toNat % 512 ≤ j <;> simp [State.vxuFrom, h, permSource, hj]

theorem vxuFrom_slidedn (h : m.opc = 0x3A) (j : Nat) : b.vxuFrom n k m j =
    if j + ((b.case n k).opnd_ 0x183).toNat % 512 < (b.case n k).vlen.toNat
    then b.vxuEl n k m m.va (j + ((b.case n k).opnd_ 0x183).toNat % 512) else 0 := by
  by_cases hj : j + ((b.case n k).opnd_ 0x183).toNat % 512 < (b.case n k).vlen.toNat <;> simp [State.vxuFrom, h, permSource, hj]

theorem vxuFrom_perm (h : m.opc = 0x3B) (j : Nat) : b.vxuFrom n k m j = if b.vxuEl n k m m.vb j < (b.case n k).vlen.toNat
    then b.vxuEl n k m m.va (b.vxuEl n k m m.vb j) else 0 := by
  by_cases hj : b.vxuEl n k m m.vb j < (b.case n k).vlen.toNat <;> simp [State.vxuFrom, h, permSource, hj]

theorem vxuFrom_compress (h : m.opc = 0x3C) (j : Nat) : b.vxuFrom n k m j =
    ((b.vxuAct n k m)[j]?).elim 0 (b.vxuEl n k m m.va) := by
  simp only [State.vxuFrom, h, permSource]
  cases (b.vxuAct n k m)[j]? <;> rfl

theorem vxuFrom_zip (h : m.opc = 0x3D) (j : Nat) : b.vxuFrom n k m j =
    if j % 2 = 0 then b.vxuEl n k m m.va (j / 2) else b.vxuEl n k m m.vb (j / 2) := by
  rcases Nat.mod_two_eq_zero_or_one j with hj | hj <;> simp [State.vxuFrom, h, permSource, hj]

theorem vxuFrom_unzip (h : m.opc = 0x3E) (j : Nat) : b.vxuFrom n k m j = if j < (b.case n k).vlen.toNat / 2
    then b.vxuEl n k m m.va (2 * j) else b.vxuEl n k m m.va (2 * (j - (b.case n k).vlen.toNat / 2) + 1) := by
  by_cases hj : j < (b.case n k).vlen.toNat / 2 <;> simp [State.vxuFrom, h, permSource, hj]
end

end Sys2Proof.Machine

open Sys2Proof Sys2Proof.Machine

/-- Settles O31: each operation of Table 07-3 by its group, and the element and mask ports. -/
theorem vxuMoveRows : Obligations.VxuMoveRows := by
  refine ⟨fun core v s k w hr => ?_, fun core v s k hr => ?_⟩
  · intro n b len s1 cmd sel va vb row
    have opc (o : Nat) (ho : o < 64) : (vcmdOf (setFld v 0 6 o)).opc = o := vcmdOf_opc v ho
    refine ⟨fun takes => ?_, fun takes => ?_, fun takes => ?_, fun takes => ?_, fun takes => ?_, fun takes => ?_, fun takes => ?_,
      fun takes => ?_, fun g hg takes => ?_, fun i o hio takes => ?_⟩
    · exact vxuWrites_make (o := 0x38) hr takes (.inl rfl) (fun _ => s1) fun j => (if_pos rfl).symm
    · exact vxuWrites_make (o := 0x3F) hr takes (.inr rfl) (fun j => j) fun j => (if_neg (by decide)).symm
    · exact vxuWrites_permute (o := 0x39) hr takes (by decide) _ fun j => vxuFrom_slideup (opc 0x39 (by decide)) j
    · exact vxuWrites_permute (o := 0x3A) hr takes (by decide) _ fun j => vxuFrom_slidedn (opc 0x3A (by decide)) j
    · exact vxuWrites_permute (o := 0x3B) hr takes (by decide) _ fun j => vxuFrom_perm (opc 0x3B (by decide)) j
    · refine vxuWrites_compress (o := 0x3C) hr takes rfl _ fun j => (vxuFrom_compress (opc 0x3C (by decide)) j).trans ?_
      change ((b.vxuAct n k (cmd 0x3C))[j]?).elim 0 (va 0x3C) = _
      cases (b.vxuAct n k (cmd 0x3C))[j]? <;> rfl
    · exact vxuWrites_permute (o := 0x3D) hr takes (by decide) _ fun j => vxuFrom_zip (opc 0x3D (by decide)) j
    · exact vxuWrites_permute (o := 0x3E) hr takes (by decide) _ fun j => vxuFrom_unzip (opc 0x3E (by decide)) j
    · exact vxuWrites_cvt (o := 0x30) hr takes rfl hg
    · have rows : exec i s = .next (s.issueMove core.val 0x190 (setFld v 0 6 o)) ∧ (o = 0x18 ∨ o = 0x19) := by
        simp only [List.mem_cons, Prod.mk.injEq, List.not_mem_nil, or_false] at hio
        rcases hio with ⟨rfl, rfl⟩ | ⟨rfl, rfl⟩
        all_goals exact ⟨rfl, by decide⟩
      rw [rows.1]
      exact vxuTwo_written hr rows.2 takes
  · intro n b w i r s1 x mj ch gives free
    obtain ⟨hv, hb, left⟩ := State.vxuFree_parts free
    obtain ⟨get, put, mrd, mwr⟩ := trigVxu_ports hv v
    refine ⟨fun hi hbusy hslot => ?_, fun hi => ?_, fun hi hbusy => ?_, ?_, ?_⟩
    · obtain ⟨t1, p, ht1, sh, port, due, await_, data⟩ := State.vxuGet_shows (w := w) (i := i) (r := r) rfl rfl rfl left hi hbusy hslot
      obtain ⟨t, hx, passed⟩ := issueMove_vxu (sock := 0x194) hr (by decide) (by decide) hb hv (get.trans ht1)
      obtain ⟨⟨q, pend, hport, hdue, hawait, hdata, -⟩, l, mem⟩ := sh.passed passed
      refine ⟨t, q, hx, pend, hport.trans port, ?_, hawait.trans await_, ?_, l, mem⟩
      · rw [hdue, due]
      · rw [hdata]; exact data
    · obtain ⟨g, p⟩ := vxu_illegal (b := b) (n := n) (k := k) hi
      exact ⟨issueMove_fault hr (by decide) (sockOf_vxu (by decide) (by decide)) (.inl (isControl_vxu (by decide) (by decide)))
          ((fire_vxu (sock := 0x194) (by decide) (by decide) hb n k 4 v).trans (get.trans g)),
        issueMove_fault hr (by decide) (sockOf_vxu (by decide) (by decide)) (.inl (isControl_vxu (by decide) (by decide)))
          ((fire_vxu (sock := 0x195) (by decide) (by decide) hb n k 4 v).trans (put.trans p))⟩
    · obtain ⟨t1, es, ht1, flies, puts⟩ := State.vxuPut_flies left hi hbusy
      obtain ⟨t, hx, passed⟩ := issueMove_vxu (sock := 0x195) hr (by decide) (by decide) hb hv (put.trans ht1)
      exact flies.writes (Noted.refl _ _) passed hx rfl rfl puts
    · obtain ⟨t1, p, ht1, sh, port, due, await_, data⟩ := State.vxuMrd_shows (k := k) (v := v) left
      obtain ⟨t, hx, passed⟩ := issueMove_vxu (sock := 0x196) hr (by decide) (by decide) hb hv (mrd.trans ht1)
      obtain ⟨⟨q, pend, hport, hdue, hawait, hdata, -⟩, l, mem⟩ := sh.passed passed
      refine ⟨t, q, hx, pend, hport.trans port, ?_, hawait.trans await_, ?_, l, mem⟩
      · rw [hdue, due]
      · rw [hdata]; exact data
    · obtain ⟨t1, val, ht1, flies, marks⟩ := State.vxuMwr_flies (k := k) (v := v) left
      obtain ⟨t, hx, passed⟩ := issueMove_vxu (sock := 0x197) hr (by decide) (by decide) hb hv (mwr.trans ht1)
      exact flies.marks (Noted.refl _ _) passed hx rfl rfl marks

end
